-- ==== Sys2Proof/Machine/Regs.lean ====
section
/-! DEFINITION. The registers of the HZ-4800 (spec/00_scope.md R6, R11 and the register tables of every chapter):
their names, fields, access codes, reset values and addresses. Each constructor of `RegName` is one register of the
spec's tables; the units it repeats over (trunk n, lane n, Hall h ...) and its index inside a unit are the two numbers of
`RegId`. -/

namespace Sys2Proof.Machine

/-- Access codes of 00_scope.md, *Access codes* (R6). -/
inductive Access where
  | ro | rw | w1c | w1s | wo | rwl | rc
  deriving DecidableEq, Repr

/-- How a written value outside a field's range is stored, where the field's table row says so. -/
inductive Stored where
  | asIs                        -- R6: the value written
  | clamp (lo hi : Nat)         -- outside lo..hi: the nearer bound
  | atLeast (lo : Nat)          -- below lo: lo
  | atMost (hi : Nat)           -- above hi: hi
  | geAs (from_ to_ : Nat)      -- from_ and above: to_
  | eqAs (from_ to_ : Nat)      -- from_: to_
  deriving DecidableEq, Repr

/-- The unit kinds whose register blocks share one layout (01_architecture.md R27, R30 and the chapters named there). -/
inductive Blk where
  | hall
  | pwrsvc
  | newel
  | usher
  | quad
  | lane
  | trk
  | gal
  | eth
  | sp
  | map
  | prt
  | host
  | alcove
  | head
  | canvas
  | cclient
  | csurf
  | dram
  | tdwin
  | usb
  | up
  | dn
  | tc
  | pp
  | warden
  | bell
  | mon
  | monsvc
  deriving DecidableEq, Repr

/-- One field of a register: its bits, access code, how odd values are stored, and its reset value. -/
structure FieldDesc where
  hi : Nat
  lo : Nat
  acc : Access
  stored : Stored := .asIs
  deriving DecidableEq, Repr

/-- Where a register lies and what fields it has. `width` is 16, 32 or 64 bits (R11; 16 in the legacy window and the
indirection tables); instance `a * n2 + b` of a unit lies at `off + a * s1 + b * s2`. -/
structure RegDesc where
  blk : Blk
  off : Nat
  width : Nat
  n1 : Nat := 1
  s1 : Nat := 0
  n2 : Nat := 1
  s2 : Nat := 0
  fields : List FieldDesc
  deriving DecidableEq, Repr

/-- Every register of the spec's register tables. -/
inductive RegName where
  /-- `HALL_WDOG`, 02_self_timed_fabric.md R41. -/
  | hallWdog
  /-- `SVC_WDOG`, 02_self_timed_fabric.md R41. -/
  | svcWdog
  /-- `TB_NOW`, 02_self_timed_fabric.md R44. -/
  | tbNow
  /-- `TB_STATUS`, 02_self_timed_fabric.md R44. -/
  | tbStatus
  /-- `HALL_RISER_CTRL`, 02_self_timed_fabric.md R49. -/
  | hallRiserCtrl
  /-- `SVC_RISER_CTRL`, 02_self_timed_fabric.md R49. -/
  | svcRiserCtrl
  /-- `HALL_RISER_STATUS`, 02_self_timed_fabric.md R49. -/
  | hallRiserStatus
  /-- `SVC_RISER_STATUS`, 02_self_timed_fabric.md R49. -/
  | svcRiserStatus
  /-- `NEWEL_VCEIL`, 02_self_timed_fabric.md R50. -/
  | newelVceil
  /-- `HALL_MODE`, 02_self_timed_fabric.md R53. -/
  | hallMode
  /-- `HALL_LS_ORIGIN`, 02_self_timed_fabric.md R55. -/
  | hallLsOrigin
  /-- `HALL_LS_SEED`, 02_self_timed_fabric.md R55. -/
  | hallLsSeed
  /-- `CHIP_CATCHUP`, 02_self_timed_fabric.md R68. -/
  | chipCatchup
  /-- `USHER_CTL`, 03_waizefy_isa.md R101. -/
  | usherCtl
  /-- `USHER_STATUS`, 03_waizefy_isa.md R101. -/
  | usherStatus
  /-- `QUAD_PERSONALITY`, 04_lanes.md R107. -/
  | quadPersonality
  /-- `PCIEREF_CTRL`, 04_lanes.md R115. -/
  | pcierefCtrl
  /-- `QUAD_PLL`, 04_lanes.md R112. -/
  | quadPll
  /-- `QUAD_STATUS`, 04_lanes.md R109. -/
  | quadStatus
  /-- `LANE_CTRL`, 04_lanes.md R117. -/
  | laneCtrl
  /-- `LANE_TXEQ`, 04_lanes.md R122. -/
  | laneTxeq
  /-- `LANE_RXEQ`, 04_lanes.md R123. -/
  | laneRxeq
  /-- `LANE_STATUS`, 04_lanes.md R124. -/
  | laneStatus
  /-- `LANE_PRBS`, 04_lanes.md R130. -/
  | lanePrbs
  /-- `LANE_EYE_CTRL`, 04_lanes.md R133. -/
  | laneEyeCtrl
  /-- `LANE_EYE_STATUS`, 04_lanes.md R133. -/
  | laneEyeStatus
  /-- `LANE_CNT`, 04_lanes.md R131. -/
  | laneCnt
  /-- `LANE_SNAP`, 04_lanes.md R131. -/
  | laneSnap
  /-- `LANE_RXFFE`, 04_lanes.md R123. -/
  | laneRxffe
  /-- `TRK_LINK_CTRL`, 05_birique_link.md R156. -/
  | trkLinkCtrl
  /-- `TRK_LINK_STATUS`, 05_birique_link.md R156. -/
  | trkLinkStatus
  /-- `TRK_TX_SEQ`, 05_birique_link.md R139. -/
  | trkTxSeq
  /-- `TRK_RX_SEQ`, 05_birique_link.md R139. -/
  | trkRxSeq
  /-- `TRK_VC_CFG`, 05_birique_link.md R151. -/
  | trkVcCfg
  /-- `TRK_VC_CREDIT`, 05_birique_link.md R152. -/
  | trkVcCredit
  /-- `TRK_POS`, 05_birique_link.md R146. -/
  | trkPos
  /-- `TRK_CNT`, 05_birique_link.md R156. -/
  | trkCnt
  /-- `TRK_CFG`, 06_trunks_and_failover.md R159. -/
  | trkCfg
  /-- `LINK_ID`, 06_trunks_and_failover.md R160. -/
  | linkId
  /-- `LINK_ID_LOCK`, 06_trunks_and_failover.md R160. -/
  | linkIdLock
  /-- `TRK_TRAIN`, 06_trunks_and_failover.md R161. -/
  | trkTrain
  /-- `TRK_NONCE`, 06_trunks_and_failover.md R161. -/
  | trkNonce
  /-- `TRK_PEER_NONCE`, 06_trunks_and_failover.md R161. -/
  | trkPeerNonce
  /-- `TRK_PEER_ID`, 06_trunks_and_failover.md R161. -/
  | trkPeerId
  /-- `TRK_WIDTH`, 06_trunks_and_failover.md R165. -/
  | trkWidth
  /-- `TRK_PAIR`, 06_trunks_and_failover.md R172. -/
  | trkPair
  /-- `TRK_PAIR_STATUS`, 06_trunks_and_failover.md R172. -/
  | trkPairStatus
  /-- `TRK_PAIR_MAP`, 06_trunks_and_failover.md R173. -/
  | trkPairMap
  /-- `TRK_PAIR_CNT`, 06_trunks_and_failover.md R174. -/
  | trkPairCnt
  /-- `HALL_RED_C`, 07_tunnels_and_switching.md R200. -/
  | hallRedC
  /-- `HALL_RED_CTRL`, 07_tunnels_and_switching.md R200. -/
  | hallRedCtrl
  /-- `HALL_RED_LIVE`, 07_tunnels_and_switching.md R202. -/
  | hallRedLive
  /-- `HALL_QADM`, 07_tunnels_and_switching.md R190. -/
  | hallQadm
  /-- `GAL_CTRL`, 07_tunnels_and_switching.md R203. -/
  | galCtrl
  /-- `GAL_BASE`, 07_tunnels_and_switching.md R203. -/
  | galBase
  /-- `GAL_WR`, 07_tunnels_and_switching.md R203. -/
  | galWr
  /-- `GAL_RD`, 07_tunnels_and_switching.md R203. -/
  | galRd
  /-- `GAL_STATUS`, 07_tunnels_and_switching.md R203. -/
  | galStatus
  /-- `GAL_LOST`, 07_tunnels_and_switching.md R203. -/
  | galLost
  /-- `GAL_OVERWRITTEN`, 07_tunnels_and_switching.md R203. -/
  | galOverwritten
  /-- `ETH_CTRL`, 07_tunnels_and_switching.md R207. -/
  | ethCtrl
  /-- `ETH_TAG`, 07_tunnels_and_switching.md R207. -/
  | ethTag
  /-- `ETH_CNT`, 07_tunnels_and_switching.md R208. -/
  | ethCnt
  /-- `HALL_BUF_STATUS`, 07_tunnels_and_switching.md R189. -/
  | hallBufStatus
  /-- `HALL_BUF_CTRL`, 07_tunnels_and_switching.md R189. -/
  | hallBufCtrl
  /-- `HALL_DROP`, 07_tunnels_and_switching.md R192. -/
  | hallDrop
  /-- `HALL_EPOCH_STATUS`, 07_tunnels_and_switching.md R195. -/
  | hallEpochStatus
  /-- `HALL_EPOCH_DRAIN`, 07_tunnels_and_switching.md R195. -/
  | hallEpochDrain
  /-- `HALL_ORDER_BREAK`, 07_tunnels_and_switching.md R195. -/
  | hallOrderBreak
  /-- `HALL_IND`, 07_tunnels_and_switching.md R194. -/
  | hallInd
  /-- `HALL_IND_LIVE`, 07_tunnels_and_switching.md R194. -/
  | hallIndLive
  /-- `SP_CTRL`, 08_scheduling.md R216. -/
  | spCtrl
  /-- `SP_STATUS`, 08_scheduling.md R227. -/
  | spStatus
  /-- `SP_FO`, 08_scheduling.md R228. -/
  | spFo
  /-- `HALL_MTRLIVE_TC`, 08_scheduling.md R231. -/
  | hallMtrliveTc
  /-- `HALL_MTRLIVE_TP`, 08_scheduling.md R231. -/
  | hallMtrliveTp
  /-- `HALL_SAMPLE_CTRL`, 08_scheduling.md R232. -/
  | hallSampleCtrl
  /-- `HALL_QSAMP`, 08_scheduling.md R232. -/
  | hallQsamp
  /-- `HALL_PNODE`, 09_match_act_programs.md R236. -/
  | hallPnode
  /-- `HALL_PEDGE`, 09_match_act_programs.md R236. -/
  | hallPedge
  /-- `HALL_ENTRY`, 09_match_act_programs.md R234. -/
  | hallEntry
  /-- `HALL_TBL_MISS`, 09_match_act_programs.md R241. -/
  | hallTblMiss
  /-- `HALL_PNODE_LIVE`, 09_match_act_programs.md R236. -/
  | hallPnodeLive
  /-- `HALL_PEDGE_LIVE`, 09_match_act_programs.md R236. -/
  | hallPedgeLive
  /-- `HALL_ENTRY_LIVE`, 09_match_act_programs.md R234. -/
  | hallEntryLive
  /-- `HALL_TBL_MISS_LIVE`, 09_match_act_programs.md R241. -/
  | hallTblMissLive
  /-- `HALL_TBL_DEF`, 09_match_act_programs.md R238. -/
  | hallTblDef
  /-- `HALL_TBL_EXT`, 09_match_act_programs.md R239. -/
  | hallTblExt
  /-- `HALL_TBL_STATUS`, 09_match_act_programs.md R241. -/
  | hallTblStatus
  /-- `HALL_CELL_LINK`, 09_match_act_programs.md R248. -/
  | hallCellLink
  /-- `HALL_USHQ`, 09_match_act_programs.md R248. -/
  | hallUshq
  /-- `HALL_PROG_STAGE`, 09_match_act_programs.md R249. -/
  | hallProgStage
  /-- `HALL_PROG_SRC`, 09_match_act_programs.md R249. -/
  | hallProgSrc
  /-- `HALL_MAP_CTRL`, 09_match_act_programs.md R244. -/
  | hallMapCtrl
  /-- `HALL_MAP_STATUS`, 09_match_act_programs.md R244. -/
  | hallMapStatus
  /-- `HALL_CNT_PKT`, 09_match_act_programs.md R242. -/
  | hallCntPkt
  /-- `HALL_CNT_BYTE`, 09_match_act_programs.md R242. -/
  | hallCntByte
  /-- `PRT_LAF_ADDR`, 10_host_functions.md R266. -/
  | prtLafAddr
  /-- `PRT_LAF_MASK`, 10_host_functions.md R266. -/
  | prtLafMask
  /-- `PRT_LAF_DATA`, 10_host_functions.md R266. -/
  | prtLafData
  /-- `PRT_LAF_CTRL`, 10_host_functions.md R266. -/
  | prtLafCtrl
  /-- `HOST_CFG`, 10_host_functions.md R255. -/
  | hostCfg
  /-- `HOST_STATUS`, 10_host_functions.md R257. -/
  | hostStatus
  /-- `PRT_BRIDGE`, 10_host_functions.md R262. -/
  | prtBridge
  /-- `PRT_STATUS`, 10_host_functions.md R262. -/
  | prtStatus
  /-- `ALCOVE_CFG`, 10_host_functions.md R269. -/
  | alcoveCfg
  /-- `ALCOVE_NOTIFY`, 10_host_functions.md R269. -/
  | alcoveNotify
  /-- `ALCOVE_INFLIGHT`, 10_host_functions.md R269. -/
  | alcoveInflight
  /-- `ALCOVE_EVT`, 10_host_functions.md R269. -/
  | alcoveEvt
  /-- `ALCOVE_DIRTY_A`, 10_host_functions.md R269. -/
  | alcoveDirtyA
  /-- `ALCOVE_DIRTY_B`, 10_host_functions.md R269. -/
  | alcoveDirtyB
  /-- `ALCOVE_DIRTY_BASE`, 10_host_functions.md R269. -/
  | alcoveDirtyBase
  /-- `ALCOVE_DIRTY_CTL`, 10_host_functions.md R269. -/
  | alcoveDirtyCtl
  /-- `ALCOVE_DIRTY_MISS`, 10_host_functions.md R269. -/
  | alcoveDirtyMiss
  /-- `DH_H`, 11_canvas_display.md R284. -/
  | dhH
  /-- `DH_H_LIVE`, 11_canvas_display.md R284. -/
  | dhHLive
  /-- `DH_V`, 11_canvas_display.md R284. -/
  | dhV
  /-- `DH_V_LIVE`, 11_canvas_display.md R284. -/
  | dhVLive
  /-- `DH_CLK`, 11_canvas_display.md R284. -/
  | dhClk
  /-- `DH_CLK_LIVE`, 11_canvas_display.md R284. -/
  | dhClkLive
  /-- `DH_L_SRC`, 11_canvas_display.md R288. -/
  | dhLSrc
  /-- `DH_L_SRC_LIVE`, 11_canvas_display.md R288. -/
  | dhLSrcLive
  /-- `DH_L_SIZE`, 11_canvas_display.md R288. -/
  | dhLSize
  /-- `DH_L_SIZE_LIVE`, 11_canvas_display.md R288. -/
  | dhLSizeLive
  /-- `DH_L_DST`, 11_canvas_display.md R288. -/
  | dhLDst
  /-- `DH_L_DST_LIVE`, 11_canvas_display.md R288. -/
  | dhLDstLive
  /-- `DH_L_BLEND`, 11_canvas_display.md R288. -/
  | dhLBlend
  /-- `DH_L_BLEND_LIVE`, 11_canvas_display.md R288. -/
  | dhLBlendLive
  /-- `DH_CTRL`, 11_canvas_display.md R290. -/
  | dhCtrl
  /-- `DH_CTRL_LIVE`, 11_canvas_display.md R290. -/
  | dhCtrlLive
  /-- `DH_SYNC`, 11_canvas_display.md R290. -/
  | dhSync
  /-- `DH_SYNC_LIVE`, 11_canvas_display.md R290. -/
  | dhSyncLive
  /-- `DH_PASS`, 11_canvas_display.md R290. -/
  | dhPass
  /-- `DH_PASS_LIVE`, 11_canvas_display.md R290. -/
  | dhPassLive
  /-- `DH_LINK`, 11_canvas_display.md R281. -/
  | dhLink
  /-- `DH_COMMIT`, 11_canvas_display.md R281. -/
  | dhCommit
  /-- `DH_STATUS`, 11_canvas_display.md R281. -/
  | dhStatus
  /-- `DH_EVENTS`, 11_canvas_display.md R281. -/
  | dhEvents
  /-- `DH_AUX_CMD`, 11_canvas_display.md R281. -/
  | dhAuxCmd
  /-- `DH_AUX_STATUS`, 11_canvas_display.md R281. -/
  | dhAuxStatus
  /-- `DH_AUX_DATA`, 11_canvas_display.md R281. -/
  | dhAuxData
  /-- `DH_UNDERRUNS`, 11_canvas_display.md R281. -/
  | dhUnderruns
  /-- `CANVAS_POOL_BASE`, 11_canvas_display.md R294. -/
  | canvasPoolBase
  /-- `CANVAS_POOL_PAGES`, 11_canvas_display.md R294. -/
  | canvasPoolPages
  /-- `CANVAS_PAGE_STATUS`, 11_canvas_display.md R294. -/
  | canvasPageStatus
  /-- `CANVAS_PAGE_OP`, 11_canvas_display.md R294. -/
  | canvasPageOp
  /-- `CANVAS_FETCH`, 11_canvas_display.md R294. -/
  | canvasFetch
  /-- `CANVAS_UNKNOWN`, 11_canvas_display.md R294. -/
  | canvasUnknown
  /-- `CANVAS_CLIENT`, 11_canvas_display.md R297. -/
  | canvasClient
  /-- `CANVAS_CLIENT_PAGES`, 11_canvas_display.md R297. -/
  | canvasClientPages
  /-- `CANVAS_SURF`, 11_canvas_display.md R297. -/
  | canvasSurf
  /-- `CANVAS_SURF_MAP`, 11_canvas_display.md R297. -/
  | canvasSurfMap
  /-- `DRAM_CANVAS_MAX`, 11_canvas_display.md R299. -/
  | dramCanvasMax
  /-- `DRAM_CFG`, 11_canvas_display.md R470. -/
  | dramCfg
  /-- `TRK_TD_CTRL`, 12_td212_personality.md R304. -/
  | trkTdCtrl
  /-- `TRK_TD_STATUS`, 12_td212_personality.md R304. -/
  | trkTdStatus
  /-- `TRK_TD_CNT`, 12_td212_personality.md R316. -/
  | trkTdCnt
  /-- `WTD_VENDOR`, 12_td212_personality.md R317. -/
  | wtdVendor
  /-- `WTD_DEVICE`, 12_td212_personality.md R317. -/
  | wtdDevice
  /-- `WTD_REV`, 12_td212_personality.md R317. -/
  | wtdRev
  /-- `WTD_LINK`, 12_td212_personality.md R317. -/
  | wtdLink
  /-- `WTD_CTRL`, 12_td212_personality.md R317. -/
  | wtdCtrl
  /-- `WTD_IMASK`, 12_td212_personality.md R317. -/
  | wtdImask
  /-- `WTD_SCRATCH`, 12_td212_personality.md R317. -/
  | wtdScratch
  /-- `WTD_ST_LINK`, 12_td212_personality.md R317. -/
  | wtdStLink
  /-- `WTD_ST_PCIE`, 12_td212_personality.md R317. -/
  | wtdStPcie
  /-- `WTD_ST_DISP`, 12_td212_personality.md R317. -/
  | wtdStDisp
  /-- `WTD_ST_HPD`, 12_td212_personality.md R317. -/
  | wtdStHpd
  /-- `WTD_ST_AUX`, 12_td212_personality.md R317. -/
  | wtdStAux
  /-- `WTD_CNT_CRC`, 12_td212_personality.md R317. -/
  | wtdCntCrc
  /-- `WTD_CNT_REPLAY`, 12_td212_personality.md R317. -/
  | wtdCntReplay
  /-- `WTD_CNT_OOS`, 12_td212_personality.md R317. -/
  | wtdCntOos
  /-- `WTD_AUX_CMD`, 12_td212_personality.md R317. -/
  | wtdAuxCmd
  /-- `WTD_AUX_ADDR`, 12_td212_personality.md R317. -/
  | wtdAuxAddr
  /-- `WTD_AUX_STATUS`, 12_td212_personality.md R317. -/
  | wtdAuxStatus
  /-- `WTD_AUX_DATA`, 12_td212_personality.md R317. -/
  | wtdAuxData
  /-- `USB_CTRL`, 13_usb_complex.md R325. -/
  | usbCtrl
  /-- `USB_ASSIGN`, 13_usb_complex.md R328. -/
  | usbAssign
  /-- `UP_CTRL`, 13_usb_complex.md R338. -/
  | upCtrl
  /-- `UP_STATUS`, 13_usb_complex.md R338. -/
  | upStatus
  /-- `UP_MGMT_SETUP`, 13_usb_complex.md R338. -/
  | upMgmtSetup
  /-- `UP_MGMT_CTRL`, 13_usb_complex.md R338. -/
  | upMgmtCtrl
  /-- `UP_MGMT_DONE`, 13_usb_complex.md R338. -/
  | upMgmtDone
  /-- `DN_CTRL`, 13_usb_complex.md R331. -/
  | dnCtrl
  /-- `DN_STATUS`, 13_usb_complex.md R331. -/
  | dnStatus
  /-- `USB_AUDIO`, 13_usb_complex.md R343. -/
  | usbAudio
  /-- `USB_AUDIO_STATUS`, 13_usb_complex.md R343. -/
  | usbAudioStatus
  /-- `USB_UNDERRUN`, 13_usb_complex.md R343. -/
  | usbUnderrun
  /-- `USB_OVERRUN`, 13_usb_complex.md R343. -/
  | usbOverrun
  /-- `NEWEL_PPLIM0`, 14_power_delivery.md R358. -/
  | newelPplim0
  /-- `NEWEL_PPLIM1`, 14_power_delivery.md R358. -/
  | newelPplim1
  /-- `NEWEL_PPLOCK`, 14_power_delivery.md R358. -/
  | newelPplock
  /-- `TC_CTRL`, 14_power_delivery.md R346. -/
  | tcCtrl
  /-- `TC_STATUS`, 14_power_delivery.md R346. -/
  | tcStatus
  /-- `TC_RX_FULL`, 14_power_delivery.md R347. -/
  | tcRxFull
  /-- `PP_CFG`, 14_power_delivery.md R360. -/
  | ppCfg
  /-- `PP_CFG2`, 14_power_delivery.md R360. -/
  | ppCfg2
  /-- `PP_STATUS`, 14_power_delivery.md R360. -/
  | ppStatus
  /-- `PP_MEAS`, 14_power_delivery.md R360. -/
  | ppMeas
  /-- `POWER_TOTAL`, 14_power_delivery.md R357. -/
  | powerTotal
  /-- `POWER_RESERVE`, 14_power_delivery.md R357. -/
  | powerReserve
  /-- `POWER_ALLOT`, 14_power_delivery.md R357. -/
  | powerAllot
  /-- `POWER_STATUS`, 14_power_delivery.md R357. -/
  | powerStatus
  /-- `WDN_STATUS`, 15_security.md R372. -/
  | wdnStatus
  /-- `WDN_SLOTSTATE`, 15_security.md R374. -/
  | wdnSlotstate
  /-- `FUSE_PKHASH`, 15_security.md R380. -/
  | fusePkhash
  /-- `FUSE_SVN`, 15_security.md R380. -/
  | fuseSvn
  /-- `FUSE_CFG`, 15_security.md R380. -/
  | fuseCfg
  /-- `FUSE_SVN_CTRL`, 15_security.md R380. -/
  | fuseSvnCtrl
  /-- `TRK_SEC_KEY`, 15_security.md R384. -/
  | trkSecKey
  /-- `TRK_SEC_STATUS`, 15_security.md R384. -/
  | trkSecStatus
  /-- `NEWEL_TAMPER_CTRL`, 15_security.md R386. -/
  | newelTamperCtrl
  /-- `NEWEL_TAMPER_CAUSE`, 15_security.md R386. -/
  | newelTamperCause
  /-- `BELL_SRC`, 16_bell_interrupts.md R388. -/
  | bellSrc
  /-- `BELL_STATUS`, 16_bell_interrupts.md R388. -/
  | bellStatus
  /-- `BELL_FAULT`, 16_bell_interrupts.md R391. -/
  | bellFault
  /-- `BELL_DEPTH`, 16_bell_interrupts.md R391. -/
  | bellDepth
  /-- `BELL_DOORBELL`, 16_bell_interrupts.md R388. -/
  | bellDoorbell
  /-- `BELL_EOI`, 16_bell_interrupts.md R391. -/
  | bellEoi
  /-- `BELL_HOSTMSG`, 16_bell_interrupts.md R395. -/
  | bellHostmsg
  /-- `BELL_STACK`, 16_bell_interrupts.md R391. -/
  | bellStack
  /-- `BELL_PENDSUM`, 16_bell_interrupts.md R388. -/
  | bellPendsum
  /-- `PWR_CFG`, 17_power_states.md R401. -/
  | pwrCfg
  /-- `PWR_WAKE_EN`, 17_power_states.md R401. -/
  | pwrWakeEn
  /-- `PWR_TIMER`, 17_power_states.md R401. -/
  | pwrTimer
  /-- `PWR_STATUS`, 17_power_states.md R401. -/
  | pwrStatus
  /-- `PWR_ANSWER`, 17_power_states.md R401. -/
  | pwrAnswer
  /-- `PWR_WAKE_STEP`, 17_power_states.md R401. -/
  | pwrWakeStep
  /-- `MON_CTRL`, 18_monitors_and_errors.md R408. -/
  | monCtrl
  /-- `MON_LIN`, 18_monitors_and_errors.md R408. -/
  | monLin
  /-- `MON_MIN`, 18_monitors_and_errors.md R408. -/
  | monMin
  /-- `MON_SNAP_MIN`, 18_monitors_and_errors.md R412. -/
  | monSnapMin
  /-- `MON_MAX`, 18_monitors_and_errors.md R408. -/
  | monMax
  /-- `MON_SNAP_MAX`, 18_monitors_and_errors.md R412. -/
  | monSnapMax
  /-- `MON_COUNT`, 18_monitors_and_errors.md R408. -/
  | monCount
  /-- `MON_SNAP_COUNT`, 18_monitors_and_errors.md R412. -/
  | monSnapCount
  /-- `MON_SUM`, 18_monitors_and_errors.md R408. -/
  | monSum
  /-- `MON_SNAP_SUM`, 18_monitors_and_errors.md R412. -/
  | monSnapSum
  /-- `MON_STATUS`, 18_monitors_and_errors.md R408. -/
  | monStatus
  /-- `MON_BIN`, 18_monitors_and_errors.md R408. -/
  | monBin
  /-- `MON_SNAP_BIN`, 18_monitors_and_errors.md R412. -/
  | monSnapBin
  /-- `HALL_ERR_CTRL`, 18_monitors_and_errors.md R413. -/
  | hallErrCtrl
  /-- `HALL_FLIGHT_CMD`, 18_monitors_and_errors.md R413. -/
  | hallFlightCmd
  /-- `HALL_ERR_RING`, 18_monitors_and_errors.md R413. -/
  | hallErrRing
  /-- `SVC_ERR_CTRL`, 18_monitors_and_errors.md R413. -/
  | svcErrCtrl
  /-- `SVC_FLIGHT_CMD`, 18_monitors_and_errors.md R413. -/
  | svcFlightCmd
  /-- `SVC_ERR_RING`, 18_monitors_and_errors.md R413. -/
  | svcErrRing
  /-- `HALL_FLIGHT`, 18_monitors_and_errors.md R415. -/
  | hallFlight
  /-- `SVC_FLIGHT`, 18_monitors_and_errors.md R415. -/
  | svcFlight
  /-- `CHIP_HALL_CTL`, 18_monitors_and_errors.md R417. -/
  | chipHallCtl
  /-- `NEWEL_WDOG`, 18_monitors_and_errors.md R422. -/
  | newelWdog
  /-- `NEWEL_SAFE`, 18_monitors_and_errors.md R422. -/
  | newelSafe
  /-- `BOOT_STATUS`, 19_startup_and_reset.md R432. -/
  | bootStatus
  /-- `BOOT_LOAD`, 19_startup_and_reset.md R434. -/
  | bootLoad
  /-- `CHIP_HALL_RESET`, 19_startup_and_reset.md R438. -/
  | chipHallReset
  /-- `GPIO_CTRL`, 20_balls_and_signals.md R456. -/
  | gpioCtrl
  /-- `GPIO_PULL`, 20_balls_and_signals.md R456. -/
  | gpioPull
  /-- `NEWEL_TEMP`, 21_electrical.md R468. -/
  | newelTemp
  deriving DecidableEq, Repr

/-- A register of a unit: `i` is the unit's number (trunk, lane, Hall, ...), `j` the index inside the unit. -/
structure RegId where
  name : RegName
  i : Nat
  j : Nat
  deriving DecidableEq, Repr

/-- A field of a register. -/
structure Fld where
  reg : RegName
  hi : Nat
  lo : Nat
  deriving DecidableEq, Repr

/-- A number for each register name, for the order of the register file. -/
def regNum : RegName → Nat
  | .hallWdog => 0
  | .svcWdog => 1
  | .tbNow => 2
  | .tbStatus => 3
  | .hallRiserCtrl => 4
  | .svcRiserCtrl => 5
  | .hallRiserStatus => 6
  | .svcRiserStatus => 7
  | .newelVceil => 8
  | .hallMode => 9
  | .hallLsOrigin => 10
  | .hallLsSeed => 11
  | .chipCatchup => 12
  | .usherCtl => 13
  | .usherStatus => 14
  | .quadPersonality => 15
  | .pcierefCtrl => 16
  | .quadPll => 17
  | .quadStatus => 18
  | .laneCtrl => 19
  | .laneTxeq => 20
  | .laneRxeq => 21
  | .laneStatus => 22
  | .lanePrbs => 23
  | .laneEyeCtrl => 24
  | .laneEyeStatus => 25
  | .laneCnt => 26
  | .laneSnap => 27
  | .laneRxffe => 28
  | .trkLinkCtrl => 29
  | .trkLinkStatus => 30
  | .trkTxSeq => 31
  | .trkRxSeq => 32
  | .trkVcCfg => 33
  | .trkVcCredit => 34
  | .trkPos => 35
  | .trkCnt => 36
  | .trkCfg => 37
  | .linkId => 38
  | .linkIdLock => 39
  | .trkTrain => 40
  | .trkNonce => 41
  | .trkPeerNonce => 42
  | .trkPeerId => 43
  | .trkWidth => 44
  | .trkPair => 45
  | .trkPairStatus => 46
  | .trkPairMap => 47
  | .trkPairCnt => 48
  | .hallRedC => 49
  | .hallRedCtrl => 50
  | .hallRedLive => 51
  | .hallQadm => 52
  | .galCtrl => 53
  | .galBase => 54
  | .galWr => 55
  | .galRd => 56
  | .galStatus => 57
  | .galLost => 58
  | .galOverwritten => 59
  | .ethCtrl => 60
  | .ethTag => 61
  | .ethCnt => 62
  | .hallBufStatus => 63
  | .hallBufCtrl => 64
  | .hallDrop => 65
  | .hallEpochStatus => 66
  | .hallEpochDrain => 67
  | .hallOrderBreak => 68
  | .hallInd => 69
  | .hallIndLive => 70
  | .spCtrl => 71
  | .spStatus => 72
  | .spFo => 73
  | .hallMtrliveTc => 74
  | .hallMtrliveTp => 75
  | .hallSampleCtrl => 76
  | .hallQsamp => 77
  | .hallPnode => 78
  | .hallPedge => 79
  | .hallEntry => 80
  | .hallTblMiss => 81
  | .hallPnodeLive => 82
  | .hallPedgeLive => 83
  | .hallEntryLive => 84
  | .hallTblMissLive => 85
  | .hallTblDef => 86
  | .hallTblExt => 87
  | .hallTblStatus => 88
  | .hallCellLink => 89
  | .hallUshq => 90
  | .hallProgStage => 91
  | .hallProgSrc => 92
  | .hallMapCtrl => 93
  | .hallMapStatus => 94
  | .hallCntPkt => 95
  | .hallCntByte => 96
  | .prtLafAddr => 97
  | .prtLafMask => 98
  | .prtLafData => 99
  | .prtLafCtrl => 100
  | .hostCfg => 101
  | .hostStatus => 102
  | .prtBridge => 103
  | .prtStatus => 104
  | .alcoveCfg => 105
  | .alcoveNotify => 106
  | .alcoveInflight => 107
  | .alcoveEvt => 108
  | .alcoveDirtyA => 109
  | .alcoveDirtyB => 110
  | .alcoveDirtyBase => 111
  | .alcoveDirtyCtl => 112
  | .alcoveDirtyMiss => 113
  | .dhH => 114
  | .dhHLive => 115
  | .dhV => 116
  | .dhVLive => 117
  | .dhClk => 118
  | .dhClkLive => 119
  | .dhLSrc => 120
  | .dhLSrcLive => 121
  | .dhLSize => 122
  | .dhLSizeLive => 123
  | .dhLDst => 124
  | .dhLDstLive => 125
  | .dhLBlend => 126
  | .dhLBlendLive => 127
  | .dhCtrl => 128
  | .dhCtrlLive => 129
  | .dhSync => 130
  | .dhSyncLive => 131
  | .dhPass => 132
  | .dhPassLive => 133
  | .dhLink => 134
  | .dhCommit => 135
  | .dhStatus => 136
  | .dhEvents => 137
  | .dhAuxCmd => 138
  | .dhAuxStatus => 139
  | .dhAuxData => 140
  | .dhUnderruns => 141
  | .canvasPoolBase => 142
  | .canvasPoolPages => 143
  | .canvasPageStatus => 144
  | .canvasPageOp => 145
  | .canvasFetch => 146
  | .canvasUnknown => 147
  | .canvasClient => 148
  | .canvasClientPages => 149
  | .canvasSurf => 150
  | .canvasSurfMap => 151
  | .dramCanvasMax => 152
  | .dramCfg => 153
  | .trkTdCtrl => 154
  | .trkTdStatus => 155
  | .trkTdCnt => 156
  | .wtdVendor => 157
  | .wtdDevice => 158
  | .wtdRev => 159
  | .wtdLink => 160
  | .wtdCtrl => 161
  | .wtdImask => 162
  | .wtdScratch => 163
  | .wtdStLink => 164
  | .wtdStPcie => 165
  | .wtdStDisp => 166
  | .wtdStHpd => 167
  | .wtdStAux => 168
  | .wtdCntCrc => 169
  | .wtdCntReplay => 170
  | .wtdCntOos => 171
  | .wtdAuxCmd => 172
  | .wtdAuxAddr => 173
  | .wtdAuxStatus => 174
  | .wtdAuxData => 175
  | .usbCtrl => 176
  | .usbAssign => 177
  | .upCtrl => 178
  | .upStatus => 179
  | .upMgmtSetup => 180
  | .upMgmtCtrl => 181
  | .upMgmtDone => 182
  | .dnCtrl => 183
  | .dnStatus => 184
  | .usbAudio => 185
  | .usbAudioStatus => 186
  | .usbUnderrun => 187
  | .usbOverrun => 188
  | .newelPplim0 => 189
  | .newelPplim1 => 190
  | .newelPplock => 191
  | .tcCtrl => 192
  | .tcStatus => 193
  | .tcRxFull => 194
  | .ppCfg => 195
  | .ppCfg2 => 196
  | .ppStatus => 197
  | .ppMeas => 198
  | .powerTotal => 199
  | .powerReserve => 200
  | .powerAllot => 201
  | .powerStatus => 202
  | .wdnStatus => 203
  | .wdnSlotstate => 204
  | .fusePkhash => 205
  | .fuseSvn => 206
  | .fuseCfg => 207
  | .fuseSvnCtrl => 208
  | .trkSecKey => 209
  | .trkSecStatus => 210
  | .newelTamperCtrl => 211
  | .newelTamperCause => 212
  | .bellSrc => 213
  | .bellStatus => 214
  | .bellFault => 215
  | .bellDepth => 216
  | .bellDoorbell => 217
  | .bellEoi => 218
  | .bellHostmsg => 219
  | .bellStack => 220
  | .bellPendsum => 221
  | .pwrCfg => 222
  | .pwrWakeEn => 223
  | .pwrTimer => 224
  | .pwrStatus => 225
  | .pwrAnswer => 226
  | .pwrWakeStep => 227
  | .monCtrl => 228
  | .monLin => 229
  | .monMin => 230
  | .monSnapMin => 231
  | .monMax => 232
  | .monSnapMax => 233
  | .monCount => 234
  | .monSnapCount => 235
  | .monSum => 236
  | .monSnapSum => 237
  | .monStatus => 238
  | .monBin => 239
  | .monSnapBin => 240
  | .hallErrCtrl => 241
  | .hallFlightCmd => 242
  | .hallErrRing => 243
  | .svcErrCtrl => 244
  | .svcFlightCmd => 245
  | .svcErrRing => 246
  | .hallFlight => 247
  | .svcFlight => 248
  | .chipHallCtl => 249
  | .newelWdog => 250
  | .newelSafe => 251
  | .bootStatus => 252
  | .bootLoad => 253
  | .chipHallReset => 254
  | .gpioCtrl => 255
  | .gpioPull => 256
  | .newelTemp => 257

/-- The register tables of the spec: place, width and fields. -/
def regDesc : RegName → RegDesc
  | .hallWdog => { blk := .hall, off := 0x8, width := 32, fields := [⟨31, 16, .ro, .asIs⟩, ⟨9, 0, .rw, .clamp 1 1000⟩] }
  | .svcWdog => { blk := .pwrsvc, off := 0x8, width := 32, fields := [⟨31, 16, .ro, .asIs⟩, ⟨9, 0, .rw, .clamp 1 1000⟩] }
  | .tbNow => { blk := .newel, off := 0x1000, width := 64, fields := [⟨63, 0, .ro, .asIs⟩] }
  | .tbStatus => { blk := .newel, off := 0x1008, width := 32, fields := [⟨2, 2, .w1c, .asIs⟩, ⟨1, 1, .ro, .asIs⟩, ⟨0, 0, .ro, .asIs⟩] }
  | .hallRiserCtrl => { blk := .hall, off := 0x100, width := 32, fields := [⟨23, 16, .rw, .clamp 5 50⟩, ⟨13, 8, .rw, .asIs⟩, ⟨0, 0, .rw, .asIs⟩] }
  | .svcRiserCtrl => { blk := .pwrsvc, off := 0x100, width := 32, fields := [⟨23, 16, .rw, .clamp 5 50⟩, ⟨13, 8, .rw, .asIs⟩, ⟨0, 0, .rw, .asIs⟩] }
  | .hallRiserStatus => { blk := .hall, off := 0x108, width := 32, fields := [⟨31, 16, .ro, .asIs⟩, ⟨9, 9, .w1c, .asIs⟩, ⟨8, 8, .w1c, .asIs⟩, ⟨7, 7, .ro, .asIs⟩, ⟨6, 6, .ro, .asIs⟩, ⟨5, 0, .ro, .asIs⟩] }
  | .svcRiserStatus => { blk := .pwrsvc, off := 0x108, width := 32, fields := [⟨31, 16, .ro, .asIs⟩, ⟨9, 9, .w1c, .asIs⟩, ⟨8, 8, .w1c, .asIs⟩, ⟨7, 7, .ro, .asIs⟩, ⟨6, 6, .ro, .asIs⟩, ⟨5, 0, .ro, .asIs⟩] }
  | .newelVceil => { blk := .newel, off := 0x2000, width := 64, fields := [⟨63, 63, .rwl, .asIs⟩, ⟨37, 32, .rwl, .asIs⟩, ⟨29, 24, .rwl, .asIs⟩, ⟨21, 16, .rwl, .asIs⟩, ⟨13, 8, .rwl, .asIs⟩, ⟨5, 0, .rwl, .asIs⟩] }
  | .hallMode => { blk := .hall, off := 0x0, width := 32, fields := [⟨1, 1, .ro, .asIs⟩, ⟨0, 0, .rw, .asIs⟩] }
  | .hallLsOrigin => { blk := .hall, off := 0x10, width := 64, fields := [⟨57, 0, .ro, .asIs⟩] }
  | .hallLsSeed => { blk := .hall, off := 0x18, width := 64, fields := [⟨63, 0, .rw, .asIs⟩] }
  | .chipCatchup => { blk := .newel, off := 0x1100, width := 64, fields := [⟨37, 32, .rw, .clamp 1 50⟩, ⟨29, 24, .rw, .clamp 1 50⟩, ⟨21, 16, .rw, .clamp 1 50⟩, ⟨13, 8, .rw, .clamp 1 50⟩, ⟨5, 0, .rw, .clamp 1 50⟩] }
  | .usherCtl => { blk := .usher, off := 0x0, width := 32, fields := [⟨31, 16, .rw, .asIs⟩, ⟨15, 8, .rw, .asIs⟩, ⟨1, 1, .rw, .asIs⟩, ⟨0, 0, .rw, .asIs⟩] }
  | .usherStatus => { blk := .usher, off := 0x8, width := 32, fields := [⟨31, 24, .w1c, .asIs⟩, ⟨23, 16, .ro, .asIs⟩, ⟨15, 8, .ro, .asIs⟩, ⟨5, 0, .ro, .asIs⟩] }
  | .quadPersonality => { blk := .quad, off := 0x0, width := 64, fields := [⟨44, 44, .rw, .asIs⟩, ⟨39, 36, .rw, .asIs⟩, ⟨34, 32, .rw, .asIs⟩, ⟨31, 28, .rw, .asIs⟩, ⟨26, 24, .rw, .asIs⟩, ⟨23, 20, .rw, .asIs⟩, ⟨18, 16, .rw, .asIs⟩, ⟨15, 12, .rw, .asIs⟩, ⟨10, 8, .rw, .asIs⟩, ⟨7, 4, .rw, .asIs⟩, ⟨2, 0, .rw, .asIs⟩] }
  | .pcierefCtrl => { blk := .newel, off := 0x3000, width := 32, fields := [⟨15, 15, .rw, .asIs⟩, ⟨14, 13, .rw, .asIs⟩, ⟨11, 8, .rw, .atMost 10⟩, ⟨7, 7, .rw, .asIs⟩, ⟨6, 5, .rw, .asIs⟩, ⟨3, 0, .rw, .atMost 10⟩] }
  | .quadPll => { blk := .quad, off := 0x8, width := 32, fields := [⟨15, 12, .rw, .atMost 10⟩, ⟨11, 8, .rw, .atMost 10⟩, ⟨0, 0, .rw, .asIs⟩] }
  | .quadStatus => { blk := .quad, off := 0x10, width := 32, fields := [⟨31, 24, .ro, .asIs⟩, ⟨23, 23, .w1c, .asIs⟩, ⟨22, 16, .ro, .asIs⟩, ⟨11, 11, .ro, .asIs⟩, ⟨10, 10, .w1c, .asIs⟩, ⟨9, 9, .ro, .asIs⟩, ⟨8, 8, .ro, .asIs⟩, ⟨7, 7, .ro, .asIs⟩, ⟨6, 6, .ro, .asIs⟩, ⟨5, 0, .ro, .asIs⟩] }
  | .laneCtrl => { blk := .lane, off := 0x0, width := 32, fields := [⟨17, 16, .rw, .asIs⟩, ⟨15, 14, .rw, .asIs⟩, ⟨13, 12, .rw, .asIs⟩, ⟨11, 11, .rw, .asIs⟩, ⟨10, 10, .rw, .asIs⟩, ⟨9, 9, .rw, .asIs⟩, ⟨8, 8, .rw, .asIs⟩, ⟨1, 1, .rw, .asIs⟩, ⟨0, 0, .rw, .asIs⟩] }
  | .laneTxeq => { blk := .lane, off := 0x8, width := 64, fields := [⟨35, 35, .rw, .asIs⟩, ⟨34, 28, .rw, .asIs⟩, ⟨27, 21, .rw, .asIs⟩, ⟨20, 14, .rw, .asIs⟩, ⟨13, 7, .rw, .asIs⟩, ⟨6, 0, .rw, .asIs⟩] }
  | .laneRxeq => { blk := .lane, off := 0x10, width := 32, fields := [⟨31, 31, .rw, .asIs⟩, ⟨30, 30, .rw, .asIs⟩, ⟨23, 16, .ro, .asIs⟩, ⟨12, 8, .rw, .atMost 18⟩] }
  | .laneStatus => { blk := .lane, off := 0x18, width := 32, fields := [⟨31, 24, .ro, .asIs⟩, ⟨23, 22, .ro, .asIs⟩, ⟨21, 21, .ro, .asIs⟩, ⟨20, 20, .ro, .asIs⟩, ⟨19, 19, .ro, .asIs⟩, ⟨18, 18, .ro, .asIs⟩, ⟨17, 17, .ro, .asIs⟩, ⟨15, 8, .ro, .asIs⟩, ⟨3, 0, .ro, .asIs⟩] }
  | .lanePrbs => { blk := .lane, off := 0x20, width := 32, fields := [⟨23, 16, .ro, .asIs⟩, ⟨15, 15, .wo, .asIs⟩, ⟨14, 14, .wo, .asIs⟩, ⟨13, 13, .ro, .asIs⟩, ⟨12, 12, .ro, .asIs⟩, ⟨9, 9, .rw, .asIs⟩, ⟨8, 8, .rw, .asIs⟩, ⟨3, 0, .rw, .asIs⟩] }
  | .laneEyeCtrl => { blk := .lane, off := 0x28, width := 64, fields := [⟨63, 63, .wo, .asIs⟩, ⟨62, 62, .wo, .asIs⟩, ⟨61, 56, .rw, .asIs⟩, ⟨55, 54, .rw, .asIs⟩, ⟨53, 53, .rw, .asIs⟩, ⟨52, 48, .rw, .asIs⟩, ⟨47, 40, .rw, .asIs⟩, ⟨39, 32, .rw, .asIs⟩, ⟨31, 0, .rw, .asIs⟩] }
  | .laneEyeStatus => { blk := .lane, off := 0x30, width := 32, fields := [⟨7, 6, .ro, .asIs⟩, ⟨5, 0, .ro, .asIs⟩] }
  | .laneCnt => { blk := .lane, off := 0x40, width := 64, n1 := 10, s1 := 0x8, fields := [⟨47, 0, .ro, .asIs⟩] }
  | .laneSnap => { blk := .lane, off := 0xC0, width := 64, n1 := 10, s1 := 0x8, fields := [⟨47, 0, .ro, .asIs⟩] }
  | .laneRxffe => { blk := .lane, off := 0x200, width := 32, n1 := 24, s1 := 0x4, fields := [⟨15, 0, .ro, .asIs⟩] }
  | .trkLinkCtrl => { blk := .trk, off := 0x0, width := 64, fields := [⟨63, 48, .rw, .asIs⟩, ⟨27, 24, .rw, .clamp 2 8⟩, ⟨3, 3, .wo, .asIs⟩, ⟨2, 2, .wo, .asIs⟩, ⟨1, 1, .rw, .asIs⟩] }
  | .trkLinkStatus => { blk := .trk, off := 0x8, width := 64, fields := [⟨63, 48, .ro, .asIs⟩, ⟨43, 40, .ro, .asIs⟩, ⟨39, 32, .ro, .asIs⟩, ⟨31, 24, .ro, .asIs⟩, ⟨23, 16, .ro, .asIs⟩, ⟨15, 15, .w1c, .asIs⟩, ⟨14, 14, .w1c, .asIs⟩, ⟨9, 9, .w1c, .asIs⟩, ⟨8, 8, .w1c, .asIs⟩, ⟨7, 7, .ro, .asIs⟩, ⟨6, 6, .ro, .asIs⟩, ⟨5, 5, .ro, .asIs⟩, ⟨4, 4, .ro, .asIs⟩, ⟨3, 0, .ro, .asIs⟩] }
  | .trkTxSeq => { blk := .trk, off := 0x10, width := 64, fields := [⟨57, 48, .ro, .asIs⟩, ⟨47, 24, .ro, .asIs⟩, ⟨23, 0, .ro, .asIs⟩] }
  | .trkRxSeq => { blk := .trk, off := 0x18, width := 64, fields := [⟨33, 24, .ro, .asIs⟩, ⟨23, 0, .ro, .asIs⟩] }
  | .trkVcCfg => { blk := .trk, off := 0x20, width := 64, fields := [⟨7, 0, .rw, .atLeast 8⟩, ⟨15, 8, .rw, .atLeast 8⟩, ⟨23, 16, .rw, .atLeast 8⟩, ⟨31, 24, .rw, .atLeast 8⟩, ⟨39, 32, .rw, .atLeast 8⟩, ⟨47, 40, .rw, .atLeast 8⟩, ⟨55, 48, .rw, .atLeast 8⟩, ⟨63, 56, .rw, .atLeast 8⟩] }
  | .trkVcCredit => { blk := .trk, off := 0x40, width := 64, n1 := 8, s1 := 0x8, fields := [⟨63, 48, .ro, .asIs⟩, ⟨47, 32, .ro, .asIs⟩, ⟨31, 16, .ro, .asIs⟩, ⟨15, 0, .ro, .asIs⟩] }
  | .trkPos => { blk := .trk, off := 0x80, width := 32, n1 := 8, s1 := 0x8, fields := [⟨31, 24, .ro, .asIs⟩, ⟨23, 16, .ro, .asIs⟩, ⟨15, 15, .ro, .asIs⟩, ⟨14, 14, .ro, .asIs⟩, ⟨5, 0, .ro, .asIs⟩] }
  | .trkCnt => { blk := .trk, off := 0x100, width := 64, n1 := 13, s1 := 0x8, fields := [⟨47, 0, .ro, .asIs⟩] }
  | .trkCfg => { blk := .trk, off := 0x800, width := 64, fields := [⟨63, 63, .rw, .asIs⟩, ⟨62, 62, .rw, .asIs⟩, ⟨61, 59, .rw, .asIs⟩, ⟨57, 56, .rw, .geAs 2 0⟩, ⟨55, 48, .rw, .asIs⟩, ⟨21, 16, .rw, .asIs⟩, ⟨1, 0, .rw, .asIs⟩] }
  | .linkId => { blk := .newel, off := 0x3010, width := 64, fields := [⟨63, 0, .rwl, .asIs⟩] }
  | .linkIdLock => { blk := .newel, off := 0x3018, width := 32, fields := [⟨0, 0, .rwl, .asIs⟩] }
  | .trkTrain => { blk := .trk, off := 0x808, width := 32, fields := [⟨23, 16, .ro, .asIs⟩, ⟨15, 15, .w1c, .asIs⟩, ⟨14, 14, .ro, .asIs⟩, ⟨13, 13, .ro, .asIs⟩, ⟨7, 0, .ro, .asIs⟩] }
  | .trkNonce => { blk := .trk, off := 0x810, width := 64, fields := [⟨63, 0, .ro, .asIs⟩] }
  | .trkPeerNonce => { blk := .trk, off := 0x818, width := 64, fields := [⟨63, 0, .ro, .asIs⟩] }
  | .trkPeerId => { blk := .trk, off := 0x820, width := 64, fields := [⟨63, 0, .ro, .asIs⟩] }
  | .trkWidth => { blk := .trk, off := 0x828, width := 32, fields := [⟨31, 24, .ro, .asIs⟩, ⟨23, 16, .ro, .asIs⟩, ⟨15, 8, .ro, .asIs⟩, ⟨1, 1, .wo, .asIs⟩, ⟨0, 0, .ro, .asIs⟩] }
  | .trkPair => { blk := .trk, off := 0x840, width := 64, fields := [⟨63, 63, .rw, .asIs⟩, ⟨62, 61, .rw, .geAs 2 0⟩, ⟨60, 60, .rw, .asIs⟩, ⟨47, 32, .rw, .clamp 1 10000⟩, ⟨31, 24, .rw, .clamp 10 95⟩, ⟨4, 0, .rw, .asIs⟩] }
  | .trkPairStatus => { blk := .trk, off := 0x848, width := 32, fields := [⟨7, 7, .ro, .asIs⟩, ⟨6, 6, .w1c, .asIs⟩, ⟨5, 5, .w1c, .asIs⟩, ⟨4, 4, .ro, .asIs⟩, ⟨3, 3, .w1c, .asIs⟩] }
  | .trkPairMap => { blk := .trk, off := 0x900, width := 64, n1 := 4, s1 := 0x8, fields := [⟨63, 0, .rw, .asIs⟩] }
  | .trkPairCnt => { blk := .trk, off := 0x980, width := 64, n1 := 4, s1 := 0x8, fields := [⟨47, 0, .ro, .asIs⟩] }
  | .hallRedC => { blk := .hall, off := 0x301000, width := 64, n1 := 16, s1 := 0x40, n2 := 3, s2 := 0x8, fields := [⟨47, 40, .rw, .asIs⟩, ⟨31, 16, .rw, .asIs⟩, ⟨15, 0, .rw, .asIs⟩] }
  | .hallRedCtrl => { blk := .hall, off := 0x301018, width := 64, n1 := 16, s1 := 0x40, fields := [⟨63, 48, .rw, .asIs⟩, ⟨47, 40, .rw, .eqAs 0 1⟩, ⟨39, 36, .rw, .asIs⟩, ⟨35, 35, .rw, .asIs⟩, ⟨34, 34, .rw, .asIs⟩, ⟨33, 33, .rw, .asIs⟩] }
  | .hallRedLive => { blk := .hall, off := 0x301020, width := 32, n1 := 16, s1 := 0x40, n2 := 3, s2 := 0x8, fields := [⟨31, 16, .ro, .asIs⟩, ⟨15, 0, .ro, .asIs⟩] }
  | .hallQadm => { blk := .hall, off := 0x308000, width := 64, n1 := 2048, s1 := 0x8, fields := [⟨46, 32, .ro, .asIs⟩, ⟨31, 28, .rw, .asIs⟩, ⟨27, 27, .rw, .asIs⟩, ⟨23, 12, .rw, .asIs⟩, ⟨3, 0, .rw, .atMost 9⟩] }
  | .galCtrl => { blk := .gal, off := 0x0, width := 64, fields := [⟨63, 63, .rw, .asIs⟩, ⟨62, 62, .rw, .asIs⟩, ⟨60, 56, .rw, .asIs⟩, ⟨55, 54, .rw, .asIs⟩, ⟨47, 32, .rw, .asIs⟩, ⟨31, 16, .rw, .asIs⟩, ⟨15, 12, .rw, .asIs⟩, ⟨10, 0, .rw, .asIs⟩] }
  | .galBase => { blk := .gal, off := 0x8, width := 64, fields := [⟨47, 0, .rw, .asIs⟩] }
  | .galWr => { blk := .gal, off := 0x10, width := 32, fields := [⟨31, 0, .ro, .asIs⟩] }
  | .galRd => { blk := .gal, off := 0x18, width := 32, fields := [⟨31, 0, .rw, .asIs⟩] }
  | .galStatus => { blk := .gal, off := 0x20, width := 32, fields := [⟨1, 1, .w1c, .asIs⟩, ⟨0, 0, .w1c, .asIs⟩] }
  | .galLost => { blk := .gal, off := 0x28, width := 64, fields := [⟨47, 0, .ro, .asIs⟩] }
  | .galOverwritten => { blk := .gal, off := 0x30, width := 64, fields := [⟨47, 0, .ro, .asIs⟩] }
  | .ethCtrl => { blk := .eth, off := 0x0, width := 64, fields := [⟨63, 48, .rw, .clamp 64 9216⟩, ⟨43, 32, .rw, .asIs⟩, ⟨3, 3, .rw, .asIs⟩, ⟨2, 2, .rw, .asIs⟩, ⟨0, 0, .rw, .asIs⟩] }
  | .ethTag => { blk := .eth, off := 0x8, width := 32, fields := [⟨31, 16, .rw, .asIs⟩, ⟨15, 13, .rw, .asIs⟩, ⟨12, 12, .rw, .asIs⟩, ⟨11, 0, .rw, .asIs⟩] }
  | .ethCnt => { blk := .eth, off := 0x100, width := 64, n1 := 12, s1 := 0x8, fields := [⟨47, 0, .ro, .asIs⟩] }
  | .hallBufStatus => { blk := .hall, off := 0x300000, width := 64, fields := [⟨63, 48, .ro, .asIs⟩, ⟨47, 32, .ro, .asIs⟩, ⟨31, 16, .ro, .asIs⟩, ⟨15, 0, .ro, .asIs⟩] }
  | .hallBufCtrl => { blk := .hall, off := 0x300008, width := 64, fields := [⟨55, 48, .rw, .asIs⟩, ⟨47, 32, .rw, .eqAs 0 1⟩, ⟨26, 16, .rw, .atMost 1024⟩, ⟨1, 1, .w1c, .asIs⟩, ⟨0, 0, .rw, .asIs⟩] }
  | .hallDrop => { blk := .hall, off := 0x300100, width := 64, n1 := 16, s1 := 0x8, fields := [⟨47, 0, .ro, .asIs⟩] }
  | .hallEpochStatus => { blk := .hall, off := 0x300200, width := 64, fields := [⟨63, 32, .ro, .asIs⟩, ⟨18, 16, .ro, .asIs⟩, ⟨15, 0, .ro, .asIs⟩] }
  | .hallEpochDrain => { blk := .hall, off := 0x300208, width := 64, n1 := 4, s1 := 0x8, fields := [⟨63, 63, .ro, .asIs⟩, ⟨47, 32, .ro, .asIs⟩, ⟨31, 0, .ro, .asIs⟩] }
  | .hallOrderBreak => { blk := .hall, off := 0x300228, width := 64, fields := [⟨47, 0, .ro, .asIs⟩] }
  | .hallInd => { blk := .hall, off := 0x304000, width := 16, n1 := 16, s1 := 0x200, n2 := 256, s2 := 0x2, fields := [⟨15, 15, .rw, .asIs⟩, ⟨12, 0, .rw, .asIs⟩] }
  | .hallIndLive => { blk := .hall, off := 0x306000, width := 16, n1 := 16, s1 := 0x200, n2 := 256, s2 := 0x2, fields := [⟨15, 15, .ro, .asIs⟩, ⟨12, 0, .ro, .asIs⟩] }
  | .spCtrl => { blk := .sp, off := 0x0, width := 64, fields := [⟨47, 40, .rw, .asIs⟩, ⟨39, 32, .rw, .eqAs 0 1⟩, ⟨31, 24, .rw, .clamp 10 95⟩] }
  | .spStatus => { blk := .sp, off := 0x8, width := 64, fields := [⟨63, 40, .ro, .asIs⟩, ⟨39, 16, .ro, .asIs⟩, ⟨7, 7, .ro, .asIs⟩, ⟨6, 6, .ro, .asIs⟩, ⟨5, 5, .w1c, .asIs⟩] }
  | .spFo => { blk := .sp, off := 0x10, width := 32, fields := [⟨15, 8, .ro, .asIs⟩, ⟨0, 0, .wo, .asIs⟩] }
  | .hallMtrliveTc => { blk := .hall, off := 0x420000, width := 32, n1 := 16384, s1 := 0x10, fields := [⟨31, 0, .ro, .asIs⟩] }
  | .hallMtrliveTp => { blk := .hall, off := 0x420008, width := 32, n1 := 16384, s1 := 0x10, fields := [⟨31, 0, .ro, .asIs⟩] }
  | .hallSampleCtrl => { blk := .hall, off := 0x40F000, width := 32, fields := [⟨17, 17, .wo, .asIs⟩, ⟨16, 16, .rw, .asIs⟩, ⟨10, 0, .rw, .clamp 1 1024⟩] }
  | .hallQsamp => { blk := .hall, off := 0x410000, width := 64, n1 := 2048, s1 := 0x8, fields := [⟨63, 40, .ro, .asIs⟩, ⟨30, 16, .ro, .asIs⟩, ⟨14, 0, .ro, .asIs⟩] }
  | .hallPnode => { blk := .map, off := 0x1000, width := 64, n1 := 64, s1 := 0x8, fields := [⟨63, 63, .rw, .asIs⟩, ⟨55, 48, .rw, .asIs⟩, ⟨45, 44, .rw, .asIs⟩, ⟨43, 40, .rw, .asIs⟩, ⟨39, 32, .rw, .asIs⟩, ⟨31, 24, .rw, .asIs⟩, ⟨23, 23, .rw, .asIs⟩, ⟨22, 22, .rw, .asIs⟩, ⟨21, 21, .rw, .asIs⟩, ⟨20, 19, .rw, .asIs⟩, ⟨15, 8, .rw, .asIs⟩] }
  | .hallPedge => { blk := .map, off := 0x2000, width := 64, n1 := 64, s1 := 0x40, n2 := 8, s2 := 0x8, fields := [⟨63, 63, .rw, .asIs⟩, ⟨45, 40, .rw, .asIs⟩, ⟨31, 16, .rw, .asIs⟩, ⟨15, 0, .rw, .asIs⟩] }
  | .hallEntry => { blk := .map, off := 0x100, width := 32, n1 := 64, s1 := 0x8, fields := [⟨8, 8, .rw, .asIs⟩, ⟨7, 0, .rw, .asIs⟩] }
  | .hallTblMiss => { blk := .map, off := 0x4008, width := 64, n1 := 32, s1 := 0x40, fields := [⟨62, 0, .rw, .asIs⟩] }
  | .hallPnodeLive => { blk := .map, off := 0x801000, width := 64, n1 := 64, s1 := 0x8, fields := [⟨63, 63, .ro, .asIs⟩, ⟨55, 48, .ro, .asIs⟩, ⟨45, 44, .ro, .asIs⟩, ⟨43, 40, .ro, .asIs⟩, ⟨39, 32, .ro, .asIs⟩, ⟨31, 24, .ro, .asIs⟩, ⟨23, 23, .ro, .asIs⟩, ⟨22, 22, .ro, .asIs⟩, ⟨21, 21, .ro, .asIs⟩, ⟨20, 19, .ro, .asIs⟩, ⟨15, 8, .ro, .asIs⟩] }
  | .hallPedgeLive => { blk := .map, off := 0x802000, width := 64, n1 := 64, s1 := 0x40, n2 := 8, s2 := 0x8, fields := [⟨63, 63, .ro, .asIs⟩, ⟨45, 40, .ro, .asIs⟩, ⟨31, 16, .ro, .asIs⟩, ⟨15, 0, .ro, .asIs⟩] }
  | .hallEntryLive => { blk := .map, off := 0x800100, width := 32, n1 := 64, s1 := 0x8, fields := [⟨8, 8, .ro, .asIs⟩, ⟨7, 0, .ro, .asIs⟩] }
  | .hallTblMissLive => { blk := .map, off := 0x804008, width := 64, n1 := 32, s1 := 0x40, fields := [⟨62, 0, .ro, .asIs⟩] }
  | .hallTblDef => { blk := .map, off := 0x4000, width := 64, n1 := 32, s1 := 0x40, fields := [⟨63, 63, .rw, .asIs⟩, ⟨62, 61, .rw, .asIs⟩, ⟨55, 48, .rw, .asIs⟩, ⟨31, 16, .rw, .asIs⟩] }
  | .hallTblExt => { blk := .map, off := 0x4010, width := 32, n1 := 32, s1 := 0x40, n2 := 8, s2 := 0x4, fields := [⟨31, 31, .rw, .asIs⟩, ⟨30, 30, .rw, .asIs⟩, ⟨29, 26, .rw, .asIs⟩, ⟨24, 16, .rw, .asIs⟩, ⟨6, 0, .rw, .asIs⟩] }
  | .hallTblStatus => { blk := .map, off := 0x4030, width := 64, n1 := 32, s1 := 0x40, fields := [⟨47, 32, .ro, .asIs⟩, ⟨31, 0, .ro, .asIs⟩] }
  | .hallCellLink => { blk := .hall, off := 0x380000, width := 32, n1 := 24576, s1 := 0x4, fields := [⟨15, 0, .ro, .asIs⟩] }
  | .hallUshq => { blk := .map, off := 0x8000, width := 32, n1 := 32, s1 := 0x8, fields := [⟨31, 31, .rw, .asIs⟩, ⟨10, 0, .rw, .asIs⟩] }
  | .hallProgStage => { blk := .map, off := 0x18, width := 64, fields := [⟨63, 63, .wo, .asIs⟩, ⟨41, 32, .ro, .asIs⟩, ⟨23, 16, .ro, .asIs⟩, ⟨8, 8, .ro, .asIs⟩, ⟨7, 0, .rw, .asIs⟩] }
  | .hallProgSrc => { blk := .map, off := 0x10, width := 64, fields := [⟨47, 0, .rw, .asIs⟩] }
  | .hallMapCtrl => { blk := .map, off := 0x0, width := 32, fields := [⟨0, 0, .rw, .asIs⟩] }
  | .hallMapStatus => { blk := .map, off := 0x8, width := 64, fields := [⟨63, 48, .ro, .asIs⟩, ⟨47, 32, .ro, .asIs⟩, ⟨31, 22, .ro, .asIs⟩, ⟨21, 14, .ro, .asIs⟩, ⟨0, 0, .w1c, .asIs⟩] }
  | .hallCntPkt => { blk := .map, off := 0x2000000, width := 64, n1 := 65536, s1 := 0x10, fields := [⟨63, 0, .ro, .asIs⟩] }
  | .hallCntByte => { blk := .map, off := 0x2000008, width := 64, n1 := 65536, s1 := 0x10, fields := [⟨63, 0, .ro, .asIs⟩] }
  | .prtLafAddr => { blk := .prt, off := 0x100, width := 64, n1 := 4, s1 := 0x80, fields := [⟨63, 6, .ro, .asIs⟩, ⟨0, 0, .ro, .asIs⟩] }
  | .prtLafMask => { blk := .prt, off := 0x108, width := 64, n1 := 4, s1 := 0x80, fields := [⟨63, 0, .ro, .asIs⟩] }
  | .prtLafData => { blk := .prt, off := 0x110, width := 64, n1 := 4, s1 := 0x80, n2 := 8, s2 := 0x8, fields := [⟨63, 0, .ro, .asIs⟩] }
  | .prtLafCtrl => { blk := .prt, off := 0x1F8, width := 64, fields := [⟨63, 16, .ro, .asIs⟩, ⟨3, 0, .wo, .asIs⟩] }
  | .hostCfg => { blk := .host, off := 0x0, width := 64, fields := [⟨63, 63, .rw, .asIs⟩, ⟨55, 48, .rw, .asIs⟩, ⟨47, 32, .rw, .clamp 50 64000⟩, ⟨28, 24, .rw, .asIs⟩, ⟨23, 12, .rw, .asIs⟩] }
  | .hostStatus => { blk := .host, off := 0x8, width := 64, fields := [⟨55, 48, .ro, .asIs⟩, ⟨47, 40, .ro, .asIs⟩, ⟨39, 32, .ro, .asIs⟩, ⟨31, 24, .ro, .asIs⟩, ⟨2, 2, .ro, .asIs⟩, ⟨1, 1, .ro, .asIs⟩, ⟨0, 0, .ro, .asIs⟩] }
  | .prtBridge => { blk := .prt, off := 0x0, width := 64, fields := [⟨63, 62, .rw, .eqAs 3 0⟩, ⟨61, 59, .rw, .asIs⟩, ⟨58, 58, .rw, .asIs⟩, ⟨47, 32, .rw, .asIs⟩, ⟨31, 24, .rw, .eqAs 0 1⟩, ⟨17, 16, .rw, .asIs⟩] }
  | .prtStatus => { blk := .prt, off := 0x8, width := 64, fields := [⟨63, 16, .ro, .asIs⟩, ⟨15, 8, .ro, .asIs⟩, ⟨0, 0, .ro, .asIs⟩] }
  | .alcoveCfg => { blk := .alcove, off := 0x0, width := 64, fields := [⟨63, 61, .ro, .asIs⟩, ⟨60, 60, .ro, .asIs⟩, ⟨59, 59, .ro, .asIs⟩, ⟨58, 56, .rw, .asIs⟩, ⟨55, 48, .rw, .asIs⟩, ⟨47, 46, .rw, .asIs⟩, ⟨45, 39, .rw, .asIs⟩, ⟨38, 35, .rw, .asIs⟩, ⟨27, 16, .rw, .asIs⟩, ⟨15, 0, .ro, .asIs⟩] }
  | .alcoveNotify => { blk := .alcove, off := 0x8, width := 64, fields := [⟨63, 0, .w1c, .asIs⟩] }
  | .alcoveInflight => { blk := .alcove, off := 0x10, width := 32, fields := [⟨31, 16, .ro, .asIs⟩, ⟨15, 0, .rw, .asIs⟩] }
  | .alcoveEvt => { blk := .alcove, off := 0x18, width := 32, fields := [⟨0, 0, .w1c, .asIs⟩] }
  | .alcoveDirtyA => { blk := .alcove, off := 0x20, width := 64, fields := [⟨63, 3, .rw, .asIs⟩] }
  | .alcoveDirtyB => { blk := .alcove, off := 0x28, width := 64, fields := [⟨63, 3, .rw, .asIs⟩] }
  | .alcoveDirtyBase => { blk := .alcove, off := 0x30, width := 64, fields := [⟨63, 12, .rw, .asIs⟩] }
  | .alcoveDirtyCtl => { blk := .alcove, off := 0x38, width := 64, fields := [⟨63, 63, .rw, .asIs⟩, ⟨62, 62, .ro, .asIs⟩, ⟨39, 0, .rw, .asIs⟩] }
  | .alcoveDirtyMiss => { blk := .alcove, off := 0x40, width := 64, fields := [⟨47, 0, .ro, .asIs⟩] }
  | .dhH => { blk := .head, off := 0x8, width := 64, fields := [⟨63, 48, .rw, .asIs⟩, ⟨47, 32, .rw, .asIs⟩, ⟨31, 16, .rw, .asIs⟩, ⟨15, 0, .rw, .asIs⟩] }
  | .dhHLive => { blk := .head, off := 0x808, width := 64, fields := [⟨63, 48, .ro, .asIs⟩, ⟨47, 32, .ro, .asIs⟩, ⟨31, 16, .ro, .asIs⟩, ⟨15, 0, .ro, .asIs⟩] }
  | .dhV => { blk := .head, off := 0x10, width := 64, fields := [⟨63, 48, .rw, .asIs⟩, ⟨47, 32, .rw, .asIs⟩, ⟨31, 16, .rw, .asIs⟩, ⟨15, 0, .rw, .asIs⟩] }
  | .dhVLive => { blk := .head, off := 0x810, width := 64, fields := [⟨63, 48, .ro, .asIs⟩, ⟨47, 32, .ro, .asIs⟩, ⟨31, 16, .ro, .asIs⟩, ⟨15, 0, .ro, .asIs⟩] }
  | .dhClk => { blk := .head, off := 0x18, width := 64, fields := [⟨33, 33, .rw, .asIs⟩, ⟨32, 32, .rw, .asIs⟩, ⟨31, 0, .rw, .asIs⟩] }
  | .dhClkLive => { blk := .head, off := 0x818, width := 64, fields := [⟨33, 33, .ro, .asIs⟩, ⟨32, 32, .ro, .asIs⟩, ⟨31, 0, .ro, .asIs⟩] }
  | .dhLSrc => { blk := .head, off := 0x100, width := 64, n1 := 8, s1 := 0x20, fields := [⟨63, 63, .rw, .asIs⟩, ⟨44, 32, .rw, .asIs⟩, ⟨28, 16, .rw, .asIs⟩, ⟨11, 0, .rw, .asIs⟩] }
  | .dhLSrcLive => { blk := .head, off := 0x900, width := 64, n1 := 8, s1 := 0x20, fields := [⟨63, 63, .ro, .asIs⟩, ⟨44, 32, .ro, .asIs⟩, ⟨28, 16, .ro, .asIs⟩, ⟨11, 0, .ro, .asIs⟩] }
  | .dhLSize => { blk := .head, off := 0x108, width := 64, n1 := 8, s1 := 0x20, fields := [⟨32, 32, .rw, .asIs⟩, ⟨28, 16, .rw, .asIs⟩, ⟨12, 0, .rw, .asIs⟩] }
  | .dhLSizeLive => { blk := .head, off := 0x908, width := 64, n1 := 8, s1 := 0x20, fields := [⟨32, 32, .ro, .asIs⟩, ⟨28, 16, .ro, .asIs⟩, ⟨12, 0, .ro, .asIs⟩] }
  | .dhLDst => { blk := .head, off := 0x110, width := 32, n1 := 8, s1 := 0x20, fields := [⟨31, 16, .rw, .asIs⟩, ⟨15, 0, .rw, .asIs⟩] }
  | .dhLDstLive => { blk := .head, off := 0x910, width := 32, n1 := 8, s1 := 0x20, fields := [⟨31, 16, .ro, .asIs⟩, ⟨15, 0, .ro, .asIs⟩] }
  | .dhLBlend => { blk := .head, off := 0x118, width := 32, n1 := 8, s1 := 0x20, fields := [⟨9, 8, .rw, .eqAs 3 0⟩, ⟨7, 0, .rw, .asIs⟩] }
  | .dhLBlendLive => { blk := .head, off := 0x918, width := 32, n1 := 8, s1 := 0x20, fields := [⟨9, 8, .ro, .asIs⟩, ⟨7, 0, .ro, .asIs⟩] }
  | .dhCtrl => { blk := .head, off := 0x0, width := 64, fields := [⟨63, 32, .rw, .asIs⟩, ⟨1, 0, .rw, .eqAs 3 0⟩] }
  | .dhCtrlLive => { blk := .head, off := 0x800, width := 64, fields := [⟨63, 32, .ro, .asIs⟩, ⟨1, 0, .ro, .asIs⟩] }
  | .dhSync => { blk := .head, off := 0x20, width := 64, fields := [⟨63, 48, .rw, .asIs⟩, ⟨47, 32, .rw, .asIs⟩, ⟨31, 4, .rw, .asIs⟩, ⟨3, 3, .rw, .asIs⟩, ⟨1, 0, .rw, .eqAs 3 0⟩] }
  | .dhSyncLive => { blk := .head, off := 0x820, width := 64, fields := [⟨63, 48, .ro, .asIs⟩, ⟨47, 32, .ro, .asIs⟩, ⟨31, 4, .ro, .asIs⟩, ⟨3, 3, .ro, .asIs⟩, ⟨1, 0, .ro, .asIs⟩] }
  | .dhPass => { blk := .head, off := 0x28, width := 32, fields := [⟨14, 12, .rw, .asIs⟩, ⟨11, 0, .rw, .asIs⟩] }
  | .dhPassLive => { blk := .head, off := 0x828, width := 32, fields := [⟨14, 12, .ro, .asIs⟩, ⟨11, 0, .ro, .asIs⟩] }
  | .dhLink => { blk := .head, off := 0x400, width := 32, fields := [⟨11, 9, .rw, .asIs⟩, ⟨8, 6, .rw, .geAs 3 1⟩, ⟨5, 4, .rw, .asIs⟩, ⟨1, 0, .rw, .asIs⟩] }
  | .dhCommit => { blk := .head, off := 0x408, width := 32, fields := [⟨0, 0, .w1s, .asIs⟩] }
  | .dhStatus => { blk := .head, off := 0x410, width := 64, fields := [⟨63, 48, .ro, .asIs⟩, ⟨47, 32, .ro, .asIs⟩, ⟨31, 24, .ro, .asIs⟩, ⟨23, 16, .ro, .asIs⟩, ⟨15, 8, .ro, .asIs⟩, ⟨2, 2, .w1c, .asIs⟩, ⟨1, 1, .ro, .asIs⟩, ⟨0, 0, .w1c, .asIs⟩] }
  | .dhEvents => { blk := .head, off := 0x418, width := 32, fields := [⟨4, 4, .w1c, .asIs⟩, ⟨3, 3, .w1c, .asIs⟩, ⟨2, 2, .w1c, .asIs⟩, ⟨1, 1, .w1c, .asIs⟩, ⟨0, 0, .ro, .asIs⟩] }
  | .dhAuxCmd => { blk := .head, off := 0x420, width := 32, fields := [⟨31, 31, .wo, .asIs⟩, ⟨30, 28, .rw, .asIs⟩, ⟨23, 20, .rw, .asIs⟩, ⟨19, 0, .rw, .asIs⟩] }
  | .dhAuxStatus => { blk := .head, off := 0x428, width := 32, fields := [⟨2, 0, .ro, .asIs⟩] }
  | .dhAuxData => { blk := .head, off := 0x430, width := 64, n1 := 2, s1 := 0x8, fields := [⟨63, 0, .rw, .asIs⟩] }
  | .dhUnderruns => { blk := .head, off := 0x440, width := 64, fields := [⟨47, 0, .ro, .asIs⟩] }
  | .canvasPoolBase => { blk := .canvas, off := 0x0, width := 64, fields := [⟨47, 16, .rw, .asIs⟩] }
  | .canvasPoolPages => { blk := .canvas, off := 0x8, width := 32, fields := [⟨18, 0, .rw, .asIs⟩] }
  | .canvasPageStatus => { blk := .canvas, off := 0x10, width := 64, fields := [⟨44, 26, .ro, .asIs⟩, ⟨18, 0, .ro, .asIs⟩] }
  | .canvasPageOp => { blk := .canvas, off := 0x18, width := 64, fields := [⟨63, 63, .wo, .asIs⟩, ⟨55, 48, .ro, .asIs⟩, ⟨23, 19, .ro, .asIs⟩, ⟨18, 0, .rw, .asIs⟩] }
  | .canvasFetch => { blk := .canvas, off := 0x20, width := 32, fields := [⟨31, 0, .ro, .asIs⟩] }
  | .canvasUnknown => { blk := .canvas, off := 0x28, width := 64, fields := [⟨47, 0, .ro, .asIs⟩] }
  | .canvasClient => { blk := .cclient, off := 0x0, width := 64, fields := [⟨63, 63, .rw, .asIs⟩, ⟨62, 62, .rw, .asIs⟩, ⟨14, 0, .rw, .asIs⟩] }
  | .canvasClientPages => { blk := .cclient, off := 0x8, width := 64, fields := [⟨63, 32, .ro, .asIs⟩, ⟨31, 0, .rw, .asIs⟩] }
  | .canvasSurf => { blk := .csurf, off := 0x0, width := 64, fields := [⟨63, 62, .ro, .asIs⟩, ⟨61, 58, .ro, .asIs⟩, ⟨57, 55, .ro, .asIs⟩, ⟨54, 47, .ro, .asIs⟩, ⟨41, 29, .ro, .asIs⟩, ⟨28, 16, .ro, .asIs⟩, ⟨15, 0, .ro, .asIs⟩] }
  | .canvasSurfMap => { blk := .csurf, off := 0x8, width := 64, fields := [⟨63, 51, .ro, .asIs⟩, ⟨18, 0, .ro, .asIs⟩] }
  | .dramCanvasMax => { blk := .dram, off := 0x10, width := 32, fields := [⟨7, 0, .rw, .clamp 10 90⟩] }
  | .dramCfg => { blk := .dram, off := 0x0, width := 32, fields := [⟨22, 16, .ro, .asIs⟩, ⟨6, 0, .rw, .asIs⟩] }
  | .trkTdCtrl => { blk := .trk, off := 0xC00, width := 64, fields := [⟨63, 48, .rw, .clamp 20 2000⟩, ⟨15, 15, .rw, .asIs⟩, ⟨14, 12, .rw, .asIs⟩, ⟨11, 11, .rw, .asIs⟩, ⟨10, 8, .rw, .asIs⟩, ⟨2, 0, .rw, .asIs⟩] }
  | .trkTdStatus => { blk := .trk, off := 0xC08, width := 64, fields := [⟨63, 56, .ro, .asIs⟩, ⟨55, 48, .ro, .asIs⟩, ⟨47, 40, .ro, .asIs⟩, ⟨31, 24, .ro, .asIs⟩, ⟨23, 16, .ro, .asIs⟩, ⟨15, 8, .ro, .asIs⟩, ⟨5, 4, .ro, .asIs⟩, ⟨2, 2, .ro, .asIs⟩, ⟨1, 0, .ro, .asIs⟩] }
  | .trkTdCnt => { blk := .trk, off := 0xC40, width := 64, n1 := 10, s1 := 0x8, fields := [⟨47, 0, .ro, .asIs⟩] }
  | .wtdVendor => { blk := .tdwin, off := 0x0, width := 16, fields := [⟨15, 0, .ro, .asIs⟩] }
  | .wtdDevice => { blk := .tdwin, off := 0x2, width := 16, fields := [⟨15, 0, .ro, .asIs⟩] }
  | .wtdRev => { blk := .tdwin, off := 0x4, width := 16, fields := [⟨15, 0, .ro, .asIs⟩] }
  | .wtdLink => { blk := .tdwin, off := 0x6, width := 16, fields := [⟨7, 4, .ro, .asIs⟩, ⟨1, 0, .ro, .asIs⟩] }
  | .wtdCtrl => { blk := .tdwin, off := 0x8, width := 16, fields := [⟨1, 1, .rw, .asIs⟩, ⟨0, 0, .rw, .asIs⟩] }
  | .wtdImask => { blk := .tdwin, off := 0xA, width := 16, fields := [⟨4, 0, .rw, .asIs⟩] }
  | .wtdScratch => { blk := .tdwin, off := 0xC, width := 16, fields := [⟨15, 0, .rw, .asIs⟩] }
  | .wtdStLink => { blk := .tdwin, off := 0x10, width := 16, fields := [⟨3, 3, .rc, .asIs⟩, ⟨2, 2, .rc, .asIs⟩, ⟨1, 1, .rc, .asIs⟩, ⟨0, 0, .rc, .asIs⟩] }
  | .wtdStPcie => { blk := .tdwin, off := 0x12, width := 16, fields := [⟨5, 5, .rc, .asIs⟩, ⟨4, 4, .rc, .asIs⟩, ⟨3, 3, .rc, .asIs⟩, ⟨2, 2, .rc, .asIs⟩, ⟨1, 1, .rc, .asIs⟩, ⟨0, 0, .rc, .asIs⟩] }
  | .wtdStDisp => { blk := .tdwin, off := 0x14, width := 16, fields := [⟨2, 2, .rc, .asIs⟩, ⟨1, 1, .rc, .asIs⟩, ⟨0, 0, .rc, .asIs⟩] }
  | .wtdStHpd => { blk := .tdwin, off := 0x16, width := 16, fields := [⟨2, 2, .rc, .asIs⟩, ⟨1, 1, .rc, .asIs⟩, ⟨0, 0, .rc, .asIs⟩] }
  | .wtdStAux => { blk := .tdwin, off := 0x18, width := 16, fields := [⟨0, 0, .rc, .asIs⟩] }
  | .wtdCntCrc => { blk := .tdwin, off := 0x1A, width := 16, fields := [⟨15, 0, .rc, .asIs⟩] }
  | .wtdCntReplay => { blk := .tdwin, off := 0x1C, width := 16, fields := [⟨15, 0, .rc, .asIs⟩] }
  | .wtdCntOos => { blk := .tdwin, off := 0x1E, width := 16, fields := [⟨15, 0, .rc, .asIs⟩] }
  | .wtdAuxCmd => { blk := .tdwin, off := 0x20, width := 16, fields := [⟨15, 15, .rw, .asIs⟩, ⟨14, 12, .rw, .asIs⟩, ⟨7, 4, .rw, .asIs⟩, ⟨3, 0, .rw, .asIs⟩] }
  | .wtdAuxAddr => { blk := .tdwin, off := 0x22, width := 16, fields := [⟨15, 0, .rw, .asIs⟩] }
  | .wtdAuxStatus => { blk := .tdwin, off := 0x24, width := 16, fields := [⟨2, 0, .ro, .asIs⟩] }
  | .wtdAuxData => { blk := .tdwin, off := 0x30, width := 16, n1 := 8, s1 := 0x2, fields := [⟨15, 0, .rw, .asIs⟩] }
  | .usbCtrl => { blk := .usb, off := 0x0, width := 32, fields := [⟨31, 16, .rw, .clamp 1 1000⟩, ⟨0, 0, .rw, .asIs⟩] }
  | .usbAssign => { blk := .usb, off := 0x8, width := 32, fields := [⟨3, 0, .rw, .geAs 6 15⟩, ⟨7, 4, .rw, .geAs 6 15⟩, ⟨11, 8, .rw, .geAs 6 15⟩, ⟨15, 12, .rw, .geAs 6 15⟩, ⟨19, 16, .rw, .geAs 6 15⟩, ⟨23, 20, .rw, .geAs 6 15⟩, ⟨27, 24, .rw, .geAs 6 15⟩, ⟨31, 28, .rw, .geAs 6 15⟩] }
  | .upCtrl => { blk := .up, off := 0x0, width := 32, fields := [⟨31, 31, .rw, .asIs⟩, ⟨30, 30, .rw, .asIs⟩, ⟨27, 24, .rw, .asIs⟩, ⟨23, 16, .rw, .clamp 1 45⟩, ⟨0, 0, .rw, .asIs⟩] }
  | .upStatus => { blk := .up, off := 0x8, width := 32, fields := [⟨31, 16, .ro, .asIs⟩, ⟨14, 8, .ro, .asIs⟩, ⟨4, 4, .ro, .asIs⟩, ⟨3, 3, .ro, .asIs⟩, ⟨2, 0, .ro, .asIs⟩] }
  | .upMgmtSetup => { blk := .up, off := 0x10, width := 64, fields := [⟨63, 0, .ro, .asIs⟩] }
  | .upMgmtCtrl => { blk := .up, off := 0x18, width := 32, fields := [⟨31, 24, .ro, .asIs⟩, ⟨23, 23, .ro, .asIs⟩, ⟨22, 22, .w1c, .asIs⟩, ⟨21, 21, .w1c, .asIs⟩, ⟨8, 0, .rw, .asIs⟩] }
  | .upMgmtDone => { blk := .up, off := 0x20, width := 32, fields := [⟨15, 8, .wo, .asIs⟩, ⟨1, 0, .wo, .asIs⟩] }
  | .dnCtrl => { blk := .dn, off := 0x0, width := 32, fields := [⟨31, 31, .rw, .asIs⟩, ⟨30, 30, .rw, .asIs⟩, ⟨29, 29, .wo, .asIs⟩, ⟨7, 0, .rw, .eqAs 0 1⟩] }
  | .dnStatus => { blk := .dn, off := 0x8, width := 32, fields := [⟨31, 16, .ro, .asIs⟩, ⟨15, 15, .ro, .asIs⟩, ⟨14, 14, .w1c, .asIs⟩, ⟨13, 13, .ro, .asIs⟩, ⟨12, 11, .ro, .asIs⟩, ⟨10, 8, .ro, .asIs⟩, ⟨0, 0, .ro, .asIs⟩] }
  | .usbAudio => { blk := .usb, off := 0x800, width := 64, fields := [⟨63, 48, .rw, .asIs⟩, ⟨31, 29, .rw, .eqAs 6 7⟩, ⟨28, 28, .rw, .asIs⟩, ⟨22, 20, .rw, .eqAs 7 6⟩, ⟨18, 16, .rw, .asIs⟩, ⟨15, 15, .rw, .asIs⟩, ⟨14, 14, .rw, .asIs⟩] }
  | .usbAudioStatus => { blk := .usb, off := 0x808, width := 64, fields := [⟨63, 32, .ro, .asIs⟩, ⟨31, 16, .ro, .asIs⟩, ⟨15, 15, .ro, .asIs⟩, ⟨14, 14, .ro, .asIs⟩, ⟨13, 13, .ro, .asIs⟩, ⟨12, 12, .ro, .asIs⟩] }
  | .usbUnderrun => { blk := .usb, off := 0x810, width := 64, fields := [⟨47, 0, .ro, .asIs⟩] }
  | .usbOverrun => { blk := .usb, off := 0x818, width := 64, fields := [⟨47, 0, .ro, .asIs⟩] }
  | .newelPplim0 => { blk := .newel, off := 0x4000, width := 64, n1 := 13, s1 := 0x10, fields := [⟨63, 48, .rwl, .asIs⟩, ⟨47, 32, .rwl, .asIs⟩, ⟨31, 24, .rwl, .asIs⟩, ⟨23, 23, .rwl, .asIs⟩, ⟨11, 0, .rwl, .asIs⟩] }
  | .newelPplim1 => { blk := .newel, off := 0x4008, width := 64, n1 := 13, s1 := 0x10, fields := [⟨63, 48, .rwl, .asIs⟩, ⟨47, 32, .rwl, .asIs⟩, ⟨31, 24, .rwl, .asIs⟩, ⟨23, 16, .rwl, .asIs⟩, ⟨15, 12, .rwl, .asIs⟩, ⟨11, 8, .rwl, .asIs⟩, ⟨7, 4, .rwl, .asIs⟩, ⟨3, 0, .rwl, .asIs⟩] }
  | .newelPplock => { blk := .newel, off := 0x40E0, width := 64, fields := [⟨63, 63, .rwl, .asIs⟩, ⟨0, 0, .rwl, .asIs⟩] }
  | .tcCtrl => { blk := .tc, off := 0x0, width := 64, fields := [⟨63, 48, .rw, .asIs⟩, ⟨47, 32, .rw, .asIs⟩, ⟨31, 24, .rw, .clamp 10 20⟩, ⟨13, 13, .rw, .asIs⟩, ⟨12, 12, .rw, .asIs⟩, ⟨11, 11, .rw, .asIs⟩, ⟨9, 9, .rw, .asIs⟩, ⟨8, 8, .rw, .asIs⟩, ⟨7, 6, .rw, .eqAs 3 2⟩, ⟨3, 2, .rw, .asIs⟩, ⟨0, 0, .rw, .asIs⟩] }
  | .tcStatus => { blk := .tc, off := 0x8, width := 32, fields := [⟨27, 24, .ro, .asIs⟩, ⟨15, 15, .w1c, .asIs⟩, ⟨14, 14, .w1c, .asIs⟩, ⟨13, 13, .w1c, .asIs⟩, ⟨12, 12, .w1c, .asIs⟩, ⟨11, 11, .w1c, .asIs⟩, ⟨10, 10, .w1c, .asIs⟩, ⟨9, 9, .w1c, .asIs⟩, ⟨8, 8, .ro, .asIs⟩, ⟨7, 6, .ro, .asIs⟩, ⟨5, 5, .ro, .asIs⟩, ⟨4, 4, .ro, .asIs⟩, ⟨3, 0, .ro, .asIs⟩] }
  | .tcRxFull => { blk := .tc, off := 0x10, width := 64, fields := [⟨47, 0, .ro, .asIs⟩] }
  | .ppCfg => { blk := .pp, off := 0x0, width := 64, fields := [⟨63, 48, .rw, .asIs⟩, ⟨47, 40, .rw, .eqAs 0 1⟩, ⟨39, 32, .rw, .eqAs 0 1⟩, ⟨31, 16, .rw, .clamp 50 20000⟩, ⟨15, 8, .rw, .clamp 1 200⟩] }
  | .ppCfg2 => { blk := .pp, off := 0x8, width := 32, fields := [⟨11, 0, .rw, .asIs⟩] }
  | .ppStatus => { blk := .pp, off := 0x10, width := 64, fields := [⟨47, 40, .ro, .asIs⟩, ⟨39, 32, .ro, .asIs⟩, ⟨31, 24, .ro, .asIs⟩, ⟨20, 20, .ro, .asIs⟩, ⟨19, 16, .ro, .asIs⟩, ⟨15, 15, .ro, .asIs⟩, ⟨14, 14, .ro, .asIs⟩, ⟨13, 13, .w1c, .asIs⟩, ⟨12, 12, .w1c, .asIs⟩, ⟨11, 11, .ro, .asIs⟩, ⟨10, 10, .ro, .asIs⟩, ⟨9, 9, .ro, .asIs⟩, ⟨8, 8, .ro, .asIs⟩, ⟨2, 0, .ro, .asIs⟩] }
  | .ppMeas => { blk := .pp, off := 0x18, width := 64, fields := [⟨59, 48, .ro, .asIs⟩, ⟨43, 32, .ro, .asIs⟩, ⟨31, 16, .ro, .asIs⟩, ⟨15, 0, .ro, .asIs⟩] }
  | .powerTotal => { blk := .pwrsvc, off := 0x800, width := 32, fields := [⟨31, 0, .rw, .asIs⟩] }
  | .powerReserve => { blk := .pwrsvc, off := 0x808, width := 32, fields := [⟨31, 0, .ro, .asIs⟩] }
  | .powerAllot => { blk := .pwrsvc, off := 0x810, width := 32, n1 := 13, s1 := 0x8, fields := [⟨31, 0, .ro, .asIs⟩] }
  | .powerStatus => { blk := .pwrsvc, off := 0x880, width := 32, fields := [⟨0, 0, .w1c, .asIs⟩] }
  | .wdnStatus => { blk := .warden, off := 0x0, width := 64, fields := [⟨63, 48, .ro, .asIs⟩, ⟨47, 40, .ro, .asIs⟩, ⟨2, 2, .ro, .asIs⟩, ⟨1, 1, .ro, .asIs⟩, ⟨0, 0, .ro, .asIs⟩] }
  | .wdnSlotstate => { blk := .warden, off := 0x100, width := 64, n1 := 4, s1 := 0x8, fields := [⟨2, 0, .ro, .asIs⟩, ⟨6, 4, .ro, .asIs⟩, ⟨10, 8, .ro, .asIs⟩, ⟨14, 12, .ro, .asIs⟩, ⟨18, 16, .ro, .asIs⟩, ⟨22, 20, .ro, .asIs⟩, ⟨26, 24, .ro, .asIs⟩, ⟨30, 28, .ro, .asIs⟩, ⟨34, 32, .ro, .asIs⟩, ⟨38, 36, .ro, .asIs⟩, ⟨42, 40, .ro, .asIs⟩, ⟨46, 44, .ro, .asIs⟩, ⟨50, 48, .ro, .asIs⟩, ⟨54, 52, .ro, .asIs⟩, ⟨58, 56, .ro, .asIs⟩, ⟨62, 60, .ro, .asIs⟩] }
  | .fusePkhash => { blk := .newel, off := 0x6000, width := 64, n1 := 6, s1 := 0x8, fields := [⟨63, 0, .ro, .asIs⟩] }
  | .fuseSvn => { blk := .newel, off := 0x6030, width := 64, fields := [⟨63, 0, .ro, .asIs⟩] }
  | .fuseCfg => { blk := .newel, off := 0x6038, width := 32, fields := [⟨0, 0, .ro, .asIs⟩] }
  | .fuseSvnCtrl => { blk := .newel, off := 0x6100, width := 64, fields := [⟨63, 63, .wo, .asIs⟩, ⟨1, 1, .ro, .asIs⟩, ⟨0, 0, .ro, .asIs⟩] }
  | .trkSecKey => { blk := .trk, off := 0xE00, width := 64, fields := [⟨63, 63, .wo, .asIs⟩, ⟨13, 13, .rw, .asIs⟩, ⟨12, 12, .rw, .asIs⟩, ⟨8, 8, .rw, .asIs⟩, ⟨7, 6, .rw, .asIs⟩, ⟨5, 0, .rw, .asIs⟩] }
  | .trkSecStatus => { blk := .trk, off := 0xE08, width := 32, fields := [⟨15, 8, .ro, .asIs⟩, ⟨7, 7, .ro, .asIs⟩, ⟨6, 6, .ro, .asIs⟩, ⟨5, 5, .ro, .asIs⟩, ⟨3, 0, .ro, .asIs⟩] }
  | .newelTamperCtrl => { blk := .newel, off := 0x5000, width := 64, fields := [⟨63, 63, .rwl, .asIs⟩, ⟨23, 16, .rwl, .eqAs 0 1⟩, ⟨13, 8, .rwl, .asIs⟩, ⟨5, 0, .rwl, .asIs⟩] }
  | .newelTamperCause => { blk := .newel, off := 0x5008, width := 64, fields := [⟨63, 48, .ro, .asIs⟩, ⟨7, 7, .ro, .asIs⟩, ⟨5, 0, .ro, .asIs⟩] }
  | .bellSrc => { blk := .bell, off := 0x8000, width := 32, n1 := 4096, s1 := 0x8, fields := [⟨15, 15, .rw, .asIs⟩, ⟨11, 8, .rw, .asIs⟩, ⟨6, 4, .rw, .asIs⟩, ⟨1, 1, .ro, .asIs⟩, ⟨0, 0, .w1c, .asIs⟩] }
  | .bellStatus => { blk := .bell, off := 0x10, width := 64, fields := [⟨63, 48, .ro, .asIs⟩, ⟨47, 32, .ro, .asIs⟩, ⟨31, 16, .ro, .asIs⟩] }
  | .bellFault => { blk := .bell, off := 0x18, width := 64, fields := [⟨40, 40, .w1c, .asIs⟩, ⟨34, 32, .ro, .asIs⟩, ⟨28, 16, .ro, .asIs⟩, ⟨11, 0, .ro, .asIs⟩] }
  | .bellDepth => { blk := .bell, off := 0x20, width := 64, fields := [⟨4, 0, .ro, .asIs⟩, ⟨12, 8, .ro, .asIs⟩, ⟨20, 16, .ro, .asIs⟩, ⟨28, 24, .ro, .asIs⟩, ⟨36, 32, .ro, .asIs⟩, ⟨44, 40, .ro, .asIs⟩, ⟨52, 48, .ro, .asIs⟩, ⟨60, 56, .ro, .asIs⟩] }
  | .bellDoorbell => { blk := .bell, off := 0x0, width := 32, fields := [⟨31, 0, .wo, .asIs⟩] }
  | .bellEoi => { blk := .bell, off := 0x8, width := 32, fields := [⟨31, 0, .wo, .asIs⟩] }
  | .bellHostmsg => { blk := .bell, off := 0x40, width := 64, fields := [⟨42, 40, .wo, .asIs⟩, ⟨39, 30, .wo, .asIs⟩, ⟨15, 0, .wo, .asIs⟩] }
  | .bellStack => { blk := .bell, off := 0x100, width := 64, n1 := 8, s1 := 0x20, n2 := 4, s2 := 0x8, fields := [⟨15, 0, .ro, .asIs⟩, ⟨31, 16, .ro, .asIs⟩, ⟨47, 32, .ro, .asIs⟩, ⟨63, 48, .ro, .asIs⟩] }
  | .bellPendsum => { blk := .bell, off := 0x400, width := 64, n1 := 64, s1 := 0x8, fields := [⟨63, 0, .ro, .asIs⟩] }
  | .pwrCfg => { blk := .pwrsvc, off := 0x400, width := 64, fields := [⟨63, 48, .rw, .clamp 1 1000⟩, ⟨47, 32, .rw, .clamp 1 100⟩, ⟨0, 0, .rw, .asIs⟩] }
  | .pwrWakeEn => { blk := .pwrsvc, off := 0x408, width := 32, fields := [⟨7, 0, .rw, .asIs⟩] }
  | .pwrTimer => { blk := .pwrsvc, off := 0x410, width := 32, fields := [⟨31, 0, .rw, .asIs⟩] }
  | .pwrStatus => { blk := .pwrsvc, off := 0x418, width := 64, fields := [⟨63, 48, .ro, .asIs⟩, ⟨47, 40, .ro, .asIs⟩, ⟨15, 8, .w1c, .asIs⟩, ⟨4, 4, .ro, .asIs⟩, ⟨3, 3, .ro, .asIs⟩, ⟨2, 0, .ro, .asIs⟩] }
  | .pwrAnswer => { blk := .pwrsvc, off := 0x480, width := 64, n1 := 11, s1 := 0x8, fields := [⟨63, 48, .rw, .asIs⟩, ⟨47, 24, .rw, .asIs⟩, ⟨15, 8, .rw, .asIs⟩, ⟨1, 0, .rw, .asIs⟩] }
  | .pwrWakeStep => { blk := .pwrsvc, off := 0x508, width := 64, n1 := 16, s1 := 0x8, fields := [⟨47, 16, .ro, .asIs⟩, ⟨15, 8, .ro, .asIs⟩, ⟨7, 0, .ro, .asIs⟩] }
  | .monCtrl => { blk := .mon, off := 0x0, width := 64, fields := [⟨63, 63, .rw, .asIs⟩, ⟨62, 62, .wo, .asIs⟩, ⟨61, 61, .wo, .asIs⟩, ⟨60, 60, .rw, .asIs⟩, ⟨59, 56, .rw, .asIs⟩, ⟨41, 36, .rw, .asIs⟩, ⟨31, 16, .rw, .eqAs 0 1⟩, ⟨12, 0, .rw, .asIs⟩] }
  | .monLin => { blk := .mon, off := 0x8, width := 64, fields := [⟨63, 32, .rw, .asIs⟩, ⟨31, 0, .rw, .asIs⟩] }
  | .monMin => { blk := .mon, off := 0x10, width := 64, fields := [⟨47, 0, .ro, .asIs⟩] }
  | .monSnapMin => { blk := .mon, off := 0x110, width := 64, fields := [⟨47, 0, .ro, .asIs⟩] }
  | .monMax => { blk := .mon, off := 0x18, width := 64, fields := [⟨47, 0, .ro, .asIs⟩] }
  | .monSnapMax => { blk := .mon, off := 0x118, width := 64, fields := [⟨47, 0, .ro, .asIs⟩] }
  | .monCount => { blk := .mon, off := 0x20, width := 64, fields := [⟨63, 63, .ro, .asIs⟩, ⟨47, 0, .ro, .asIs⟩] }
  | .monSnapCount => { blk := .mon, off := 0x120, width := 64, fields := [⟨63, 63, .ro, .asIs⟩, ⟨47, 0, .ro, .asIs⟩] }
  | .monSum => { blk := .mon, off := 0x28, width := 64, fields := [⟨63, 0, .ro, .asIs⟩] }
  | .monSnapSum => { blk := .mon, off := 0x128, width := 64, fields := [⟨63, 0, .ro, .asIs⟩] }
  | .monStatus => { blk := .mon, off := 0x30, width := 32, fields := [⟨0, 0, .w1c, .asIs⟩] }
  | .monBin => { blk := .mon, off := 0x40, width := 32, n1 := 32, s1 := 0x4, fields := [⟨31, 0, .ro, .asIs⟩] }
  | .monSnapBin => { blk := .mon, off := 0x140, width := 32, n1 := 32, s1 := 0x4, fields := [⟨31, 0, .ro, .asIs⟩] }
  | .hallErrCtrl => { blk := .hall, off := 0x1000, width := 32, fields := [⟨31, 16, .rw, .clamp 10 10000⟩, ⟨7, 0, .rw, .eqAs 0 1⟩] }
  | .hallFlightCmd => { blk := .hall, off := 0x1008, width := 64, fields := [⟨39, 32, .wo, .asIs⟩, ⟨31, 30, .wo, .asIs⟩, ⟨15, 8, .wo, .asIs⟩, ⟨0, 0, .w1c, .asIs⟩] }
  | .hallErrRing => { blk := .hall, off := 0x1010, width := 64, fields := [⟨63, 48, .ro, .asIs⟩, ⟨31, 16, .rw, .asIs⟩, ⟨15, 0, .ro, .asIs⟩] }
  | .svcErrCtrl => { blk := .monsvc, off := 0x9000, width := 32, fields := [⟨31, 16, .rw, .clamp 10 10000⟩, ⟨7, 0, .rw, .eqAs 0 1⟩] }
  | .svcFlightCmd => { blk := .monsvc, off := 0x9008, width := 64, fields := [⟨39, 32, .wo, .asIs⟩, ⟨31, 30, .wo, .asIs⟩, ⟨15, 8, .wo, .asIs⟩, ⟨0, 0, .w1c, .asIs⟩] }
  | .svcErrRing => { blk := .monsvc, off := 0x9010, width := 64, fields := [⟨63, 48, .ro, .asIs⟩, ⟨31, 16, .rw, .asIs⟩, ⟨15, 0, .ro, .asIs⟩] }
  | .hallFlight => { blk := .hall, off := 0x3000, width := 32, n1 := 16, s1 := 0x80, n2 := 16, s2 := 0x8, fields := [⟨31, 24, .ro, .asIs⟩, ⟨23, 8, .ro, .asIs⟩, ⟨1, 0, .ro, .asIs⟩] }
  | .svcFlight => { blk := .monsvc, off := 0xA000, width := 32, n1 := 16, s1 := 0x80, n2 := 16, s2 := 0x8, fields := [⟨31, 24, .ro, .asIs⟩, ⟨23, 8, .ro, .asIs⟩, ⟨1, 0, .ro, .asIs⟩] }
  | .chipHallCtl => { blk := .monsvc, off := 0x9100, width := 64, fields := [⟨3, 3, .w1s, .asIs⟩, ⟨2, 2, .w1s, .asIs⟩, ⟨1, 0, .ro, .asIs⟩, ⟨11, 11, .w1s, .asIs⟩, ⟨10, 10, .w1s, .asIs⟩, ⟨9, 8, .ro, .asIs⟩, ⟨19, 19, .w1s, .asIs⟩, ⟨18, 18, .w1s, .asIs⟩, ⟨17, 16, .ro, .asIs⟩, ⟨27, 27, .w1s, .asIs⟩, ⟨26, 26, .w1s, .asIs⟩, ⟨25, 24, .ro, .asIs⟩, ⟨32, 32, .w1c, .asIs⟩] }
  | .newelWdog => { blk := .newel, off := 0x7000, width := 64, fields := [⟨63, 48, .ro, .asIs⟩, ⟨47, 32, .rw, .clamp 10 60000⟩, ⟨8, 8, .ro, .asIs⟩, ⟨7, 0, .wo, .asIs⟩] }
  | .newelSafe => { blk := .newel, off := 0x7010, width := 64, fields := [⟨63, 48, .rw, .atMost 10000⟩, ⟨9, 9, .wo, .asIs⟩, ⟨8, 8, .wo, .asIs⟩, ⟨7, 7, .ro, .asIs⟩, ⟨6, 0, .ro, .asIs⟩] }
  | .bootStatus => { blk := .newel, off := 0x100, width := 64, fields := [⟨39, 32, .ro, .asIs⟩, ⟨23, 21, .ro, .asIs⟩, ⟨20, 18, .ro, .asIs⟩, ⟨17, 16, .ro, .asIs⟩, ⟨15, 8, .ro, .asIs⟩, ⟨7, 0, .ro, .asIs⟩] }
  | .bootLoad => { blk := .newel, off := 0x108, width := 64, fields := [⟨63, 63, .wo, .asIs⟩, ⟨62, 62, .rw, .asIs⟩, ⟨61, 61, .ro, .asIs⟩, ⟨55, 48, .ro, .asIs⟩, ⟨47, 0, .rw, .asIs⟩] }
  | .chipHallReset => { blk := .monsvc, off := 0x9108, width := 32, fields := [⟨3, 0, .w1s, .asIs⟩] }
  | .gpioCtrl => { blk := .newel, off := 0xA000, width := 64, fields := [⟨47, 32, .ro, .asIs⟩, ⟨31, 16, .rw, .asIs⟩, ⟨15, 0, .rw, .asIs⟩] }
  | .gpioPull => { blk := .newel, off := 0xA008, width := 32, fields := [⟨31, 16, .rw, .asIs⟩, ⟨15, 0, .rw, .asIs⟩] }
  | .newelTemp => { blk := .newel, off := 0x7020, width := 32, fields := [⟨31, 16, .ro, .asIs⟩, ⟨15, 0, .ro, .asIs⟩] }

/-- The Reset column of the register tables, one value for a whole register (fields with no reset stated: 0, assumption log 3).
Registers whose instances differ at reset are in `regReset`. -/
def regResetBase : RegName → Nat
  | .hallWdog => 0xA
  | .svcWdog => 0xA
  | .hallRiserCtrl => 0xF2401
  | .svcRiserCtrl => 0xF2401
  | .hallRiserStatus => 0x24
  | .svcRiserStatus => 0x24
  | .newelVceil => 0x3434343434
  | .chipCatchup => 0x1919191919
  | .usherCtl => 0x1
  | .quadStatus => 0x83F
  | .laneTxeq => 0xF0D3E00
  | .laneEyeCtrl => 0x10000000001
  | .trkLinkCtrl => 0x8000000
  | .trkVcCfg => 0x1010101010101010
  | .trkCfg => 0xFF000000000000
  | .trkPair => 0x3250000000
  | .hallRedC => 0xFFFFFFFF
  | .hallRedCtrl => 0x64109000000000
  | .hallRedLive => 0xFFFFFFFF
  | .hallQadm => 0x6
  | .galCtrl => 0xA00000000000000
  | .ethCtrl => 0x5EE000000000000
  | .ethTag => 0x81000000
  | .hallBufStatus => 0x105FF0
  | .hallBufCtrl => 0x803E800100001
  | .hallEpochStatus => 0x10000
  | .spCtrl => 0x4050000000
  | .hallSampleCtrl => 0x40
  | .hallPnode => 0x10000000000000
  | .hallPnodeLive => 0x10000000000000
  | .hallCellLink => 0xFFFF
  | .hostCfg => 0x271000001000
  | .prtBridge => 0x400271014000000
  | .dhLBlend => 0xFF
  | .dhLBlendLive => 0xFF
  | .dhSync => 0x100000000
  | .dhSyncLive => 0x100000000
  | .dhLink => 0x40
  | .dramCanvasMax => 0x28
  | .trkTdCtrl => 0x64000000000000
  | .wtdLink => 0x30
  | .usbCtrl => 0x320000
  | .usbAssign => 0xFFFFFFFF
  | .upCtrl => 0x280001
  | .dnCtrl => 0x80000008
  | .dnStatus => 0x700
  | .usbAudio => 0xE0008000
  | .newelPplock => 0x1
  | .tcCtrl => 0xA000000
  | .ppCfg => 0x643203E81400
  | .ppCfg2 => 0xFFF
  | .newelTamperCtrl => 0xA003C
  | .pwrCfg => 0x32000A00000000
  | .pwrWakeEn => 0xFF
  | .monCtrl => 0x640000
  | .monLin => 0x100000000
  | .monMin => 0xFFFFFFFFFFFF
  | .monSnapMin => 0xFFFFFFFFFFFF
  | .hallErrCtrl => 0x640010
  | .svcErrCtrl => 0x640010
  | .newelWdog => 0x3E800000000
  | .newelSafe => 0x64000000000000
  | .gpioPull => 0xFFFF
  | _ => 0

/-- All register names, in the order of the tables. -/
def regNames0 : List RegName := [.hallWdog, .svcWdog, .tbNow, .tbStatus, .hallRiserCtrl, .svcRiserCtrl, .hallRiserStatus, .svcRiserStatus, .newelVceil, .hallMode, .hallLsOrigin, .hallLsSeed, .chipCatchup, .usherCtl, .usherStatus, .quadPersonality, .pcierefCtrl, .quadPll, .quadStatus, .laneCtrl, .laneTxeq, .laneRxeq, .laneStatus, .lanePrbs, .laneEyeCtrl, .laneEyeStatus, .laneCnt, .laneSnap, .laneRxffe, .trkLinkCtrl, .trkLinkStatus, .trkTxSeq, .trkRxSeq, .trkVcCfg, .trkVcCredit, .trkPos, .trkCnt, .trkCfg, .linkId, .linkIdLock, .trkTrain, .trkNonce, .trkPeerNonce, .trkPeerId, .trkWidth, .trkPair, .trkPairStatus, .trkPairMap, .trkPairCnt, .hallRedC, .hallRedCtrl, .hallRedLive, .hallQadm, .galCtrl, .galBase, .galWr, .galRd, .galStatus, .galLost, .galOverwritten]
def regNames1 : List RegName := [.ethCtrl, .ethTag, .ethCnt, .hallBufStatus, .hallBufCtrl, .hallDrop, .hallEpochStatus, .hallEpochDrain, .hallOrderBreak, .hallInd, .hallIndLive, .spCtrl, .spStatus, .spFo, .hallMtrliveTc, .hallMtrliveTp, .hallSampleCtrl, .hallQsamp, .hallPnode, .hallPedge, .hallEntry, .hallTblMiss, .hallPnodeLive, .hallPedgeLive, .hallEntryLive, .hallTblMissLive, .hallTblDef, .hallTblExt, .hallTblStatus, .hallCellLink, .hallUshq, .hallProgStage, .hallProgSrc, .hallMapCtrl, .hallMapStatus, .hallCntPkt, .hallCntByte, .prtLafAddr, .prtLafMask, .prtLafData, .prtLafCtrl, .hostCfg, .hostStatus, .prtBridge, .prtStatus, .alcoveCfg, .alcoveNotify, .alcoveInflight, .alcoveEvt, .alcoveDirtyA, .alcoveDirtyB, .alcoveDirtyBase, .alcoveDirtyCtl, .alcoveDirtyMiss, .dhH, .dhHLive, .dhV, .dhVLive, .dhClk, .dhClkLive]
def regNames2 : List RegName := [.dhLSrc, .dhLSrcLive, .dhLSize, .dhLSizeLive, .dhLDst, .dhLDstLive, .dhLBlend, .dhLBlendLive, .dhCtrl, .dhCtrlLive, .dhSync, .dhSyncLive, .dhPass, .dhPassLive, .dhLink, .dhCommit, .dhStatus, .dhEvents, .dhAuxCmd, .dhAuxStatus, .dhAuxData, .dhUnderruns, .canvasPoolBase, .canvasPoolPages, .canvasPageStatus, .canvasPageOp, .canvasFetch, .canvasUnknown, .canvasClient, .canvasClientPages, .canvasSurf, .canvasSurfMap, .dramCanvasMax, .dramCfg, .trkTdCtrl, .trkTdStatus, .trkTdCnt, .wtdVendor, .wtdDevice, .wtdRev, .wtdLink, .wtdCtrl, .wtdImask, .wtdScratch, .wtdStLink, .wtdStPcie, .wtdStDisp, .wtdStHpd, .wtdStAux, .wtdCntCrc, .wtdCntReplay, .wtdCntOos, .wtdAuxCmd, .wtdAuxAddr, .wtdAuxStatus, .wtdAuxData, .usbCtrl, .usbAssign, .upCtrl, .upStatus]
def regNames3 : List RegName := [.upMgmtSetup, .upMgmtCtrl, .upMgmtDone, .dnCtrl, .dnStatus, .usbAudio, .usbAudioStatus, .usbUnderrun, .usbOverrun, .newelPplim0, .newelPplim1, .newelPplock, .tcCtrl, .tcStatus, .tcRxFull, .ppCfg, .ppCfg2, .ppStatus, .ppMeas, .powerTotal, .powerReserve, .powerAllot, .powerStatus, .wdnStatus, .wdnSlotstate, .fusePkhash, .fuseSvn, .fuseCfg, .fuseSvnCtrl, .trkSecKey, .trkSecStatus, .newelTamperCtrl, .newelTamperCause, .bellSrc, .bellStatus, .bellFault, .bellDepth, .bellDoorbell, .bellEoi, .bellHostmsg, .bellStack, .bellPendsum, .pwrCfg, .pwrWakeEn, .pwrTimer, .pwrStatus, .pwrAnswer, .pwrWakeStep, .monCtrl, .monLin, .monMin, .monSnapMin, .monMax, .monSnapMax, .monCount, .monSnapCount, .monSum, .monSnapSum, .monStatus, .monBin]
def regNames4 : List RegName := [.monSnapBin, .hallErrCtrl, .hallFlightCmd, .hallErrRing, .svcErrCtrl, .svcFlightCmd, .svcErrRing, .hallFlight, .svcFlight, .chipHallCtl, .newelWdog, .newelSafe, .bootStatus, .bootLoad, .chipHallReset, .gpioCtrl, .gpioPull, .newelTemp]
def regNames : List RegName := regNames0 ++ regNames1 ++ regNames2 ++ regNames3 ++ regNames4

/-! The fields, named after their registers. -/

/-- `HALL_WDOG.STUCK_COUNT` -/
def F.hallWdogStuckCount : Fld := ⟨.hallWdog, 31, 16⟩
/-- `HALL_WDOG.LIMIT` -/
def F.hallWdogLimit : Fld := ⟨.hallWdog, 9, 0⟩
/-- `SVC_WDOG.STUCK_COUNT` -/
def F.svcWdogStuckCount : Fld := ⟨.svcWdog, 31, 16⟩
/-- `SVC_WDOG.LIMIT` -/
def F.svcWdogLimit : Fld := ⟨.svcWdog, 9, 0⟩
/-- `TB_NOW.VALUE` -/
def F.tbNowValue : Fld := ⟨.tbNow, 63, 0⟩
/-- `TB_STATUS.DEEP_GAP` -/
def F.tbStatusDeepGap : Fld := ⟨.tbStatus, 2, 2⟩
/-- `TB_STATUS.HOLDOVER` -/
def F.tbStatusHoldover : Fld := ⟨.tbStatus, 1, 1⟩
/-- `TB_STATUS.LOCKED` -/
def F.tbStatusLocked : Fld := ⟨.tbStatus, 0, 0⟩
/-- `HALL_RISER_CTRL.HEADROOM` -/
def F.hallRiserCtrlHeadroom : Fld := ⟨.hallRiserCtrl, 23, 16⟩
/-- `HALL_RISER_CTRL.VSET` -/
def F.hallRiserCtrlVset : Fld := ⟨.hallRiserCtrl, 13, 8⟩
/-- `HALL_RISER_CTRL.MODE` -/
def F.hallRiserCtrlMode : Fld := ⟨.hallRiserCtrl, 0, 0⟩
/-- `SVC_RISER_CTRL.HEADROOM` -/
def F.svcRiserCtrlHeadroom : Fld := ⟨.svcRiserCtrl, 23, 16⟩
/-- `SVC_RISER_CTRL.VSET` -/
def F.svcRiserCtrlVset : Fld := ⟨.svcRiserCtrl, 13, 8⟩
/-- `SVC_RISER_CTRL.MODE` -/
def F.svcRiserCtrlMode : Fld := ⟨.svcRiserCtrl, 0, 0⟩
/-- `HALL_RISER_STATUS.CYCLE_PS` -/
def F.hallRiserStatusCyclePs : Fld := ⟨.hallRiserStatus, 31, 16⟩
/-- `HALL_RISER_STATUS.AVS_ERR` -/
def F.hallRiserStatusAvsErr : Fld := ⟨.hallRiserStatus, 9, 9⟩
/-- `HALL_RISER_STATUS.SHORT` -/
def F.hallRiserStatusShort : Fld := ⟨.hallRiserStatus, 8, 8⟩
/-- `HALL_RISER_STATUS.AT_FLOOR` -/
def F.hallRiserStatusAtFloor : Fld := ⟨.hallRiserStatus, 7, 7⟩
/-- `HALL_RISER_STATUS.AT_CEIL` -/
def F.hallRiserStatusAtCeil : Fld := ⟨.hallRiserStatus, 6, 6⟩
/-- `HALL_RISER_STATUS.VNOW` -/
def F.hallRiserStatusVnow : Fld := ⟨.hallRiserStatus, 5, 0⟩
/-- `SVC_RISER_STATUS.CYCLE_PS` -/
def F.svcRiserStatusCyclePs : Fld := ⟨.svcRiserStatus, 31, 16⟩
/-- `SVC_RISER_STATUS.AVS_ERR` -/
def F.svcRiserStatusAvsErr : Fld := ⟨.svcRiserStatus, 9, 9⟩
/-- `SVC_RISER_STATUS.SHORT` -/
def F.svcRiserStatusShort : Fld := ⟨.svcRiserStatus, 8, 8⟩
/-- `SVC_RISER_STATUS.AT_FLOOR` -/
def F.svcRiserStatusAtFloor : Fld := ⟨.svcRiserStatus, 7, 7⟩
/-- `SVC_RISER_STATUS.AT_CEIL` -/
def F.svcRiserStatusAtCeil : Fld := ⟨.svcRiserStatus, 6, 6⟩
/-- `SVC_RISER_STATUS.VNOW` -/
def F.svcRiserStatusVnow : Fld := ⟨.svcRiserStatus, 5, 0⟩
/-- `NEWEL_VCEIL.LOCK` -/
def F.newelVceilLock : Fld := ⟨.newelVceil, 63, 63⟩
/-- `NEWEL_VCEIL.CEIL_S` -/
def F.newelVceilCeilS : Fld := ⟨.newelVceil, 37, 32⟩
/-- `NEWEL_VCEIL.CEIL_H3` -/
def F.newelVceilCeilH3 : Fld := ⟨.newelVceil, 29, 24⟩
/-- `NEWEL_VCEIL.CEIL_H2` -/
def F.newelVceilCeilH2 : Fld := ⟨.newelVceil, 21, 16⟩
/-- `NEWEL_VCEIL.CEIL_H1` -/
def F.newelVceilCeilH1 : Fld := ⟨.newelVceil, 13, 8⟩
/-- `NEWEL_VCEIL.CEIL_H0` -/
def F.newelVceilCeilH0 : Fld := ⟨.newelVceil, 5, 0⟩
/-- `HALL_MODE.LS_ACTIVE` -/
def F.hallModeLsActive : Fld := ⟨.hallMode, 1, 1⟩
/-- `HALL_MODE.GUARANTEE` -/
def F.hallModeGuarantee : Fld := ⟨.hallMode, 0, 0⟩
/-- `HALL_LS_ORIGIN.EPOCH` -/
def F.hallLsOriginEpoch : Fld := ⟨.hallLsOrigin, 57, 0⟩
/-- `HALL_LS_SEED.SEED` -/
def F.hallLsSeedSeed : Fld := ⟨.hallLsSeed, 63, 0⟩
/-- `CHIP_CATCHUP.CANVAS` -/
def F.chipCatchupCanvas : Fld := ⟨.chipCatchup, 37, 32⟩
/-- `CHIP_CATCHUP.MON` -/
def F.chipCatchupMon : Fld := ⟨.chipCatchup, 29, 24⟩
/-- `CHIP_CATCHUP.RISER` -/
def F.chipCatchupRiser : Fld := ⟨.chipCatchup, 21, 16⟩
/-- `CHIP_CATCHUP.PD` -/
def F.chipCatchupPd : Fld := ⟨.chipCatchup, 13, 8⟩
/-- `CHIP_CATCHUP.ISO` -/
def F.chipCatchupIso : Fld := ⟨.chipCatchup, 5, 0⟩
/-- `USHER_CTL.ENTRY` -/
def F.usherCtlEntry : Fld := ⟨.usherCtl, 31, 16⟩
/-- `USHER_CTL.THREAD_EN` -/
def F.usherCtlThreadEn : Fld := ⟨.usherCtl, 15, 8⟩
/-- `USHER_CTL.HALT` -/
def F.usherCtlHalt : Fld := ⟨.usherCtl, 1, 1⟩
/-- `USHER_CTL.RESET` -/
def F.usherCtlReset : Fld := ⟨.usherCtl, 0, 0⟩
/-- `USHER_STATUS.DOUBLE_FAULT` -/
def F.usherStatusDoubleFault : Fld := ⟨.usherStatus, 31, 24⟩
/-- `USHER_STATUS.HALTED` -/
def F.usherStatusHalted : Fld := ⟨.usherStatus, 23, 16⟩
/-- `USHER_STATUS.WAITING` -/
def F.usherStatusWaiting : Fld := ⟨.usherStatus, 15, 8⟩
/-- `USHER_STATUS.OT_USED` -/
def F.usherStatusOtUsed : Fld := ⟨.usherStatus, 5, 0⟩
/-- `QUAD_PERSONALITY.SRIS` -/
def F.quadPersonalitySris : Fld := ⟨.quadPersonality, 44, 44⟩
/-- `QUAD_PERSONALITY.UNIT3_HI` -/
def F.quadPersonalityUnit3Hi : Fld := ⟨.quadPersonality, 39, 36⟩
/-- `QUAD_PERSONALITY.UNIT3` -/
def F.quadPersonalityUnit3 : Fld := ⟨.quadPersonality, 34, 32⟩
/-- `QUAD_PERSONALITY.UNIT2_HI` -/
def F.quadPersonalityUnit2Hi : Fld := ⟨.quadPersonality, 31, 28⟩
/-- `QUAD_PERSONALITY.UNIT2` -/
def F.quadPersonalityUnit2 : Fld := ⟨.quadPersonality, 26, 24⟩
/-- `QUAD_PERSONALITY.UNIT1_HI` -/
def F.quadPersonalityUnit1Hi : Fld := ⟨.quadPersonality, 23, 20⟩
/-- `QUAD_PERSONALITY.UNIT1` -/
def F.quadPersonalityUnit1 : Fld := ⟨.quadPersonality, 18, 16⟩
/-- `QUAD_PERSONALITY.UNIT0_HI` -/
def F.quadPersonalityUnit0Hi : Fld := ⟨.quadPersonality, 15, 12⟩
/-- `QUAD_PERSONALITY.UNIT0` -/
def F.quadPersonalityUnit0 : Fld := ⟨.quadPersonality, 10, 8⟩
/-- `QUAD_PERSONALITY.SPLIT` -/
def F.quadPersonalitySplit : Fld := ⟨.quadPersonality, 7, 4⟩
/-- `QUAD_PERSONALITY.MODE` -/
def F.quadPersonalityMode : Fld := ⟨.quadPersonality, 2, 0⟩
/-- `PCIEREF_CTRL.EN1` -/
def F.pcierefCtrlEn1 : Fld := ⟨.pcierefCtrl, 15, 15⟩
/-- `PCIEREF_CTRL.SRC1` -/
def F.pcierefCtrlSrc1 : Fld := ⟨.pcierefCtrl, 14, 13⟩
/-- `PCIEREF_CTRL.SSC1` -/
def F.pcierefCtrlSsc1 : Fld := ⟨.pcierefCtrl, 11, 8⟩
/-- `PCIEREF_CTRL.EN0` -/
def F.pcierefCtrlEn0 : Fld := ⟨.pcierefCtrl, 7, 7⟩
/-- `PCIEREF_CTRL.SRC0` -/
def F.pcierefCtrlSrc0 : Fld := ⟨.pcierefCtrl, 6, 5⟩
/-- `PCIEREF_CTRL.SSC0` -/
def F.pcierefCtrlSsc0 : Fld := ⟨.pcierefCtrl, 3, 0⟩
/-- `QUAD_PLL.SSC_A` -/
def F.quadPllSscA : Fld := ⟨.quadPll, 15, 12⟩
/-- `QUAD_PLL.SSC_B` -/
def F.quadPllSscB : Fld := ⟨.quadPll, 11, 8⟩
/-- `QUAD_PLL.B_LOOP` -/
def F.quadPllBLoop : Fld := ⟨.quadPll, 0, 0⟩
/-- `QUAD_STATUS.CFG_ERR` -/
def F.quadStatusCfgErr : Fld := ⟨.quadStatus, 31, 24⟩
/-- `QUAD_STATUS.CFG_NEW` -/
def F.quadStatusCfgNew : Fld := ⟨.quadStatus, 23, 23⟩
/-- `QUAD_STATUS.CFG_INFO` -/
def F.quadStatusCfgInfo : Fld := ⟨.quadStatus, 22, 16⟩
/-- `QUAD_STATUS.READY` -/
def F.quadStatusReady : Fld := ⟨.quadStatus, 11, 11⟩
/-- `QUAD_STATUS.REF_LOSS` -/
def F.quadStatusRefLoss : Fld := ⟨.quadStatus, 10, 10⟩
/-- `QUAD_STATUS.B_HOLD` -/
def F.quadStatusBHold : Fld := ⟨.quadStatus, 9, 9⟩
/-- `QUAD_STATUS.A_HOLD` -/
def F.quadStatusAHold : Fld := ⟨.quadStatus, 8, 8⟩
/-- `QUAD_STATUS.B_LOCK` -/
def F.quadStatusBLock : Fld := ⟨.quadStatus, 7, 7⟩
/-- `QUAD_STATUS.A_LOCK` -/
def F.quadStatusALock : Fld := ⟨.quadStatus, 6, 6⟩
/-- `QUAD_STATUS.LOOP_TRK` -/
def F.quadStatusLoopTrk : Fld := ⟨.quadStatus, 5, 0⟩
/-- `LANE_CTRL.LPBK` -/
def F.laneCtrlLpbk : Fld := ⟨.laneCtrl, 17, 16⟩
/-- `LANE_CTRL.PRECODE` -/
def F.laneCtrlPrecode : Fld := ⟨.laneCtrl, 15, 14⟩
/-- `LANE_CTRL.RATE` -/
def F.laneCtrlRate : Fld := ⟨.laneCtrl, 13, 12⟩
/-- `LANE_CTRL.LOOP_REF` -/
def F.laneCtrlLoopRef : Fld := ⟨.laneCtrl, 11, 11⟩
/-- `LANE_CTRL.PLLSEL` -/
def F.laneCtrlPllsel : Fld := ⟨.laneCtrl, 10, 10⟩
/-- `LANE_CTRL.RX_INV` -/
def F.laneCtrlRxInv : Fld := ⟨.laneCtrl, 9, 9⟩
/-- `LANE_CTRL.TX_INV` -/
def F.laneCtrlTxInv : Fld := ⟨.laneCtrl, 8, 8⟩
/-- `LANE_CTRL.IDLE` -/
def F.laneCtrlIdle : Fld := ⟨.laneCtrl, 1, 1⟩
/-- `LANE_CTRL.EN` -/
def F.laneCtrlEn : Fld := ⟨.laneCtrl, 0, 0⟩
/-- `LANE_TXEQ.OVERRIDE` -/
def F.laneTxeqOverride : Fld := ⟨.laneTxeq, 35, 35⟩
/-- `LANE_TXEQ.C_POST2` -/
def F.laneTxeqCPost2 : Fld := ⟨.laneTxeq, 34, 28⟩
/-- `LANE_TXEQ.C_POST1` -/
def F.laneTxeqCPost1 : Fld := ⟨.laneTxeq, 27, 21⟩
/-- `LANE_TXEQ.C_MAIN` -/
def F.laneTxeqCMain : Fld := ⟨.laneTxeq, 20, 14⟩
/-- `LANE_TXEQ.C_PRE1` -/
def F.laneTxeqCPre1 : Fld := ⟨.laneTxeq, 13, 7⟩
/-- `LANE_TXEQ.C_PRE2` -/
def F.laneTxeqCPre2 : Fld := ⟨.laneTxeq, 6, 0⟩
/-- `LANE_RXEQ.FREEZE` -/
def F.laneRxeqFreeze : Fld := ⟨.laneRxeq, 31, 31⟩
/-- `LANE_RXEQ.CTLE_FIX` -/
def F.laneRxeqCtleFix : Fld := ⟨.laneRxeq, 30, 30⟩
/-- `LANE_RXEQ.DFE1` -/
def F.laneRxeqDfe1 : Fld := ⟨.laneRxeq, 23, 16⟩
/-- `LANE_RXEQ.CTLE` -/
def F.laneRxeqCtle : Fld := ⟨.laneRxeq, 12, 8⟩
/-- `LANE_STATUS.SNR` -/
def F.laneStatusSnr : Fld := ⟨.laneStatus, 31, 24⟩
/-- `LANE_STATUS.RATE_NOW` -/
def F.laneStatusRateNow : Fld := ⟨.laneStatus, 23, 22⟩
/-- `LANE_STATUS.PRE_RX` -/
def F.laneStatusPreRx : Fld := ⟨.laneStatus, 21, 21⟩
/-- `LANE_STATUS.PRE_TX` -/
def F.laneStatusPreTx : Fld := ⟨.laneStatus, 20, 20⟩
/-- `LANE_STATUS.LOS` -/
def F.laneStatusLos : Fld := ⟨.laneStatus, 19, 19⟩
/-- `LANE_STATUS.ALIGNED` -/
def F.laneStatusAligned : Fld := ⟨.laneStatus, 18, 18⟩
/-- `LANE_STATUS.LOOPED` -/
def F.laneStatusLooped : Fld := ⟨.laneStatus, 17, 17⟩
/-- `LANE_STATUS.PARTNER_LANE` -/
def F.laneStatusPartnerLane : Fld := ⟨.laneStatus, 15, 8⟩
/-- `LANE_STATUS.STATE` -/
def F.laneStatusState : Fld := ⟨.laneStatus, 3, 0⟩
/-- `LANE_PRBS.LOSS_CNT` -/
def F.lanePrbsLossCnt : Fld := ⟨.lanePrbs, 23, 16⟩
/-- `LANE_PRBS.SNAP` -/
def F.lanePrbsSnap : Fld := ⟨.lanePrbs, 15, 15⟩
/-- `LANE_PRBS.CLR` -/
def F.lanePrbsClr : Fld := ⟨.lanePrbs, 14, 14⟩
/-- `LANE_PRBS.SAT` -/
def F.lanePrbsSat : Fld := ⟨.lanePrbs, 13, 13⟩
/-- `LANE_PRBS.CHK_LOCK` -/
def F.lanePrbsChkLock : Fld := ⟨.lanePrbs, 12, 12⟩
/-- `LANE_PRBS.CHK_EN` -/
def F.lanePrbsChkEn : Fld := ⟨.lanePrbs, 9, 9⟩
/-- `LANE_PRBS.GEN_EN` -/
def F.lanePrbsGenEn : Fld := ⟨.lanePrbs, 8, 8⟩
/-- `LANE_PRBS.PATTERN` -/
def F.lanePrbsPattern : Fld := ⟨.lanePrbs, 3, 0⟩
/-- `LANE_EYE_CTRL.START` -/
def F.laneEyeCtrlStart : Fld := ⟨.laneEyeCtrl, 63, 63⟩
/-- `LANE_EYE_CTRL.ABORT` -/
def F.laneEyeCtrlAbort : Fld := ⟨.laneEyeCtrl, 62, 62⟩
/-- `LANE_EYE_CTRL.MON` -/
def F.laneEyeCtrlMon : Fld := ⟨.laneEyeCtrl, 61, 56⟩
/-- `LANE_EYE_CTRL.EYE` -/
def F.laneEyeCtrlEye : Fld := ⟨.laneEyeCtrl, 55, 54⟩
/-- `LANE_EYE_CTRL.AXIS` -/
def F.laneEyeCtrlAxis : Fld := ⟨.laneEyeCtrl, 53, 53⟩
/-- `LANE_EYE_CTRL.POINTS` -/
def F.laneEyeCtrlPoints : Fld := ⟨.laneEyeCtrl, 52, 48⟩
/-- `LANE_EYE_CTRL.STEP` -/
def F.laneEyeCtrlStep : Fld := ⟨.laneEyeCtrl, 47, 40⟩
/-- `LANE_EYE_CTRL.START_OFF` -/
def F.laneEyeCtrlStartOff : Fld := ⟨.laneEyeCtrl, 39, 32⟩
/-- `LANE_EYE_CTRL.DWELL` -/
def F.laneEyeCtrlDwell : Fld := ⟨.laneEyeCtrl, 31, 0⟩
/-- `LANE_EYE_STATUS.RESULT` -/
def F.laneEyeStatusResult : Fld := ⟨.laneEyeStatus, 7, 6⟩
/-- `LANE_EYE_STATUS.POINT` -/
def F.laneEyeStatusPoint : Fld := ⟨.laneEyeStatus, 5, 0⟩
/-- `LANE_CNT.COUNT` -/
def F.laneCntCount : Fld := ⟨.laneCnt, 47, 0⟩
/-- `LANE_SNAP.COUNT` -/
def F.laneSnapCount : Fld := ⟨.laneSnap, 47, 0⟩
/-- `LANE_RXFFE.COEF` -/
def F.laneRxffeCoef : Fld := ⟨.laneRxffe, 15, 0⟩
/-- `TRK_LINK_CTRL.RETRY` -/
def F.trkLinkCtrlRetry : Fld := ⟨.trkLinkCtrl, 63, 48⟩
/-- `TRK_LINK_CTRL.NVC` -/
def F.trkLinkCtrlNvc : Fld := ⟨.trkLinkCtrl, 27, 24⟩
/-- `TRK_LINK_CTRL.CLR` -/
def F.trkLinkCtrlClr : Fld := ⟨.trkLinkCtrl, 3, 3⟩
/-- `TRK_LINK_CTRL.FLUSH` -/
def F.trkLinkCtrlFlush : Fld := ⟨.trkLinkCtrl, 2, 2⟩
/-- `TRK_LINK_CTRL.SEC_EN` -/
def F.trkLinkCtrlSecEn : Fld := ⟨.trkLinkCtrl, 1, 1⟩
/-- `TRK_LINK_STATUS.RTT` -/
def F.trkLinkStatusRtt : Fld := ⟨.trkLinkStatus, 63, 48⟩
/-- `TRK_LINK_STATUS.NVC_NOW` -/
def F.trkLinkStatusNvcNow : Fld := ⟨.trkLinkStatus, 43, 40⟩
/-- `TRK_LINK_STATUS.LOST_CAUSE` -/
def F.trkLinkStatusLostCause : Fld := ⟨.trkLinkStatus, 39, 32⟩
/-- `TRK_LINK_STATUS.ACTIVE` -/
def F.trkLinkStatusActive : Fld := ⟨.trkLinkStatus, 31, 24⟩
/-- `TRK_LINK_STATUS.BAD` -/
def F.trkLinkStatusBad : Fld := ⟨.trkLinkStatus, 23, 16⟩
/-- `TRK_LINK_STATUS.CFG_ERR` -/
def F.trkLinkStatusCfgErr : Fld := ⟨.trkLinkStatus, 15, 15⟩
/-- `TRK_LINK_STATUS.BAD_LAST` -/
def F.trkLinkStatusBadLast : Fld := ⟨.trkLinkStatus, 14, 14⟩
/-- `TRK_LINK_STATUS.AUTH_EVT` -/
def F.trkLinkStatusAuthEvt : Fld := ⟨.trkLinkStatus, 9, 9⟩
/-- `TRK_LINK_STATUS.LOST_EVT` -/
def F.trkLinkStatusLostEvt : Fld := ⟨.trkLinkStatus, 8, 8⟩
/-- `TRK_LINK_STATUS.REPLAY_FULL` -/
def F.trkLinkStatusReplayFull : Fld := ⟨.trkLinkStatus, 7, 7⟩
/-- `TRK_LINK_STATUS.TIMER_ARMED` -/
def F.trkLinkStatusTimerArmed : Fld := ⟨.trkLinkStatus, 6, 6⟩
/-- `TRK_LINK_STATUS.SEC_ON` -/
def F.trkLinkStatusSecOn : Fld := ⟨.trkLinkStatus, 5, 5⟩
/-- `TRK_LINK_STATUS.KIDX_TX` -/
def F.trkLinkStatusKidxTx : Fld := ⟨.trkLinkStatus, 4, 4⟩
/-- `TRK_LINK_STATUS.STATE` -/
def F.trkLinkStatusState : Fld := ⟨.trkLinkStatus, 3, 0⟩
/-- `TRK_TX_SEQ.USED` -/
def F.trkTxSeqUsed : Fld := ⟨.trkTxSeq, 57, 48⟩
/-- `TRK_TX_SEQ.UNA` -/
def F.trkTxSeqUna : Fld := ⟨.trkTxSeq, 47, 24⟩
/-- `TRK_TX_SEQ.NEXT` -/
def F.trkTxSeqNext : Fld := ⟨.trkTxSeq, 23, 0⟩
/-- `TRK_RX_SEQ.HELD` -/
def F.trkRxSeqHeld : Fld := ⟨.trkRxSeq, 33, 24⟩
/-- `TRK_RX_SEQ.RCV_NEXT` -/
def F.trkRxSeqRcvNext : Fld := ⟨.trkRxSeq, 23, 0⟩
/-- `TRK_VC_CFG.BUF0` -/
def F.trkVcCfgBuf0 : Fld := ⟨.trkVcCfg, 7, 0⟩
/-- `TRK_VC_CFG.BUF1` -/
def F.trkVcCfgBuf1 : Fld := ⟨.trkVcCfg, 15, 8⟩
/-- `TRK_VC_CFG.BUF2` -/
def F.trkVcCfgBuf2 : Fld := ⟨.trkVcCfg, 23, 16⟩
/-- `TRK_VC_CFG.BUF3` -/
def F.trkVcCfgBuf3 : Fld := ⟨.trkVcCfg, 31, 24⟩
/-- `TRK_VC_CFG.BUF4` -/
def F.trkVcCfgBuf4 : Fld := ⟨.trkVcCfg, 39, 32⟩
/-- `TRK_VC_CFG.BUF5` -/
def F.trkVcCfgBuf5 : Fld := ⟨.trkVcCfg, 47, 40⟩
/-- `TRK_VC_CFG.BUF6` -/
def F.trkVcCfgBuf6 : Fld := ⟨.trkVcCfg, 55, 48⟩
/-- `TRK_VC_CFG.BUF7` -/
def F.trkVcCfgBuf7 : Fld := ⟨.trkVcCfg, 63, 56⟩
/-- `TRK_VC_CREDIT.TX_LIMIT` -/
def F.trkVcCreditTxLimit : Fld := ⟨.trkVcCredit, 63, 48⟩
/-- `TRK_VC_CREDIT.TX_USED` -/
def F.trkVcCreditTxUsed : Fld := ⟨.trkVcCredit, 47, 32⟩
/-- `TRK_VC_CREDIT.RX_LIMIT` -/
def F.trkVcCreditRxLimit : Fld := ⟨.trkVcCredit, 31, 16⟩
/-- `TRK_VC_CREDIT.RX_HELD` -/
def F.trkVcCreditRxHeld : Fld := ⟨.trkVcCredit, 15, 0⟩
/-- `TRK_POS.NACKS` -/
def F.trkPosNacks : Fld := ⟨.trkPos, 31, 24⟩
/-- `TRK_POS.RUN` -/
def F.trkPosRun : Fld := ⟨.trkPos, 23, 16⟩
/-- `TRK_POS.IN_LIST` -/
def F.trkPosInList : Fld := ⟨.trkPos, 15, 15⟩
/-- `TRK_POS.BAD` -/
def F.trkPosBad : Fld := ⟨.trkPos, 14, 14⟩
/-- `TRK_POS.LANE` -/
def F.trkPosLane : Fld := ⟨.trkPos, 5, 0⟩
/-- `TRK_CNT.COUNT` -/
def F.trkCntCount : Fld := ⟨.trkCnt, 47, 0⟩
/-- `TRK_CFG.EN` -/
def F.trkCfgEn : Fld := ⟨.trkCfg, 63, 63⟩
/-- `TRK_CFG.CASCADE` -/
def F.trkCfgCascade : Fld := ⟨.trkCfg, 62, 62⟩
/-- `TRK_CFG.HOST` -/
def F.trkCfgHost : Fld := ⟨.trkCfg, 61, 59⟩
/-- `TRK_CFG.ROLE` -/
def F.trkCfgRole : Fld := ⟨.trkCfg, 57, 56⟩
/-- `TRK_CFG.TARGET` -/
def F.trkCfgTarget : Fld := ⟨.trkCfg, 55, 48⟩
/-- `TRK_CFG.FIRST` -/
def F.trkCfgFirst : Fld := ⟨.trkCfg, 21, 16⟩
/-- `TRK_CFG.LANES` -/
def F.trkCfgLanes : Fld := ⟨.trkCfg, 1, 0⟩
/-- `LINK_ID.ID` -/
def F.linkIdId : Fld := ⟨.linkId, 63, 0⟩
/-- `LINK_ID_LOCK.LOCK` -/
def F.linkIdLockLock : Fld := ⟨.linkIdLock, 0, 0⟩
/-- `TRK_TRAIN.TIES` -/
def F.trkTrainTies : Fld := ⟨.trkTrain, 23, 16⟩
/-- `TRK_TRAIN.CFG_BAD` -/
def F.trkTrainCfgBad : Fld := ⟨.trkTrain, 15, 15⟩
/-- `TRK_TRAIN.RESUMED` -/
def F.trkTrainResumed : Fld := ⟨.trkTrain, 14, 14⟩
/-- `TRK_TRAIN.MASTER` -/
def F.trkTrainMaster : Fld := ⟨.trkTrain, 13, 13⟩
/-- `TRK_TRAIN.CAUSE` -/
def F.trkTrainCause : Fld := ⟨.trkTrain, 7, 0⟩
/-- `TRK_NONCE.NONCE` -/
def F.trkNonceNonce : Fld := ⟨.trkNonce, 63, 0⟩
/-- `TRK_PEER_NONCE.NONCE` -/
def F.trkPeerNonceNonce : Fld := ⟨.trkPeerNonce, 63, 0⟩
/-- `TRK_PEER_ID.ID` -/
def F.trkPeerIdId : Fld := ⟨.trkPeerId, 63, 0⟩
/-- `TRK_WIDTH.TXN` -/
def F.trkWidthTxn : Fld := ⟨.trkWidth, 31, 24⟩
/-- `TRK_WIDTH.PROPOSED` -/
def F.trkWidthProposed : Fld := ⟨.trkWidth, 23, 16⟩
/-- `TRK_WIDTH.LIMIT` -/
def F.trkWidthLimit : Fld := ⟨.trkWidth, 15, 8⟩
/-- `TRK_WIDTH.RETRAIN` -/
def F.trkWidthRetrain : Fld := ⟨.trkWidth, 1, 1⟩
/-- `TRK_WIDTH.BUSY` -/
def F.trkWidthBusy : Fld := ⟨.trkWidth, 0, 0⟩
/-- `TRK_PAIR.EN` -/
def F.trkPairEn : Fld := ⟨.trkPair, 63, 63⟩
/-- `TRK_PAIR.MODE` -/
def F.trkPairMode : Fld := ⟨.trkPair, 62, 61⟩
/-- `TRK_PAIR.PRIMARY` -/
def F.trkPairPrimary : Fld := ⟨.trkPair, 60, 60⟩
/-- `TRK_PAIR.HOLD` -/
def F.trkPairHold : Fld := ⟨.trkPair, 47, 32⟩
/-- `TRK_PAIR.ISO_LIMIT` -/
def F.trkPairIsoLimit : Fld := ⟨.trkPair, 31, 24⟩
/-- `TRK_PAIR.MATE` -/
def F.trkPairMate : Fld := ⟨.trkPair, 4, 0⟩
/-- `TRK_PAIR_STATUS.NO_FOCOMMIT` -/
def F.trkPairStatusNoFocommit : Fld := ⟨.trkPairStatus, 7, 7⟩
/-- `TRK_PAIR_STATUS.ISO_OVER` -/
def F.trkPairStatusIsoOver : Fld := ⟨.trkPairStatus, 6, 6⟩
/-- `TRK_PAIR_STATUS.FAILOVER_EVT` -/
def F.trkPairStatusFailoverEvt : Fld := ⟨.trkPairStatus, 5, 5⟩
/-- `TRK_PAIR_STATUS.SERVING` -/
def F.trkPairStatusServing : Fld := ⟨.trkPairStatus, 4, 4⟩
/-- `TRK_PAIR_STATUS.PAIR_ERR` -/
def F.trkPairStatusPairErr : Fld := ⟨.trkPairStatus, 3, 3⟩
/-- `TRK_PAIR_MAP.MAP` -/
def F.trkPairMapMap : Fld := ⟨.trkPairMap, 63, 0⟩
/-- `TRK_PAIR_CNT.COUNT` -/
def F.trkPairCntCount : Fld := ⟨.trkPairCnt, 47, 0⟩
/-- `HALL_RED_C.MAXP` -/
def F.hallRedCMaxp : Fld := ⟨.hallRedC, 47, 40⟩
/-- `HALL_RED_C.MAX` -/
def F.hallRedCMax : Fld := ⟨.hallRedC, 31, 16⟩
/-- `HALL_RED_C.MIN` -/
def F.hallRedCMin : Fld := ⟨.hallRedC, 15, 0⟩
/-- `HALL_RED_CTRL.TARGET` -/
def F.hallRedCtrlTarget : Fld := ⟨.hallRedCtrl, 63, 48⟩
/-- `HALL_RED_CTRL.ADAPT_PERIOD` -/
def F.hallRedCtrlAdaptPeriod : Fld := ⟨.hallRedCtrl, 47, 40⟩
/-- `HALL_RED_CTRL.W` -/
def F.hallRedCtrlW : Fld := ⟨.hallRedCtrl, 39, 36⟩
/-- `HALL_RED_CTRL.ECN` -/
def F.hallRedCtrlEcn : Fld := ⟨.hallRedCtrl, 35, 35⟩
/-- `HALL_RED_CTRL.ADAPT` -/
def F.hallRedCtrlAdapt : Fld := ⟨.hallRedCtrl, 34, 34⟩
/-- `HALL_RED_CTRL.MODE` -/
def F.hallRedCtrlMode : Fld := ⟨.hallRedCtrl, 33, 33⟩
/-- `HALL_RED_LIVE.MAX_NOW` -/
def F.hallRedLiveMaxNow : Fld := ⟨.hallRedLive, 31, 16⟩
/-- `HALL_RED_LIVE.MIN_NOW` -/
def F.hallRedLiveMinNow : Fld := ⟨.hallRedLive, 15, 0⟩
/-- `HALL_QADM.DEPTH` -/
def F.hallQadmDepth : Fld := ⟨.hallQadm, 46, 32⟩
/-- `HALL_QADM.PROFILE` -/
def F.hallQadmProfile : Fld := ⟨.hallQadm, 31, 28⟩
/-- `HALL_QADM.RED_EN` -/
def F.hallQadmRedEn : Fld := ⟨.hallQadm, 27, 27⟩
/-- `HALL_QADM.RESERVE` -/
def F.hallQadmReserve : Fld := ⟨.hallQadm, 23, 12⟩
/-- `HALL_QADM.ALPHA` -/
def F.hallQadmAlpha : Fld := ⟨.hallQadm, 3, 0⟩
/-- `GAL_CTRL.EN` -/
def F.galCtrlEn : Fld := ⟨.galCtrl, 63, 63⟩
/-- `GAL_CTRL.MODE` -/
def F.galCtrlMode : Fld := ⟨.galCtrl, 62, 62⟩
/-- `GAL_CTRL.SIZE_LOG2` -/
def F.galCtrlSizeLog2 : Fld := ⟨.galCtrl, 60, 56⟩
/-- `GAL_CTRL.SAMPLE_HALL` -/
def F.galCtrlSampleHall : Fld := ⟨.galCtrl, 55, 54⟩
/-- `GAL_CTRL.SAMPLE_N` -/
def F.galCtrlSampleN : Fld := ⟨.galCtrl, 47, 32⟩
/-- `GAL_CTRL.DROP_MASK` -/
def F.galCtrlDropMask : Fld := ⟨.galCtrl, 31, 16⟩
/-- `GAL_CTRL.DROP_HALLS` -/
def F.galCtrlDropHalls : Fld := ⟨.galCtrl, 15, 12⟩
/-- `GAL_CTRL.QUEUE` -/
def F.galCtrlQueue : Fld := ⟨.galCtrl, 10, 0⟩
/-- `GAL_BASE.BASE` -/
def F.galBaseBase : Fld := ⟨.galBase, 47, 0⟩
/-- `GAL_WR.WR` -/
def F.galWrWr : Fld := ⟨.galWr, 31, 0⟩
/-- `GAL_RD.RD` -/
def F.galRdRd : Fld := ⟨.galRd, 31, 0⟩
/-- `GAL_STATUS.CFG_ERR` -/
def F.galStatusCfgErr : Fld := ⟨.galStatus, 1, 1⟩
/-- `GAL_STATUS.STOPPED` -/
def F.galStatusStopped : Fld := ⟨.galStatus, 0, 0⟩
/-- `GAL_LOST.COUNT` -/
def F.galLostCount : Fld := ⟨.galLost, 47, 0⟩
/-- `GAL_OVERWRITTEN.COUNT` -/
def F.galOverwrittenCount : Fld := ⟨.galOverwritten, 47, 0⟩
/-- `ETH_CTRL.MAX_FRAME` -/
def F.ethCtrlMaxFrame : Fld := ⟨.ethCtrl, 63, 48⟩
/-- `ETH_CTRL.TID` -/
def F.ethCtrlTid : Fld := ⟨.ethCtrl, 43, 32⟩
/-- `ETH_CTRL.STRIP` -/
def F.ethCtrlStrip : Fld := ⟨.ethCtrl, 3, 3⟩
/-- `ETH_CTRL.INSERT` -/
def F.ethCtrlInsert : Fld := ⟨.ethCtrl, 2, 2⟩
/-- `ETH_CTRL.EN` -/
def F.ethCtrlEn : Fld := ⟨.ethCtrl, 0, 0⟩
/-- `ETH_TAG.TPID` -/
def F.ethTagTpid : Fld := ⟨.ethTag, 31, 16⟩
/-- `ETH_TAG.PCP` -/
def F.ethTagPcp : Fld := ⟨.ethTag, 15, 13⟩
/-- `ETH_TAG.DEI` -/
def F.ethTagDei : Fld := ⟨.ethTag, 12, 12⟩
/-- `ETH_TAG.VID` -/
def F.ethTagVid : Fld := ⟨.ethTag, 11, 0⟩
/-- `ETH_CNT.COUNT` -/
def F.ethCntCount : Fld := ⟨.ethCnt, 47, 0⟩
/-- `HALL_BUF_STATUS.TRANSIT` -/
def F.hallBufStatusTransit : Fld := ⟨.hallBufStatus, 63, 48⟩
/-- `HALL_BUF_STATUS.LANDING` -/
def F.hallBufStatusLanding : Fld := ⟨.hallBufStatus, 47, 32⟩
/-- `HALL_BUF_STATUS.QUEUED` -/
def F.hallBufStatusQueued : Fld := ⟨.hallBufStatus, 31, 16⟩
/-- `HALL_BUF_STATUS.FREE` -/
def F.hallBufStatusFree : Fld := ⟨.hallBufStatus, 15, 0⟩
/-- `HALL_BUF_CTRL.HOPS_INIT` -/
def F.hallBufCtrlHopsInit : Fld := ⟨.hallBufCtrl, 55, 48⟩
/-- `HALL_BUF_CTRL.DRAIN_MAX` -/
def F.hallBufCtrlDrainMax : Fld := ⟨.hallBufCtrl, 47, 32⟩
/-- `HALL_BUF_CTRL.FW_CELLS` -/
def F.hallBufCtrlFwCells : Fld := ⟨.hallBufCtrl, 26, 16⟩
/-- `HALL_BUF_CTRL.CFG_ERR` -/
def F.hallBufCtrlCfgErr : Fld := ⟨.hallBufCtrl, 1, 1⟩
/-- `HALL_BUF_CTRL.HOLD_MOVED` -/
def F.hallBufCtrlHoldMoved : Fld := ⟨.hallBufCtrl, 0, 0⟩
/-- `HALL_DROP.COUNT` -/
def F.hallDropCount : Fld := ⟨.hallDrop, 47, 0⟩
/-- `HALL_EPOCH_STATUS.HELD` -/
def F.hallEpochStatusHeld : Fld := ⟨.hallEpochStatus, 63, 32⟩
/-- `HALL_EPOCH_STATUS.LIVE` -/
def F.hallEpochStatusLive : Fld := ⟨.hallEpochStatus, 18, 16⟩
/-- `HALL_EPOCH_STATUS.CURRENT` -/
def F.hallEpochStatusCurrent : Fld := ⟨.hallEpochStatus, 15, 0⟩
/-- `HALL_EPOCH_DRAIN.VALID` -/
def F.hallEpochDrainValid : Fld := ⟨.hallEpochDrain, 63, 63⟩
/-- `HALL_EPOCH_DRAIN.EPOCH` -/
def F.hallEpochDrainEpoch : Fld := ⟨.hallEpochDrain, 47, 32⟩
/-- `HALL_EPOCH_DRAIN.COUNT` -/
def F.hallEpochDrainCount : Fld := ⟨.hallEpochDrain, 31, 0⟩
/-- `HALL_ORDER_BREAK.COUNT` -/
def F.hallOrderBreakCount : Fld := ⟨.hallOrderBreak, 47, 0⟩
/-- `HALL_IND.VALID` -/
def F.hallIndValid : Fld := ⟨.hallInd, 15, 15⟩
/-- `HALL_IND.QUEUE` -/
def F.hallIndQueue : Fld := ⟨.hallInd, 12, 0⟩
/-- `HALL_IND_LIVE.VALID` -/
def F.hallIndLiveValid : Fld := ⟨.hallIndLive, 15, 15⟩
/-- `HALL_IND_LIVE.QUEUE` -/
def F.hallIndLiveQueue : Fld := ⟨.hallIndLive, 12, 0⟩
/-- `SP_CTRL.OVERHEAD` -/
def F.spCtrlOverhead : Fld := ⟨.spCtrl, 47, 40⟩
/-- `SP_CTRL.QUANTUM` -/
def F.spCtrlQuantum : Fld := ⟨.spCtrl, 39, 32⟩
/-- `SP_CTRL.ISO_LIMIT` -/
def F.spCtrlIsoLimit : Fld := ⟨.spCtrl, 31, 24⟩
/-- `SP_STATUS.RES_MBPS` -/
def F.spStatusResMbps : Fld := ⟨.spStatus, 63, 40⟩
/-- `SP_STATUS.RATE_NOW` -/
def F.spStatusRateNow : Fld := ⟨.spStatus, 39, 16⟩
/-- `SP_STATUS.COMMIT_PENDING` -/
def F.spStatusCommitPending : Fld := ⟨.spStatus, 7, 7⟩
/-- `SP_STATUS.FO_ARMED` -/
def F.spStatusFoArmed : Fld := ⟨.spStatus, 6, 6⟩
/-- `SP_STATUS.CATCHUP_LAG` -/
def F.spStatusCatchupLag : Fld := ⟨.spStatus, 5, 5⟩
/-- `SP_FO.BLOCKS` -/
def F.spFoBlocks : Fld := ⟨.spFo, 15, 8⟩
/-- `SP_FO.CLEAR` -/
def F.spFoClear : Fld := ⟨.spFo, 0, 0⟩
/-- `HALL_MTRLIVE_TC.TC` -/
def F.hallMtrliveTcTc : Fld := ⟨.hallMtrliveTc, 31, 0⟩
/-- `HALL_MTRLIVE_TP.TP` -/
def F.hallMtrliveTpTp : Fld := ⟨.hallMtrliveTp, 31, 0⟩
/-- `HALL_SAMPLE_CTRL.CLR_PEAK` -/
def F.hallSampleCtrlClrPeak : Fld := ⟨.hallSampleCtrl, 17, 17⟩
/-- `HALL_SAMPLE_CTRL.EN` -/
def F.hallSampleCtrlEn : Fld := ⟨.hallSampleCtrl, 16, 16⟩
/-- `HALL_SAMPLE_CTRL.PERIOD` -/
def F.hallSampleCtrlPeriod : Fld := ⟨.hallSampleCtrl, 10, 0⟩
/-- `HALL_QSAMP.HOL_NS` -/
def F.hallQsampHolNs : Fld := ⟨.hallQsamp, 63, 40⟩
/-- `HALL_QSAMP.PEAK` -/
def F.hallQsampPeak : Fld := ⟨.hallQsamp, 30, 16⟩
/-- `HALL_QSAMP.DEPTH` -/
def F.hallQsampDepth : Fld := ⟨.hallQsamp, 14, 0⟩
/-- `HALL_PNODE.VALID` -/
def F.hallPnodeValid : Fld := ⟨.hallPnode, 63, 63⟩
/-- `HALL_PNODE.LEN_ADD` -/
def F.hallPnodeLenAdd : Fld := ⟨.hallPnode, 55, 48⟩
/-- `HALL_PNODE.LEN_SCALE` -/
def F.hallPnodeLenScale : Fld := ⟨.hallPnode, 45, 44⟩
/-- `HALL_PNODE.LEN_SHIFT` -/
def F.hallPnodeLenShift : Fld := ⟨.hallPnode, 43, 40⟩
/-- `HALL_PNODE.LEN_MASK` -/
def F.hallPnodeLenMask : Fld := ⟨.hallPnode, 39, 32⟩
/-- `HALL_PNODE.LEN_OFF` -/
def F.hallPnodeLenOff : Fld := ⟨.hallPnode, 31, 24⟩
/-- `HALL_PNODE.LEN_MODE` -/
def F.hallPnodeLenMode : Fld := ⟨.hallPnode, 23, 23⟩
/-- `HALL_PNODE.BE` -/
def F.hallPnodeBe : Fld := ⟨.hallPnode, 22, 22⟩
/-- `HALL_PNODE.MARK_EN` -/
def F.hallPnodeMarkEn : Fld := ⟨.hallPnode, 21, 21⟩
/-- `HALL_PNODE.MARK` -/
def F.hallPnodeMark : Fld := ⟨.hallPnode, 20, 19⟩
/-- `HALL_PNODE.SEL_OFF` -/
def F.hallPnodeSelOff : Fld := ⟨.hallPnode, 15, 8⟩
/-- `HALL_PEDGE.VALID` -/
def F.hallPedgeValid : Fld := ⟨.hallPedge, 63, 63⟩
/-- `HALL_PEDGE.NEXT` -/
def F.hallPedgeNext : Fld := ⟨.hallPedge, 45, 40⟩
/-- `HALL_PEDGE.MASK` -/
def F.hallPedgeMask : Fld := ⟨.hallPedge, 31, 16⟩
/-- `HALL_PEDGE.VALUE` -/
def F.hallPedgeValue : Fld := ⟨.hallPedge, 15, 0⟩
/-- `HALL_ENTRY.VALID` -/
def F.hallEntryValid : Fld := ⟨.hallEntry, 8, 8⟩
/-- `HALL_ENTRY.PROG` -/
def F.hallEntryProg : Fld := ⟨.hallEntry, 7, 0⟩
/-- `HALL_TBL_MISS.DATA` -/
def F.hallTblMissData : Fld := ⟨.hallTblMiss, 62, 0⟩
/-- `HALL_PNODE_LIVE.VALID` -/
def F.hallPnodeLiveValid : Fld := ⟨.hallPnodeLive, 63, 63⟩
/-- `HALL_PNODE_LIVE.LEN_ADD` -/
def F.hallPnodeLiveLenAdd : Fld := ⟨.hallPnodeLive, 55, 48⟩
/-- `HALL_PNODE_LIVE.LEN_SCALE` -/
def F.hallPnodeLiveLenScale : Fld := ⟨.hallPnodeLive, 45, 44⟩
/-- `HALL_PNODE_LIVE.LEN_SHIFT` -/
def F.hallPnodeLiveLenShift : Fld := ⟨.hallPnodeLive, 43, 40⟩
/-- `HALL_PNODE_LIVE.LEN_MASK` -/
def F.hallPnodeLiveLenMask : Fld := ⟨.hallPnodeLive, 39, 32⟩
/-- `HALL_PNODE_LIVE.LEN_OFF` -/
def F.hallPnodeLiveLenOff : Fld := ⟨.hallPnodeLive, 31, 24⟩
/-- `HALL_PNODE_LIVE.LEN_MODE` -/
def F.hallPnodeLiveLenMode : Fld := ⟨.hallPnodeLive, 23, 23⟩
/-- `HALL_PNODE_LIVE.BE` -/
def F.hallPnodeLiveBe : Fld := ⟨.hallPnodeLive, 22, 22⟩
/-- `HALL_PNODE_LIVE.MARK_EN` -/
def F.hallPnodeLiveMarkEn : Fld := ⟨.hallPnodeLive, 21, 21⟩
/-- `HALL_PNODE_LIVE.MARK` -/
def F.hallPnodeLiveMark : Fld := ⟨.hallPnodeLive, 20, 19⟩
/-- `HALL_PNODE_LIVE.SEL_OFF` -/
def F.hallPnodeLiveSelOff : Fld := ⟨.hallPnodeLive, 15, 8⟩
/-- `HALL_PEDGE_LIVE.VALID` -/
def F.hallPedgeLiveValid : Fld := ⟨.hallPedgeLive, 63, 63⟩
/-- `HALL_PEDGE_LIVE.NEXT` -/
def F.hallPedgeLiveNext : Fld := ⟨.hallPedgeLive, 45, 40⟩
/-- `HALL_PEDGE_LIVE.MASK` -/
def F.hallPedgeLiveMask : Fld := ⟨.hallPedgeLive, 31, 16⟩
/-- `HALL_PEDGE_LIVE.VALUE` -/
def F.hallPedgeLiveValue : Fld := ⟨.hallPedgeLive, 15, 0⟩
/-- `HALL_ENTRY_LIVE.VALID` -/
def F.hallEntryLiveValid : Fld := ⟨.hallEntryLive, 8, 8⟩
/-- `HALL_ENTRY_LIVE.PROG` -/
def F.hallEntryLiveProg : Fld := ⟨.hallEntryLive, 7, 0⟩
/-- `HALL_TBL_MISS_LIVE.DATA` -/
def F.hallTblMissLiveData : Fld := ⟨.hallTblMissLive, 62, 0⟩
/-- `HALL_TBL_DEF.EN` -/
def F.hallTblDefEn : Fld := ⟨.hallTblDef, 63, 63⟩
/-- `HALL_TBL_DEF.KIND` -/
def F.hallTblDefKind : Fld := ⟨.hallTblDef, 62, 61⟩
/-- `HALL_TBL_DEF.KEY_BYTES` -/
def F.hallTblDefKeyBytes : Fld := ⟨.hallTblDef, 55, 48⟩
/-- `HALL_TBL_DEF.SIZE` -/
def F.hallTblDefSize : Fld := ⟨.hallTblDef, 31, 16⟩
/-- `HALL_TBL_EXT.VALID` -/
def F.hallTblExtValid : Fld := ⟨.hallTblExt, 31, 31⟩
/-- `HALL_TBL_EXT.REL` -/
def F.hallTblExtRel : Fld := ⟨.hallTblExt, 30, 30⟩
/-- `HALL_TBL_EXT.LAYER` -/
def F.hallTblExtLayer : Fld := ⟨.hallTblExt, 29, 26⟩
/-- `HALL_TBL_EXT.OFFSET` -/
def F.hallTblExtOffset : Fld := ⟨.hallTblExt, 24, 16⟩
/-- `HALL_TBL_EXT.LENGTH` -/
def F.hallTblExtLength : Fld := ⟨.hallTblExt, 6, 0⟩
/-- `HALL_TBL_STATUS.STAGED` -/
def F.hallTblStatusStaged : Fld := ⟨.hallTblStatus, 47, 32⟩
/-- `HALL_TBL_STATUS.USED` -/
def F.hallTblStatusUsed : Fld := ⟨.hallTblStatus, 31, 0⟩
/-- `HALL_CELL_LINK.NEXT` -/
def F.hallCellLinkNext : Fld := ⟨.hallCellLink, 15, 0⟩
/-- `HALL_USHQ.VALID` -/
def F.hallUshqValid : Fld := ⟨.hallUshq, 31, 31⟩
/-- `HALL_USHQ.QUEUE` -/
def F.hallUshqQueue : Fld := ⟨.hallUshq, 10, 0⟩
/-- `HALL_PROG_STAGE.GO` -/
def F.hallProgStageGo : Fld := ⟨.hallProgStage, 63, 63⟩
/-- `HALL_PROG_STAGE.ERR_WORD` -/
def F.hallProgStageErrWord : Fld := ⟨.hallProgStage, 41, 32⟩
/-- `HALL_PROG_STAGE.RESULT` -/
def F.hallProgStageResult : Fld := ⟨.hallProgStage, 23, 16⟩
/-- `HALL_PROG_STAGE.BUSY` -/
def F.hallProgStageBusy : Fld := ⟨.hallProgStage, 8, 8⟩
/-- `HALL_PROG_STAGE.PROG` -/
def F.hallProgStageProg : Fld := ⟨.hallProgStage, 7, 0⟩
/-- `HALL_PROG_SRC.SRC` -/
def F.hallProgSrcSrc : Fld := ⟨.hallProgSrc, 47, 0⟩
/-- `HALL_MAP_CTRL.EN` -/
def F.hallMapCtrlEn : Fld := ⟨.hallMapCtrl, 0, 0⟩
/-- `HALL_MAP_STATUS.FAULTS` -/
def F.hallMapStatusFaults : Fld := ⟨.hallMapStatus, 63, 48⟩
/-- `HALL_MAP_STATUS.REWRITE_SKIP` -/
def F.hallMapStatusRewriteSkip : Fld := ⟨.hallMapStatus, 47, 32⟩
/-- `HALL_MAP_STATUS.FAULT_WORD` -/
def F.hallMapStatusFaultWord : Fld := ⟨.hallMapStatus, 31, 22⟩
/-- `HALL_MAP_STATUS.FAULT_PROG` -/
def F.hallMapStatusFaultProg : Fld := ⟨.hallMapStatus, 21, 14⟩
/-- `HALL_MAP_STATUS.CFG_ERR` -/
def F.hallMapStatusCfgErr : Fld := ⟨.hallMapStatus, 0, 0⟩
/-- `HALL_CNT_PKT.PACKETS` -/
def F.hallCntPktPackets : Fld := ⟨.hallCntPkt, 63, 0⟩
/-- `HALL_CNT_BYTE.BYTES` -/
def F.hallCntByteBytes : Fld := ⟨.hallCntByte, 63, 0⟩
/-- `PRT_LAF_ADDR.ADDR` -/
def F.prtLafAddrAddr : Fld := ⟨.prtLafAddr, 63, 6⟩
/-- `PRT_LAF_ADDR.VALID` -/
def F.prtLafAddrValid : Fld := ⟨.prtLafAddr, 0, 0⟩
/-- `PRT_LAF_MASK.MASK` -/
def F.prtLafMaskMask : Fld := ⟨.prtLafMask, 63, 0⟩
/-- `PRT_LAF_DATA.DATA` -/
def F.prtLafDataData : Fld := ⟨.prtLafData, 63, 0⟩
/-- `PRT_LAF_CTRL.OVERFLOW` -/
def F.prtLafCtrlOverflow : Fld := ⟨.prtLafCtrl, 63, 16⟩
/-- `PRT_LAF_CTRL.CLR` -/
def F.prtLafCtrlClr : Fld := ⟨.prtLafCtrl, 3, 0⟩
/-- `HOST_CFG.EN` -/
def F.hostCfgEn : Fld := ⟨.hostCfg, 63, 63⟩
/-- `HOST_CFG.TOTALVFS` -/
def F.hostCfgTotalvfs : Fld := ⟨.hostCfg, 55, 48⟩
/-- `HOST_CFG.CTO` -/
def F.hostCfgCto : Fld := ⟨.hostCfg, 47, 32⟩
/-- `HOST_CFG.TRK` -/
def F.hostCfgTrk : Fld := ⟨.hostCfg, 28, 24⟩
/-- `HOST_CFG.TID` -/
def F.hostCfgTid : Fld := ⟨.hostCfg, 23, 12⟩
/-- `HOST_STATUS.PF_BUS` -/
def F.hostStatusPfBus : Fld := ⟨.hostStatus, 55, 48⟩
/-- `HOST_STATUS.INT_BUS` -/
def F.hostStatusIntBus : Fld := ⟨.hostStatus, 47, 40⟩
/-- `HOST_STATUS.UP_BUS` -/
def F.hostStatusUpBus : Fld := ⟨.hostStatus, 39, 32⟩
/-- `HOST_STATUS.NUMVFS` -/
def F.hostStatusNumvfs : Fld := ⟨.hostStatus, 31, 24⟩
/-- `HOST_STATUS.VF_EN` -/
def F.hostStatusVfEn : Fld := ⟨.hostStatus, 2, 2⟩
/-- `HOST_STATUS.MBX_BUSY` -/
def F.hostStatusMbxBusy : Fld := ⟨.hostStatus, 1, 1⟩
/-- `HOST_STATUS.LINK` -/
def F.hostStatusLink : Fld := ⟨.hostStatus, 0, 0⟩
/-- `PRT_BRIDGE.MODE` -/
def F.prtBridgeMode : Fld := ⟨.prtBridge, 63, 62⟩
/-- `PRT_BRIDGE.HOST` -/
def F.prtBridgeHost : Fld := ⟨.prtBridge, 61, 59⟩
/-- `PRT_BRIDGE.PERST` -/
def F.prtBridgePerst : Fld := ⟨.prtBridge, 58, 58⟩
/-- `PRT_BRIDGE.CTO` -/
def F.prtBridgeCto : Fld := ⟨.prtBridge, 47, 32⟩
/-- `PRT_BRIDGE.PF_LIFE` -/
def F.prtBridgePfLife : Fld := ⟨.prtBridge, 31, 24⟩
/-- `PRT_BRIDGE.PREFETCH` -/
def F.prtBridgePrefetch : Fld := ⟨.prtBridge, 17, 16⟩
/-- `PRT_STATUS.DECODE_ERR` -/
def F.prtStatusDecodeErr : Fld := ⟨.prtStatus, 63, 16⟩
/-- `PRT_STATUS.TAGS` -/
def F.prtStatusTags : Fld := ⟨.prtStatus, 15, 8⟩
/-- `PRT_STATUS.LINK_UP` -/
def F.prtStatusLinkUp : Fld := ⟨.prtStatus, 0, 0⟩
/-- `ALCOVE_CFG.STATE` -/
def F.alcoveCfgState : Fld := ⟨.alcoveCfg, 63, 61⟩
/-- `ALCOVE_CFG.ABORTED` -/
def F.alcoveCfgAborted : Fld := ⟨.alcoveCfg, 60, 60⟩
/-- `ALCOVE_CFG.XLAT` -/
def F.alcoveCfgXlat : Fld := ⟨.alcoveCfg, 59, 59⟩
/-- `ALCOVE_CFG.HOST` -/
def F.alcoveCfgHost : Fld := ⟨.alcoveCfg, 58, 56⟩
/-- `ALCOVE_CFG.VF` -/
def F.alcoveCfgVf : Fld := ⟨.alcoveCfg, 55, 48⟩
/-- `ALCOVE_CFG.TYPE` -/
def F.alcoveCfgType : Fld := ⟨.alcoveCfg, 47, 46⟩
/-- `ALCOVE_CFG.NVQ` -/
def F.alcoveCfgNvq : Fld := ⟨.alcoveCfg, 45, 39⟩
/-- `ALCOVE_CFG.CORE` -/
def F.alcoveCfgCore : Fld := ⟨.alcoveCfg, 38, 35⟩
/-- `ALCOVE_CFG.BELL_SRC` -/
def F.alcoveCfgBellSrc : Fld := ⟨.alcoveCfg, 27, 16⟩
/-- `ALCOVE_CFG.DISCARDS` -/
def F.alcoveCfgDiscards : Fld := ⟨.alcoveCfg, 15, 0⟩
/-- `ALCOVE_NOTIFY.PEND` -/
def F.alcoveNotifyPend : Fld := ⟨.alcoveNotify, 63, 0⟩
/-- `ALCOVE_INFLIGHT.HW` -/
def F.alcoveInflightHw : Fld := ⟨.alcoveInflight, 31, 16⟩
/-- `ALCOVE_INFLIGHT.FW` -/
def F.alcoveInflightFw : Fld := ⟨.alcoveInflight, 15, 0⟩
/-- `ALCOVE_EVT.CFG_EVT` -/
def F.alcoveEvtCfgEvt : Fld := ⟨.alcoveEvt, 0, 0⟩
/-- `ALCOVE_DIRTY_A.ADDR` -/
def F.alcoveDirtyAAddr : Fld := ⟨.alcoveDirtyA, 63, 3⟩
/-- `ALCOVE_DIRTY_B.ADDR` -/
def F.alcoveDirtyBAddr : Fld := ⟨.alcoveDirtyB, 63, 3⟩
/-- `ALCOVE_DIRTY_BASE.BASE` -/
def F.alcoveDirtyBaseBase : Fld := ⟨.alcoveDirtyBase, 63, 12⟩
/-- `ALCOVE_DIRTY_CTL.ON` -/
def F.alcoveDirtyCtlOn : Fld := ⟨.alcoveDirtyCtl, 63, 63⟩
/-- `ALCOVE_DIRTY_CTL.ACTIVE_B` -/
def F.alcoveDirtyCtlActiveB : Fld := ⟨.alcoveDirtyCtl, 62, 62⟩
/-- `ALCOVE_DIRTY_CTL.PAGES` -/
def F.alcoveDirtyCtlPages : Fld := ⟨.alcoveDirtyCtl, 39, 0⟩
/-- `ALCOVE_DIRTY_MISS.COUNT` -/
def F.alcoveDirtyMissCount : Fld := ⟨.alcoveDirtyMiss, 47, 0⟩
/-- `DH_H.HSYNC` -/
def F.dhHHsync : Fld := ⟨.dhH, 63, 48⟩
/-- `DH_H.HFRONT` -/
def F.dhHHfront : Fld := ⟨.dhH, 47, 32⟩
/-- `DH_H.HTOTAL` -/
def F.dhHHtotal : Fld := ⟨.dhH, 31, 16⟩
/-- `DH_H.HACTIVE` -/
def F.dhHHactive : Fld := ⟨.dhH, 15, 0⟩
/-- `DH_H_LIVE.HSYNC` -/
def F.dhHLiveHsync : Fld := ⟨.dhHLive, 63, 48⟩
/-- `DH_H_LIVE.HFRONT` -/
def F.dhHLiveHfront : Fld := ⟨.dhHLive, 47, 32⟩
/-- `DH_H_LIVE.HTOTAL` -/
def F.dhHLiveHtotal : Fld := ⟨.dhHLive, 31, 16⟩
/-- `DH_H_LIVE.HACTIVE` -/
def F.dhHLiveHactive : Fld := ⟨.dhHLive, 15, 0⟩
/-- `DH_V.VSYNC` -/
def F.dhVVsync : Fld := ⟨.dhV, 63, 48⟩
/-- `DH_V.VFRONT` -/
def F.dhVVfront : Fld := ⟨.dhV, 47, 32⟩
/-- `DH_V.VTOTAL` -/
def F.dhVVtotal : Fld := ⟨.dhV, 31, 16⟩
/-- `DH_V.VACTIVE` -/
def F.dhVVactive : Fld := ⟨.dhV, 15, 0⟩
/-- `DH_V_LIVE.VSYNC` -/
def F.dhVLiveVsync : Fld := ⟨.dhVLive, 63, 48⟩
/-- `DH_V_LIVE.VFRONT` -/
def F.dhVLiveVfront : Fld := ⟨.dhVLive, 47, 32⟩
/-- `DH_V_LIVE.VTOTAL` -/
def F.dhVLiveVtotal : Fld := ⟨.dhVLive, 31, 16⟩
/-- `DH_V_LIVE.VACTIVE` -/
def F.dhVLiveVactive : Fld := ⟨.dhVLive, 15, 0⟩
/-- `DH_CLK.VPOL` -/
def F.dhClkVpol : Fld := ⟨.dhClk, 33, 33⟩
/-- `DH_CLK.HPOL` -/
def F.dhClkHpol : Fld := ⟨.dhClk, 32, 32⟩
/-- `DH_CLK.PIXEL_KHZ` -/
def F.dhClkPixelKhz : Fld := ⟨.dhClk, 31, 0⟩
/-- `DH_CLK_LIVE.VPOL` -/
def F.dhClkLiveVpol : Fld := ⟨.dhClkLive, 33, 33⟩
/-- `DH_CLK_LIVE.HPOL` -/
def F.dhClkLiveHpol : Fld := ⟨.dhClkLive, 32, 32⟩
/-- `DH_CLK_LIVE.PIXEL_KHZ` -/
def F.dhClkLivePixelKhz : Fld := ⟨.dhClkLive, 31, 0⟩
/-- `DH_L_SRC.EN` -/
def F.dhLSrcEn : Fld := ⟨.dhLSrc, 63, 63⟩
/-- `DH_L_SRC.Y` -/
def F.dhLSrcY : Fld := ⟨.dhLSrc, 44, 32⟩
/-- `DH_L_SRC.X` -/
def F.dhLSrcX : Fld := ⟨.dhLSrc, 28, 16⟩
/-- `DH_L_SRC.SURFACE` -/
def F.dhLSrcSurface : Fld := ⟨.dhLSrc, 11, 0⟩
/-- `DH_L_SRC_LIVE.EN` -/
def F.dhLSrcLiveEn : Fld := ⟨.dhLSrcLive, 63, 63⟩
/-- `DH_L_SRC_LIVE.Y` -/
def F.dhLSrcLiveY : Fld := ⟨.dhLSrcLive, 44, 32⟩
/-- `DH_L_SRC_LIVE.X` -/
def F.dhLSrcLiveX : Fld := ⟨.dhLSrcLive, 28, 16⟩
/-- `DH_L_SRC_LIVE.SURFACE` -/
def F.dhLSrcLiveSurface : Fld := ⟨.dhLSrcLive, 11, 0⟩
/-- `DH_L_SIZE.SCALE` -/
def F.dhLSizeScale : Fld := ⟨.dhLSize, 32, 32⟩
/-- `DH_L_SIZE.H` -/
def F.dhLSizeH : Fld := ⟨.dhLSize, 28, 16⟩
/-- `DH_L_SIZE.W` -/
def F.dhLSizeW : Fld := ⟨.dhLSize, 12, 0⟩
/-- `DH_L_SIZE_LIVE.SCALE` -/
def F.dhLSizeLiveScale : Fld := ⟨.dhLSizeLive, 32, 32⟩
/-- `DH_L_SIZE_LIVE.H` -/
def F.dhLSizeLiveH : Fld := ⟨.dhLSizeLive, 28, 16⟩
/-- `DH_L_SIZE_LIVE.W` -/
def F.dhLSizeLiveW : Fld := ⟨.dhLSizeLive, 12, 0⟩
/-- `DH_L_DST.DST_Y` -/
def F.dhLDstDstY : Fld := ⟨.dhLDst, 31, 16⟩
/-- `DH_L_DST.DST_X` -/
def F.dhLDstDstX : Fld := ⟨.dhLDst, 15, 0⟩
/-- `DH_L_DST_LIVE.DST_Y` -/
def F.dhLDstLiveDstY : Fld := ⟨.dhLDstLive, 31, 16⟩
/-- `DH_L_DST_LIVE.DST_X` -/
def F.dhLDstLiveDstX : Fld := ⟨.dhLDstLive, 15, 0⟩
/-- `DH_L_BLEND.MODE` -/
def F.dhLBlendMode : Fld := ⟨.dhLBlend, 9, 8⟩
/-- `DH_L_BLEND.PLANE_ALPHA` -/
def F.dhLBlendPlaneAlpha : Fld := ⟨.dhLBlend, 7, 0⟩
/-- `DH_L_BLEND_LIVE.MODE` -/
def F.dhLBlendLiveMode : Fld := ⟨.dhLBlendLive, 9, 8⟩
/-- `DH_L_BLEND_LIVE.PLANE_ALPHA` -/
def F.dhLBlendLivePlaneAlpha : Fld := ⟨.dhLBlendLive, 7, 0⟩
/-- `DH_CTRL.BG` -/
def F.dhCtrlBg : Fld := ⟨.dhCtrl, 63, 32⟩
/-- `DH_CTRL.MODE` -/
def F.dhCtrlMode : Fld := ⟨.dhCtrl, 1, 0⟩
/-- `DH_CTRL_LIVE.BG` -/
def F.dhCtrlLiveBg : Fld := ⟨.dhCtrlLive, 63, 32⟩
/-- `DH_CTRL_LIVE.MODE` -/
def F.dhCtrlLiveMode : Fld := ⟨.dhCtrlLive, 1, 0⟩
/-- `DH_SYNC.HOLD_MAX` -/
def F.dhSyncHoldMax : Fld := ⟨.dhSync, 63, 48⟩
/-- `DH_SYNC.VFP_MIN` -/
def F.dhSyncVfpMin : Fld := ⟨.dhSync, 47, 32⟩
/-- `DH_SYNC.TE_DELAY` -/
def F.dhSyncTeDelay : Fld := ⟨.dhSync, 31, 4⟩
/-- `DH_SYNC.TE_EDGE` -/
def F.dhSyncTeEdge : Fld := ⟨.dhSync, 3, 3⟩
/-- `DH_SYNC.SOURCE` -/
def F.dhSyncSource : Fld := ⟨.dhSync, 1, 0⟩
/-- `DH_SYNC_LIVE.HOLD_MAX` -/
def F.dhSyncLiveHoldMax : Fld := ⟨.dhSyncLive, 63, 48⟩
/-- `DH_SYNC_LIVE.VFP_MIN` -/
def F.dhSyncLiveVfpMin : Fld := ⟨.dhSyncLive, 47, 32⟩
/-- `DH_SYNC_LIVE.TE_DELAY` -/
def F.dhSyncLiveTeDelay : Fld := ⟨.dhSyncLive, 31, 4⟩
/-- `DH_SYNC_LIVE.TE_EDGE` -/
def F.dhSyncLiveTeEdge : Fld := ⟨.dhSyncLive, 3, 3⟩
/-- `DH_SYNC_LIVE.SOURCE` -/
def F.dhSyncLiveSource : Fld := ⟨.dhSyncLive, 1, 0⟩
/-- `DH_PASS.HOST` -/
def F.dhPassHost : Fld := ⟨.dhPass, 14, 12⟩
/-- `DH_PASS.TID` -/
def F.dhPassTid : Fld := ⟨.dhPass, 11, 0⟩
/-- `DH_PASS_LIVE.HOST` -/
def F.dhPassLiveHost : Fld := ⟨.dhPassLive, 14, 12⟩
/-- `DH_PASS_LIVE.TID` -/
def F.dhPassLiveTid : Fld := ⟨.dhPassLive, 11, 0⟩
/-- `DH_LINK.PATTERN` -/
def F.dhLinkPattern : Fld := ⟨.dhLink, 11, 9⟩
/-- `DH_LINK.BPC` -/
def F.dhLinkBpc : Fld := ⟨.dhLink, 8, 6⟩
/-- `DH_LINK.RATE` -/
def F.dhLinkRate : Fld := ⟨.dhLink, 5, 4⟩
/-- `DH_LINK.LANES` -/
def F.dhLinkLanes : Fld := ⟨.dhLink, 1, 0⟩
/-- `DH_COMMIT.COMMIT` -/
def F.dhCommitCommit : Fld := ⟨.dhCommit, 0, 0⟩
/-- `DH_STATUS.LINE` -/
def F.dhStatusLine : Fld := ⟨.dhStatus, 63, 48⟩
/-- `DH_STATUS.FRAME` -/
def F.dhStatusFrame : Fld := ⟨.dhStatus, 47, 32⟩
/-- `DH_STATUS.COMMIT_ERR` -/
def F.dhStatusCommitErr : Fld := ⟨.dhStatus, 31, 24⟩
/-- `DH_STATUS.TE_MISS` -/
def F.dhStatusTeMiss : Fld := ⟨.dhStatus, 23, 16⟩
/-- `DH_STATUS.TE_EXTRA` -/
def F.dhStatusTeExtra : Fld := ⟨.dhStatus, 15, 8⟩
/-- `DH_STATUS.CFG_ERR` -/
def F.dhStatusCfgErr : Fld := ⟨.dhStatus, 2, 2⟩
/-- `DH_STATUS.ARMED` -/
def F.dhStatusArmed : Fld := ⟨.dhStatus, 1, 1⟩
/-- `DH_STATUS.UNDERRUN` -/
def F.dhStatusUnderrun : Fld := ⟨.dhStatus, 0, 0⟩
/-- `DH_EVENTS.AUX_DONE` -/
def F.dhEventsAuxDone : Fld := ⟨.dhEvents, 4, 4⟩
/-- `DH_EVENTS.PLUG` -/
def F.dhEventsPlug : Fld := ⟨.dhEvents, 3, 3⟩
/-- `DH_EVENTS.UNPLUG` -/
def F.dhEventsUnplug : Fld := ⟨.dhEvents, 2, 2⟩
/-- `DH_EVENTS.IRQ_HPD` -/
def F.dhEventsIrqHpd : Fld := ⟨.dhEvents, 1, 1⟩
/-- `DH_EVENTS.HPD_NOW` -/
def F.dhEventsHpdNow : Fld := ⟨.dhEvents, 0, 0⟩
/-- `DH_AUX_CMD.GO` -/
def F.dhAuxCmdGo : Fld := ⟨.dhAuxCmd, 31, 31⟩
/-- `DH_AUX_CMD.KIND` -/
def F.dhAuxCmdKind : Fld := ⟨.dhAuxCmd, 30, 28⟩
/-- `DH_AUX_CMD.LEN` -/
def F.dhAuxCmdLen : Fld := ⟨.dhAuxCmd, 23, 20⟩
/-- `DH_AUX_CMD.ADDR` -/
def F.dhAuxCmdAddr : Fld := ⟨.dhAuxCmd, 19, 0⟩
/-- `DH_AUX_STATUS.RESULT` -/
def F.dhAuxStatusResult : Fld := ⟨.dhAuxStatus, 2, 0⟩
/-- `DH_AUX_DATA.DATA` -/
def F.dhAuxDataData : Fld := ⟨.dhAuxData, 63, 0⟩
/-- `DH_UNDERRUNS.COUNT` -/
def F.dhUnderrunsCount : Fld := ⟨.dhUnderruns, 47, 0⟩
/-- `CANVAS_POOL_BASE.BASE` -/
def F.canvasPoolBaseBase : Fld := ⟨.canvasPoolBase, 47, 16⟩
/-- `CANVAS_POOL_PAGES.PAGES` -/
def F.canvasPoolPagesPages : Fld := ⟨.canvasPoolPages, 18, 0⟩
/-- `CANVAS_PAGE_STATUS.SCANREF` -/
def F.canvasPageStatusScanref : Fld := ⟨.canvasPageStatus, 44, 26⟩
/-- `CANVAS_PAGE_STATUS.FREE` -/
def F.canvasPageStatusFree : Fld := ⟨.canvasPageStatus, 18, 0⟩
/-- `CANVAS_PAGE_OP.GO` -/
def F.canvasPageOpGo : Fld := ⟨.canvasPageOp, 63, 63⟩
/-- `CANVAS_PAGE_OP.RESULT` -/
def F.canvasPageOpResult : Fld := ⟨.canvasPageOp, 55, 48⟩
/-- `CANVAS_PAGE_OP.HELD` -/
def F.canvasPageOpHeld : Fld := ⟨.canvasPageOp, 23, 19⟩
/-- `CANVAS_PAGE_OP.PAGE` -/
def F.canvasPageOpPage : Fld := ⟨.canvasPageOp, 18, 0⟩
/-- `CANVAS_FETCH.MPIX` -/
def F.canvasFetchMpix : Fld := ⟨.canvasFetch, 31, 0⟩
/-- `CANVAS_UNKNOWN.COUNT` -/
def F.canvasUnknownCount : Fld := ⟨.canvasUnknown, 47, 0⟩
/-- `CANVAS_CLIENT.VALID` -/
def F.canvasClientValid : Fld := ⟨.canvasClient, 63, 63⟩
/-- `CANVAS_CLIENT.ALCOVE` -/
def F.canvasClientAlcove : Fld := ⟨.canvasClient, 62, 62⟩
/-- `CANVAS_CLIENT.KEY` -/
def F.canvasClientKey : Fld := ⟨.canvasClient, 14, 0⟩
/-- `CANVAS_CLIENT_PAGES.USED` -/
def F.canvasClientPagesUsed : Fld := ⟨.canvasClientPages, 63, 32⟩
/-- `CANVAS_CLIENT_PAGES.QUOTA` -/
def F.canvasClientPagesQuota : Fld := ⟨.canvasClientPages, 31, 0⟩
/-- `CANVAS_SURF.STATE` -/
def F.canvasSurfState : Fld := ⟨.canvasSurf, 63, 62⟩
/-- `CANVAS_SURF.REFS` -/
def F.canvasSurfRefs : Fld := ⟨.canvasSurf, 61, 58⟩
/-- `CANVAS_SURF.FORMAT` -/
def F.canvasSurfFormat : Fld := ⟨.canvasSurf, 57, 55⟩
/-- `CANVAS_SURF.CLIENT` -/
def F.canvasSurfClient : Fld := ⟨.canvasSurf, 54, 47⟩
/-- `CANVAS_SURF.H` -/
def F.canvasSurfH : Fld := ⟨.canvasSurf, 41, 29⟩
/-- `CANVAS_SURF.W` -/
def F.canvasSurfW : Fld := ⟨.canvasSurf, 28, 16⟩
/-- `CANVAS_SURF.STRIDE` -/
def F.canvasSurfStride : Fld := ⟨.canvasSurf, 15, 0⟩
/-- `CANVAS_SURF_MAP.PAGES` -/
def F.canvasSurfMapPages : Fld := ⟨.canvasSurfMap, 63, 51⟩
/-- `CANVAS_SURF_MAP.MAP` -/
def F.canvasSurfMapMap : Fld := ⟨.canvasSurfMap, 18, 0⟩
/-- `DRAM_CANVAS_MAX.SHARE` -/
def F.dramCanvasMaxShare : Fld := ⟨.dramCanvasMax, 7, 0⟩
/-- `DRAM_CFG.DETECTED` -/
def F.dramCfgDetected : Fld := ⟨.dramCfg, 22, 16⟩
/-- `DRAM_CFG.CAPACITY` -/
def F.dramCfgCapacity : Fld := ⟨.dramCfg, 6, 0⟩
/-- `TRK_TD_CTRL.RETRY` -/
def F.trkTdCtrlRetry : Fld := ⟨.trkTdCtrl, 63, 48⟩
/-- `TRK_TD_CTRL.DISP_EN` -/
def F.trkTdCtrlDispEn : Fld := ⟨.trkTdCtrl, 15, 15⟩
/-- `TRK_TD_CTRL.HEAD` -/
def F.trkTdCtrlHead : Fld := ⟨.trkTdCtrl, 14, 12⟩
/-- `TRK_TD_CTRL.PCIE_EN` -/
def F.trkTdCtrlPcieEn : Fld := ⟨.trkTdCtrl, 11, 11⟩
/-- `TRK_TD_CTRL.PRT` -/
def F.trkTdCtrlPrt : Fld := ⟨.trkTdCtrl, 10, 8⟩
/-- `TRK_TD_CTRL.HOST` -/
def F.trkTdCtrlHost : Fld := ⟨.trkTdCtrl, 2, 0⟩
/-- `TRK_TD_STATUS.RX_EXPECT` -/
def F.trkTdStatusRxExpect : Fld := ⟨.trkTdStatus, 63, 56⟩
/-- `TRK_TD_STATUS.TX_NEXT` -/
def F.trkTdStatusTxNext : Fld := ⟨.trkTdStatus, 55, 48⟩
/-- `TRK_TD_STATUS.TX_UNACK` -/
def F.trkTdStatusTxUnack : Fld := ⟨.trkTdStatus, 47, 40⟩
/-- `TRK_TD_STATUS.CRED1` -/
def F.trkTdStatusCred1 : Fld := ⟨.trkTdStatus, 31, 24⟩
/-- `TRK_TD_STATUS.CRED0` -/
def F.trkTdStatusCred0 : Fld := ⟨.trkTdStatus, 23, 16⟩
/-- `TRK_TD_STATUS.INIT_ERR` -/
def F.trkTdStatusInitErr : Fld := ⟨.trkTdStatus, 15, 8⟩
/-- `TRK_TD_STATUS.LANES_UP` -/
def F.trkTdStatusLanesUp : Fld := ⟨.trkTdStatus, 5, 4⟩
/-- `TRK_TD_STATUS.PENDING` -/
def F.trkTdStatusPending : Fld := ⟨.trkTdStatus, 2, 2⟩
/-- `TRK_TD_STATUS.STATE` -/
def F.trkTdStatusState : Fld := ⟨.trkTdStatus, 1, 0⟩
/-- `TRK_TD_CNT.COUNT` -/
def F.trkTdCntCount : Fld := ⟨.trkTdCnt, 47, 0⟩
/-- `WTD_VENDOR.VENDOR` -/
def F.wtdVendorVendor : Fld := ⟨.wtdVendor, 15, 0⟩
/-- `WTD_DEVICE.DEVICE` -/
def F.wtdDeviceDevice : Fld := ⟨.wtdDevice, 15, 0⟩
/-- `WTD_REV.REV` -/
def F.wtdRevRev : Fld := ⟨.wtdRev, 15, 0⟩
/-- `WTD_LINK.RATE` -/
def F.wtdLinkRate : Fld := ⟨.wtdLink, 7, 4⟩
/-- `WTD_LINK.WIDTH` -/
def F.wtdLinkWidth : Fld := ⟨.wtdLink, 1, 0⟩
/-- `WTD_CTRL.DISP_EN` -/
def F.wtdCtrlDispEn : Fld := ⟨.wtdCtrl, 1, 1⟩
/-- `WTD_CTRL.PCIE_EN` -/
def F.wtdCtrlPcieEn : Fld := ⟨.wtdCtrl, 0, 0⟩
/-- `WTD_IMASK.MASK` -/
def F.wtdImaskMask : Fld := ⟨.wtdImask, 4, 0⟩
/-- `WTD_SCRATCH.DATA` -/
def F.wtdScratchData : Fld := ⟨.wtdScratch, 15, 0⟩
/-- `WTD_ST_LINK.CREDIT_STALL` -/
def F.wtdStLinkCreditStall : Fld := ⟨.wtdStLink, 3, 3⟩
/-- `WTD_ST_LINK.CRC_ERR` -/
def F.wtdStLinkCrcErr : Fld := ⟨.wtdStLink, 2, 2⟩
/-- `WTD_ST_LINK.NAK_RX` -/
def F.wtdStLinkNakRx : Fld := ⟨.wtdStLink, 1, 1⟩
/-- `WTD_ST_LINK.REPLAY` -/
def F.wtdStLinkReplay : Fld := ⟨.wtdStLink, 0, 0⟩
/-- `WTD_ST_PCIE.EP_DOWN` -/
def F.wtdStPcieEpDown : Fld := ⟨.wtdStPcie, 5, 5⟩
/-- `WTD_ST_PCIE.EP_UP` -/
def F.wtdStPcieEpUp : Fld := ⟨.wtdStPcie, 4, 4⟩
/-- `WTD_ST_PCIE.MALFORMED` -/
def F.wtdStPcieMalformed : Fld := ⟨.wtdStPcie, 3, 3⟩
/-- `WTD_ST_PCIE.CTO` -/
def F.wtdStPcieCto : Fld := ⟨.wtdStPcie, 2, 2⟩
/-- `WTD_ST_PCIE.CA` -/
def F.wtdStPcieCa : Fld := ⟨.wtdStPcie, 1, 1⟩
/-- `WTD_ST_PCIE.UR` -/
def F.wtdStPcieUr : Fld := ⟨.wtdStPcie, 0, 0⟩
/-- `WTD_ST_DISP.STREAM_ERR` -/
def F.wtdStDispStreamErr : Fld := ⟨.wtdStDisp, 2, 2⟩
/-- `WTD_ST_DISP.MSA_REFUSED` -/
def F.wtdStDispMsaRefused : Fld := ⟨.wtdStDisp, 1, 1⟩
/-- `WTD_ST_DISP.UNDERRUN` -/
def F.wtdStDispUnderrun : Fld := ⟨.wtdStDisp, 0, 0⟩
/-- `WTD_ST_HPD.IRQ_HPD` -/
def F.wtdStHpdIrqHpd : Fld := ⟨.wtdStHpd, 2, 2⟩
/-- `WTD_ST_HPD.UNPLUG` -/
def F.wtdStHpdUnplug : Fld := ⟨.wtdStHpd, 1, 1⟩
/-- `WTD_ST_HPD.PLUG` -/
def F.wtdStHpdPlug : Fld := ⟨.wtdStHpd, 0, 0⟩
/-- `WTD_ST_AUX.DONE` -/
def F.wtdStAuxDone : Fld := ⟨.wtdStAux, 0, 0⟩
/-- `WTD_CNT_CRC.COUNT` -/
def F.wtdCntCrcCount : Fld := ⟨.wtdCntCrc, 15, 0⟩
/-- `WTD_CNT_REPLAY.COUNT` -/
def F.wtdCntReplayCount : Fld := ⟨.wtdCntReplay, 15, 0⟩
/-- `WTD_CNT_OOS.COUNT` -/
def F.wtdCntOosCount : Fld := ⟨.wtdCntOos, 15, 0⟩
/-- `WTD_AUX_CMD.GO` -/
def F.wtdAuxCmdGo : Fld := ⟨.wtdAuxCmd, 15, 15⟩
/-- `WTD_AUX_CMD.KIND` -/
def F.wtdAuxCmdKind : Fld := ⟨.wtdAuxCmd, 14, 12⟩
/-- `WTD_AUX_CMD.LEN` -/
def F.wtdAuxCmdLen : Fld := ⟨.wtdAuxCmd, 7, 4⟩
/-- `WTD_AUX_CMD.ADDR_HI` -/
def F.wtdAuxCmdAddrHi : Fld := ⟨.wtdAuxCmd, 3, 0⟩
/-- `WTD_AUX_ADDR.ADDR_LO` -/
def F.wtdAuxAddrAddrLo : Fld := ⟨.wtdAuxAddr, 15, 0⟩
/-- `WTD_AUX_STATUS.RESULT` -/
def F.wtdAuxStatusResult : Fld := ⟨.wtdAuxStatus, 2, 0⟩
/-- `WTD_AUX_DATA.DATA` -/
def F.wtdAuxDataData : Fld := ⟨.wtdAuxData, 15, 0⟩
/-- `USB_CTRL.REASSIGN_GAP` -/
def F.usbCtrlReassignGap : Fld := ⟨.usbCtrl, 31, 16⟩
/-- `USB_CTRL.EN` -/
def F.usbCtrlEn : Fld := ⟨.usbCtrl, 0, 0⟩
/-- `USB_ASSIGN.DN0` -/
def F.usbAssignDn0 : Fld := ⟨.usbAssign, 3, 0⟩
/-- `USB_ASSIGN.DN1` -/
def F.usbAssignDn1 : Fld := ⟨.usbAssign, 7, 4⟩
/-- `USB_ASSIGN.DN2` -/
def F.usbAssignDn2 : Fld := ⟨.usbAssign, 11, 8⟩
/-- `USB_ASSIGN.DN3` -/
def F.usbAssignDn3 : Fld := ⟨.usbAssign, 15, 12⟩
/-- `USB_ASSIGN.DN4` -/
def F.usbAssignDn4 : Fld := ⟨.usbAssign, 19, 16⟩
/-- `USB_ASSIGN.DN5` -/
def F.usbAssignDn5 : Fld := ⟨.usbAssign, 23, 20⟩
/-- `USB_ASSIGN.DN6` -/
def F.usbAssignDn6 : Fld := ⟨.usbAssign, 27, 24⟩
/-- `USB_ASSIGN.DN7` -/
def F.usbAssignDn7 : Fld := ⟨.usbAssign, 31, 28⟩
/-- `UP_CTRL.EN` -/
def F.upCtrlEn : Fld := ⟨.upCtrl, 31, 31⟩
/-- `UP_CTRL.ATTACH_SRC` -/
def F.upCtrlAttachSrc : Fld := ⟨.upCtrl, 30, 30⟩
/-- `UP_CTRL.TC` -/
def F.upCtrlTc : Fld := ⟨.upCtrl, 27, 24⟩
/-- `UP_CTRL.MGMT_LIMIT` -/
def F.upCtrlMgmtLimit : Fld := ⟨.upCtrl, 23, 16⟩
/-- `UP_CTRL.HS_EN` -/
def F.upCtrlHsEn : Fld := ⟨.upCtrl, 0, 0⟩
/-- `UP_STATUS.RESETS` -/
def F.upStatusResets : Fld := ⟨.upStatus, 31, 16⟩
/-- `UP_STATUS.ADDRESS` -/
def F.upStatusAddress : Fld := ⟨.upStatus, 14, 8⟩
/-- `UP_STATUS.HS` -/
def F.upStatusHs : Fld := ⟨.upStatus, 4, 4⟩
/-- `UP_STATUS.RWAKE_EN` -/
def F.upStatusRwakeEn : Fld := ⟨.upStatus, 3, 3⟩
/-- `UP_STATUS.STATE` -/
def F.upStatusState : Fld := ⟨.upStatus, 2, 0⟩
/-- `UP_MGMT_SETUP.SETUP` -/
def F.upMgmtSetupSetup : Fld := ⟨.upMgmtSetup, 63, 0⟩
/-- `UP_MGMT_CTRL.XFER` -/
def F.upMgmtCtrlXfer : Fld := ⟨.upMgmtCtrl, 31, 24⟩
/-- `UP_MGMT_CTRL.PENDING` -/
def F.upMgmtCtrlPending : Fld := ⟨.upMgmtCtrl, 23, 23⟩
/-- `UP_MGMT_CTRL.STALE` -/
def F.upMgmtCtrlStale : Fld := ⟨.upMgmtCtrl, 22, 22⟩
/-- `UP_MGMT_CTRL.LATE` -/
def F.upMgmtCtrlLate : Fld := ⟨.upMgmtCtrl, 21, 21⟩
/-- `UP_MGMT_CTRL.LEN` -/
def F.upMgmtCtrlLen : Fld := ⟨.upMgmtCtrl, 8, 0⟩
/-- `UP_MGMT_DONE.XFER` -/
def F.upMgmtDoneXfer : Fld := ⟨.upMgmtDone, 15, 8⟩
/-- `UP_MGMT_DONE.ACTION` -/
def F.upMgmtDoneAction : Fld := ⟨.upMgmtDone, 1, 0⟩
/-- `DN_CTRL.PWR_EN` -/
def F.dnCtrlPwrEn : Fld := ⟨.dnCtrl, 31, 31⟩
/-- `DN_CTRL.IDLE_PWR` -/
def F.dnCtrlIdlePwr : Fld := ⟨.dnCtrl, 30, 30⟩
/-- `DN_CTRL.CYCLE` -/
def F.dnCtrlCycle : Fld := ⟨.dnCtrl, 29, 29⟩
/-- `DN_CTRL.OC_DEBOUNCE` -/
def F.dnCtrlOcDebounce : Fld := ⟨.dnCtrl, 7, 0⟩
/-- `DN_STATUS.OC_COUNT` -/
def F.dnStatusOcCount : Fld := ⟨.dnStatus, 31, 16⟩
/-- `DN_STATUS.VBUS_ON` -/
def F.dnStatusVbusOn : Fld := ⟨.dnStatus, 15, 15⟩
/-- `DN_STATUS.OC` -/
def F.dnStatusOc : Fld := ⟨.dnStatus, 14, 14⟩
/-- `DN_STATUS.CONNECTED` -/
def F.dnStatusConnected : Fld := ⟨.dnStatus, 13, 13⟩
/-- `DN_STATUS.SPEED` -/
def F.dnStatusSpeed : Fld := ⟨.dnStatus, 12, 11⟩
/-- `DN_STATUS.OWNER` -/
def F.dnStatusOwner : Fld := ⟨.dnStatus, 10, 8⟩
/-- `DN_STATUS.SUSPENDED` -/
def F.dnStatusSuspended : Fld := ⟨.dnStatus, 0, 0⟩
/-- `USB_AUDIO.TRIM_SET` -/
def F.usbAudioTrimSet : Fld := ⟨.usbAudio, 63, 48⟩
/-- `USB_AUDIO.OWNER` -/
def F.usbAudioOwner : Fld := ⟨.usbAudio, 31, 29⟩
/-- `USB_AUDIO.FORMAT` -/
def F.usbAudioFormat : Fld := ⟨.usbAudio, 28, 28⟩
/-- `USB_AUDIO.OUT_SLOT` -/
def F.usbAudioOutSlot : Fld := ⟨.usbAudio, 22, 20⟩
/-- `USB_AUDIO.IN_SLOT` -/
def F.usbAudioInSlot : Fld := ⟨.usbAudio, 18, 16⟩
/-- `USB_AUDIO.DISCIPLINE` -/
def F.usbAudioDiscipline : Fld := ⟨.usbAudio, 15, 15⟩
/-- `USB_AUDIO.MCLK_EN` -/
def F.usbAudioMclkEn : Fld := ⟨.usbAudio, 14, 14⟩
/-- `USB_AUDIO_STATUS.FB` -/
def F.usbAudioStatusFb : Fld := ⟨.usbAudioStatus, 63, 32⟩
/-- `USB_AUDIO_STATUS.TRIM` -/
def F.usbAudioStatusTrim : Fld := ⟨.usbAudioStatus, 31, 16⟩
/-- `USB_AUDIO_STATUS.LOCKED` -/
def F.usbAudioStatusLocked : Fld := ⟨.usbAudioStatus, 15, 15⟩
/-- `USB_AUDIO_STATUS.RATE` -/
def F.usbAudioStatusRate : Fld := ⟨.usbAudioStatus, 14, 14⟩
/-- `USB_AUDIO_STATUS.PLAYING` -/
def F.usbAudioStatusPlaying : Fld := ⟨.usbAudioStatus, 13, 13⟩
/-- `USB_AUDIO_STATUS.CAPTURING` -/
def F.usbAudioStatusCapturing : Fld := ⟨.usbAudioStatus, 12, 12⟩
/-- `USB_UNDERRUN.COUNT` -/
def F.usbUnderrunCount : Fld := ⟨.usbUnderrun, 47, 0⟩
/-- `USB_OVERRUN.COUNT` -/
def F.usbOverrunCount : Fld := ⟨.usbOverrun, 47, 0⟩
/-- `NEWEL_PPLIM0.IMAX` -/
def F.newelPplim0Imax : Fld := ⟨.newelPplim0, 63, 48⟩
/-- `NEWEL_PPLIM0.VMAX` -/
def F.newelPplim0Vmax : Fld := ⟨.newelPplim0, 47, 32⟩
/-- `NEWEL_PPLIM0.TMAX_C` -/
def F.newelPplim0TmaxC : Fld := ⟨.newelPplim0, 31, 24⟩
/-- `NEWEL_PPLIM0.NTC` -/
def F.newelPplim0Ntc : Fld := ⟨.newelPplim0, 23, 23⟩
/-- `NEWEL_PPLIM0.TMAX_CODE` -/
def F.newelPplim0TmaxCode : Fld := ⟨.newelPplim0, 11, 0⟩
/-- `NEWEL_PPLIM1.ISCALE` -/
def F.newelPplim1Iscale : Fld := ⟨.newelPplim1, 63, 48⟩
/-- `NEWEL_PPLIM1.VSCALE` -/
def F.newelPplim1Vscale : Fld := ⟨.newelPplim1, 47, 32⟩
/-- `NEWEL_PPLIM1.TREF` -/
def F.newelPplim1Tref : Fld := ⟨.newelPplim1, 31, 24⟩
/-- `NEWEL_PPLIM1.TAU2` -/
def F.newelPplim1Tau2 : Fld := ⟨.newelPplim1, 23, 16⟩
/-- `NEWEL_PPLIM1.RTH2` -/
def F.newelPplim1Rth2 : Fld := ⟨.newelPplim1, 15, 12⟩
/-- `NEWEL_PPLIM1.TAU1` -/
def F.newelPplim1Tau1 : Fld := ⟨.newelPplim1, 11, 8⟩
/-- `NEWEL_PPLIM1.RTH1` -/
def F.newelPplim1Rth1 : Fld := ⟨.newelPplim1, 7, 4⟩
/-- `NEWEL_PPLIM1.RDS` -/
def F.newelPplim1Rds : Fld := ⟨.newelPplim1, 3, 0⟩
/-- `NEWEL_PPLOCK.LOCK` -/
def F.newelPplockLock : Fld := ⟨.newelPplock, 63, 63⟩
/-- `NEWEL_PPLOCK.INPUT_TC0` -/
def F.newelPplockInputTc0 : Fld := ⟨.newelPplock, 0, 0⟩
/-- `TC_CTRL.KA_TX_PERIOD` -/
def F.tcCtrlKaTxPeriod : Fld := ⟨.tcCtrl, 63, 48⟩
/-- `TC_CTRL.KA_LIMIT` -/
def F.tcCtrlKaLimit : Fld := ⟨.tcCtrl, 47, 32⟩
/-- `TC_CTRL.DETACH_DEB` -/
def F.tcCtrlDetachDeb : Fld := ⟨.tcCtrl, 31, 24⟩
/-- `TC_CTRL.FRS_RX_EN` -/
def F.tcCtrlFrsRxEn : Fld := ⟨.tcCtrl, 13, 13⟩
/-- `TC_CTRL.FRS_ARM` -/
def F.tcCtrlFrsArm : Fld := ⟨.tcCtrl, 12, 12⟩
/-- `TC_CTRL.VCONN_EN` -/
def F.tcCtrlVconnEn : Fld := ⟨.tcCtrl, 11, 11⟩
/-- `TC_CTRL.DATA_ROLE` -/
def F.tcCtrlDataRole : Fld := ⟨.tcCtrl, 9, 9⟩
/-- `TC_CTRL.POWER_ROLE` -/
def F.tcCtrlPowerRole : Fld := ⟨.tcCtrl, 8, 8⟩
/-- `TC_CTRL.RP_LEVEL` -/
def F.tcCtrlRpLevel : Fld := ⟨.tcCtrl, 7, 6⟩
/-- `TC_CTRL.CC_MODE` -/
def F.tcCtrlCcMode : Fld := ⟨.tcCtrl, 3, 2⟩
/-- `TC_CTRL.EN` -/
def F.tcCtrlEn : Fld := ⟨.tcCtrl, 0, 0⟩
/-- `TC_STATUS.RX_COUNT` -/
def F.tcStatusRxCount : Fld := ⟨.tcStatus, 27, 24⟩
/-- `TC_STATUS.KA_EXPIRED` -/
def F.tcStatusKaExpired : Fld := ⟨.tcStatus, 15, 15⟩
/-- `TC_STATUS.HARD_RESET_RX` -/
def F.tcStatusHardResetRx : Fld := ⟨.tcStatus, 14, 14⟩
/-- `TC_STATUS.HARD_RESET_TX` -/
def F.tcStatusHardResetTx : Fld := ⟨.tcStatus, 13, 13⟩
/-- `TC_STATUS.FRS_RX` -/
def F.tcStatusFrsRx : Fld := ⟨.tcStatus, 12, 12⟩
/-- `TC_STATUS.FRS_TX` -/
def F.tcStatusFrsTx : Fld := ⟨.tcStatus, 11, 11⟩
/-- `TC_STATUS.VCONN_OC` -/
def F.tcStatusVconnOc : Fld := ⟨.tcStatus, 10, 10⟩
/-- `TC_STATUS.KA_TX_FAIL` -/
def F.tcStatusKaTxFail : Fld := ⟨.tcStatus, 9, 9⟩
/-- `TC_STATUS.SINK_TX_OK` -/
def F.tcStatusSinkTxOk : Fld := ⟨.tcStatus, 8, 8⟩
/-- `TC_STATUS.PARTNER_CC` -/
def F.tcStatusPartnerCc : Fld := ⟨.tcStatus, 7, 6⟩
/-- `TC_STATUS.ORIENT` -/
def F.tcStatusOrient : Fld := ⟨.tcStatus, 5, 5⟩
/-- `TC_STATUS.VCONN_ON` -/
def F.tcStatusVconnOn : Fld := ⟨.tcStatus, 4, 4⟩
/-- `TC_STATUS.ATTACH` -/
def F.tcStatusAttach : Fld := ⟨.tcStatus, 3, 0⟩
/-- `TC_RX_FULL.COUNT` -/
def F.tcRxFullCount : Fld := ⟨.tcRxFull, 47, 0⟩
/-- `PP_CFG.VIN` -/
def F.ppCfgVin : Fld := ⟨.ppCfg, 63, 48⟩
/-- `PP_CFG.COOLDOWN` -/
def F.ppCfgCooldown : Fld := ⟨.ppCfg, 47, 40⟩
/-- `PP_CFG.PRECHG_MAX` -/
def F.ppCfgPrechgMax : Fld := ⟨.ppCfg, 39, 32⟩
/-- `PP_CFG.FAULT_T` -/
def F.ppCfgFaultT : Fld := ⟨.ppCfg, 31, 16⟩
/-- `PP_CFG.TGATE` -/
def F.ppCfgTgate : Fld := ⟨.ppCfg, 15, 8⟩
/-- `PP_CFG2.GATE_OK` -/
def F.ppCfg2GateOk : Fld := ⟨.ppCfg2, 11, 0⟩
/-- `PP_STATUS.TRIPS` -/
def F.ppStatusTrips : Fld := ⟨.ppStatus, 47, 40⟩
/-- `PP_STATUS.CAUSE` -/
def F.ppStatusCause : Fld := ⟨.ppStatus, 39, 32⟩
/-- `PP_STATUS.MODEL_C` -/
def F.ppStatusModelC : Fld := ⟨.ppStatus, 31, 24⟩
/-- `PP_STATUS.CMD_ON` -/
def F.ppStatusCmdOn : Fld := ⟨.ppStatus, 20, 20⟩
/-- `PP_STATUS.ATTEMPTS` -/
def F.ppStatusAttempts : Fld := ⟨.ppStatus, 19, 16⟩
/-- `PP_STATUS.DAMAGED` -/
def F.ppStatusDamaged : Fld := ⟨.ppStatus, 15, 15⟩
/-- `PP_STATUS.LOCKOUT` -/
def F.ppStatusLockout : Fld := ⟨.ppStatus, 14, 14⟩
/-- `PP_STATUS.TRIP_EVT` -/
def F.ppStatusTripEvt : Fld := ⟨.ppStatus, 13, 13⟩
/-- `PP_STATUS.PRECHG_TO` -/
def F.ppStatusPrechgTo : Fld := ⟨.ppStatus, 12, 12⟩
/-- `PP_STATUS.PG` -/
def F.ppStatusPg : Fld := ⟨.ppStatus, 11, 11⟩
/-- `PP_STATUS.DISCH` -/
def F.ppStatusDisch : Fld := ⟨.ppStatus, 10, 10⟩
/-- `PP_STATUS.PRECHG` -/
def F.ppStatusPrechg : Fld := ⟨.ppStatus, 9, 9⟩
/-- `PP_STATUS.GATE` -/
def F.ppStatusGate : Fld := ⟨.ppStatus, 8, 8⟩
/-- `PP_STATUS.STATE` -/
def F.ppStatusState : Fld := ⟨.ppStatus, 2, 0⟩
/-- `PP_MEAS.GATE_CODE` -/
def F.ppMeasGateCode : Fld := ⟨.ppMeas, 59, 48⟩
/-- `PP_MEAS.TEMP_CODE` -/
def F.ppMeasTempCode : Fld := ⟨.ppMeas, 43, 32⟩
/-- `PP_MEAS.VOUT_MV` -/
def F.ppMeasVoutMv : Fld := ⟨.ppMeas, 31, 16⟩
/-- `PP_MEAS.I_MA` -/
def F.ppMeasIMa : Fld := ⟨.ppMeas, 15, 0⟩
/-- `POWER_TOTAL.MW` -/
def F.powerTotalMw : Fld := ⟨.powerTotal, 31, 0⟩
/-- `POWER_RESERVE.MW` -/
def F.powerReserveMw : Fld := ⟨.powerReserve, 31, 0⟩
/-- `POWER_ALLOT.MW` -/
def F.powerAllotMw : Fld := ⟨.powerAllot, 31, 0⟩
/-- `POWER_STATUS.CFG_ERR` -/
def F.powerStatusCfgErr : Fld := ⟨.powerStatus, 0, 0⟩
/-- `WDN_STATUS.ZEROIZES` -/
def F.wdnStatusZeroizes : Fld := ⟨.wdnStatus, 63, 48⟩
/-- `WDN_STATUS.MBX_USED` -/
def F.wdnStatusMbxUsed : Fld := ⟨.wdnStatus, 47, 40⟩
/-- `WDN_STATUS.STORE_LOCKED` -/
def F.wdnStatusStoreLocked : Fld := ⟨.wdnStatus, 2, 2⟩
/-- `WDN_STATUS.TAMPERED` -/
def F.wdnStatusTampered : Fld := ⟨.wdnStatus, 1, 1⟩
/-- `WDN_STATUS.READY` -/
def F.wdnStatusReady : Fld := ⟨.wdnStatus, 0, 0⟩
/-- `WDN_SLOTSTATE.STATE0` -/
def F.wdnSlotstateState0 : Fld := ⟨.wdnSlotstate, 2, 0⟩
/-- `WDN_SLOTSTATE.STATE1` -/
def F.wdnSlotstateState1 : Fld := ⟨.wdnSlotstate, 6, 4⟩
/-- `WDN_SLOTSTATE.STATE2` -/
def F.wdnSlotstateState2 : Fld := ⟨.wdnSlotstate, 10, 8⟩
/-- `WDN_SLOTSTATE.STATE3` -/
def F.wdnSlotstateState3 : Fld := ⟨.wdnSlotstate, 14, 12⟩
/-- `WDN_SLOTSTATE.STATE4` -/
def F.wdnSlotstateState4 : Fld := ⟨.wdnSlotstate, 18, 16⟩
/-- `WDN_SLOTSTATE.STATE5` -/
def F.wdnSlotstateState5 : Fld := ⟨.wdnSlotstate, 22, 20⟩
/-- `WDN_SLOTSTATE.STATE6` -/
def F.wdnSlotstateState6 : Fld := ⟨.wdnSlotstate, 26, 24⟩
/-- `WDN_SLOTSTATE.STATE7` -/
def F.wdnSlotstateState7 : Fld := ⟨.wdnSlotstate, 30, 28⟩
/-- `WDN_SLOTSTATE.STATE8` -/
def F.wdnSlotstateState8 : Fld := ⟨.wdnSlotstate, 34, 32⟩
/-- `WDN_SLOTSTATE.STATE9` -/
def F.wdnSlotstateState9 : Fld := ⟨.wdnSlotstate, 38, 36⟩
/-- `WDN_SLOTSTATE.STATE10` -/
def F.wdnSlotstateState10 : Fld := ⟨.wdnSlotstate, 42, 40⟩
/-- `WDN_SLOTSTATE.STATE11` -/
def F.wdnSlotstateState11 : Fld := ⟨.wdnSlotstate, 46, 44⟩
/-- `WDN_SLOTSTATE.STATE12` -/
def F.wdnSlotstateState12 : Fld := ⟨.wdnSlotstate, 50, 48⟩
/-- `WDN_SLOTSTATE.STATE13` -/
def F.wdnSlotstateState13 : Fld := ⟨.wdnSlotstate, 54, 52⟩
/-- `WDN_SLOTSTATE.STATE14` -/
def F.wdnSlotstateState14 : Fld := ⟨.wdnSlotstate, 58, 56⟩
/-- `WDN_SLOTSTATE.STATE15` -/
def F.wdnSlotstateState15 : Fld := ⟨.wdnSlotstate, 62, 60⟩
/-- `FUSE_PKHASH.HASH` -/
def F.fusePkhashHash : Fld := ⟨.fusePkhash, 63, 0⟩
/-- `FUSE_SVN.BITS` -/
def F.fuseSvnBits : Fld := ⟨.fuseSvn, 63, 0⟩
/-- `FUSE_CFG.DEBUG_LOCK` -/
def F.fuseCfgDebugLock : Fld := ⟨.fuseCfg, 0, 0⟩
/-- `FUSE_SVN_CTRL.GO` -/
def F.fuseSvnCtrlGo : Fld := ⟨.fuseSvnCtrl, 63, 63⟩
/-- `FUSE_SVN_CTRL.FAIL` -/
def F.fuseSvnCtrlFail : Fld := ⟨.fuseSvnCtrl, 1, 1⟩
/-- `FUSE_SVN_CTRL.BUSY` -/
def F.fuseSvnCtrlBusy : Fld := ⟨.fuseSvnCtrl, 0, 0⟩
/-- `TRK_SEC_KEY.GO` -/
def F.trkSecKeyGo : Fld := ⟨.trkSecKey, 63, 63⟩
/-- `TRK_SEC_KEY.ROLE` -/
def F.trkSecKeyRole : Fld := ⟨.trkSecKey, 13, 13⟩
/-- `TRK_SEC_KEY.KIDX` -/
def F.trkSecKeyKidx : Fld := ⟨.trkSecKey, 12, 12⟩
/-- `TRK_SEC_KEY.CLEAR` -/
def F.trkSecKeyClear : Fld := ⟨.trkSecKey, 8, 8⟩
/-- `TRK_SEC_KEY.DIR` -/
def F.trkSecKeyDir : Fld := ⟨.trkSecKey, 7, 6⟩
/-- `TRK_SEC_KEY.SLOT` -/
def F.trkSecKeySlot : Fld := ⟨.trkSecKey, 5, 0⟩
/-- `TRK_SEC_STATUS.RESULT` -/
def F.trkSecStatusResult : Fld := ⟨.trkSecStatus, 15, 8⟩
/-- `TRK_SEC_STATUS.RX1` -/
def F.trkSecStatusRx1 : Fld := ⟨.trkSecStatus, 7, 7⟩
/-- `TRK_SEC_STATUS.RX0` -/
def F.trkSecStatusRx0 : Fld := ⟨.trkSecStatus, 6, 6⟩
/-- `TRK_SEC_STATUS.TX` -/
def F.trkSecStatusTx : Fld := ⟨.trkSecStatus, 5, 5⟩
/-- `TRK_SEC_STATUS.RX_BUF` -/
def F.trkSecStatusRxBuf : Fld := ⟨.trkSecStatus, 3, 0⟩
/-- `NEWEL_TAMPER_CTRL.LOCK` -/
def F.newelTamperCtrlLock : Fld := ⟨.newelTamperCtrl, 63, 63⟩
/-- `NEWEL_TAMPER_CTRL.DEB` -/
def F.newelTamperCtrlDeb : Fld := ⟨.newelTamperCtrl, 23, 16⟩
/-- `NEWEL_TAMPER_CTRL.SAFE` -/
def F.newelTamperCtrlSafe : Fld := ⟨.newelTamperCtrl, 13, 8⟩
/-- `NEWEL_TAMPER_CTRL.EN` -/
def F.newelTamperCtrlEn : Fld := ⟨.newelTamperCtrl, 5, 0⟩
/-- `NEWEL_TAMPER_CAUSE.ALARMS` -/
def F.newelTamperCauseAlarms : Fld := ⟨.newelTamperCause, 63, 48⟩
/-- `NEWEL_TAMPER_CAUSE.AT_BOOT` -/
def F.newelTamperCauseAtBoot : Fld := ⟨.newelTamperCause, 7, 7⟩
/-- `NEWEL_TAMPER_CAUSE.CAUSE` -/
def F.newelTamperCauseCause : Fld := ⟨.newelTamperCause, 5, 0⟩
/-- `BELL_SRC.ENABLE` -/
def F.bellSrcEnable : Fld := ⟨.bellSrc, 15, 15⟩
/-- `BELL_SRC.PRIORITY` -/
def F.bellSrcPriority : Fld := ⟨.bellSrc, 11, 8⟩
/-- `BELL_SRC.TARGET` -/
def F.bellSrcTarget : Fld := ⟨.bellSrc, 6, 4⟩
/-- `BELL_SRC.ACTIVE` -/
def F.bellSrcActive : Fld := ⟨.bellSrc, 1, 1⟩
/-- `BELL_SRC.PENDING` -/
def F.bellSrcPending : Fld := ⟨.bellSrc, 0, 0⟩
/-- `BELL_STATUS.COALESCED` -/
def F.bellStatusCoalesced : Fld := ⟨.bellStatus, 63, 48⟩
/-- `BELL_STATUS.BAD_WRITES` -/
def F.bellStatusBadWrites : Fld := ⟨.bellStatus, 47, 32⟩
/-- `BELL_STATUS.STACK_ORDER` -/
def F.bellStatusStackOrder : Fld := ⟨.bellStatus, 31, 16⟩
/-- `BELL_FAULT.VALID` -/
def F.bellFaultValid : Fld := ⟨.bellFault, 40, 40⟩
/-- `BELL_FAULT.THREAD` -/
def F.bellFaultThread : Fld := ⟨.bellFault, 34, 32⟩
/-- `BELL_FAULT.TOP` -/
def F.bellFaultTop : Fld := ⟨.bellFault, 28, 16⟩
/-- `BELL_FAULT.WRITTEN` -/
def F.bellFaultWritten : Fld := ⟨.bellFault, 11, 0⟩
/-- `BELL_DEPTH.DEPTH0` -/
def F.bellDepthDepth0 : Fld := ⟨.bellDepth, 4, 0⟩
/-- `BELL_DEPTH.DEPTH1` -/
def F.bellDepthDepth1 : Fld := ⟨.bellDepth, 12, 8⟩
/-- `BELL_DEPTH.DEPTH2` -/
def F.bellDepthDepth2 : Fld := ⟨.bellDepth, 20, 16⟩
/-- `BELL_DEPTH.DEPTH3` -/
def F.bellDepthDepth3 : Fld := ⟨.bellDepth, 28, 24⟩
/-- `BELL_DEPTH.DEPTH4` -/
def F.bellDepthDepth4 : Fld := ⟨.bellDepth, 36, 32⟩
/-- `BELL_DEPTH.DEPTH5` -/
def F.bellDepthDepth5 : Fld := ⟨.bellDepth, 44, 40⟩
/-- `BELL_DEPTH.DEPTH6` -/
def F.bellDepthDepth6 : Fld := ⟨.bellDepth, 52, 48⟩
/-- `BELL_DEPTH.DEPTH7` -/
def F.bellDepthDepth7 : Fld := ⟨.bellDepth, 60, 56⟩
/-- `BELL_DOORBELL.VALUE` -/
def F.bellDoorbellValue : Fld := ⟨.bellDoorbell, 31, 0⟩
/-- `BELL_EOI.VALUE` -/
def F.bellEoiValue : Fld := ⟨.bellEoi, 31, 0⟩
/-- `BELL_HOSTMSG.HOST` -/
def F.bellHostmsgHost : Fld := ⟨.bellHostmsg, 42, 40⟩
/-- `BELL_HOSTMSG.FN` -/
def F.bellHostmsgFn : Fld := ⟨.bellHostmsg, 39, 30⟩
/-- `BELL_HOSTMSG.VECTOR` -/
def F.bellHostmsgVector : Fld := ⟨.bellHostmsg, 15, 0⟩
/-- `BELL_STACK.ENTRY0` -/
def F.bellStackEntry0 : Fld := ⟨.bellStack, 15, 0⟩
/-- `BELL_STACK.ENTRY1` -/
def F.bellStackEntry1 : Fld := ⟨.bellStack, 31, 16⟩
/-- `BELL_STACK.ENTRY2` -/
def F.bellStackEntry2 : Fld := ⟨.bellStack, 47, 32⟩
/-- `BELL_STACK.ENTRY3` -/
def F.bellStackEntry3 : Fld := ⟨.bellStack, 63, 48⟩
/-- `BELL_PENDSUM.PEND` -/
def F.bellPendsumPend : Fld := ⟨.bellPendsum, 63, 0⟩
/-- `PWR_CFG.ENTRY_MAX` -/
def F.pwrCfgEntryMax : Fld := ⟨.pwrCfg, 63, 48⟩
/-- `PWR_CFG.ANSWER_MAX` -/
def F.pwrCfgAnswerMax : Fld := ⟨.pwrCfg, 47, 32⟩
/-- `PWR_CFG.IDLE_LANES` -/
def F.pwrCfgIdleLanes : Fld := ⟨.pwrCfg, 0, 0⟩
/-- `PWR_WAKE_EN.EN` -/
def F.pwrWakeEnEn : Fld := ⟨.pwrWakeEn, 7, 0⟩
/-- `PWR_TIMER.WAKE_AFTER` -/
def F.pwrTimerWakeAfter : Fld := ⟨.pwrTimer, 31, 0⟩
/-- `PWR_STATUS.LAST_UNIT` -/
def F.pwrStatusLastUnit : Fld := ⟨.pwrStatus, 63, 48⟩
/-- `PWR_STATUS.LAST_REASON` -/
def F.pwrStatusLastReason : Fld := ⟨.pwrStatus, 47, 40⟩
/-- `PWR_STATUS.WAKE_CAUSE` -/
def F.pwrStatusWakeCause : Fld := ⟨.pwrStatus, 15, 8⟩
/-- `PWR_STATUS.COMMIT` -/
def F.pwrStatusCommit : Fld := ⟨.pwrStatus, 4, 4⟩
/-- `PWR_STATUS.POLL` -/
def F.pwrStatusPoll : Fld := ⟨.pwrStatus, 3, 3⟩
/-- `PWR_STATUS.STATE` -/
def F.pwrStatusState : Fld := ⟨.pwrStatus, 2, 0⟩
/-- `PWR_ANSWER.SEQ` -/
def F.pwrAnswerSeq : Fld := ⟨.pwrAnswer, 63, 48⟩
/-- `PWR_ANSWER.DELAY` -/
def F.pwrAnswerDelay : Fld := ⟨.pwrAnswer, 47, 24⟩
/-- `PWR_ANSWER.REASON` -/
def F.pwrAnswerReason : Fld := ⟨.pwrAnswer, 15, 8⟩
/-- `PWR_ANSWER.ANSWER` -/
def F.pwrAnswerAnswer : Fld := ⟨.pwrAnswer, 1, 0⟩
/-- `PWR_WAKE_STEP.TIME_NS` -/
def F.pwrWakeStepTimeNs : Fld := ⟨.pwrWakeStep, 47, 16⟩
/-- `PWR_WAKE_STEP.DOMAIN` -/
def F.pwrWakeStepDomain : Fld := ⟨.pwrWakeStep, 15, 8⟩
/-- `PWR_WAKE_STEP.FIRST` -/
def F.pwrWakeStepFirst : Fld := ⟨.pwrWakeStep, 7, 0⟩
/-- `MON_CTRL.EN` -/
def F.monCtrlEn : Fld := ⟨.monCtrl, 63, 63⟩
/-- `MON_CTRL.SNAP` -/
def F.monCtrlSnap : Fld := ⟨.monCtrl, 62, 62⟩
/-- `MON_CTRL.CLR` -/
def F.monCtrlClr : Fld := ⟨.monCtrl, 61, 61⟩
/-- `MON_CTRL.MODE` -/
def F.monCtrlMode : Fld := ⟨.monCtrl, 60, 60⟩
/-- `MON_CTRL.QUANTITY` -/
def F.monCtrlQuantity : Fld := ⟨.monCtrl, 59, 56⟩
/-- `MON_CTRL.SHIFT` -/
def F.monCtrlShift : Fld := ⟨.monCtrl, 41, 36⟩
/-- `MON_CTRL.PERIOD` -/
def F.monCtrlPeriod : Fld := ⟨.monCtrl, 31, 16⟩
/-- `MON_CTRL.SELECT` -/
def F.monCtrlSelect : Fld := ⟨.monCtrl, 12, 0⟩
/-- `MON_LIN.WIDTH` -/
def F.monLinWidth : Fld := ⟨.monLin, 63, 32⟩
/-- `MON_LIN.BASE` -/
def F.monLinBase : Fld := ⟨.monLin, 31, 0⟩
/-- `MON_MIN.MIN` -/
def F.monMinMin : Fld := ⟨.monMin, 47, 0⟩
/-- `MON_SNAP_MIN.MIN` -/
def F.monSnapMinMin : Fld := ⟨.monSnapMin, 47, 0⟩
/-- `MON_MAX.MAX` -/
def F.monMaxMax : Fld := ⟨.monMax, 47, 0⟩
/-- `MON_SNAP_MAX.MAX` -/
def F.monSnapMaxMax : Fld := ⟨.monSnapMax, 47, 0⟩
/-- `MON_COUNT.SAT` -/
def F.monCountSat : Fld := ⟨.monCount, 63, 63⟩
/-- `MON_COUNT.COUNT` -/
def F.monCountCount : Fld := ⟨.monCount, 47, 0⟩
/-- `MON_SNAP_COUNT.SAT` -/
def F.monSnapCountSat : Fld := ⟨.monSnapCount, 63, 63⟩
/-- `MON_SNAP_COUNT.COUNT` -/
def F.monSnapCountCount : Fld := ⟨.monSnapCount, 47, 0⟩
/-- `MON_SUM.SUM` -/
def F.monSumSum : Fld := ⟨.monSum, 63, 0⟩
/-- `MON_SNAP_SUM.SUM` -/
def F.monSnapSumSum : Fld := ⟨.monSnapSum, 63, 0⟩
/-- `MON_STATUS.CFG_ERR` -/
def F.monStatusCfgErr : Fld := ⟨.monStatus, 0, 0⟩
/-- `MON_BIN.COUNT` -/
def F.monBinCount : Fld := ⟨.monBin, 31, 0⟩
/-- `MON_SNAP_BIN.COUNT` -/
def F.monSnapBinCount : Fld := ⟨.monSnapBin, 31, 0⟩
/-- `HALL_ERR_CTRL.DRAIN_LIMIT` -/
def F.hallErrCtrlDrainLimit : Fld := ⟨.hallErrCtrl, 31, 16⟩
/-- `HALL_ERR_CTRL.FENCE_THRESH` -/
def F.hallErrCtrlFenceThresh : Fld := ⟨.hallErrCtrl, 7, 0⟩
/-- `HALL_FLIGHT_CMD.INSTANCE` -/
def F.hallFlightCmdInstance : Fld := ⟨.hallFlightCmd, 39, 32⟩
/-- `HALL_FLIGHT_CMD.OP` -/
def F.hallFlightCmdOp : Fld := ⟨.hallFlightCmd, 31, 30⟩
/-- `HALL_FLIGHT_CMD.KIND` -/
def F.hallFlightCmdKind : Fld := ⟨.hallFlightCmd, 15, 8⟩
/-- `HALL_FLIGHT_CMD.CMD_ERR` -/
def F.hallFlightCmdCmdErr : Fld := ⟨.hallFlightCmd, 0, 0⟩
/-- `HALL_ERR_RING.OVERRUN` -/
def F.hallErrRingOverrun : Fld := ⟨.hallErrRing, 63, 48⟩
/-- `HALL_ERR_RING.RD` -/
def F.hallErrRingRd : Fld := ⟨.hallErrRing, 31, 16⟩
/-- `HALL_ERR_RING.WR` -/
def F.hallErrRingWr : Fld := ⟨.hallErrRing, 15, 0⟩
/-- `SVC_ERR_CTRL.DRAIN_LIMIT` -/
def F.svcErrCtrlDrainLimit : Fld := ⟨.svcErrCtrl, 31, 16⟩
/-- `SVC_ERR_CTRL.FENCE_THRESH` -/
def F.svcErrCtrlFenceThresh : Fld := ⟨.svcErrCtrl, 7, 0⟩
/-- `SVC_FLIGHT_CMD.INSTANCE` -/
def F.svcFlightCmdInstance : Fld := ⟨.svcFlightCmd, 39, 32⟩
/-- `SVC_FLIGHT_CMD.OP` -/
def F.svcFlightCmdOp : Fld := ⟨.svcFlightCmd, 31, 30⟩
/-- `SVC_FLIGHT_CMD.KIND` -/
def F.svcFlightCmdKind : Fld := ⟨.svcFlightCmd, 15, 8⟩
/-- `SVC_FLIGHT_CMD.CMD_ERR` -/
def F.svcFlightCmdCmdErr : Fld := ⟨.svcFlightCmd, 0, 0⟩
/-- `SVC_ERR_RING.OVERRUN` -/
def F.svcErrRingOverrun : Fld := ⟨.svcErrRing, 63, 48⟩
/-- `SVC_ERR_RING.RD` -/
def F.svcErrRingRd : Fld := ⟨.svcErrRing, 31, 16⟩
/-- `SVC_ERR_RING.WR` -/
def F.svcErrRingWr : Fld := ⟨.svcErrRing, 15, 0⟩
/-- `HALL_FLIGHT.LAST_CLASS` -/
def F.hallFlightLastClass : Fld := ⟨.hallFlight, 31, 24⟩
/-- `HALL_FLIGHT.TREAD_ERRS` -/
def F.hallFlightTreadErrs : Fld := ⟨.hallFlight, 23, 8⟩
/-- `HALL_FLIGHT.STATE` -/
def F.hallFlightState : Fld := ⟨.hallFlight, 1, 0⟩
/-- `SVC_FLIGHT.LAST_CLASS` -/
def F.svcFlightLastClass : Fld := ⟨.svcFlight, 31, 24⟩
/-- `SVC_FLIGHT.TREAD_ERRS` -/
def F.svcFlightTreadErrs : Fld := ⟨.svcFlight, 23, 8⟩
/-- `SVC_FLIGHT.STATE` -/
def F.svcFlightState : Fld := ⟨.svcFlight, 1, 0⟩
/-- `CHIP_HALL_CTL.QUAR0` -/
def F.chipHallCtlQuar0 : Fld := ⟨.chipHallCtl, 3, 3⟩
/-- `CHIP_HALL_CTL.STAIR_OPEN0` -/
def F.chipHallCtlStairOpen0 : Fld := ⟨.chipHallCtl, 2, 2⟩
/-- `CHIP_HALL_CTL.STATE0` -/
def F.chipHallCtlState0 : Fld := ⟨.chipHallCtl, 1, 0⟩
/-- `CHIP_HALL_CTL.QUAR1` -/
def F.chipHallCtlQuar1 : Fld := ⟨.chipHallCtl, 11, 11⟩
/-- `CHIP_HALL_CTL.STAIR_OPEN1` -/
def F.chipHallCtlStairOpen1 : Fld := ⟨.chipHallCtl, 10, 10⟩
/-- `CHIP_HALL_CTL.STATE1` -/
def F.chipHallCtlState1 : Fld := ⟨.chipHallCtl, 9, 8⟩
/-- `CHIP_HALL_CTL.QUAR2` -/
def F.chipHallCtlQuar2 : Fld := ⟨.chipHallCtl, 19, 19⟩
/-- `CHIP_HALL_CTL.STAIR_OPEN2` -/
def F.chipHallCtlStairOpen2 : Fld := ⟨.chipHallCtl, 18, 18⟩
/-- `CHIP_HALL_CTL.STATE2` -/
def F.chipHallCtlState2 : Fld := ⟨.chipHallCtl, 17, 16⟩
/-- `CHIP_HALL_CTL.QUAR3` -/
def F.chipHallCtlQuar3 : Fld := ⟨.chipHallCtl, 27, 27⟩
/-- `CHIP_HALL_CTL.STAIR_OPEN3` -/
def F.chipHallCtlStairOpen3 : Fld := ⟨.chipHallCtl, 26, 26⟩
/-- `CHIP_HALL_CTL.STATE3` -/
def F.chipHallCtlState3 : Fld := ⟨.chipHallCtl, 25, 24⟩
/-- `CHIP_HALL_CTL.CMD_ERR` -/
def F.chipHallCtlCmdErr : Fld := ⟨.chipHallCtl, 32, 32⟩
/-- `NEWEL_WDOG.BAD_KICKS` -/
def F.newelWdogBadKicks : Fld := ⟨.newelWdog, 63, 48⟩
/-- `NEWEL_WDOG.PERIOD` -/
def F.newelWdogPeriod : Fld := ⟨.newelWdog, 47, 32⟩
/-- `NEWEL_WDOG.ARMED` -/
def F.newelWdogArmed : Fld := ⟨.newelWdog, 8, 8⟩
/-- `NEWEL_WDOG.KICK` -/
def F.newelWdogKick : Fld := ⟨.newelWdog, 7, 0⟩
/-- `NEWEL_SAFE.HOLD` -/
def F.newelSafeHold : Fld := ⟨.newelSafe, 63, 48⟩
/-- `NEWEL_SAFE.CHIP_RESET` -/
def F.newelSafeChipReset : Fld := ⟨.newelSafe, 9, 9⟩
/-- `NEWEL_SAFE.ENTER` -/
def F.newelSafeEnter : Fld := ⟨.newelSafe, 8, 8⟩
/-- `NEWEL_SAFE.IN_SAFE` -/
def F.newelSafeInSafe : Fld := ⟨.newelSafe, 7, 7⟩
/-- `NEWEL_SAFE.CAUSE` -/
def F.newelSafeCause : Fld := ⟨.newelSafe, 6, 0⟩
/-- `BOOT_STATUS.FAILED_ENTRY` -/
def F.bootStatusFailedEntry : Fld := ⟨.bootStatus, 39, 32⟩
/-- `BOOT_STATUS.SOURCE` -/
def F.bootStatusSource : Fld := ⟨.bootStatus, 23, 21⟩
/-- `BOOT_STATUS.STRAPS` -/
def F.bootStatusStraps : Fld := ⟨.bootStatus, 20, 18⟩
/-- `BOOT_STATUS.STAGE` -/
def F.bootStatusStage : Fld := ⟨.bootStatus, 17, 16⟩
/-- `BOOT_STATUS.ERR` -/
def F.bootStatusErr : Fld := ⟨.bootStatus, 15, 8⟩
/-- `BOOT_STATUS.CAUSE` -/
def F.bootStatusCause : Fld := ⟨.bootStatus, 7, 0⟩
/-- `BOOT_LOAD.GO` -/
def F.bootLoadGo : Fld := ⟨.bootLoad, 63, 63⟩
/-- `BOOT_LOAD.FLASH` -/
def F.bootLoadFlash : Fld := ⟨.bootLoad, 62, 62⟩
/-- `BOOT_LOAD.BUSY` -/
def F.bootLoadBusy : Fld := ⟨.bootLoad, 61, 61⟩
/-- `BOOT_LOAD.RESULT` -/
def F.bootLoadResult : Fld := ⟨.bootLoad, 55, 48⟩
/-- `BOOT_LOAD.SRC` -/
def F.bootLoadSrc : Fld := ⟨.bootLoad, 47, 0⟩
/-- `CHIP_HALL_RESET.RESET` -/
def F.chipHallResetReset : Fld := ⟨.chipHallReset, 3, 0⟩
/-- `GPIO_CTRL.IN` -/
def F.gpioCtrlIn : Fld := ⟨.gpioCtrl, 47, 32⟩
/-- `GPIO_CTRL.OE` -/
def F.gpioCtrlOe : Fld := ⟨.gpioCtrl, 31, 16⟩
/-- `GPIO_CTRL.OUT` -/
def F.gpioCtrlOut : Fld := ⟨.gpioCtrl, 15, 0⟩
/-- `GPIO_PULL.UP` -/
def F.gpioPullUp : Fld := ⟨.gpioPull, 31, 16⟩
/-- `GPIO_PULL.DOWN` -/
def F.gpioPullDown : Fld := ⟨.gpioPull, 15, 0⟩
/-- `NEWEL_TEMP.PEAK` -/
def F.newelTempPeak : Fld := ⟨.newelTemp, 31, 16⟩
/-- `NEWEL_TEMP.NOW` -/
def F.newelTempNow : Fld := ⟨.newelTemp, 15, 0⟩

end Sys2Proof.Machine
end

