-- ==== Sys2Proof/Machine/Tab.lean ====
section
/-! DEFINITION. Sparse tables: the one form in which State holds numbered things (registers, units, timers). A table is a
list of key and value pairs, keys strictly rising in `rank`, no entry equal to what an unlisted key reads as. -/

namespace Sys2Proof.Machine

/-- A sparse table. -/
abbrev Tab (κ α : Type) := List (κ × α)

/-- The value at a key; `d` is what an unlisted key reads as. -/
def tabGet {κ α : Type} [DecidableEq κ] (d : κ → α) : Tab κ α → κ → α
  | [], k => d k
  | (k', v) :: t, k => if k' = k then v else tabGet d t k

/-- Remove a key. -/
def tabErase {κ α : Type} [DecidableEq κ] : Tab κ α → κ → Tab κ α
  | [], _ => []
  | (k', v) :: t, k => if k' = k then tabErase t k else (k', v) :: tabErase t k

/-- Insert before the first key of a higher rank. -/
def tabInsert {κ α : Type} (rank : κ → Nat) (k : κ) (v : α) : Tab κ α → Tab κ α
  | [] => [(k, v)]
  | (k', v') :: t => if rank k < rank k' then (k, v) :: (k', v') :: t else (k', v') :: tabInsert rank k v t

/-- Write a key: writing the value an unlisted key reads as removes the entry. -/
def tabSet {κ α : Type} [DecidableEq κ] [DecidableEq α] (rank : κ → Nat) (d : κ → α) (t : Tab κ α) (k : κ) (v : α) :
    Tab κ α :=
  if v = d k then tabErase t k else tabInsert rank k v (tabErase t k)

/-- The first entry outranks `n` and the rest rise: the canonical order, as a test that can be run. -/
def tabRising {κ α : Type} (rank : κ → Nat) : Nat → Tab κ α → Bool
  | _, [] => true
  | n, (k, _) :: t => decide (n ≤ rank k) && tabRising rank (rank k + 1) t

/-- No listed entry equals what its key reads as unlisted. -/
def tabNoDefault {κ α : Type} [DecidableEq α] (d : κ → α) (t : Tab κ α) : Bool := t.all (fun e => decide (e.2 ≠ d e.1))

/-- The canonical form of a table. -/
def tabWf {κ α : Type} [DecidableEq α] (rank : κ → Nat) (d : κ → α) (t : Tab κ α) : Bool :=
  tabRising rank 0 t && tabNoDefault d t

/-- A table keyed by unit number with one value for every unlisted unit. -/
abbrev UnitMap (α : Type) := Tab Nat α

/-- Read unit `n`; `d` is the state of a unit that is not listed. -/
def unitGet {α : Type} (d : α) (t : UnitMap α) (n : Nat) : α := tabGet (fun _ => d) t n

/-- Write unit `n`. -/
def unitSet {α : Type} [DecidableEq α] (d : α) (t : UnitMap α) (n : Nat) (v : α) : UnitMap α :=
  tabSet id (fun _ => d) t n v

end Sys2Proof.Machine
end

