-- ==== Sys2Proof/Word.lean ====
section
/-! DEFINITION. The words of the hub and their plainest arithmetic (spec/00_scope.md R4, R5, R11). -/

namespace Sys2Proof

/-- A 64-bit register or general-register value. -/
abbrev Word := BitVec 64
/-- A byte (R4). -/
abbrev Byte := BitVec 8

end Sys2Proof
end

