-- ==== Sys2Proof/Machine/StateTrunk.lean ====
section
/-! DEFINITION. Tunnel packets, flits and the state of the trunk link units that no register shows
(spec/05_birique_link.md, spec/06_trunks_and_failover.md, the header of spec/07_tunnels_and_switching.md R181). -/

namespace Sys2Proof.Machine

/-- A tunnel packet: the fields of *Tunnel header* (07 R181) and the payload. -/
structure Packet where
  type : Nat
  tunnelId : Nat
  vc : Nat
  colour : Nat := 0
  e2e : Bool := false
  flow : Nat := 0
  hops : Nat := 0
  droppable : Bool := false
  poison : Bool := false
  copy : Bool := false
  subscriber : Nat := 0
  psn : Nat := 0
  reserved : Bool := false        -- some reserved header bit is not 0
  len : Nat                       -- LEN as the header states it
  payload : List Byte             -- the bytes received after the header
  deriving DecidableEq, Repr

/-- A link control word (05 *Link control words*). -/
inductive Ctl where
  | ack (seq : Nat)
  | nack (seq bitmap : Nat)
  | rnack (lane mask : Nat)
  | credit (vc limit : Nat)
  | echoReq (stamp : Nat)
  | echoRsp (stamp : Nat)
  | laneFail (lane cause : Nat)
  | resume (rcvNext : Nat)
  | width (mask txn base : Nat)
  | widthAck (txn : Nat)
  | reserved (code : Nat)
  deriving DecidableEq, Repr

/-- The TYPE codes of a flit (05 *Flit header*). -/
inductive FlitType where
  | data | control | idleFill | landing
  deriving DecidableEq, Repr

/-- A flit (05 *Flit, 512 bytes*, *Flit header*). -/
structure Flit where
  seq : Nat
  vc : Nat
  type : FlitType
  pktOff : Nat
  rcnt : Nat
  rs : Bool
  enc : Bool
  kidx : Nat
  reserved : Bool := false        -- a reserved header bit is not 0
  words : List Ctl
  len : Nat
  data : List Byte
  deriving DecidableEq, Repr

/-- What a receiver makes of a block: the outcome of FEC, CRC and of the security check, and the flit with its data in
plaintext. -/
structure RxFlit where
  flit : Flit
  fec1 : Nat := 0                 -- codewords corrected with one symbol
  fec2 : Nat := 0                 -- with two symbols
  fecU : Nat := 0                 -- uncorrectable codewords
  lvl : List Nat := []            -- level of each corrected symbol (04 R132)
  crcOk : Bool := true
  secOk : Bool := true            -- the security check of 05 R158
  deriving DecidableEq, Repr

/-- One copy of a data flit: the lane it went on and whether a report of it has been acted on (05 R143). -/
structure FlitCopy where
  lane : Nat
  acted : Bool := false
  deriving DecidableEq, Repr

/-- A replay entry (05 R139, R143): the flit's fields, its copies in the order sent, and NACKs counted per lane. -/
structure ReplayEntry where
  seq : Nat
  vc : Nat
  pktOff : Nat
  data : List Byte
  copies : List FlitCopy
  nacks : UnitMap Nat := []
  deriving DecidableEq, Repr

/-- A packet given to the link unit (05 R152, R154, R474; 06 R175, R176): its bytes, and which flits hold them. -/
structure TxPacket where
  bytes : List Byte               -- header and payload, or the continuation's bytes
  off : Nat := 0                  -- bytes already in flits
  link : Bool := false            -- a link packet: no credit, no leaf queue (06 R160)
  splice : Bool := false          -- the continuation of a straddler (06 R176)
  vc : Nat := 0                   -- the virtual channel it travels on (05 R151)
  id : Nat := 0                   -- the parcel in the switch core; 0 none
  ctx : Option Nat := none        -- a pair's ordering context whose PSN it takes when it starts
  flits : List (Nat × Nat) := []  -- sequence number and bytes of each flit that holds part of it, oldest first
  deriving DecidableEq, Repr

/-- A flit held by the receiver until RCV_NEXT passes it. -/
structure HeldFlit where
  seq : Nat
  vc : Nat
  pktOff : Nat
  data : List Byte
  tbIn : Nat := 0                 -- TB of its acceptance (05 R141)
  deriving DecidableEq, Repr

/-- A position whose lane has left the active list in good health and has not drained (06 R170, R475). -/
structure Leaving where
  seq : Nat                       -- the first number at or above BASE that the old list would have dealt to it
  done : Bool := false            -- the transaction is complete at this end
  deriving DecidableEq, Repr

/-- A published pair map that waits on drain (06 R173, R178; 07 R198). -/
structure PairMove where
  map : BitVec 256
  epoch : Nat                     -- the epoch that was published with it
  since : Nat                     -- TB of the publication
  back : Bool                     -- both members were UP: contexts of a covering member move back
  deriving DecidableEq, Repr

/-- A reported loss (05 R142): a first copy by its number, or a resent copy by lane, RCNT and H. -/
structure LossReport where
  resend : Bool
  seq : Nat                       -- first copy: the number; resend: H
  lane : Nat := 0
  rcnt : Nat := 0
  at_ : Nat := 0                  -- TB of the last report
  deriving DecidableEq, Repr

/-- A WIDTH of this end that the partner has not acknowledged: its own transaction or its reply (06 R165). -/
structure WidthTx where
  mask : Nat
  txn : Nat
  base : Nat
  acked : Bool := false
  answered : Bool := false        -- own transaction: the partner's WIDTH has come
  deriving DecidableEq, Repr

/-- The parameters of a PARAM link packet (06 *PARAM link packet payload*). -/
structure Param where
  peerId : BitVec 64
  nonce : BitVec 64
  secRequired : Bool
  pairing : Bool
  lanes : Nat
  reorder : Nat
  replay : Nat
  nvc : Nat
  loop : Bool
  version : Nat
  reservedZero : Bool
  deriving DecidableEq, Repr

/-- What a trunk is training for (06 R162 to R164). -/
inductive Training where
  | none | fromDown | resume
  deriving DecidableEq, Repr

/-- The link unit of a trunk. Sequence numbers, USED, ACTIVE, BAD, credits and causes are in its registers. -/
structure Trunk where
  -- sender
  replay : List ReplayEntry := []         -- oldest first
  resends : List (Nat × Nat) := []        -- resends due: sequence number and the lane it is placed on, oldest first
  rcnt : UnitMap Nat := []                  -- per lane: resends put on it, mod 16
  resendLog : UnitMap (List (Nat × Nat × Nat)) := []  -- per lane: (RCNT, SEQ, copy index), newest first, at most 16
  expiries : Nat := 0                     -- retry expiries with no ACK advancing (05 R145)
  window : Nat := 64
  rxWindow : Nat := 64
  txBase : Nat := 0                       -- number from which ACTIVE, the list of new data, took effect
  txLeft : UnitMap (Option Leaving) := [] -- per position: its lane drains (06 R170)
  dealtNew : Bool := false                -- new data has been dealt in this session: until then the lowest ready position is ACTIVE
  cut : Nat := 0                          -- positions whose lane this end has taken out by clearing its EN (05 R147)
  wantRetrain : Bool := false             -- a retrain request waits for the outstanding transaction
  vcQ : UnitMap (List TxPacket) := []       -- per VC: the packet in progress, then those that wait to start
  sent : List TxPacket := []              -- packets wholly in flits, some of them not acknowledged, oldest first
  rrVc : Nat := 2                         -- next VC of VC2..VC7 in round robin
  stallSince : Option Nat := none
  -- receiver
  expect : UnitMap Nat := []                -- E(p)
  cnt : UnitMap Nat := []                   -- C(j) per lane
  withdrawn : List Nat := []              -- lanes withdrawn from reception
  rxLists : List (Nat × Nat) := []        -- the partner's lists, mask and BASE, newest first; none before the initial one (06 R162)
  rxLeft : UnitMap (Option Nat) := []     -- per position that has left: the number its fillers carry (06 R475)
  store : List HeldFlit := []
  losses : List LossReport := []
  sinceAck : Nat := 0
  highSeen : Nat := 0
  due : List Ctl := []                    -- control words due
  vcRx : UnitMap (List Byte) := []          -- bytes of the packet not yet whole, per VC
  limit : UnitMap Nat := []                 -- LIMIT reached per VC (05 R153)
  peerFirst : UnitMap Nat := []             -- the partner's first LIMIT per VC: its buffer (02 R62)
  authTimes : List Nat := []              -- TB of the latest security failures, newest first, at most 65 (05 R158)
  leftIdle : Bool := false                -- a transmitter of either end left electrical idle in this training
  resumeSay : Bool := false               -- RESUME is carried in every CONTROL flit (06 R164)
  bufs : Option (BitVec 64) := none       -- VC buffer sizes of the latest training from DOWN (05 R151)
  -- training and width
  training : Training := .none
  echoesLeft : Nat := 0
  rttMax : Nat := 0
  param : Option Param := none            -- the partner's PARAM
  carrying : List Nat := []               -- lanes that carry flits
  secWait : Bool := false                 -- step 5 waits for the key exchange (06 R162)
  own : Option WidthTx := none
  reply : Option WidthTx := none
  peerWidth : Option (Nat × Nat) := none  -- TXN and BASE of the partner's WIDTH accepted last
  reAckTb : Nat := 0                      -- TB of the last repeated WIDTH_ACK
  retrains : UnitMap Nat := []              -- background attempts per position (06 R169)
  fenced : Bool := false                  -- its link unit is FENCING or FENCED (05 R476)
  -- pair
  psnTx : UnitMap Nat := []                 -- PSN counters per context (06 R173)
  paired : Option Bool := none            -- pairing support announced at the latest training; none before one (06 R172)
  psnRx : UnitMap (Option Nat) := []        -- expected PSN of the contexts whose receive state lives here; none = UNKNOWN
  contRx : UnitMap (Option (List Byte)) := []   -- per VC: bytes of a straddler's continuation so far (06 R176)
  strad : UnitMap (List Byte) := []         -- per VC: leading bytes of a straddler of this failed member (06 R176)
  covering : Bool := false                -- this member serves its lost mate's contexts (06 R175)
  map : BitVec 256 := 0                   -- primary: the pair map in force (06 R173)
  mapNew : List PairMove := []            -- primary: maps published, oldest first, in force once the older epochs have drained
  retrainDue : Bool := false              -- a WIDTH of 0 is accepted; its acknowledgement is still to be sent
  held : Bool := false                    -- lost, its transfer to the survivor not yet done (06 R175)
  hold : UnitMap (List TxPacket) := []    -- per VC: packets of a lost member, as a survivor sends them (06 R175, R178)
  deriving DecidableEq, Repr

end Sys2Proof.Machine
end

