-- ==== Sys2Proof/Machine/StateSwitch.lean ====
section
/-! DEFINITION. The state of the switch core: packets in the hub, tables and programs by epoch, scheduler nodes and meters
(spec/07_tunnels_and_switching.md, spec/08_scheduling.md, spec/09_match_act_programs.md). -/

namespace Sys2Proof.Machine

/-- Where a packet in the hub stands (01 *Path of a tunnel packet arriving on a trunk*). -/
inductive Spot where
  | psnHeld (trk ctx : Nat)       -- held in the Landing for a gap (06 R174)
  | arrived                       -- whole in a Landing, not yet checked (07 R184)
  | accepted                      -- accepted, waiting for classification
  | asking                        -- classified, to be decided by its egress Hall (07 R191)
  | refusedOnce                   -- lossless and not admitted: waits in its ingress Landing
  | epochHeld                     -- held under 07 R197
  | granted                       -- granted, waiting for the Stair or for its own Hall's write
  | crossing                      -- on the Stair or being written
  | linked                        -- in its leaf queue
  | serving                       -- taken by its port
  | popped (u : Nat)              -- taken by an Usher with q.pop
  deriving DecidableEq, Repr

/-- What a Gallery copy carries beside its 96 bytes (07 *Gallery entry*). -/
structure CopyInfo where
  ring : Nat
  pktLen : Nat
  typeTid : Nat
  queue : Nat
  egress : Nat
  ingress : Nat
  reason : Nat
  flags : Nat
  epoch : Nat
  ts : Nat
  head : List Byte := []          -- the first min(96, 16 + LEN) bytes of the original
  deriving DecidableEq, Repr

/-- A packet resident in a Hall. -/
structure Parcel where
  id : Nat
  pkt : Packet
  src : Nat                       -- source number (07 R183)
  hall : Nat                      -- the Hall that holds it
  spot : Spot
  segs : List Nat := []           -- the 64-byte Landing segments it occupies, in order: 4 to a cell
  cells : List Nat := []          -- queue-buffer cells it occupies, in order
  vcBuf : Option (Nat × Nat) := none  -- trunk and VC whose credits it holds
  credits : Nat := 0
  stamped : Bool := false
  eHall : Nat := 0                -- the Hall and number of the epoch stamped on it
  epoch : Nat := 0
  hash : Nat := 0                 -- hash32 of the flow key as received
  key : List Byte := []           -- the flow key as received (07 R193; 09 R246)
  pipe : Nat := 0                 -- the MAP pipeline it was dealt to (09 R233)
  queue : Option Nat := none      -- leaf queue chip-wide
  tbAccept : Nat := 0
  tbLink : Nat := 0
  tbReady : Nat := 0              -- when it was released towards the Stair
  tbGrant : Nat := 0              -- when it was granted
  ipOff : Nat := 0xFF             -- IP_OFF and IP_KIND of its context
  ipKind : Nat := 0
  moved : Bool := false           -- its classification hit a changed entry (09 R251)
  pass2 : Bool := false
  punt : Option (Nat × Nat × Nat) := none  -- Usher, input queue and punt data
  copy : Option CopyInfo := none
  poison : Bool := false          -- a poisoned token in its cells
  loc : Bool := false             -- entered from a local source (07 R185, R188)
  samples : List Nat := []        -- rings that sample it (07 R204)
  taken : Bool := false           -- its endpoint has taken its last byte (01 R24)
  wholly : Bool := false          -- given to a trunk's link unit
  roundEnd : Bool := false        -- its port's round completed with it (08 R222)
  deriving DecidableEq, Repr

/-- A table entry in force (09 *Entry descriptor*): ident is the key for EXACT and INDEX otherwise. -/
structure TblEntry where
  table : Nat
  index : Nat
  key : List Byte
  mask : List Byte
  data : Word
  deriving DecidableEq, Repr

/-- A staged table change: an insertion, or a deletion of the same identity. -/
structure TblChange where
  entry : TblEntry
  del : Bool
  deriving DecidableEq, Repr

/-- An action program (09 *Action program header*). -/
structure Prog where
  num : Nat
  binds : List Nat                -- BIND0 to BIND3 as written
  words : List Nat
  deriving DecidableEq, Repr

/-- What a publication changed, as 09 R251 needs it. -/
inductive Change where
  | exact (table : Nat) (key : List Byte)
  | ternary (table : Nat) (key mask : List Byte)
  | direct (table index : Nat)
  | miss (table : Nat)
  | ind (table entry : Nat)
  | entryOf (src : Nat)
  | prog (num : Nat)
  | parse
  deriving DecidableEq, Repr

/-- What is in force in one epoch of one Hall (09 R250): the staged registers as they stood at its publication, the
entries, the programs, and what the publication changed. -/
structure MapVersion where
  hall : Nat
  epoch : Nat
  regs : Tab RegId (BitVec 64) := []
  entries : List TblEntry := []
  progs : List Prog := []
  changes : List Change := []
  deriving DecidableEq, Repr

/-- A packet a local source holds until the Landing has room (07 R188). A source of the chip services names its Hall 4 and
the leaf queue its request names (01 R25). -/
structure LocalPacket where
  hall : Nat
  src : Nat
  pkt : Packet
  queue : Option Nat := none
  deriving DecidableEq, Repr

/-- A two-rate three-colour meter (08 R229, R230). Buckets in 1/1,024 byte, with the remainders of R216. -/
structure Meter where
  cir : Nat := 0
  pir : Nat := 0
  cbs : Nat := 0
  pbs : Nat := 0
  aware : Bool := false
  tc : Nat := 0
  tp : Nat := 0
  remC : Nat := 0
  remP : Nat := 0
  since : Nat := 0
  issued : Nat := 0               -- TOKEN ledger terms in 1/1,024 byte
  spent : Nat := 0
  discarded : Nat := 0
  deriving DecidableEq, Repr

/-- A node's parameters (08 *Scheduler parameter block*). -/
structure NodeParam where
  altParent : Nat := 0
  weight : Nat := 1
  minRes : Nat := 0
  resBytes : Nat := 0
  interval : Nat := 125
  parent : Nat := 0
  level : Nat := 0
  policy : Nat := 0
  enable : Bool := false
  minEn : Bool := false
  zero : Bool := false            -- TOKENS_ON_CHANGE
  fo : Bool := false
  pbs : Nat := 0
  cbs : Nat := 0
  pir : Nat := 0
  cir : Nat := 0
  deriving DecidableEq, Repr

/-- A periodic task's grid (02 R67): nominal start of the next instance and the start computed for it. -/
structure Grid where
  on : Bool := false
  nominal : Nat := 0
  next : Nat := 0
  lag : Nat := 0
  rang : Bool := false            -- CATCHUP_LAG rung for this crossing
  deriving DecidableEq, Repr

/-- A scheduler node: live parameters and state (08 R214 to R225). -/
structure SchedNode where
  param : NodeParam := {}
  ctok : Int := 0                 -- 1/1,024 byte
  ptok : Int := 0
  remC : Nat := 0
  remP : Nat := 0
  since : Nat := 0                -- TB to which the buckets are refilled
  deficit : Int := 0
  owed : Int := 0
  issued : Int := 0               -- TOKEN ledger terms in 1/1,024 byte
  spent : Int := 0
  discarded : Int := 0
  turn : UnitMap (Option Nat) := [] -- per strict level: the child that has its turn
  round : UnitMap (List Nat) := []  -- per strict level: the children that have still to take a turn in this round
  lastG : Option Nat := none      -- last guaranteed pick
  grid : Grid := {}               -- a reservation's instances
  placed : Bool := false          -- a block has been put in force: it belongs to the port at the top of its chain (08 R221)
  deriving DecidableEq, Repr

/-- A staged parameter block: the node it describes. -/
structure Staged where
  node : Nat
  param : NodeParam
  deriving DecidableEq, Repr

/-- A scheduler port (08 R221 to R228). -/
structure SchedPort where
  staged : List Staged := []
  ready : List Staged := []       -- staged when the boundary of the commit was reached (08 R223)
  fo : List Staged := []
  commitAt : Option Nat := none   -- TB of the `sched.commit` that awaits its boundary
  boundary : Bool := false        -- its boundary has been reached
  busy : Option Nat := none       -- the parcel the port is serving
  foMissing : Bool := false       -- its trunk is lost with no failover set staged: reservations are best effort (06 R179)
  foDue : Bool := false           -- a failover set is to be applied at the next boundary
  foAt : Bool := false            -- that boundary has been reached
  deriving DecidableEq, Repr

/-- Cells and depth that a departure, a pop or a drop gave back in a LOCKSTEP Hall in an epoch not yet decided (02 R55, R56). -/
structure LsFreed where
  epoch : Nat
  queue : Option Nat
  depth : Nat                     -- cells off the leaf queue's depth
  free : Nat                      -- cells back on the free list
  sojourn : Option Nat := none    -- of a packet that left, for the DELAY average
  deriving DecidableEq, Repr

/-- A Hall's switch core. -/
structure HallSw where
  fwHeld : List Nat := (List.range 16).map (fun i => 24560 + i)  -- cells withheld for firmware (07 R189)
  frameIn : Nat := 0              -- FRAME ledger terms (02 R62)
  frameOut : Nat := 0
  frameDropped : Nat := 0
  staged : List TblChange := []   -- staged table changes (09 R241)
  stagedMtr : List (Nat × Meter) := []
  stagedProg : List Prog := []
  progBusy : Bool := false        -- staging under way (09 R249)
  progSrc : Nat := 0              -- image address and program number of that staging
  progNum : Nat := 0
  redAvg : UnitMap Nat := []        -- per leaf queue, in 1/65,536: RED average (07 R199)
  delayAvg : UnitMap Nat := []      -- the DELAY average kept in both modes (07 R202)
  lsOffered : UnitMap Nat := []     -- per leaf queue: packets offered since the LOCKSTEP origin (02 R55)
  lsNext : Nat := 0               -- the next epoch to decide in LOCKSTEP (02 R56)
  lsFreed : List LsFreed := []    -- what its decisions do not see yet
  deal : Nat := 0                 -- the MAP pipeline dealt to next (09 R233)
  arbTurn : Nat := 0              -- the arbiter's turn: a source Hall, 4 the chip services (01 R21)
  arbDeficit : UnitMap Int := []    -- its deficits in bytes
  sampleGrid : Grid := {}         -- queue sampling (08 R232)
  redGrid : UnitMap Grid := []      -- per profile (07 R202)
  riserGrid : Grid := {}          -- Riser loop (02 R48)
  deriving DecidableEq, Repr

end Sys2Proof.Machine
end

