-- ==== Sys2Proof/Machine/StateCanvas.lean ====
section
/-! DEFINITION. The state of the display heads and the Canvas that no register shows (spec/11_canvas_display.md). -/

namespace Sys2Proof.Machine

/-- A set of a head's shadowed registers (11 R290): CTRL, H, V, CLK, SYNC, PASS and SRC, SIZE, DST, BLEND of each layer. -/
structure HeadSet where
  ctrl : BitVec 64
  h : BitVec 64
  v : BitVec 64
  clk : BitVec 64
  sync : BitVec 64
  pass : BitVec 64
  layers : List (BitVec 64 × BitVec 64 × BitVec 64 × BitVec 64)
  deriving DecidableEq, Repr

/-- Who runs an AUX transaction (11 R281, R283; 12 R319). -/
inductive AuxFrom where
  | firmware
  | host (h : Fin 6)
  | td (n : Fin 12)
  deriving DecidableEq, Repr

/-- What a sink replies. -/
inductive AuxReply where
  | ack | nack | defer
  deriving DecidableEq, Repr

/-- An AUX request. -/
structure AuxReq where
  kind : Nat
  len : Nat
  addr : Nat
  data : List Byte
  deriving DecidableEq, Repr

/-- A PRESENT that waits for the first frame that shows its surface (11 R297). -/
structure Present where
  layer : Nat
  surface : Nat
  hall : Nat                      -- the Hall whose CANVAS port brought the command
  pkt : Packet                    -- the command
  deriving DecidableEq, Repr

/-- A display head. -/
structure Head where
  armed : Option HeadSet := none
  running : Bool := false         -- a frame has started since the head left OFF
  frameStart : Nat := 0           -- TB of line 0 of the frame in progress
  frameEnd : Nat := 0             -- TB at which that frame, its blanking included, ends
  grid : Grid := {}
  gridSet : Option Nat := none    -- grid time of the next frame, set by TE or the stream
  fresh : Bool := false           -- the timing is new: a FREE grid starts at the next frame
  windowDone : Bool := false
  blanked : Bool := false
  aborted : Bool := false
  idle : Bool := false            -- transmitter in electrical idle after UNPLUG
  aux : Option (AuxFrom × AuxReq) := none
  dpcd : UnitMap Byte := []         -- values kept for the owning host (R283)
  msa : Option (BitVec 64 × BitVec 64 × BitVec 64) := none  -- an MSA that awaits the blanking
  msaLive : Option (BitVec 64 × BitVec 64 × BitVec 64) := none  -- the stream's timing a PASS head runs by
  hostFrame : Option Nat := none  -- frame count of the host's latest PIXELS packet
  lines : List (Nat × Nat × Nat × List Byte) := []  -- stream buffer: line, X, ENC, pixels
  presents : List Present := []
  deriving DecidableEq, Repr

/-- A stream bound to a surface (11 R298). -/
structure Ingest where
  surface : Nat
  host : Nat
  tid : Nat
  deriving DecidableEq, Repr

/-- What the Canvas knows of a host's DPST stream. -/
structure Stream where
  width : Nat := 0
  height : Nat := 0
  enc : Option Nat := none
  deriving DecidableEq, Repr

/-- The Canvas. -/
structure Canvas where
  pages : UnitMap (List Nat) := []  -- pages of a surface: data pages in order, then the map page
  held : List Nat := []           -- page operations held, oldest first
  ingests : List Ingest := []
  streams : UnitMap Stream := []    -- by host * 4096 + tunnel ID
  deriving DecidableEq, Repr

end Sys2Proof.Machine
end

