-- ==== Sys2Proof/Machine/StateChip.lean ====
section
/-! DEFINITION. The state of fault containment, the Newel, power states, start-up and the audit sweep
(spec/02_self_timed_fabric.md, spec/17_power_states.md, spec/18_monitors_and_errors.md, spec/19_startup_and_reset.md). -/

namespace Sys2Proof.Machine

/-- What a Flight's fence and error window hold; STATE, TREAD_ERRS and LAST_CLASS are in its register. -/
structure FlightSt where
  cause : Nat := 0                -- class that fenced it
  window : Nat := 0               -- index of the 1 ms window of `errs`
  errs : Nat := 0
  deriving DecidableEq, Repr

/-- The quarantine of a Hall (R417, R418). -/
structure HallCtl where
  since : Nat := 0                -- TB at which it began
  idle : Bool := false            -- lanes in electrical idle and Stair ports closed
  resetDone : Bool := false       -- a Hall reset has completed since
  deriving DecidableEq, Repr

/-- A monitor's grid and the counts at its last RETX_RATE period. -/
structure MonSt where
  grid : Grid := {}
  data : Nat := 0
  resend : Nat := 0
  deriving DecidableEq, Repr

/-- A unit's latest answer to a power-state request (R401). -/
inductive PwrReply where
  | none                          -- a core that has not answered
  | ack
  | delay (until_ reason since : Nat)   -- polled again at `until_`; in DELAY since `since`
  deriving DecidableEq, Repr

/-- A power-state entry under way (R401, R402). -/
structure PwrEntry where
  tag : Nat
  target : Nat
  seq : Nat
  answers : UnitMap PwrReply := []  -- by unit code
  deriving DecidableEq, Repr

/-- A state entered: the tag of the Porter's pwr.req, TB at entry, the lanes that the trunks in UP put into announced idle for
it, and the wake sources that have fired since, as bits of *Wake sources* (17 R398, R403, R405). -/
structure PwrIn where
  tag : Nat
  since : Nat
  lanes : List Nat := []
  fired : Nat := 0
  deriving DecidableEq, Repr

/-- An audit sweep (02 R64 to R66): who asked, the buffer, TB at issue. -/
structure Sweep where
  core : Nat
  thread : Nat
  tag : Nat
  buf : Nat
  at_ : Nat
  deriving DecidableEq, Repr

/-- A unit whose ledger equation an error in a counter has broken, as a sweep finds it (02 R63): the two sides it reports. -/
structure LedgerError where
  ledger : Nat
  scope : Nat
  unit : Nat
  left : Nat
  right : Nat
  deriving DecidableEq, Repr

/-- Where the boot stands (19 R432, R433). -/
inductive BootStage where
  | held                          -- in reset
  | rom                           -- the ROM is to run
  | sideband                      -- the ROM waits for a sideband image
  | jtag                          -- the ROM waits for JTAG to load an image
  | done                          -- Docent released, or halted
  | test                          -- manufacturing test (20 R454)
  deriving DecidableEq, Repr

/-- Fault containment, the Newel and start-up. Scopes: Halls 0 to 3, 4 the chip services. -/
structure Chip where
  flights : UnitMap FlightSt := []  -- scope * 512 + kind * 16 + instance
  written : UnitMap Nat := []       -- records written to each ring since chip reset
  halls : UnitMap HallCtl := []
  mons : UnitMap MonSt := []
  safe : Option Nat := none       -- TB at entry to SAFE, while it is in force (R419 to R421)
  kickAt : Option Nat := none     -- TB of a pending 0xA5
  kicks : Nat := 0                -- kicks since chip reset
  boots : Nat := 0                -- chip resets since VDD_AON came up
  pwren : Bool := true            -- SYS_PWREN
  wake : Bool := false            -- the Newel has raised SYS_PWREN on WAKE_N (17 R407)
  porLow : Bool := false
  pins : BitVec 3 := 0            -- level of BOOT_MODE[2:0]
  stage : BootStage := .rom
  svns : Nat := 0                 -- SVN count read at this boot (R434)
  loading : Option (Bool × Nat) := none  -- BOOT_LOAD under way: from flash, and where
  entry : Option PwrEntry := none
  inState : Option PwrIn := none
  seq : Nat := 0                  -- SEQ of the latest request (R401)
  unsent : List (Nat × List Byte) := []  -- messages that wait for room in a core's ring, oldest first
  sweep : Option Sweep := none
  svcRiser : Grid := {}
  noAck : UnitMap Nat := []         -- AVSBus transactions in succession without acknowledgement, per loop
  bandUntil : Nat := 0            -- TB until which core rails are judged by the band of retention after DEEP (21 R459)
  deriving DecidableEq, Repr

end Sys2Proof.Machine
end

