-- ==== Sys2Proof/Machine/StateHost.lean ====
section
/-! DEFINITION. The state of host functions, root ports, the bridge and Alcoves that no register shows
(spec/10_host_functions.md). -/

namespace Sys2Proof.Machine

/-- What a TLP is (PCI Express Base Specification 4.0; assumption log 30): `atomic` 0 FetchAdd, 1 Swap, 2 CAS; `memRdLk` and
`cplLk` are the locked forms. -/
inductive TlpOp where
  | memRd
  | memRdLk
  | memWr
  | ioRd
  | ioWr
  | cfgRd (type : Nat)
  | cfgWr (type : Nat)
  | atomic (kind : Nat)
  | msg (code routing : Nat)
  | cpl (status : Nat)
  | cplLk (status : Nat)
  deriving DecidableEq, Repr

/-- A transaction layer packet without LCRC. `addr` is a DW-aligned address; of a configuration request, the target's
bus, device and function in [31:16] and the register in [11:0]. `dws` is the Length field, `be` the byte enables, the first
DW's in [3:0]. -/
structure Tlp where
  op : TlpOp
  addr : Nat := 0
  dws : Nat := 0
  be : Nat := 0
  data : List Byte := []
  reqId : Nat := 0
  tag : Nat := 0
  tc : Nat := 0
  ro : Bool := false
  ido : Bool := false
  ns : Bool := false
  ep : Bool := false
  cplId : Nat := 0
  count : Nat := 0                -- completion: Byte Count
  lower : Nat := 0                -- completion: Lower Address
  ecrc : List Byte := []          -- 4 bytes when the TLP carries an ECRC
  at_ : Nat := 0                  -- Address Type
  th : Bool := false              -- TLP Hints present, with their Processing Hint
  ph : Nat := 0
  ln : Bool := false              -- Lightweight Notification
  pre : List Byte := []           -- TLP Prefixes, 4 bytes each
  deriving DecidableEq, Repr

/-- The functions the hub presents to a host (10 R255); `td` is the one function of a TD-212 host (12 R316). -/
inductive HostFn where
  | upstream | vdsp | dsp (k : Fin 8) | pf0 | td | vf (n : Fin 256)
  | behind (k : Nat) (type : Nat) -- the bus behind DSPk, or behind the TD-212 function, by a request of Type 0 or 1
  deriving DecidableEq, Repr

/-- The fields of a function's configuration space that the hub's own behaviour depends on; `other` is any other
register, by number. -/
inductive CfgField where
  | primaryBus | secondaryBus | subordinateBus | busMaster | prefBase | prefLimit | numVfs | vfEnable
  | msixEnable | msixMask | msiEnable | msiAddr | msiData | maxPayload | maxRead
  | ariForward                    -- ARI Forwarding Enable of the VDSP
  | slotChanged                   -- Presence Detect Changed and Data Link Layer State Changed of a DSP
  | flr                           -- Initiate Function Level Reset of a VF
  | aer                           -- Uncorrectable Error Status
  | pciBar | pciOff | pciLen | pciData -- the configuration access window of VIRTIO 1.2, 4.1.4.9
  | other (reg : Nat)
  deriving DecidableEq, Repr

/-- Where a TLP comes to the bridge: from the packet that the BRIDGE port of a Hall serves, from a root port, or from the
Usher firmware that drives a SHARED endpoint (10 R260), whose PCI Express capability stands at DW `cap` of its configuration
space. -/
inductive BridgeFrom where
  | tunnel (hall : Fin 4)
  | port (prt : Fin 8) (tlp : Tlp)
  | usher (prt : Fin 8) (cap : Fin 1024) (tlp : Tlp)
  deriving DecidableEq, Repr

/-- A TLP of a host that waits in the bridge for its order or for a tag (10 R263). -/
structure HeldTlp where
  hall : Nat
  host : Nat
  kind : Nat                      -- 0 posted, 1 non-posted, 2 completion
  pseq : Nat
  fn : Nat
  prt : Nat
  tlp : Tlp
  deriving DecidableEq, Repr

/-- Who asked for a request the bridge has forwarded. -/
inductive ReqOrigin where
  | host (h : Nat)                -- a host, of a root port
  | endpoint (k : Nat)            -- the endpoint behind root port k, of a host
  | dma (core thread tag index : Nat)  -- a DMA: the descriptor of the chain it belongs to
  | dirty (a word : Nat)          -- the dirty log of Alcove a: a bitmap word
  | restore (a mbx : Nat)         -- ALCOVE_RESTORE
  | usher                         -- Usher firmware, of a SHARED endpoint
  deriving DecidableEq, Repr

/-- One of the requests a request was cut into. -/
structure ReqPart where
  tag : Nat
  addr : Nat
  dws : Nat
  be : Nat
  got : List Byte := []           -- completion data so far
  cpls : List Tlp := []           -- the completions that brought it, in order
  done : Bool := false
  deriving DecidableEq, Repr

/-- A request the bridge has forwarded to a root port (`toPrt`) or to a host. -/
structure BridgeReq where
  id : Nat
  toPrt : Bool
  unit : Nat                      -- the root port, or the host
  origin : ReqOrigin
  fn : Nat
  prt : Nat
  tlp : Tlp                       -- the request as it came
  parts : List ReqPart
  sent : Nat := 0                 -- parts whose data has gone back
  closed : Bool := false          -- answered with an error: later data is discarded
  prefetch : Bool := false        -- the part is an aligned PREFETCH block (10 R266)
  poisoned : Bool := false
  reg : Nat := 0                  -- 12 R316: DW of the endpoint's PCI Express capability that a TD-212 host reads, plus 1
  deriving DecidableEq, Repr

/-- A prefetch entry of a root port (10 R266). -/
structure PfEntry where
  slot : Nat
  addr : Nat
  cplId : Nat                     -- of the endpoint
  data : List Byte
  unused : List Nat               -- offsets not yet returned to the host
  deriving DecidableEq, Repr

/-- A root port. -/
structure RootPort where
  shown : Bool := false           -- presence and link active shown by the owner's DSP
  handover : Option Nat := none   -- 10 R262: TB from which the hub drives PERSTk_N low
  maxPayload : Nat := 128         -- of the endpoint's Device Control, as last written
  maxRead : Nat := 512
  prefetch : List PfEntry := []   -- oldest first
  lafOrder : List Nat := []       -- valid lost-and-found entries, oldest first
  deriving DecidableEq, Repr

/-- A host's functions. Configuration fields by function and field number. -/
structure HostSt where
  txPosted : Nat := 0             -- posted TLPs sent to the host (PSEQ)
  rxPosted : Nat := 0             -- posted TLPs of the host delivered
  cfg : UnitMap Nat := []
  deriving DecidableEq, Repr

/-- A mailbox: PF0 of hosts 0 to 5, and the sideband mailbox 6 (10 R259). -/
structure Mailbox where
  cmd : UnitMap Byte := []
  rsp : UnitMap Byte := []
  busy : Bool := false
  done : Bool := false
  count : Nat := 0
  events : Nat := 0
  msix : UnitMap Word := []         -- MSI-X table, 8 bytes an entry, two to a vector
  pba : Nat := 0
  deriving DecidableEq, Repr

/-- A virtqueue (10 *Queue record*; VIRTIO 1.2). -/
structure VQueue where
  size : Nat := 0
  vector : Nat := 0xFFFF
  enable : Bool := false
  desc : Nat := 0
  driver : Nat := 0
  device : Nat := 0
  lastAvail : Nat := 0
  usedIdx : Nat := 0
  deriving DecidableEq, Repr

/-- Who waits for an Alcove's teardown to end. -/
inductive AlcoveWait where
  | none
  | quiesce (mbx : Nat)
  | freeze (mbx : Nat)
  | guest                         -- the guest driver's write of 0 to device status
  | flr
  deriving DecidableEq, Repr

/-- An Alcove (10 R267 to R276). -/
structure Alcove where
  status : Nat := 0               -- device status
  driverFeatures : Nat := 0
  deviceFeatures : Nat := 0
  featureSel : Nat := 0
  driverSel : Nat := 0
  configGen : Nat := 0
  msixConfig : Nat := 0xFFFF
  queueSel : Nat := 0
  queues : UnitMap VQueue := []
  devCfg : UnitMap Byte := []
  isr : Nat := 0
  msix : UnitMap Word := []
  pba : Nat := 0
  maxSize : Nat := 0
  backing : List Byte := []       -- bytes [63:32] of its ALCOVE_CREATE
  wait : AlcoveWait := .none
  dirty : UnitMap Nat := []         -- bits due in the active bitmap, by word
  dirtyBusy : List Nat := []      -- words being read and written back
  syncFor : Option (Nat × Nat) := none  -- mailbox and OP of a DIRTY command that waits
  saveFor : Option Nat := none    -- mailbox of an ALCOVE_SAVE that waits for its final SYNC
  restoreImg : UnitMap Byte := []   -- image bytes received
  restoreFor : Option Nat := none
  deriving DecidableEq, Repr

end Sys2Proof.Machine
end

