-- ==== Sys2Proof/Machine/StateLane.lean ====
section
/-! DEFINITION. The state of lanes and quads that no register shows (spec/04_lanes.md). -/

namespace Sys2Proof.Machine

/-- A lane (04 R117 to R133): what the transmitter, the receiver and the marker logic keep. -/
structure Lane where
  txIdle : Bool := true           -- transmitter in electrical idle (04 R125)
  idleSince : Nat := 0            -- TB when that idle began (04 R126)
  idleAnnounced : Bool := false   -- entered with IDLE_NEXT
  idlePending : Bool := false     -- an idle request waiting for the exit's marker (04 R127)
  rxIdle : Bool := false          -- receiver in IDLE, LOS suppressed
  stored : Bool := false          -- CDR phase and equaliser state stored (04 R125)
  txSession : Nat := 0            -- SESSION of own markers (04 R118)
  rxSession : Nat := 0            -- SESSION of the partner's markers
  rxSessionKnown : Bool := false
  flitsTx : Nat := 0              -- flits sent since training completed (FLIT_COUNT)
  flitsRx : Nat := 0              -- the count the receiver kept (04 R119)
  sinceTx : Nat := 0              -- flits sent since the last marker, 0..4096
  sinceRx : Nat := 0              -- blocks since the last marker matched
  matchSeen : Bool := false       -- a first match has been made, for ALIGNED
  crcFailTb : Option Nat := none  -- TB of the last symbol of a marker whose CRC failed (04 R129)
  txeqAck : Bool := false         -- TXEQ_ACK due in the next marker (04 R122)
  txeqLimit : Bool := false       -- TXEQ_LIMIT due in the next marker
  reqPrecode : Bool := false      -- own receiver asks for precoding (PRECODE_REQ)
  precodeNext : Bool := false     -- own transmitter precodes from its next marker
  peerSpread : Bool := false      -- SPREAD of the partner's latest marker (04 R112)
  rxReady : Bool := false         -- own receiver has adapted (RX_READY sent)
  peerReady : Bool := false       -- RX_READY seen
  enWaiting : Bool := false       -- EN set while the quad is not READY (04 R108)
  rxHeld : Option Nat := none     -- the moment at which adaptation stopped last: coefficients are held as they stood (04 R123)
  ctleHeld : Option Nat := none   -- the CTLE code held since then, where `CTLE_FIX` had fixed it
  pllselDue : Bool := false       -- PLLSEL is set at its next marker (06 R162 step 4)
  speed : Nat := 0                -- PCIE_RC: the speed of the latest training, 1 to 4 as *Unit field* codes it
  deriving DecidableEq, Repr

/-- Transmit coefficients C(-1), C(0), C(+1) that PCI Express sets, with C(-2) = C(+2) = 0 (04 R122). -/
structure PcieEq where
  pre1 : BitVec 7
  main : BitVec 7
  post1 : BitVec 7
  deriving DecidableEq, Repr

/-- What a training settles on (LANE_TRAINED): the rate, of a Birique lane no higher than `RATE`, of a root port's lane its speed
as *Unit field* codes it, and the coefficients that PCI Express asked for (04 R122). -/
structure LaneFound where
  rate : Fin 5
  eq : Option PcieEq := none
  deriving DecidableEq, Repr

/-- Bits that a checker has found wrong, and for the PAM4 pattern the level of each wrong symbol (04 R131, R132). -/
structure PrbsErrs where
  errs : Nat
  levels : List Nat := []
  deriving DecidableEq, Repr

/-- A quad (04 R108 to R114). -/
structure Quad where
  refPresent : Bool := true       -- REFCLK of its Hall seen (04 R110)
  follow : Option Nat := none     -- lane number that a loop-timed PLL B follows (04 R112)
  deriving DecidableEq, Repr

/-- The fields of a received Landing marker (04 *Landing marker*, *Marker flags*). -/
structure Marker where
  crcOk : Bool
  flitCount : Nat
  session : Nat
  lane : Nat
  trunk : Nat
  txeqLimit : Bool
  txeqAck : Bool
  txeqUp : Bool
  txeqTap : Nat
  spread : Bool
  precodeOn : Bool
  precodeReq : Bool
  rxReady : Bool
  training : Bool
  idleNext : Bool
  deriving DecidableEq, Repr

end Sys2Proof.Machine
end

