-- ==== Sys2Proof/Machine/StatePower.lean ====
section
/-! DEFINITION. The state of the power paths and of the Type-C units that no register shows (spec/14_power_delivery.md). -/

namespace Sys2Proof.Machine

/-- A power path: the poles of its thermal model (R365) and what its comparisons remember. -/
structure PowerPath where
  t1 : Rat := 0
  t2 : Rat := 0
  model : Rat := 0                -- °C, exact
  below : Option Nat := none      -- TB since which every scan has found the current below IMAX
  ovSince : Option Nat := none       -- TB since which every scan has found the output above VMAX
  hot : Nat := 0                  -- scans in a row that found the measured temperature beyond TMAX_CODE, 0 to 2
  vlow : Option Nat := none       -- TB since which every scan has found VBUS below 0.8 V
  tripped : Bool := false         -- a trip since ATTEMPTS was last 0 by R366
  tripCause : Nat := 0            -- cause of the trip that began the cool-down
  deriving DecidableEq, Repr

/-- A Power Delivery message: SOP kind (0 to 4 of *PD message record*) and its bytes, header first. -/
structure PdMsg where
  sop : Nat
  data : List Byte
  deriving DecidableEq, Repr

/-- A transmission of a Type-C unit: the Porter operation that asked for it (none: the keep-alive schedule). -/
structure PdTx where
  msg : PdMsg
  op : Option (Nat × Nat)         -- thread and tag
  started : Bool := false
  retries : Nat := 0
  deriving DecidableEq, Repr

/-- How far a contract is negotiated (R371 asks for explicit contracts). -/
inductive PdContract where
  | none | requested | accepted | explicit
  deriving DecidableEq, Repr

/-- A Type-C unit. -/
structure TcUnit where
  txId : UnitMap Nat := []          -- MessageID counter per SOP kind
  rxId : UnitMap (Option Nat) := [] -- MessageID last accepted per SOP kind
  rx : List (PdMsg × Nat) := []   -- the receive ring, oldest first, with TB[31:0]
  tx : List PdTx := []            -- the head is in flight once started
  ka : Grid := {}                 -- keep-alive sends (R352)
  contract : PdContract := .none
  caps : List Nat := []           -- power data objects of the last Source_Capabilities on SOP
  fixed : Bool := false           -- the object last requested is an SPR fixed supply (17 R404)
  roles : Nat × Nat := (0, 0)     -- POWER_ROLE and DATA_ROLE at attach
  ng : Bool := false              -- Rp shows SinkTxNG
  taken : Bool := false           -- TCn_CTRL has been written since reset (19 R436)
  deriving DecidableEq, Repr

/-- Power delivery: paths PP0 to PP11 and PPIN (12), units TC0 to TC11, and the codes of the latest scan. -/
structure Power where
  paths : UnitMap PowerPath := []
  tcs : UnitMap TcUnit := []
  adc : UnitMap Nat := []           -- latest code of channels 0 to 52
  deriving DecidableEq, Repr

/-- What a Type-C unit or a path drives. -/
inductive PdOut where
  | send (tc : Nat) (m : PdMsg)       -- a message, or a reset's ordered sets (SOP 3, 4)
  | goodCrc (tc sop id : Nat)
  | frs (tc : Nat)                    -- CC held low for 90 us (R355)
  deriving DecidableEq, Repr

end Sys2Proof.Machine
end

