-- ==== Sys2Proof/Machine/StateTd.lean ====
section
/-! DEFINITION. The state of the TD-212 shims that no register shows (spec/12_td212_personality.md R304 to R315). STATE,
LANES_UP, E, TX_NEXT, TX_UNACK and the credits left are in `TRKn_TD_STATUS`. -/

namespace Sys2Proof.Machine

/-- A DATA frame that is not acknowledged. -/
structure TdOut where
  seq : Nat
  vc : Nat
  data : List Byte
  deriving DecidableEq, Repr

/-- A TD packet for the host: the parcel it came from (0 none), its VC, its L bytes. -/
structure TdPacket where
  id : Nat
  vc : Nat
  bytes : List Byte
  deriving DecidableEq, Repr

/-- The shim of a TD-212 trunk. -/
structure TdUnit where
  aligned : List Nat := []        -- lanes aligned in this link-up, in the order in which they aligned
  inUse : List Nat := []          -- lanes in use once the width is fixed
  initLeft : Nat := 0             -- INIT frames still to be sent after UP
  unacked : List TdOut := []      -- oldest first
  resend : List Nat := []         -- SEQ of frames to be resent, in order
  expiries : Nat := 0
  nakDue : Bool := false
  nakSent : Bool := false         -- a NAK for E has been sent or is due since E last changed
  ackDue : Bool := false
  creditDue : Bool := false
  sinceAck : Nat := 0
  limit : UnitMap Nat := []         -- LIMIT received, per VC
  first : UnitMap Nat := []         -- the LIMIT with which the host came UP, per VC (02 R62)
  used : UnitMap Nat := []
  granted : UnitMap Nat := []       -- LIMIT of the hub, per VC
  sent : UnitMap Nat := []          -- LIMIT last advertised
  cycle : Nat := 0                -- place in the cycle of five (R315)
  tx : UnitMap (List Byte) := []    -- per VC: bytes still to be framed of the packet begun
  txId : UnitMap Nat := []          -- per VC: the parcel of that packet
  txQ : List TdPacket := []       -- packets not begun, in the order the switch core delivered them
  rx : UnitMap (List Byte) := []    -- per VC: bytes of the stream not yet a whole packet
  stall : Option Nat := none      -- TB since which a packet waits for credit
  pseq : Nat := 0                 -- posted TLPs wrapped (10 R263)
  deriving DecidableEq, Repr

end Sys2Proof.Machine
end

