-- ==== Sys2Proof/Machine/StateUsb.lean ====
section
/-! DEFINITION. The state of the USB complex that no register shows (spec/13_usb_complex.md). -/

namespace Sys2Proof.Machine

/-- One port of a hub instance: its status and change bits (USB 2.0 section 11.24.2.7). -/
structure HubPort where
  connected : Bool := false
  enabled : Bool := false
  suspended : Bool := false
  overCurrent : Bool := false
  resetting : Bool := false
  power : Bool := false
  low : Bool := false
  high : Bool := false
  cConnection : Bool := false
  cEnable : Bool := false
  cSuspend : Bool := false
  cOverCurrent : Bool := false
  cReset : Bool := false
  deriving DecidableEq, Repr

/-- How the next stage of a vendor transfer that has ended is answered (R338). -/
inductive MgmtEnd where
  | ack | stall
  deriving DecidableEq, Repr

/-- An upstream port: the hub instance its host sees, and the embedded device on its port 9. -/
structure UpPort where
  before : Nat := 0               -- STATE before SUSPENDED
  ports : UnitMap HubPort := []     -- 1 to 9
  alt : Nat := 0                  -- alternate setting of the hub's interface
  devAddr : Nat := 0
  devConfig : Bool := false
  mgmtIn : Bool := false          -- direction of the vendor transfer: its data go to the host
  mgmtEnd : Option MgmtEnd := none
  waking : Option Nat := none     -- downstream port whose remote wake this resume began with
  deriving DecidableEq, Repr

/-- The state of a split transaction in a translator. -/
structure TtEntry where
  endpoint : Nat                  -- device address * 16 + endpoint number
  periodic : Bool
  data : List Byte := []
  result : Option (List Byte) := none
  deriving DecidableEq, Repr

/-- A downstream port. -/
structure DnPort where
  device : Option Nat := none     -- 1 low speed, 2 full speed, by the attached device's pull-up
  ocLow : Bool := false           -- DNk_OC_N is low
  tripped : Bool := false         -- an over-current holds the port unpowered (R330)
  cycle : Bool := false
  tt : List TtEntry := []
  deriving DecidableEq, Repr

/-- The audio function (R343 to R345). -/
structure Audio where
  play : List (BitVec 24 × BitVec 24) := []  -- oldest first
  capture : List (BitVec 24) := []
  window : Option (Nat × Nat) := none        -- TB of the SOF that opened the window, and intervals since
  phase : Nat := 0                           -- sample periods made so far, in 1/10^16
  phases : List Nat := []                    -- the phase at the latest SOFs, newest first
  phaseTb : Nat := 0                         -- TB to which the phase is brought up to date
  deriving DecidableEq, Repr

/-- The USB complex. -/
structure Usb where
  ups : UnitMap UpPort := []
  dns : UnitMap DnPort := []
  audio : Audio := {}
  deriving DecidableEq, Repr

/-- A port that waits for the end of a gap: a downstream port, or port 9 of a host's hub. -/
inductive GapPort where
  | dn (k : Fin 8)
  | nine (h : Fin 6)
  deriving DecidableEq, Repr

/-- A transaction of a host (R327, R337, R338). -/
inductive UsbTxn where
  | packet (k : Fin 8) (data : List Byte)                            -- for the device on DNk, not split
  | startSplit (k : Fin 8) (endpoint : Nat) (periodic : Bool) (data : List Byte)
  | completeSplit (k : Fin 8) (endpoint : Nat)
  | splitDone (k : Fin 8) (endpoint : Nat) (data : List Byte)        -- the translator's transaction on DNk has ended
  | statusChange                                                     -- the hub's status-change endpoint
  | mgmtOut (data : List Byte)                                       -- OUT data of a vendor transfer
  | mgmtStage                                                        -- a later stage of a vendor transfer
  deriving DecidableEq, Repr

/-- What the complex answers to a host. -/
inductive UsbAnswer where
  | ack | nak | nyet | stall
  | data (bytes : List Byte)
  deriving DecidableEq, Repr

/-- An isochronous packet of the audio function. -/
inductive AudioPkt where
  | playback (data : List Byte)
  | capture
  | feedback
  deriving DecidableEq, Repr

end Sys2Proof.Machine
end

