-- ==== Sys2Proof/Machine/StateWarden.lean ====
section
/-! DEFINITION. The state inside the Warden's boundary and the keys of the link units (spec/15_security.md). -/

namespace Sys2Proof.Machine

/-- A key slot: its attribute word and its key, as many bytes as its KIND has. Its state is in WDN_SLOTSTATE. -/
structure KeySlot where
  attr : Word := 0
  key : List Byte := []
  deriving DecidableEq, Repr

/-- A Warden operation in progress (R100): what its end writes to local memory, the slot it writes (WRITING until then), the
state it gives a slot, and its status. -/
structure WardenOp where
  tag : Nat
  status : Nat := 0
  writes : List (Nat × List Byte) := []
  slot : Option Nat := none
  slotTo : Option (Nat × Nat) := none
  deriving DecidableEq, Repr

/-- A rollover in progress (R385): the new index, its slot, whether this end is the responder, TB of the first flit accepted
under the new index, and the old slot. -/
structure Rekey where
  idx : Nat
  slot : Nat
  responder : Bool
  since : Option Nat := none
  old : Option Nat := none
  deriving DecidableEq, Repr

/-- The keys a link unit holds, by the slot each came from, and its security receive buffer (R382, R384). -/
structure SecUnit where
  tx : Option Nat := none
  rx0 : Option Nat := none
  rx1 : Option Nat := none
  buf : Option (List Byte) := none
  dropped : Bool := false         -- keys dropped since the trunk last trained from DOWN
  rekey : Option Rekey := none
  deriving DecidableEq, Repr

/-- The Warden. -/
structure Warden where
  slots : UnitMap KeySlot := []
  ops : List WardenOp := []
  drbgFail : Bool := false        -- an entropy health test has failed since the last Warden reset (R375)
  canvasPort : List Nat := []     -- slots whose keys the Canvas key port holds (R376)
  imageSvns : List Nat := []      -- SVNs of the images loaded at this boot (R381)
  svnGoal : Option (Nat × Nat × Nat) := none  -- an SVN_ADVANCE under way: the count wanted, reply core and tag
  secs : UnitMap SecUnit := []
  deriving DecidableEq, Repr

end Sys2Proof.Machine
end

