-- ==== Sys2Proof/Machine/StateBase.lean ====
section
/-! DEFINITION. Who sends accesses, which timers the block keeps, and what it sends out of itself. -/

namespace Sys2Proof.Machine

/-- A Waizefy instruction's thread and predicate (03 *Instruction formats*): core 0 to 10, thread, predicate register. -/
structure Issue where
  core : Fin 11
  thread : Fin 8
  pred : Fin 8
  unused : Bool := false          -- a field of its form that must be 0 is not (R91, *Fault classes*)
  deriving DecidableEq, Repr

/-- The Hall whose pipelines take a packet to classify (09 R233), and the address of a poisoned word of table, program or graph
memory that its classification reads, if it reads one (09 R254). -/
structure MapTake where
  hall : Fin 4
  poison : Option (BitVec 48) := none
  deriving DecidableEq, Repr

/-- A frame that a MAC receives (07 R207), and how many of its RS-FEC codewords were corrected and how many were not
(04 R131). -/
structure EthIn where
  frame : List Byte
  fixed : Nat := 0
  lost : Nat := 0
  deriving DecidableEq, Repr

/-- What the Newel finds as DEEP ends: the time that TB did not count (17 R405) and the SRAM words whose parity fails (17 R400). -/
structure DeepExit where
  elapsed : Nat := 0
  parity : List Nat := []
  deriving DecidableEq, Repr

/-- Tamper sources in alarm (15 R386), and the supplies measured, with their voltage in mV: 0 to 3 VDD_H0 to VDD_H3, 4 VDD_S,
5 VDD_AON. -/
structure Alarm where
  sources : BitVec 6
  rails : List (Nat × Nat) := []
  deriving DecidableEq, Repr

/-- A master of the internal address space (01 R27, R32; 16 R388). -/
inductive Master where
  | core (c t : Nat) (sup : Bool)   -- a thread of core c, in supervisory mode or not
  | jtag
  | dma (c : Nat)                   -- the DMA engine for core c
  | host (h : Nat)                  -- a host through a BAR window the Docent mapped
  | sideband                        -- SMBus
  | hw (bell src : Nat)             -- the hardware block that owns a fixed source of a Bell
  deriving DecidableEq, Repr

/-- The timers of the block (00 R3). -/
inductive TimerKind where
  | farLoad        -- 03 R81: core * 8 + thread, tag
  | laneRefresh    -- 04 R126: lane
  | laneTrain      -- 04 R126: lane
  | laneExit       -- 04 R128: lane
  | trkAck         -- 05 R141: trunk
  | trkRetry       -- 05 R145: trunk
  | trkCredit      -- 05 R153: trunk, VC
  | trkCreditAll   -- 05 R153: trunk, VC: once every 10 us
  | trkBeat        -- 05 R155: trunk
  | trkSilence     -- 05 R156: trunk
  | trkTrain       -- 06 R163: trunk
  | trkTrainRetry  -- 06 R163: trunk
  | trkWidth       -- 06 R167: trunk
  | badLane        -- 06 R169: lane
  | psnGap         -- 06 R174: trunk, context
  | epochHold      -- 07 R197: Hall
  | bridgeCto      -- 10 R265: request
  | prefetch       -- 10 R266: root port, entry
  | prtPerst       -- 10 R262: root port
  | alcQuiesce     -- 10 R271, R275: Alcove
  | alcXlat        -- 10 R271: Alcove
  | dhAux          -- 11 R281: head
  | tdInit         -- 12 R304: trunk: the next INIT frame
  | tdTimeout      -- 12 R304: trunk: 10 ms from step 3
  | tdWidth        -- 12 R304: trunk: 1 ms from the first alignment
  | tdLinkup       -- 12 R304, R322: trunk: the next link-up
  | tdNak          -- 12 R306: trunk
  | tdAck          -- 12 R307: trunk
  | tdRetry        -- 12 R309: trunk
  | tdCredit       -- 12 R312: trunk: 2 us after an advance
  | tdCreditAll    -- 12 R312: trunk: every 10 us
  | usbGap         -- 13 R328, R335: port DNk, or 8 + h for port 9 of host h
  | usbReset       -- 13 R333: port DNk
  | usbCycle       -- 13 R331: port DNk
  | usbMgmt        -- 13 R338: host
  | pdKa           -- 14 R351: Type-C unit
  | pdRetry        -- 14 R347: Type-C unit
  | pdAms          -- 14 R347: Type-C unit
  | ppFault        -- 14 R364: path
  | ppPrecharge    -- 14 R361: path
  | ppGate         -- 14 R362: path
  | ppDischarge    -- 14 R364: path
  | ppCool         -- 14 R366: path
  | drain          -- 18 R415: scope * 512 + kind * 16 + instance
  | flightReset    -- 18 R416: the same
  | quarIso        -- 18 R417: Hall: 100 us
  | quarMax        -- 01 R14: Hall: 1 ms
  | hallReset      -- 19 R438: Hall: 500 us
  | safeHold       -- 18 R421
  | wdog           -- 18 R422
  | pwrPoll        -- 17 R401: unit code
  | pwrMsg         -- 17 R401: core: every 10 us
  | pwrAnswer      -- 17 R402: core
  | pwrEntry       -- 17 R402
  | sidebandMax    -- 19 R433: 60 s
  | wardenClear    -- 15 R386
  | fuseBlow       -- 15 R380: at most 20 ms
  | ppHold         -- 14 R366: path: PG has held for 60 s
  deriving DecidableEq, Repr

/-- A timer: its kind and the two numbers of what it belongs to. -/
structure TimerId where
  kind : TimerKind
  i : Nat := 0
  j : Nat := 0
  deriving DecidableEq, Repr

/-- What the block sends out of itself, newest first in `State.out`. -/
inductive Output where
  | marker (lane : Nat) (m : Marker)
  | burst (lane : Nat)                    -- the 1,024 symbols that open a fast exit
  | flit (lane : Nat) (block : List Byte)
  | ethFrame (mac : Nat) (bytes : List Byte)  -- destination address to FCS (07 R210)
  | rootPort (k : Nat) (t : Tlp)              -- a TLP to the endpoint behind PRTk
  | aux (head : Nat) (r : AuxReq)             -- an AUX transaction starts (11 R281)
  | auxToHost (host head result : Nat) (data : List Byte)  -- a proxied AUX reply, over MGMT (11 R283)
  | hpdToHost (host head event : Nat)         -- an HPD event, over MGMT: 0 IRQ_HPD, 1 UNPLUG, 2 PLUG
  | tdFrame (trunk : Nat) (bytes : List Byte)  -- a TD frame (12 R305)
  | usb (host : Nat) (a : UsbAnswer)          -- an answer on UPh
  | usbDown (k : Nat) (data : List Byte)      -- a packet repeated to DNk
  | usbResume (up : Bool) (port : Nat)        -- resume signalling on UPh or DNk
  | codec (slots : List (BitVec 32))          -- a frame on AUD_SDO
  | pd (o : PdOut)                            -- on the CC pins of a Type-C unit
  | wardenReply (core tag status : Nat) (data : List Byte)  -- what a Warden command answers (assumption log 101)
  | avs (loop code : Nat)                     -- a voltage command on AVSBus (02 R48)
  | avsRetain (loop : Nat)                    -- the Newel's retention command of DEEP, 0.45 V (17 R400)
  | crash (data : List Byte)                  -- a block of the crash record, to SMBus or JTAG (18 R423)
  | sdp (head : Nat) (data : List Byte)       -- a secondary data packet (11 R298)
  deriving DecidableEq, Repr

/-- The answer to the last register access (01 R31; 00 R471). -/
inductive Reply where
  | none
  | data (v : Word)
  | done
  | decodeError
  deriving DecidableEq, Repr

end Sys2Proof.Machine
end

