-- ==== Sys2Proof/Machine/StateWz.lean ====
section
/-! DEFINITION. The state of the eleven Waizefy cores, their threads and operation tables (spec/03_waizefy_isa.md). -/

namespace Sys2Proof.Machine

/-- What a thread is doing (03 R72, R74, R78, R85). -/
inductive RunState where
  | stopped                       -- not started since its core's reset
  | running
  | waitTag (tag rd : Nat)        -- in ot.wait
  | waitAny (rd : Nat)            -- in ot.waitany
  | waitBell                      -- in bell.wait
  | halted                        -- sys.halt or a double fault: until a core reset
  deriving DecidableEq, Repr

/-- A far store issued and not yet performed (03 R87): its address, size in bytes, data, and whether it was issued in
supervisory mode. -/
structure PostedStore where
  addr : Nat
  size : Nat
  data : Word
  sup : Bool
  deriving DecidableEq, Repr

/-- One thread of a core (03 R74, R75, R83). -/
structure Thread where
  gpr : UnitMap Word := []          -- g1..g31; g0 is never listed
  preds : BitVec 8 := 0           -- p1..p7; bit 0 is never read
  pc : Nat := 0
  status : Word := 0              -- STATUS: [0] PRIV, [1] IE, [2] FIP, [3] AFP
  vbase : Word := 0
  epc : Word := 0
  fcause : Word := 0
  fval : Word := 0
  estatus : Word := 0
  twin : UnitMap Word := []         -- TWIN0..TWIN3: even number base, odd number limit and permissions
  scratch : UnitMap Word := []      -- SCRATCH0..SCRATCH3
  run : RunState := .stopped
  entered : Nat := 0              -- TB of the last INTERRUPT entry or return of bell.wait (16 R394)
  jtag : Bool := false            -- halted by JTAG (04 R85)
  posted : List PostedStore := [] -- far stores not yet performed, oldest first
  storeErrs : List Nat := []      -- addresses of far stores whose error response has not arrived, oldest first
  asyncHeld : Nat := 0            -- ACCESS_ASYNC faults that have arrived and are to be taken
  deriving DecidableEq, Repr

/-- The atomic operations of 03 *Other base instructions*, `amo.op` func 0 to 7. -/
inductive AmoOp where
  | add | and | or | xor | swap | umin | umax | cas
  deriving DecidableEq, Repr

/-- A DMA descriptor as read at issue (03 R98). -/
structure DmaDesc where
  dst : Nat
  src : Nat
  len : Nat
  fill : Bool
  dstHost : Bool
  srcHost : Bool
  fn : Nat
  bad : Bool                      -- a reserved bit set, LEN out of range or both HOST flags
  deriving DecidableEq, Repr

/-- How far a DMA operation has come: the descriptor it is at, the bytes of that descriptor it has written, whether a poisoned
unit has been met in it, and the Alcoves whose INFLIGHT counts it. -/
structure DmaWork where
  pos : Nat := 0
  off : Nat := 0
  poison : Bool := false
  held : List Nat := []
  deriving DecidableEq, Repr

/-- The long-latency operations whose end is a later command. -/
inductive OtKind where
  | farLoad (addr size rd : Nat) (sup : Bool)
  | atomic (op : AmoOp) (addr rd : Nat) (operand compare : Word)
  | epochDrain (hall epoch : Nat)
  | schedCommit (port : Nat)
  | audit (addr : Nat)
  | dma (descs : List DmaDesc) (chain : Bool) (d : DmaWork)
  | pwrReq (target : Nat)
  | pwrPp (path cmd : Nat)
  | pdtx (tc : Nat)
  | warden (group func : Nat) (slot desc : Nat)
  | atOnce                        -- completed by the command that issued it
  deriving DecidableEq, Repr

/-- An entry of a core's operation table (03 R78, R80, *Completion word*). -/
structure OtEntry where
  thread : Nat
  tag : Nat
  kind : OtKind
  done : Bool := false
  status : Nat := 0
  result : Nat := 0
  faultDue : Bool := false        -- R82: the precise fault of a failed far load or atomic has not been taken
  issued : Nat := 0               -- TB at issue
  deriving DecidableEq, Repr

/-- Whose turn it is to issue in a core (03 R72): the thread after the one that issued last, and the threads that give up
their next turn. -/
structure Turn where
  next : Nat := 0
  yielded : BitVec 8 := 0
  deriving DecidableEq, Repr

/-- What a core's threads share. -/
structure WzCore where
  ot : List OtEntry := []
  issuedOps : Nat := 0            -- OT ledger terms (03 R80)
  completedOps : Nat := 0
  ring : List (List Byte) := []   -- receive ring of 64-byte messages, oldest first (03 R99)
  ringFrom : List Nat := []       -- the sending core of each message
  code : List (Nat × Nat) := []   -- code regions: local address and size (03 R103)
  entry : Nat := 0                -- entry address of the loaded image
  resetWait : Bool := false       -- reset set, outstanding operations still running (03 R101)
  release : Bool := false         -- a clear of RESET written during that wait
  doubleFaults : BitVec 8 := 0    -- threads halted by a double fault, for a core without USHERu_STATUS
  deriving DecidableEq, Repr

end Sys2Proof.Machine
end

