-- ==== Sys2Proof/Syntax.lean ====
section
/-! DEFINITION. The commands the block takes (spec/opcode_table.json). Operands are what the command's sender decides:
which unit, which values, and what the environment did (the bytes of a flit, the fields of a marker, a measurement). -/

namespace Sys2Proof

open Machine

/-- The commands of the block, one constructor per row of spec/opcode_table.json. Each docstring gives the rule the row
names. -/
inductive Instr where
  /-- `REGISTER_WRITE` (R6): A write to a register field that has no behaviour of its own is stored, ignored or discarded as its access code states. -/
  | registerWrite (master : Master) (addr : Nat) (size : Nat) (value : (BitVec 64))
  /-- `STUCK_TREAD` (R41): A Tread request stays unanswered up to the handshake watchdog limit, and the Flight records STUCK_TREAD and fences. -/
  | stuckTread (scope : Fin 5) (kind : Fin 32) (inst : Fin 16) (tread : (BitVec 16))
  /-- `TREAD_ERROR` (R414): A Tread detects an invalid 1-of-N code or a parity error, poisons the token and counts the error in its Flight's window. -/
  | treadError (scope : Fin 5) (kind : Fin 32) (inst : Fin 16) (parity : Bool) (packet : Nat)
  /-- `FLIGHT_FENCED` (R415): A fencing Flight finishes draining, holds nothing and reports FENCED. -/
  | flightFenced (scope : Fin 5) (kind : Fin 32) (inst : Fin 16)
  /-- `DRAIN_TIMEOUT` (R14): A fenced Flight reaches its drain limit without draining, which raises a fault of its Hall, or a chip fault for a services Flight. -/
  | drainTimeout (scope : Fin 5) (kind : Fin 32) (inst : Fin 16)
  /-- `HALL_ISOLATION` (R417): A Hall's own quarantine logic has not confirmed within 100 µs, so the Newel closes the Hall's Stair ports and idles its lanes. -/
  | hallIsolation (h : Fin 4)
  /-- `QUAR_DONE` (R417): Every lane of a quarantining Hall is in electrical idle and every Stair port is closed, so the Hall becomes QUARANTINED. -/
  | quarDone (h : Fin 4)
  /-- `QUAR_TIMEOUT` (R14): A Hall quarantine has not completed within 1 ms, which raises a chip fault. -/
  | quarTimeout (h : Fin 4)
  /-- `STAIR_FAULT` (R419): A Stair link parity, code or credit fault is detected, which is a chip fault. -/
  | stairFault (src : Fin 5) (dst : Fin 5)
  /-- `SAFE_HOLD_EXPIRE` (R421): NEWEL_SAFE.HOLD ends in SAFE, and the Newel performs a watchdog chip reset. -/
  | safeHoldExpire
  /-- `LANDING_ACCEPT` (R184): A packet that is whole in a Landing is checked for type, length, reserved bits, poison, hops and end-to-end CRC, and is then accepted or dropped. -/
  | landingAccept (h : Fin 4)
  /-- `MAP_CLASSIFY` (R233): An accepted packet is stamped with the current epoch, parsed and run through its entry program on a MAP pipeline. -/
  | mapClassify (x : MapTake)
  /-- `ADMISSION_DECIDE` (R191): The egress Hall decides whether a packet asking for Stair credit, or for a local write, is admitted to its leaf queue by dynamic threshold. -/
  | admissionDecide (h : Fin 4) (src : Fin 5)
  /-- `ADMISSION_RETRY` (R191): A lossless packet waiting for admission is decided again when cells of the Hall are freed or its reserves change. -/
  | admissionRetry (h : Fin 4)
  /-- `STAIR_CROSS` (R20): A packet granted credit for its whole length crosses the Stair to its destination Hall, oldest first. -/
  | stairCross (src : Fin 5) (dst : Fin 4)
  /-- `QUEUE_LINK` (R191): A granted packet arrives in the egress queue buffer and is linked into its leaf queue, or dropped by threshold or random early drop. -/
  | queueLink (h : Fin 4) (src : Fin 5)
  /-- `PORT_SCHEDULE` (R218): A free scheduler port chooses its next packet through port, service and subscriber nodes, and charges buckets, deficits and OWED. -/
  | portSchedule (p : Fin 48)
  /-- `PACKET_DEPART` (R24): A served packet leaves the queue buffer when its last byte is in the replay buffer or taken by the endpoint, and its cells are freed. -/
  | packetDepart (p : Fin 48)
  /-- `LOCAL_PACKET_ENTER` (R188): A local source's packet enters the Landing, or waits until enough unreserved Landing cells are free. -/
  | localPacketEnter (h : Fin 5) (src : Fin 64)
  /-- `LANDING_CELL_CLAIM` (R187): A trunk VC buffer claims a reserved Landing cell as it empties and announces it as 4 credits. -/
  | landingCellClaim (n : Fin 24) (vc : Fin 8)
  /-- `FW_CELL_WITHHOLD` (R189): A queue-buffer cell in the FW_CELLS range becomes free and is withheld for firmware data. -/
  | fwCellWithhold (h : Fin 4)
  /-- `EPOCH_HOLD_RELEASE` (R197): Every older live epoch has drained, so the packets held for changed entries are released in acceptance order. -/
  | epochHoldRelease (h : Fin 4)
  /-- `EPOCH_HOLD_TIMEOUT` (R197): A hold reaches DRAIN_MAX, so the held packets are released anyway and counted in ORDER_BREAK. -/
  | epochHoldTimeout (h : Fin 4)
  /-- `LOCKSTEP_EPOCH_DECIDE` (R55): At the end of each decision epoch a LOCKSTEP Hall resolves every contention presented in that epoch in source order. -/
  | lockstepEpochDecide (h : Fin 4)
  /-- `LOCKSTEP_SWITCH` (R61): A change of GUARANTEE takes effect at the next epoch boundary, and on entering LOCKSTEP the Hall zeroes deficits and counters and records its origin. -/
  | lockstepSwitch (h : Fin 4)
  /-- `TB_HOLDOVER` (R45): REFCLK0 is lost, and the TB PLL enters holdover, sets HOLDOVER and rings Bell 8. -/
  | tbHoldover
  /-- `TB_RELOCK` (R45): REFCLK0 returns, and the TB PLL slews back to lock without a step and clears HOLDOVER. -/
  | tbRelock
  /-- `RISER_UPDATE` (R49): A DEMAND Riser loop update compares the measured Tread cycle with the target and commands its regulator up or down. -/
  | riserUpdate (rail : Fin 5) (load : Rat) (cycle : (BitVec 16)) (ack : Bool)
  /-- `AUDIT_SWEEP_END` (R65): An audit sweep ends within 20 µs and writes its summary, mismatch and status records to the buffer. -/
  | auditSweepEnd (errors : (List LedgerError))
  /-- `ADD` (R73): ALU add: rd := ra + rb. -/
  | add (x : Issue) (rd : Fin 32) (ra : Fin 32) (rb : Fin 32)
  /-- `SUB` (R73): ALU subtract: rd := ra − rb. -/
  | sub (x : Issue) (rd : Fin 32) (ra : Fin 32) (rb : Fin 32)
  /-- `AND` (R73): ALU bitwise and. -/
  | and (x : Issue) (rd : Fin 32) (ra : Fin 32) (rb : Fin 32)
  /-- `OR` (R73): ALU bitwise or. -/
  | or (x : Issue) (rd : Fin 32) (ra : Fin 32) (rb : Fin 32)
  /-- `XOR` (R73): ALU bitwise exclusive or. -/
  | xor (x : Issue) (rd : Fin 32) (ra : Fin 32) (rb : Fin 32)
  /-- `SLL` (R73): Shift ra left by rb[5:0]. -/
  | sll (x : Issue) (rd : Fin 32) (ra : Fin 32) (rb : Fin 32)
  /-- `SRL` (R73): Shift ra logically right by rb[5:0]. -/
  | srl (x : Issue) (rd : Fin 32) (ra : Fin 32) (rb : Fin 32)
  /-- `SRA` (R73): Shift ra arithmetically right by rb[5:0]. -/
  | sra (x : Issue) (rd : Fin 32) (ra : Fin 32) (rb : Fin 32)
  /-- `MUL` (R73): Low 64 bits of ra × rb. -/
  | mul (x : Issue) (rd : Fin 32) (ra : Fin 32) (rb : Fin 32)
  /-- `MULHU` (R73): High 64 bits of the unsigned product. -/
  | mulhu (x : Issue) (rd : Fin 32) (ra : Fin 32) (rb : Fin 32)
  /-- `DIVU` (R73): Unsigned divide, giving all ones for a zero divisor. -/
  | divu (x : Issue) (rd : Fin 32) (ra : Fin 32) (rb : Fin 32)
  /-- `REMU` (R73): Unsigned remainder, giving ra for a zero divisor. -/
  | remu (x : Issue) (rd : Fin 32) (ra : Fin 32) (rb : Fin 32)
  /-- `DIV` (R73): Signed divide rounding toward zero, with defined results for a zero divisor and for overflow. -/
  | div (x : Issue) (rd : Fin 32) (ra : Fin 32) (rb : Fin 32)
  /-- `REM` (R73): Signed remainder with defined results for a zero divisor and for overflow. -/
  | rem (x : Issue) (rd : Fin 32) (ra : Fin 32) (rb : Fin 32)
  /-- `MIN` (R73): Signed minimum. -/
  | min (x : Issue) (rd : Fin 32) (ra : Fin 32) (rb : Fin 32)
  /-- `MAX` (R73): Signed maximum. -/
  | max (x : Issue) (rd : Fin 32) (ra : Fin 32) (rb : Fin 32)
  /-- `MINU` (R73): Unsigned minimum. -/
  | minu (x : Issue) (rd : Fin 32) (ra : Fin 32) (rb : Fin 32)
  /-- `MAXU` (R73): Unsigned maximum. -/
  | maxu (x : Issue) (rd : Fin 32) (ra : Fin 32) (rb : Fin 32)
  /-- `CLZ` (R73): Count the leading zeros of ra. -/
  | clz (x : Issue) (rd : Fin 32) (ra : Fin 32)
  /-- `POPC` (R73): Count the ones in ra. -/
  | popc (x : Issue) (rd : Fin 32) (ra : Fin 32)
  /-- `BSWAP` (R73): Reverse the bytes of ra. -/
  | bswap (x : Issue) (rd : Fin 32) (ra : Fin 32)
  /-- `ADDI` (R91): Add a sign-extended imm13 to ra. -/
  | addi (x : Issue) (rd : Fin 32) (ra : Fin 32) (imm : (BitVec 13))
  /-- `ANDI` (R91): And ra with a zero-extended imm13. -/
  | andi (x : Issue) (rd : Fin 32) (ra : Fin 32) (imm : (BitVec 13))
  /-- `ORI` (R91): Or ra with a zero-extended imm13. -/
  | ori (x : Issue) (rd : Fin 32) (ra : Fin 32) (imm : (BitVec 13))
  /-- `XORI` (R91): Exclusive-or ra with a zero-extended imm13. -/
  | xori (x : Issue) (rd : Fin 32) (ra : Fin 32) (imm : (BitVec 13))
  /-- `SLLI` (R91): Shift left by an immediate amount. -/
  | slli (x : Issue) (rd : Fin 32) (ra : Fin 32) (amount : Fin 64)
  /-- `SRLI` (R91): Shift logically right by an immediate amount. -/
  | srli (x : Issue) (rd : Fin 32) (ra : Fin 32) (amount : Fin 64)
  /-- `SRAI` (R91): Shift arithmetically right by an immediate amount. -/
  | srai (x : Issue) (rd : Fin 32) (ra : Fin 32) (amount : Fin 64)
  /-- `MOVI` (R91): rd := sext(imm18). -/
  | movi (x : Issue) (rd : Fin 32) (imm : (BitVec 18))
  /-- `MOVK` (R91): rd := (rd << 18) | imm18. -/
  | movk (x : Issue) (rd : Fin 32) (imm : (BitVec 18))
  /-- `CMP` (R91): Set predicate pd from comparing ra with rb under cc. -/
  | cmp (x : Issue) (cc : Fin 8) (pd : Fin 8) (ra : Fin 32) (rb : Fin 32)
  /-- `CMPI` (R91): Set predicate pd from comparing ra with imm12 under cc. -/
  | cmpi (x : Issue) (cc : Fin 8) (pd : Fin 8) (ra : Fin 32) (imm : (BitVec 12))
  /-- `PAND` (R91): pd := pa & pb. -/
  | pand (x : Issue) (pd : Fin 8) (pa : Fin 8) (pb : Fin 8)
  /-- `POR` (R91): pd := pa | pb. -/
  | por (x : Issue) (pd : Fin 8) (pa : Fin 8) (pb : Fin 8)
  /-- `PXOR` (R91): pd := pa ^ pb. -/
  | pxor (x : Issue) (pd : Fin 8) (pa : Fin 8) (pb : Fin 8)
  /-- `PANDN` (R91): pd := pa & !pb. -/
  | pandn (x : Issue) (pd : Fin 8) (pa : Fin 8) (pb : Fin 8)
  /-- `PNOT` (R91): pd := !pa. -/
  | pnot (x : Issue) (pd : Fin 8) (pa : Fin 8)
  /-- `PTST` (R91): pd := (ga ≠ 0). -/
  | ptst (x : Issue) (pd : Fin 8) (ga : Fin 32)
  /-- `LD_B` (R92): Local load of a sign-extended byte. -/
  | ldB (x : Issue) (rd : Fin 32) (ra : Fin 32) (imm : (BitVec 13))
  /-- `LD_H` (R92): Local load of a sign-extended halfword. -/
  | ldH (x : Issue) (rd : Fin 32) (ra : Fin 32) (imm : (BitVec 13))
  /-- `LD_W` (R92): Local load of a sign-extended word. -/
  | ldW (x : Issue) (rd : Fin 32) (ra : Fin 32) (imm : (BitVec 13))
  /-- `LD_D` (R92): Local load of a doubleword. -/
  | ldD (x : Issue) (rd : Fin 32) (ra : Fin 32) (imm : (BitVec 13))
  /-- `LD_BU` (R92): Local load of a zero-extended byte. -/
  | ldBu (x : Issue) (rd : Fin 32) (ra : Fin 32) (imm : (BitVec 13))
  /-- `LD_HU` (R92): Local load of a zero-extended halfword. -/
  | ldHu (x : Issue) (rd : Fin 32) (ra : Fin 32) (imm : (BitVec 13))
  /-- `LD_WU` (R92): Local load of a zero-extended word. -/
  | ldWu (x : Issue) (rd : Fin 32) (ra : Fin 32) (imm : (BitVec 13))
  /-- `ST_B` (R92): Local store of a byte. -/
  | stB (x : Issue) (rs : Fin 32) (ra : Fin 32) (imm : (BitVec 13))
  /-- `ST_H` (R92): Local store of a halfword. -/
  | stH (x : Issue) (rs : Fin 32) (ra : Fin 32) (imm : (BitVec 13))
  /-- `ST_W` (R92): Local store of a word. -/
  | stW (x : Issue) (rs : Fin 32) (ra : Fin 32) (imm : (BitVec 13))
  /-- `ST_D` (R92): Local store of a doubleword. -/
  | stD (x : Issue) (rs : Fin 32) (ra : Fin 32) (imm : (BitVec 13))
  /-- `LDF` (R79): Issue a far load under a tag, locking its destination register until completion. -/
  | ldf (x : Issue) (size : Fin 4) (rd : Fin 32) (ra : Fin 32) (imm : (BitVec 7)) (tag : Fin 16)
  /-- `STF` (R87): Issue a posted far store. -/
  | stf (x : Issue) (size : Fin 4) (rs : Fin 32) (ra : Fin 32) (imm : (BitVec 7))
  /-- `AMO_ADD` (R90): Indivisible add to a Hall SRAM word, returning the old value. -/
  | amoAdd (x : Issue) (rd : Fin 32) (ra : Fin 32) (rb : Fin 32) (tag : Fin 16)
  /-- `AMO_AND` (R90): Indivisible and to a Hall SRAM word. -/
  | amoAnd (x : Issue) (rd : Fin 32) (ra : Fin 32) (rb : Fin 32) (tag : Fin 16)
  /-- `AMO_OR` (R90): Indivisible or to a Hall SRAM word. -/
  | amoOr (x : Issue) (rd : Fin 32) (ra : Fin 32) (rb : Fin 32) (tag : Fin 16)
  /-- `AMO_XOR` (R90): Indivisible exclusive-or to a Hall SRAM word. -/
  | amoXor (x : Issue) (rd : Fin 32) (ra : Fin 32) (rb : Fin 32) (tag : Fin 16)
  /-- `AMO_SWAP` (R90): Indivisible swap of a Hall SRAM word. -/
  | amoSwap (x : Issue) (rd : Fin 32) (ra : Fin 32) (rb : Fin 32) (tag : Fin 16)
  /-- `AMO_UMIN` (R90): Indivisible unsigned minimum on a Hall SRAM word. -/
  | amoUmin (x : Issue) (rd : Fin 32) (ra : Fin 32) (rb : Fin 32) (tag : Fin 16)
  /-- `AMO_UMAX` (R90): Indivisible unsigned maximum on a Hall SRAM word. -/
  | amoUmax (x : Issue) (rd : Fin 32) (ra : Fin 32) (rb : Fin 32) (tag : Fin 16)
  /-- `AMO_CAS` (R90): Indivisible compare-and-swap on a Hall SRAM word. -/
  | amoCas (x : Issue) (rd : Fin 32) (ra : Fin 32) (rb : Fin 32) (tag : Fin 16)
  /-- `FAR_RESPONSE` (R81): The response to a far load or atomic arrives, writing the destination register and the completion word. -/
  | farResponse (core : Fin 11) (thread : Fin 8) (tag : Fin 16) (poison : Bool)
  /-- `FAR_LOAD_TIMEOUT` (R81): A far load or atomic has had no response for 1 ms and completes with TIMEOUT, writing 0. -/
  | farLoadTimeout (core : Fin 11) (thread : Fin 8) (tag : Fin 16)
  /-- `FAR_STORE_ERROR` (R83): A far store receives an error response, which raises or holds an ACCESS_ASYNC fault. -/
  | farStoreError (core : Fin 11) (thread : Fin 8)
  /-- `FENCE_RW` (R88): Wait until earlier far loads have completed and earlier far stores are performed. -/
  | fenceRw (x : Issue)
  /-- `FENCE_W` (R88): Wait until earlier far stores are performed. -/
  | fenceW (x : Issue)
  /-- `FENCE_R` (R88): Wait until earlier far loads and atomics have completed. -/
  | fenceR (x : Issue)
  /-- `FENCE_OT` (R88): Wait until every earlier OT operation of the thread has completed. -/
  | fenceOt (x : Issue)
  /-- `FENCE_IO` (R88): As fence.rw, and also wait for stores to be acknowledged and any ACCESS_ASYNC to be delivered. -/
  | fenceIo (x : Issue)
  /-- `BR` (R91): Branch by a word displacement. -/
  | br (x : Issue) (disp : (BitVec 23))
  /-- `CALL` (R91): Set g31 and branch. -/
  | call (x : Issue) (disp : (BitVec 23))
  /-- `JR` (R92): Jump to ra. -/
  | jr (x : Issue) (ra : Fin 32)
  /-- `JALR` (R92): Link into rd and jump to ra. -/
  | jalr (x : Issue) (rd : Fin 32) (ra : Fin 32)
  /-- `SYS_RD` (R75): Read a system register, subject to privilege. -/
  | sysRd (x : Issue) (g : Fin 32) (num : (BitVec 12))
  /-- `SYS_WR` (R75): Write a system register, subject to privilege. -/
  | sysWr (x : Issue) (num : (BitVec 12)) (g : Fin 32)
  /-- `SYS_ERET` (R83): Restore STATUS from ESTATUS with FIP cleared and resume at EPC. -/
  | sysEret (x : Issue)
  /-- `SYS_TRAP` (R83): Raise a TRAP fault with its number in FVAL. -/
  | sysTrap (x : Issue) (num : (BitVec 12))
  /-- `SYS_BRK` (R83): Raise BREAK, or halt the thread for JTAG debug. -/
  | sysBrk (x : Issue) (num : (BitVec 12))
  /-- `SYS_YIELD` (R72): The thread gives up its next issue turn. -/
  | sysYield (x : Issue)
  /-- `SYS_HALT` (R72): The thread halts until a core reset. -/
  | sysHalt (x : Issue)
  /-- `INTERRUPT_ENTRY` (R83): A Bell source becomes takeable for a thread with IE = 1, and the thread takes the INTERRUPT vector. -/
  | interruptEntry (core : Fin 11) (thread : Fin 8)
  /-- `OT_WAIT` (R78): Wait for a tag's completion, collect its word and free the entry. -/
  | otWait (x : Issue) (rd : Fin 32) (tag : Fin 16)
  /-- `OT_WAITANY` (R78): Wait for any tag of the thread to complete and collect the lowest-numbered one. -/
  | otWaitany (x : Issue) (rd : Fin 32)
  /-- `OT_POLL` (R78): Collect a tag if it has completed, or return PENDING. -/
  | otPoll (x : Issue) (rd : Fin 32) (tag : Fin 16)
  /-- `OT_MASK` (R78): Return the thread's busy tags. -/
  | otMask (x : Issue) (rd : Fin 32)
  /-- `BELL_RING` (R94): Far-write a source number to a Bell's DOORBELL, ordered as a far store. -/
  | bellRing (x : Issue) (ra : Fin 32) (rb : Fin 32)
  /-- `BELL_TAKE` (R390): Take the highest-priority takeable source for the thread and push it on the thread's stack. -/
  | bellTake (x : Issue) (rd : Fin 32)
  /-- `BELL_EOI` (R391): Complete a source on the thread's stack by writing the core's Bell EOI. -/
  | bellEoi (x : Issue) (ra : Fin 32)
  /-- `BELL_WAIT` (R390): Wait until a source is takeable for the thread. -/
  | bellWait (x : Issue)
  /-- `TBL_INS` (R241): Stage the insertion or replacement of a table entry. -/
  | tblIns (x : Issue) (ra : Fin 32) (rb : Fin 32) (tag : Fin 16)
  /-- `TBL_DEL` (R241): Stage the deletion of a table entry. -/
  | tblDel (x : Issue) (ra : Fin 32) (rb : Fin 32) (tag : Fin 16)
  /-- `TBL_FIND` (R241): Look up a key among the entries in force in the current epoch. -/
  | tblFind (x : Issue) (ra : Fin 32) (rb : Fin 32) (tag : Fin 16)
  /-- `TBL_CNT` (R242): Read a counter pair. -/
  | tblCnt (x : Issue) (ra : Fin 32) (rb : Fin 32) (tag : Fin 16)
  /-- `TBL_CNTC` (R242): Read a counter pair and clear it indivisibly. -/
  | tblCntc (x : Issue) (ra : Fin 32) (rb : Fin 32) (tag : Fin 16)
  /-- `TBL_MTR` (R230): Stage a meter configuration. -/
  | tblMtr (x : Issue) (ra : Fin 32) (rb : Fin 32) (tag : Fin 16)
  /-- `EPOCH_PUB` (R250): Publish every change staged for a Hall indivisibly as a new epoch, or complete BUSY or FULL. -/
  | epochPub (x : Issue) (ra : Fin 32) (tag : Fin 16)
  /-- `EPOCH_DRAIN` (R96): Complete when a named epoch of a Hall has drained. -/
  | epochDrain (x : Issue) (ra : Fin 32) (rb : Fin 32) (tag : Fin 16)
  /-- `EPOCH_CUR` (R96): Return the current epoch of a Hall. -/
  | epochCur (x : Issue) (rd : Fin 32) (ra : Fin 32)
  /-- `Q_POP` (R248): Remove the head packet of an Usher input queue and write its descriptor. -/
  | qPop (x : Issue) (ra : Fin 32) (rb : Fin 32) (tag : Fin 16)
  /-- `Q_PUSH` (R97): Present a popped packet to the Landing of the Usher's Hall. -/
  | qPush (x : Issue) (ra : Fin 32) (rb : Fin 32) (tag : Fin 16)
  /-- `Q_DROP` (R97): Free a popped packet's cells and count it as dropped. -/
  | qDrop (x : Issue) (ra : Fin 32) (tag : Fin 16)
  /-- `Q_DEPTH` (R97): Return the number of packets in an input queue. -/
  | qDepth (x : Issue) (rd : Fin 32) (rb : Fin 32)
  /-- `SCHED_WR` (R215): Stage a node parameter block, or add it to the failover set, after the checks. -/
  | schedWr (x : Issue) (ra : Fin 32) (rb : Fin 32) (tag : Fin 16)
  /-- `SCHED_RD` (R215): Read a node's live parameters and token state. -/
  | schedRd (x : Issue) (ra : Fin 32) (rb : Fin 32) (tag : Fin 16)
  /-- `SCHED_COMMIT` (R223): Request application of a port's staged blocks at its next round boundary. -/
  | schedCommit (x : Issue) (ra : Fin 32) (tag : Fin 16)
  /-- `SCHED_COMMIT_APPLY` (R223): At the port's round boundary the staged set is applied in one step, or refused BUSY or FULL. -/
  | schedCommitApply (p : Fin 48)
  /-- `LEDG_AUDIT` (R64): Start a ledger audit sweep into a 64-byte aligned buffer, or complete BUSY. -/
  | ledgAudit (x : Issue) (ra : Fin 32) (tag : Fin 16)
  /-- `LEDG_RD` (R473): Read one live term of one ledger instance. -/
  | ledgRd (x : Issue) (rd : Fin 32) (ra : Fin 32) (rb : Fin 32)
  /-- `DMA_CP` (R98): Copy or fill as one DMA descriptor states. -/
  | dmaCp (x : Issue) (ra : Fin 32) (tag : Fin 16)
  /-- `DMA_CHAIN` (R98): Execute up to 64 DMA descriptors in sequence. -/
  | dmaChain (x : Issue) (ra : Fin 32) (tag : Fin 16)
  /-- `DMA_COMPLETE` (R98): A DMA operation finishes, or its last host write enters the ordered path, and its completion word is written. -/
  | dmaComplete (core : Fin 11) (thread : Fin 8) (tag : Fin 16) (poison : (List (Nat × Nat)))
  /-- `STAIR_MSG` (R99): Send a 64-byte message to a core's receive ring or to the Warden mailbox. -/
  | stairMsg (x : Issue) (ra : Fin 32) (rb : Fin 32) (tag : Fin 16)
  /-- `STAIR_RCV` (R99): Move the oldest message of the core's receive ring to local memory. -/
  | stairRcv (x : Issue) (rd : Fin 32) (ra : Fin 32)
  /-- `PWR_REQ` (R401): The Porter requests entry to a power state, which starts the poll. -/
  | pwrReq (x : Issue) (ra : Fin 32) (tag : Fin 16)
  /-- `PP_CMD_OFF` (R360): pwr.pp OFF takes a path to OFF without discharge. -/
  | ppCmdOff (x : Issue) (ra : Fin 32) (rb : Fin 32) (tag : Fin 16)
  /-- `PP_CMD_ON` (R361): pwr.pp ON starts precharge of a path, or is refused or completes BUSY. -/
  | ppCmdOn (x : Issue) (ra : Fin 32) (rb : Fin 32) (tag : Fin 16)
  /-- `PP_CMD_DISCHARGE` (R360): pwr.pp DISCHARGE turns a path off with VBUS discharge. -/
  | ppCmdDischarge (x : Issue) (ra : Fin 32) (rb : Fin 32) (tag : Fin 16)
  /-- `PP_CMD_CLEAR` (R366): pwr.pp CLEAR clears LOCKOUT and ATTEMPTS unless the path is DAMAGED. -/
  | ppCmdClear (x : Issue) (ra : Fin 32) (rb : Fin 32) (tag : Fin 16)
  /-- `PWR_ADC` (R360): Sample an ADC channel. -/
  | pwrAdc (x : Issue) (ra : Fin 32) (tag : Fin 16) (aux : Fin 4096)
  /-- `PWR_PDTX` (R347): Transmit a Power Delivery message on a Type-C unit. -/
  | pwrPdtx (x : Issue) (ra : Fin 32) (rb : Fin 32) (tag : Fin 16)
  /-- `PWR_PDRX` (R347): Move the oldest received PD message of a unit to local memory. -/
  | pwrPdrx (x : Issue) (ra : Fin 32) (rb : Fin 32) (tag : Fin 16)
  /-- `PWR_BUDGET` (R357): Set a port's POWER allotment from the reserve, or complete FULL. -/
  | pwrBudget (x : Issue) (ra : Fin 32) (rb : Fin 32) (tag : Fin 16)
  /-- `KEY_GEN` (R373): Generate a key or key pair into an EMPTY slot. -/
  | keyGen (x : Issue) (ra : Fin 32) (rb : Fin 32) (tag : Fin 16) (health : Bool)
  /-- `KEY_DERIVE` (R377): Derive a key by HMAC-SHA-384 KDF into an EMPTY slot. -/
  | keyDerive (x : Issue) (ra : Fin 32) (rb : Fin 32) (tag : Fin 16)
  /-- `KEY_RETIRE` (R374): Retire a LIVE slot, or erase a RETIRED slot that is not installed. -/
  | keyRetire (x : Issue) (ra : Fin 32) (tag : Fin 16)
  /-- `KEY_WRAP` (R378): Export a slot wrapped under AES-256-GCM. -/
  | keyWrap (x : Issue) (ra : Fin 32) (rb : Fin 32) (tag : Fin 16)
  /-- `KEY_UNWRAP` (R378): Import a wrapped key into an EMPTY slot after its tag verifies. -/
  | keyUnwrap (x : Issue) (ra : Fin 32) (rb : Fin 32) (tag : Fin 16)
  /-- `KEY_ZERO` (R386): Zeroize every key slot. -/
  | keyZero (x : Issue) (tag : Fin 16)
  /-- `KEY_PUB` (R100): Write the public half of a key pair. -/
  | keyPub (x : Issue) (ra : Fin 32) (rb : Fin 32) (tag : Fin 16)
  /-- `AES_GCME` (R100): AES-256-GCM encrypt under a crypto descriptor. -/
  | aesGcme (x : Issue) (ra : Fin 32) (tag : Fin 16)
  /-- `AES_GCMD` (R100): AES-256-GCM decrypt and verify under a crypto descriptor. -/
  | aesGcmd (x : Issue) (ra : Fin 32) (tag : Fin 16)
  /-- `SHA_384` (R100): Compute a SHA-384 digest. -/
  | sha384 (x : Issue) (ra : Fin 32) (tag : Fin 16)
  /-- `SHA_HMAC` (R100): Compute HMAC-SHA-384 with a slot key. -/
  | shaHmac (x : Issue) (ra : Fin 32) (tag : Fin 16)
  /-- `ECC_SIGN` (R100): ECDSA P-384 sign. -/
  | eccSign (x : Issue) (ra : Fin 32) (tag : Fin 16)
  /-- `ECC_VFY` (R100): ECDSA P-384 verify. -/
  | eccVfy (x : Issue) (ra : Fin 32) (tag : Fin 16)
  /-- `ECC_ECDH` (R375): ECDH P-384 agreement into a slot. -/
  | eccEcdh (x : Issue) (ra : Fin 32) (tag : Fin 16)
  /-- `WARDEN_OP_COMPLETE` (R100): A Warden key or crypto operation finishes and writes its completion word. -/
  | wardenOpComplete (tag : Fin 16) (burnt : Bool)
  /-- `USHER_RESET_SET` (R101): Setting USHERu_CTL.RESET stops issue and holds the Usher until its outstanding operations complete. -/
  | usherResetSet (u : Fin 8)
  /-- `USHER_RESET_DONE` (R101): The last outstanding operation of a resetting Usher completes, so its thread state is cleared and any pending release starts its threads. -/
  | usherResetDone (u : Fin 8)
  /-- `USHER_RESET_CLEAR` (R101): Clearing RESET starts the THREAD_EN threads at ENTRY, at once or once the wait ends. -/
  | usherResetClear (u : Fin 8)
  /-- `USHER_HALT_SET` (R101): Setting HALT stops every thread at its next instruction boundary. -/
  | usherHaltSet (u : Fin 8)
  /-- `USHER_HALT_CLEAR` (R101): Clearing HALT resumes each thread where it stopped. -/
  | usherHaltClear (u : Fin 8)
  /-- `BOOT_LOAD_GO` (R434): BOOT_LOAD.GO starts the image loader on an image, checked under R102. -/
  | bootLoadGo (flash : Bool) (src : (BitVec 48))
  /-- `IMAGE_LOAD_DONE` (R102): The image loader finishes checking and loading an image and reports its result. -/
  | imageLoadDone (flash : (List Byte))
  /-- `QUAD_PERSONALITY_WRITE` (R107): A QUADq_PERSONALITY write is checked and applied, or refused with a configuration error. -/
  | quadPersonalityWrite (q : Fin 12) (value : (BitVec 64))
  /-- `QUAD_READY` (R108): After an applied personality write the quad's PLLs relock and READY is set. -/
  | quadReady (q : Fin 12)
  /-- `REFCLK_LOSS` (R110): A Hall's REFCLK is found absent, and its quad PLLs enter holdover, set REF_LOSS and ring Bell 8. -/
  | refclkLoss (h : Fin 4)
  /-- `REFCLK_RETURN` (R110): A Hall's REFCLK returns and each PLL relocks with slewing and no phase step. -/
  | refclkReturn (h : Fin 4)
  /-- `LANE_ENABLE` (R131): Setting LANEn_CTRL.EN clears the lane counters and starts the lane's training. -/
  | laneEnable (n : Fin 48)
  /-- `LANE_DISABLE` (R147): Clearing EN idles the transmitter without a marker and withdraws the lane from a trunk that is UP. -/
  | laneDisable (n : Fin 48)
  /-- `LANE_TXEQ_WRITE` (R122): A LANEn_TXEQ write is applied, or refused with LANE_VALUE if it breaks the transmit equaliser limits. -/
  | laneTxeqWrite (n : Fin 48) (value : (BitVec 64))
  /-- `LANDING_MARKER_SEND` (R118): After 4,096 flits on a lane the transmitter sends a Landing marker. -/
  | landingMarkerSend (n : Fin 48) (tap : Fin 6) (up : Bool) (ready : (Option (BitVec 8)))
  /-- `LANDING_MARKER_RECEIVE` (R119): A receiver matches a marker, checks its CRC, flit count and session, and uses its fields. -/
  | landingMarkerReceive (n : Fin 48) (m : Marker) (blocks : Nat)
  /-- `MARKER_LOSS_ALIGN` (R119): Three consecutive scheduled markers are missing, so ALIGNED clears and the lane goes to TRAINING. -/
  | markerLossAlign (n : Fin 48)
  /-- `LANE_LOS` (R124): The received amplitude stays below signal detect for 64 ns outside IDLE, so LOS is set and reported to the trunk. -/
  | laneLos (n : Fin 48)
  /-- `LANE_IDLE_ENTRY` (R125): A transmitter enters announced idle with an IDLE_NEXT marker, on request of the trunk or of IDLE. -/
  | laneIdleEntry (n : Fin 48)
  /-- `LANE_IDLE_EXIT` (R126): A transmitter leaves idle by a fast exit or an equaliser refresh, depending on the idle time. -/
  | laneIdleExit (n : Fin 48)
  /-- `FAST_EXIT_FAIL` (R128): A receiver in IDLE or EXITING finds no valid marker 1 µs after signal detect and starts a refresh. -/
  | fastExitFail (n : Fin 48)
  /-- `LANE_REFRESH_TIMEOUT` (R126): A refresh has not finished within 200 µs, so the lane goes to TRAINING for a full retrain. -/
  | laneRefreshTimeout (n : Fin 48)
  /-- `LANE_TRAIN_TIMEOUT` (R126): A full retrain has not finished within 2 ms, so the lane enters FAILED and rings Bell 8. -/
  | laneTrainTimeout (n : Fin 48)
  /-- `LANE_TRAINED` (R162): A lane reaches ACTIVE with RX_READY seen and begins carrying CONTROL flits for its trunk. -/
  | laneTrained (n : Fin 48) (found : LaneFound) (inverted : Bool)
  /-- `TD212_COMMA_ALIGN` (R120): Four commas at one phase with no invalid code align a TD212 receiver. -/
  | td212CommaAlign (n : Fin 48)
  /-- `TD212_ALIGN_LOSS` (R120): Four invalid codes within 16 symbols lose TD212 alignment. -/
  | td212AlignLoss (n : Fin 48)
  /-- `LANE_PRBS_CTRL` (R130): Setting GEN_EN, CHK_EN or LPBK puts the lane into TEST, or is refused with LANE_BUSY. -/
  | lanePrbsCtrl (n : Fin 48) (gen : Bool) (chk : Bool) (pattern : Fin 16) (lpbk : Fin 4)
  /-- `LANE_COUNTER_SNAP` (R131): SNAP copies every lane counter to the snapshot registers at one instant. -/
  | laneCounterSnap (n : Fin 48)
  /-- `LANE_COUNTER_CLR` (R131): CLR zeroes the lane counters, LOSS_CNT and SAT. -/
  | laneCounterClr (n : Fin 48)
  /-- `LANE_SNR_UPDATE` (R132): The lane's SNR is updated every 10 µs. -/
  | laneSnrUpdate (n : Fin 48) (snr : Fin 256) (bits : Nat) (errs : Nat) (levels : (List Nat))
  /-- `EYE_SCAN_START` (R133): START begins an eye-margin scan, or is refused with LANE_VALUE. -/
  | eyeScanStart (lane : Fin 48) (ctrl : (BitVec 64))
  /-- `EYE_SCAN_POINT_DONE` (R133): A scan point's dwell ends, its count is placed in the monitor bin, and the scan advances or ends. -/
  | eyeScanPointDone (lane : Fin 48) (count : Nat)
  /-- `EYE_SCAN_ABORT` (R133): ABORT, or the lane leaving ACTIVE or TEST, ends the scan ABORTED. -/
  | eyeScanAbort (lane : Fin 48)
  /-- `FLIT_SLOT` (R139): A lane's next block slot carries a resend, a new data flit, a CONTROL flit or IDLE_FILL. -/
  | flitSlot (n : Fin 48)
  /-- `FLIT_RECEIVE` (R140): A lane receives a flit, decodes FEC, checks CRC, validity and security, processes its control words and places its data. -/
  | flitReceive (n : Fin 48) (block : (List Byte))
  /-- `ACK_TIMER` (R141): 500 ns after an accepted flit not yet covered, an ACK becomes due. -/
  | ackTimer (n : Fin 24)
  /-- `LOSS_REPORT_REPEAT` (R142): A lost copy still missing after the retry interval is reported again. -/
  | lossReportRepeat (n : Fin 24)
  /-- `RETRY_TIMER_EXPIRE` (R145): The retry timer expires, and the sender resends the oldest unacknowledged flit, or after 16 expiries takes the trunk to LOST. -/
  | retryTimerExpire (n : Fin 24)
  /-- `CREDIT_ADVERTISE_TIMER` (R153): A CREDIT word becomes due 500 ns after an advance, or at the 10 µs refresh. -/
  | creditAdvertiseTimer (n : Fin 24) (vc : Fin 8)
  /-- `HEARTBEAT` (R155): After 250 ns with no DATA flit sent, the sender sends a CONTROL flit with an ACK. -/
  | heartbeat (n : Fin 24)
  /-- `TRUNK_HEARTBEAT_LOSS` (R156): 750 ns pass with no DATA or CONTROL flit accepted, so the trunk enters LOST. -/
  | trunkHeartbeatLoss (n : Fin 24)
  /-- `TRUNK_FLUSH` (R156): FLUSH discards replay and reorder contents of a trunk in DOWN or LOST. -/
  | trunkFlush (n : Fin 24)
  /-- `TRUNK_LINK_COUNTER_CLR` (R156): CLR zeroes the trunk's link counters. -/
  | trunkLinkCounterClr (n : Fin 24)
  /-- `TRK_VC_CFG_WRITE` (R151): A TRKn_VC_CFG write is stored, or refused with CFG_ERR if the Hall's VC buffers would exceed 896 KiB. -/
  | trkVcCfgWrite (n : Fin 24) (value : (BitVec 64))
  /-- `TRUNK_ENABLE` (R159): A TRKn_CFG write that sets EN is checked against the placement and host limits and starts training, or sets CFG_BAD. -/
  | trunkEnable (n : Fin 24) (value : (BitVec 64)) (nonce : (BitVec 64))
  /-- `TRUNK_DISABLE` (R159): Clearing EN takes the trunk to DOWN, idles its lanes and discards its link state. -/
  | trunkDisable (n : Fin 24)
  /-- `TRUNK_TARGET_WRITE` (R477): A TARGET write while EN = 1 adds or removes positions and restarts background training of held-out lanes. -/
  | trunkTargetWrite (n : Fin 24) (target : Fin 256)
  /-- `PARAM_RECEIVE` (R163): The partner's PARAM link packet is checked, and the trunk settles its VCs, window and width limit, or fails training. -/
  | paramReceive (n : Fin 24) (p : Param) (nonce : (BitVec 64))
  /-- `TRUNK_TRAIN_TIMEOUT` (R163): A trunk has not reached UP within 2 ms and returns to DOWN, or to LOST, with CAUSE set. -/
  | trunkTrainTimeout (n : Fin 24)
  /-- `TRUNK_TRAIN_RETRY` (R163): 1 ms after a failed training a trunk with EN = 1 tries again. -/
  | trunkTrainRetry (n : Fin 24) (nonce : (BitVec 64))
  /-- `WIDTH_PROPOSE` (R168): The hub starts a WIDTH transaction to add or remove a position when TARGET, health and lane state call for it. -/
  | widthPropose (n : Fin 24)
  /-- `WIDTH_ABANDON` (R167): A WIDTH unacknowledged for 100 µs is abandoned, and the trunk retrains. -/
  | widthAbandon (n : Fin 24)
  /-- `TRUNK_RETRAIN_REQUEST` (R167): TRKn_WIDTH.RETRAIN sends a WIDTH with NEW_MASK 0. -/
  | trunkRetrainRequest (n : Fin 24)
  /-- `LANE_DRAIN_IDLE` (R170): A removed lane's direction has drained, so its transmitter sends IDLE_NEXT and enters announced idle. -/
  | laneDrainIdle (n : Fin 48)
  /-- `BAD_LANE_RETRAIN` (R169): 1 ms after removal, or after a further failure, a bad lane is trained again, up to 8 attempts. -/
  | badLaneRetrain (n : Fin 48)
  /-- `FAILOVER_TRANSFER_DONE` (R175): Every packet of the failed member has been taken over, so its link state is discarded and it trains from DOWN. -/
  | failoverTransferDone (n : Fin 24)
  /-- `FAILOVER_COMMIT_APPLY` (R179): At the survivor port's first round boundary after failover the failover set is applied. -/
  | failoverCommitApply (n : Fin 24)
  /-- `SPLICE_END_RECEIVE` (R176): A SPLICE_END link packet marks the end of a straddler continuation. -/
  | spliceEndReceive (n : Fin 24) (vc : Fin 8)
  /-- `RESYNC_RECEIVE` (R174): A RESYNC link packet sets the named contexts UNKNOWN and releases their held packets. -/
  | resyncReceive (n : Fin 24) (mask : (BitVec 256))
  /-- `PSN_GAP_HOLD_EXPIRE` (R174): A PSN gap stays open for HOLD, so expected moves to the lowest held PSN and PSN_GAP counts it. -/
  | psnGapHoldExpire (n : Fin 24) (context : Fin 256)
  /-- `QADM_WRITE` (R190): A HALLn_QADM write is applied, or refused with CFG_ERR if reserves would exceed 4,096 cells. -/
  | qadmWrite (h : Fin 4) (q : Fin 2048) (value : (BitVec 64))
  /-- `RED_PROFILE_WRITE` (R200): A RED colour write restores the values in force, or is refused if MIN is above MAX. -/
  | redProfileWrite (h : Fin 4) (p : Fin 16) (c : Fin 3) (value : (BitVec 64))
  /-- `RED_ADAPT` (R202): Every ADAPT_PERIOD an adaptive profile scales its thresholds towards its delay target. -/
  | redAdapt (h : Fin 4) (p : Fin 16)
  /-- `GALLERY_WRITE` (R203): The GALLERY port writes a 128-byte entry for a copy, or handles a full ring by OVERWRITE or STOP. -/
  | galleryWrite (h : Fin 4)
  /-- `GAL_ENABLE` (R205): Setting GALg_CTRL.EN zeroes WR and RD, or is refused with CFG_ERR. -/
  | galEnable (g : Fin 16) (value : (BitVec 64))
  /-- `GAL_REARM` (R205): Clearing STOPPED re-arms a stopped ring. -/
  | galRearm (g : Fin 16)
  /-- `ETH_FRAME_RECEIVE` (R208): A MAC checks a received frame and presents it to the Landing as an ETH packet, or discards it. -/
  | ethFrameReceive (m : Fin 8) (rx : EthIn)
  /-- `ETH_FRAME_TRANSMIT` (R210): A MAC inserts a tag, pads, appends the FCS and sends a frame, or drops it with EGRESS_SIZE. -/
  | ethFrameTransmit (m : Fin 8)
  /-- `ISO_INSTANCE_START` (R225): A reservation's next instance starts, under the catch-up rule, with OWED refilled. -/
  | isoInstanceStart (h : Fin 4) (sub : Fin 1024)
  /-- `SCHED_FO_CLEAR` (R228): SPp_FO.CLEAR empties the port's failover set. -/
  | schedFoClear (p : Fin 48)
  /-- `QUEUE_SAMPLE_PASS` (R232): Every PERIOD the slice samples the depth and head-of-line delay of every leaf queue and offers them to monitors. -/
  | queueSamplePass (h : Fin 4)
  /-- `QSAMP_CLR_PEAK` (R232): CLR_PEAK zeroes every PEAK of the Hall. -/
  | qsampClrPeak (h : Fin 4)
  /-- `TABLE_DEFINE` (R238): A table-definition write that sets or clears EN is applied, or refused with CFG_ERR. -/
  | tableDefine (h : Fin 4) (t : Fin 32) (value : (BitVec 64))
  /-- `PROGRAM_STAGE` (R249): GO starts copying and checking an action program image for staging. -/
  | programStage (h : Fin 4) (prog : (BitVec 8))
  /-- `PROGRAM_STAGE_DONE` (R249): Staging completes with a RESULT code, clears BUSY and rings Bell 8. -/
  | programStageDone (h : Fin 4)
  /-- `HOST_CONFIG_REQUEST` (R257): A host configuration request is answered from the hardware images or forwarded to a root port. -/
  | hostConfigRequest (host : Fin 6) (express : Bool) (cap : Fin 1024)
  /-- `BRIDGE_POSTED` (R263): A posted TLP is accepted under credit and delivered in PSEQ order. -/
  | bridgePosted (src : BridgeFrom)
  /-- `BRIDGE_NONPOSTED` (R263): A non-posted request is split and forwarded, holding a tag, with prefetch where enabled. -/
  | bridgeNonposted (src : BridgeFrom)
  /-- `BRIDGE_COMPLETION` (R263): A completion is returned to the requester in address order and frees its tag. -/
  | bridgeCompletion (src : BridgeFrom)
  /-- `BRIDGE_COMPLETION_TIMEOUT` (R265): A completion timeout completes the open parts with Completer Abort and frees the tag. -/
  | bridgeCompletionTimeout (id : Nat)
  /-- `PREFETCH_EXPIRE` (R266): A prefetch entry is discarded at PF_LIFE, and its unused bytes go to lost-and-found. -/
  | prefetchExpire (prt : Fin 8) (entry : Fin 8)
  /-- `LAF_CLEAR` (R266): PRTk_LAF_CTRL.CLR clears VALID of lost-and-found entries. -/
  | lafClear (prt : Fin 8) (mask : (BitVec 4))
  /-- `SHARED_ENDPOINT_REQUEST` (R261): A SHARED endpoint's memory request is decoded as inbound translation or internal address, or refused. -/
  | sharedEndpointRequest (prt : Fin 8) (tlp : Tlp)
  /-- `PRT_OWNER_CHANGE` (R262): A MODE or HOST write that changes the owner starts the hot-plug handover. -/
  | prtOwnerChange (prt : Fin 8) (value : (BitVec 64))
  /-- `PRT_PERST_RELEASE` (R262): After 1 ms of PERSTk_N low the hub releases it and retrains the link. -/
  | prtPerstRelease (prt : Fin 8)
  /-- `PRT_LINK_UP` (R262): The root port link comes up, and the new owner's DSPk shows presence with a hot-plug MSI. -/
  | prtLinkUp (prt : Fin 8)
  /-- `PEWAKE_ASSERT` (R455): PEWAKEk_N low while the link is down rings Bell 8. -/
  | pewakeAssert (prt : Fin 8)
  /-- `VF_COMMON_CONFIG_WRITE` (R267): A write to VF common configuration updates the image and sets CFG_EVT, or is discarded. -/
  | vfCommonConfigWrite (host : Fin 6) (vf : Fin 256) (offset : Fin 64) (data : (List Byte))
  /-- `VF_NOTIFY_WRITE` (R267): A write to a queue's notification address sets its NOTIFY bit and rings the serving core's Bell. -/
  | vfNotifyWrite (host : Fin 6) (vf : Fin 256) (q : Fin 64)
  /-- `VF_FLR` (R273): A Function Level Reset of a VF runs quiesce with TIMEOUT 80 ms and then the Alcove reset. -/
  | vfFlr (host : Fin 6) (vf : Fin 256)
  /-- `ALCOVE_CREATE` (R269): Mailbox command creating an Alcove in READY. -/
  | alcoveCreate (mbx : Fin 7)
  /-- `ALCOVE_QUIESCE` (R271): Mailbox command that stops fetching and waits for in-flight work. -/
  | alcoveQuiesce (mbx : Fin 7)
  /-- `ALCOVE_RESET` (R272): Mailbox command that resets a QUIESCED Alcove to READY. -/
  | alcoveReset (mbx : Fin 7)
  /-- `ALCOVE_DESTROY` (R269): Mailbox command that frees a QUIESCED or FROZEN Alcove. -/
  | alcoveDestroy (mbx : Fin 7)
  /-- `ALCOVE_FREEZE` (R275): Mailbox command that finishes in-flight work without aborts and freezes the Alcove. -/
  | alcoveFreeze (mbx : Fin 7)
  /-- `ALCOVE_SAVE` (R276): Mailbox command that writes a FROZEN Alcove's image to host memory. -/
  | alcoveSave (mbx : Fin 7)
  /-- `ALCOVE_RESTORE` (R276): Mailbox command that loads an image into a READY Alcove and freezes it. -/
  | alcoveRestore (mbx : Fin 7)
  /-- `ALCOVE_THAW` (R269): Mailbox command that returns a FROZEN or clean QUIESCED Alcove to READY. -/
  | alcoveThaw (mbx : Fin 7)
  /-- `ALCOVE_DIRTY` (R274): Mailbox command that starts, syncs or stops dirty-page logging. -/
  | alcoveDirty (mbx : Fin 7)
  /-- `ALCOVE_QUERY` (R269): Mailbox command that returns an Alcove's state and INFLIGHT. -/
  | alcoveQuery (mbx : Fin 7)
  /-- `ALCOVE_QUIESCE_TIMEOUT` (R271): The quiesce or freeze TIMEOUT expires, so firmware aborts the remaining work, or the freeze returns to READY. -/
  | alcoveQuiesceTimeout (a : Fin 1023)
  /-- `ALCOVE_XLAT_CLOSE` (R271): 1 ms after the aborts are issued, XLAT is cleared for the Alcove. -/
  | alcoveXlatClose (a : Fin 1023)
  /-- `ALCOVE_INFLIGHT_ZERO` (R271): INFLIGHT reaches 0, so the Alcove becomes QUIESCED or FROZEN and the command completes. -/
  | alcoveInflightZero (a : Fin 1023)
  /-- `DH_LINK_WRITE` (R279): A DHn_LINK write is applied while the live MODE is OFF, or ignored with CFG_ERR. -/
  | dhLinkWrite (n : Fin 6) (value : (BitVec 64))
  /-- `DH_AUX_START` (R281): AUX GO starts one AUX transaction. -/
  | dhAuxStart (n : Fin 6) (value : (BitVec 64)) (host : (Option (Fin 6))) (data : (List Byte))
  /-- `DH_AUX_REPLY` (R281): The sink replies ACK, NACK or DEFER, ending the transaction with AUX_DONE. -/
  | dhAuxReply (n : Fin 6) (reply : AuxReply) (data : (List Byte))
  /-- `DH_AUX_TIMEOUT` (R281): No reply begins within 400 µs, so the transaction ends TIMEOUT. -/
  | dhAuxTimeout (n : Fin 6)
  /-- `IRQ_HPD` (R282): A low HPD pulse of 250 µs to 2 ms is classified IRQ_HPD and rings Bell 8. -/
  | irqHpd (n : Fin 6)
  /-- `UNPLUG` (R282): HPD low beyond 2 ms is UNPLUG, and the transmitter idles. -/
  | unplug (n : Fin 6)
  /-- `PLUG` (R282): HPD high for 2 ms after UNPLUG is PLUG. -/
  | plug (n : Fin 6)
  /-- `DH_TE_EDGE` (R286): An accepted TE edge sets the grid time of the next frame start. -/
  | dhTeEdge (n : Fin 6)
  /-- `DH_FRAME_START` (R287): A head starts a frame on or after its grid time, stretching or shortening front porch. -/
  | dhFrameStart (n : Fin 6)
  /-- `TE_MISS` (R287): HOLD_MAX lines are added without a grid time, so the frame starts and TE_MISS counts. -/
  | teMiss (n : Fin 6)
  /-- `DH_COMMIT_REQUEST` (R290): Setting DHn_COMMIT.COMMIT requests a commit at the next window. -/
  | dhCommitRequest (n : Fin 6)
  /-- `DH_COMMIT_WINDOW` (R290): At line VACTIVE − 4 a pending commit's shadows are armed and validated. -/
  | dhCommitWindow (n : Fin 6)
  /-- `DH_VBLANK` (R290): At vertical blanking the armed set becomes live and references are released. -/
  | dhVblank (n : Fin 6)
  /-- `DH_MODE_CHANGE` (R291): A MODE change to or from OFF takes effect at once. -/
  | dhModeChange (n : Fin 6)
  /-- `DH_UNDERRUN` (R293): A pixel falls due without its data, so the frame is aborted and sent as background. -/
  | dhUnderrun (n : Fin 6)
  /-- `CANVAS_PAGE_OP` (R296): GO frees a page of a RETIRING surface, or queues or refuses the operation. -/
  | canvasPageOp (value : (BitVec 64))
  /-- `CANVAS_CREATE` (R297): CANVAS command that allocates a surface. -/
  | canvasCreate (hall : Fin 4)
  /-- `CANVAS_FREE` (R295): CANVAS command that frees a surface or makes it RETIRING. -/
  | canvasFree (hall : Fin 4)
  /-- `CANVAS_RECT` (R297): CANVAS command that writes pixels into a surface. -/
  | canvasRect (hall : Fin 4)
  /-- `CANVAS_FILL` (R297): CANVAS command that fills a rectangle. -/
  | canvasFill (hall : Fin 4)
  /-- `CANVAS_COPY` (R297): CANVAS command that copies between surfaces. -/
  | canvasCopy (hall : Fin 4)
  /-- `CANVAS_INGEST` (R298): CANVAS command that binds or stops a stream to a surface. -/
  | canvasIngest (hall : Fin 4)
  /-- `CANVAS_FENCE` (R297): CANVAS command that replies when earlier writes are visible. -/
  | canvasFence (hall : Fin 4)
  /-- `CANVAS_PRESENT` (R297): CANVAS command that puts a surface on a slot's head and commits. -/
  | canvasPresent (hall : Fin 4) (slot : (Option (Fin 6 × Fin 8)))
  /-- `DPST_PACKET` (R298): A DPST packet (MSA, PIXELS, VBLANK or SDP) reaches a PASS head or an ingest surface. -/
  | dpstPacket (hall : Fin 4) (canvas : Bool)
  /-- `DRAM_CAPACITY_WRITE` (R470): A CAPACITY write clamps to DETECTED and changes the decoded DRAM range. -/
  | dramCapacityWrite (trained : (Option (Fin 65))) (value : (BitVec 64))
  /-- `TD_INIT_SEND` (R304): During link-up the hub sends an INIT frame every 1 µs. -/
  | tdInitSend (n : Fin 12)
  /-- `TD_INIT_RECEIVE` (R304): A valid INIT brings the TD-212 link UP, or fails it on credit, or restarts it if received while UP. -/
  | tdInitReceive (n : Fin 12) (frame : (List Byte))
  /-- `TD_INIT_TIMEOUT` (R304): No valid INIT arrives within 10 ms, so link-up fails. -/
  | tdInitTimeout (n : Fin 12)
  /-- `TD_WIDTH_DECIDE` (R304): 1 ms after the first lane aligns the link width is fixed. -/
  | tdWidthDecide (n : Fin 12)
  /-- `TD_LINKUP_RETRY` (R304): 1 ms after a failed link-up the shim starts again. -/
  | tdLinkupRetry (n : Fin 12)
  /-- `TD_FRAME_SLOT` (R310): A transmit slot carries NAK, ACK, CREDIT, a resend or new DATA in that order, or idle sets. -/
  | tdFrameSlot (n : Fin 12)
  /-- `TD_FRAME_FAIL` (R305): A received TD frame fails its checks and is counted in RX_CRC. -/
  | tdFrameFail (n : Fin 12) (frame : (List Byte)) (ended : Bool)
  /-- `TD_DATA_RECEIVE` (R306): A DATA frame is accepted, discarded as out of sequence or as a duplicate. -/
  | tdDataReceive (n : Fin 12) (frame : (List Byte))
  /-- `TD_ACK_RECEIVE` (R308): An ACK frees unacknowledged frames below its ARG. -/
  | tdAckReceive (n : Fin 12) (frame : (List Byte))
  /-- `TD_NAK_RECEIVE` (R308): A NAK frees frames below its ARG and resends all from ARG. -/
  | tdNakReceive (n : Fin 12) (frame : (List Byte))
  /-- `TD_CREDIT_RECEIVE` (R312): A CREDIT frame updates the hub's LIMITs. -/
  | tdCreditReceive (n : Fin 12) (frame : (List Byte))
  /-- `TD_NAK_REPEAT` (R306): E has not changed 2 µs after a NAK, so the NAK is sent again. -/
  | tdNakRepeat (n : Fin 12)
  /-- `TD_ACK_TIMER` (R307): 2 µs after an uncovered acceptance an ACK becomes due. -/
  | tdAckTimer (n : Fin 12)
  /-- `TD_RETRY_EXPIRE` (R309): The retry timer expires, so every unacknowledged frame is resent, or after eight the trunk goes DOWN. -/
  | tdRetryExpire (n : Fin 12)
  /-- `TD_CREDIT_TIMER` (R312): A CREDIT frame becomes due 2 µs after an advance or at the 10 µs refresh. -/
  | tdCreditTimer (n : Fin 12)
  /-- `TD_WINDOW_READ` (R317): A host read of the legacy window returns big-endian data and clears the RC registers it touches. -/
  | tdWindowRead (n : Fin 12) (t : Tlp)
  /-- `TD_WINDOW_WRITE` (R317): A host write to the legacy window changes RW bytes only, or completes with Completer Abort. -/
  | tdWindowWrite (n : Fin 12) (t : Tlp)
  /-- `TD_AUX_GO` (R319): Setting TD_AUX_CMD.GO makes td212.wzi run an AUX transaction and set DONE. -/
  | tdAuxGo (n : Fin 12)
  /-- `TD_BEACON` (R320): While status is pending the function's MSI is sent every 125 µs. -/
  | tdBeacon (n : Fin 12)
  /-- `USB_UP_ATTACH` (R325): The attach source reports attachment, so the complex connects UPh's pull-up. -/
  | usbUpAttach (host : Fin 6) (pin : Bool)
  /-- `USB_UP_DETACH` (R325): Detach, or a DR_Swap to DFP, removes the pull-up and resets the hub instance. -/
  | usbUpDetach (host : Fin 6)
  /-- `USB_BUS_RESET` (R336): A bus reset returns the host's hub instance to default and runs the chirp exchange. -/
  | usbBusReset (host : Fin 6) (chirps : Nat)
  /-- `USB_HUB_REQUEST` (R326): A standard or hub-class request is answered in hardware. -/
  | usbHubRequest (host : Fin 6) (dev : Bool) (setup : (BitVec 64))
  /-- `USB_DN_PORT_RESET` (R333): The owner resets a downstream port: SE0 for 15 ms with the chirp handshake. -/
  | usbDnPortReset (k : Fin 8) (chirp : Bool)
  /-- `USB_DN_CONNECT_CHANGE` (R326): A device connects to or leaves a downstream port and is shown to its owner. -/
  | usbDnConnectChange (k : Fin 8) (device : (Option Bool))
  /-- `USB_ASSIGN_WRITE` (R328): A USB_ASSIGN write disconnects changed ports from their old owners and starts the gap. -/
  | usbAssignWrite (value : (BitVec 64))
  /-- `USB_REASSIGN_GAP_END` (R328): After REASSIGN_GAP the port's VBUS and connection follow the new owner. -/
  | usbReassignGapEnd (port : GapPort)
  /-- `USB_DN_OVERCURRENT` (R330): DNk_OC_N low for OC_DEBOUNCE removes VBUS and latches OC. -/
  | usbDnOvercurrent (k : Fin 8) (low : Bool)
  /-- `USB_DN_CYCLE` (R331): CYCLE removes a port's VBUS. -/
  | usbDnCycle (k : Fin 8)
  /-- `USB_DN_CYCLE_END` (R331): 500 ms after CYCLE VBUS is restored. -/
  | usbDnCycleEnd (k : Fin 8)
  /-- `USB_VENDOR_SETUP` (R338): A vendor request on interface 0 is latched for the Docent, PENDING set and Bell 8 rung. -/
  | usbVendorSetup (host : Fin 6) (setup : (BitVec 64))
  /-- `USB_MGMT_DONE_ACK` (R338): UPh_MGMT_DONE with ACK completes the current vendor transfer, or is discarded as STALE. -/
  | usbMgmtDoneAck (host : Fin 6) (xfer : Fin 256)
  /-- `USB_MGMT_DONE_STALL` (R338): UPh_MGMT_DONE with STALL stalls the next stage, or is discarded as STALE. -/
  | usbMgmtDoneStall (host : Fin 6) (xfer : Fin 256)
  /-- `USB_MGMT_LATE` (R338): MGMT_LIMIT passes with PENDING set, so the next stage is STALLed and LATE set. -/
  | usbMgmtLate (host : Fin 6)
  /-- `USB_SUSPEND` (R340): 3 ms of idle bus suspends an upstream port. -/
  | usbSuspend (host : Fin 6)
  /-- `USB_REMOTE_WAKE` (R340): A device's resume K starts a remote wake propagated upstream. -/
  | usbRemoteWake (k : Fin 8)
  /-- `USB_HOST_RESUME` (R341): The host's resume K is repeated downstream, and crossings with a remote wake are resolved. -/
  | usbHostResume (host : Fin 6)
  /-- `USB_AUDIO_OWNER_CHANGE` (R335): A change of USB_AUDIO.OWNER disconnects and reconnects port 9 of both hosts and stops the streams. -/
  | usbAudioOwnerChange (owner : Fin 8)
  /-- `USB_AUDIO_SET_RATE` (R338): SET_CUR of the sampling frequency changes the rate, or is STALLed. -/
  | usbAudioSetRate (host : Fin 6) (freq : Nat)
  /-- `USB_SOF` (R344): An SOF is stamped with TB, the feedback value updates, and a discipline window may close and move the trim. -/
  | usbSof (host : Fin 6) (missing : Bool)
  /-- `USB_AUDIO_PACKET` (R343): An isochronous playback or capture packet moves samples through the audio FIFOs. -/
  | usbAudioPacket (host : Fin 6) (packet : AudioPkt)
  /-- `TC_ATTACH` (R346): A Type-C unit detects attachment of a partner. -/
  | tcAttach (tc : Fin 12) (attach : Fin 6) (cc : Fin 4) (orient : Bool)
  /-- `TC_DETACH` (R348): A partner's detach is detected, so the sourced path opens with discharge and roles reset. -/
  | tcDetach (tc : Fin 12)
  /-- `PD_MESSAGE_RECEIVE` (R347): A received PD message passing its CRC is acknowledged with GoodCRC and placed in the ring, or withheld when full. -/
  | pdMessageReceive (tc : Fin 12) (sop : Fin 3) (msg : (List Byte))
  /-- `PD_TX_RETRY` (R347): An unanswered transmit is retried after 1.0 ms, up to twice, then ends ERROR. -/
  | pdTxRetry (tc : Fin 12)
  /-- `PD_HARD_RESET_RECEIVE` (R353): A received Hard Reset sets HARD_RESET_RX and, as source, opens the path. -/
  | pdHardResetReceive (tc : Fin 12)
  /-- `PD_KEEPALIVE_EXPIRE` (R351): The partner's keep-alive timer expires, so the unit sends Hard Reset and opens the path. -/
  | pdKeepaliveExpire (tc : Fin 12)
  /-- `PD_KEEPALIVE_SEND` (R352): Every KA_TX_PERIOD the unit sends the message in its keep-alive buffer. -/
  | pdKeepaliveSend (tc : Fin 12)
  /-- `PD_FRS_RECEIVE` (R355): A Fast Role Swap signal from the source partner sets FRS_RX and rings Bell 9. -/
  | pdFrsReceive (tc : Fin 12)
  /-- `NEWEL_ADC_SCAN` (R360): Every 10 µs the Newel scans channels 0–52, advances path states, runs the thermal model and judges trips. -/
  | newelAdcScan (codes : (List Nat))
  /-- `PP_SHORT` (R364): The analogue comparator finds current above 2 × IMAX and trips the path. -/
  | ppShort (p : Fin 13)
  /-- `PP_FAULT_TIMER` (R364): The fault timer reaches FAULT_T and the path trips OC. -/
  | ppFaultTimer (p : Fin 13)
  /-- `PP_PRECHARGE_TIMEOUT` (R361): PRECHG_MAX passes, so PRECHG_TO is set and the path enters GATE_RISE. -/
  | ppPrechargeTimeout (p : Fin 13)
  /-- `PP_GATE_TIMEOUT` (R362): The gate does not reach GATE_OK within TGATE, so the path LATCHES as DAMAGED. -/
  | ppGateTimeout (p : Fin 13)
  /-- `PP_DISCHARGE_DONE` (R364): VBUS has stayed below 0.8 V for 1 ms, so DISCH ends. -/
  | ppDischargeDone (p : Fin 13)
  /-- `PP_DISCHARGE_FAIL` (R364): Discharge has not reached vSafe0V in 650 ms, so DISCH ends with cause 7. -/
  | ppDischargeFail (p : Fin 13)
  /-- `PP_COOLDOWN_END` (R366): The cool-down ends, and the path retries or enters OFF, or latches after five attempts. -/
  | ppCooldownEnd (p : Fin 13)
  /-- `PP_ATTEMPTS_RESET` (R366): PG has held for 60 s, so ATTEMPTS returns to 0. -/
  | ppAttemptsReset (p : Fin 13)
  /-- `PFAIL_ACCEPT` (R369): PFAIL_N low for 2 µs opens every source path, sends FRS on armed ports and returns allotments. -/
  | pfailAccept
  /-- `POWER_TOTAL_WRITE` (R357): A POWER_TOTAL write changes the reserve, or is refused with CFG_ERR. -/
  | powerTotalWrite (value : (BitVec 32))
  /-- `WARDEN_INFO` (R372): HRF Warden command that returns slot states, tamper cause and store lock. -/
  | wardenInfo
  /-- `LINK_SETUP` (R383): HRF Warden command that runs the trunk key exchange. -/
  | linkSetup (n : Fin 24) (slot : Fin 64) (sends : (List (List Byte))) (secret : (Option (List Byte)))
  /-- `LINK_REKEY` (R385): HRF Warden command that rolls a secure trunk to its other key index. -/
  | linkRekey (n : Fin 24) (slot : Fin 64) (sends : (List (List Byte))) (secret : (Option (List Byte)))
  /-- `LINK_CLEAR` (R372): HRF Warden command that removes a trunk's keys. -/
  | linkClear (n : Fin 24)
  /-- `SEAL` (R379): HRF Warden command that wraps a slot under the sealing key. -/
  | seal (slot : Fin 64) (ident : (BitVec 64)) (gen : (BitVec 64))
  /-- `UNSEAL` (R379): HRF Warden command that imports a sealed blob. -/
  | unseal (slot : Fin 64) (blob : (List Byte))
  /-- `SIGN` (R372): HRF Warden command that signs a digest with the identity key. -/
  | sign (digest : (List Byte))
  /-- `SVN_ADVANCE` (R381): HRF Warden command that raises the anti-rollback count. -/
  | svnAdvance (count : Fin 65)
  /-- `ZEROIZE` (R372): HRF Warden command that runs key.zero. -/
  | zeroize
  /-- `SEC_TUNNEL_RECEIVE` (R382): A security-tunnel payload is placed in the trunk's receive buffer and Bell 10 rung, or discarded. -/
  | secTunnelReceive (n : Fin 24) (payload : (List Byte))
  /-- `SEC_KEY_INSTALL` (R384): TRKn_SEC_KEY GO installs a slot key as send or receive key, or is refused. -/
  | secKeyInstall (n : Fin 24) (value : (BitVec 64))
  /-- `SEC_KEY_CLEAR` (R384): TRKn_SEC_KEY GO with CLEAR removes the key of a KIDX. -/
  | secKeyClear (n : Fin 24) (value : (BitVec 64))
  /-- `FUSE_SVN_BLOW` (R380): FUSE_SVN_CTRL.GO from the Warden blows the next SVN bit. -/
  | fuseSvnBlow
  /-- `FUSE_BLOW_DONE` (R381): A fuse blow ends, setting FAIL if the bit does not read back as 1. -/
  | fuseBlowDone (one : Bool)
  /-- `TAMPER_ALARM` (R386): An enabled tamper source alarms, which zeroizes every slot, drops link keys, locks the store and may enter SAFE. -/
  | tamperAlarm (alarm : Alarm) (gap : DeepExit)
  /-- `WARDEN_CLEAR_DONE` (R386): The Warden's data memory is cleared after a zeroize, and its thread restarts. -/
  | wardenClearDone
  /-- `BELL_DOORBELL` (R388): A DOORBELL write sets a source's PENDING, coalesces, or is discarded as a bad write. -/
  | bellDoorbell (bell : Fin 11) (master : Master) (value : (BitVec 32)) (size : Nat)
  /-- `BELL_EOI_STORE` (R391): A far store to a Bell's EOI completes the top of the thread's stack, or records STACK_ORDER. -/
  | bellEoiStore (core : Fin 11) (thread : Fin 8) (bell : Fin 11) (value : (BitVec 32))
  /-- `BELL_HOSTMSG` (R395): A core's HOSTMSG write sends an MSI-X vector of a host function, or is discarded. -/
  | bellHostmsg (bell : Fin 11) (master : Master) (value : (BitVec 64))
  /-- `PWR_ANSWER_WRITE` (R401): A core writes ACK, REFUSE or DELAY for the current request SEQ. -/
  | pwrAnswerWrite (c : Fin 11) (value : (BitVec 64))
  /-- `PWR_POLL_DELAY` (R401): A unit that answered DELAY d is polled again after d. -/
  | pwrPollDelay (unit : Fin 128)
  /-- `PWR_MSG_RETRY` (R401): The request message to a full ring is retried every 10 µs. -/
  | pwrMsgRetry (c : Fin 11)
  /-- `PWR_ANSWER_TIMEOUT` (R402): A core silent for ANSWER_MAX counts as REFUSE NO_ANSWER, ending the entry. -/
  | pwrAnswerTimeout (c : Fin 11)
  /-- `PWR_ENTRY_TIMEOUT` (R402): ENTRY_MAX passes without commit, so pwr.req completes REFUSED DELAY_LIMIT. -/
  | pwrEntryTimeout
  /-- `PWR_COMMIT` (R401): Every answer is ACK, so the hub stops new work, rechecks the answers and takes the state. -/
  | pwrCommit
  /-- `PWR_WAKE` (R406): An enabled wake source fires, and the wake table runs back to RUN and completes pwr.req. -/
  | pwrWake (sources : (BitVec 8)) (gap : DeepExit) (avs : (Option (Fin 5)))
  /-- `WAKE_FROM_OFF` (R407): WAKE_N low in OFF makes the Newel raise SYS_PWREN and start a cold boot. -/
  | wakeFromOff
  /-- `MON_CTRL_WRITE` (R411): A MONm_CTRL write sets or clears EN, clearing the monitor, or is ignored or refused with CFG_ERR. -/
  | monCtrlWrite (m : Fin 64) (value : (BitVec 64))
  /-- `MON_SNAP` (R412): SNAP copies the monitor's live data to the snapshot bank at one instant. -/
  | monSnap (m : Fin 64)
  /-- `MON_CLR` (R412): CLR resets the monitor's live data at one instant. -/
  | monClr (m : Fin 64)
  /-- `MON_PERIOD_SAMPLE` (R410): Every PERIOD a periodic monitor takes a sample of its quantity. -/
  | monPeriodSample (m : Fin 64)
  /-- `FLIGHT_FENCE` (R416): FLIGHT_CMD FENCE fences a Flight with class COMMAND. -/
  | flightFence (scope : Fin 5) (kind : Fin 32) (inst : Fin 256) (jtag : Bool)
  /-- `FLIGHT_UNFENCE` (R416): FLIGHT_CMD UNFENCE returns a FENCED Flight to RUN, or sets CMD_ERR. -/
  | flightUnfence (scope : Fin 5) (kind : Fin 32) (inst : Fin 256)
  /-- `FLIGHT_RESET` (R416): FLIGHT_CMD RESET resets a FENCED Flight, or sets CMD_ERR. -/
  | flightReset (scope : Fin 5) (kind : Fin 32) (inst : Fin 256)
  /-- `FLIGHT_RESET_DONE` (R438): A Flight reset completes within 10 µs. -/
  | flightResetDone (scope : Fin 5) (kind : Fin 32) (inst : Fin 16)
  /-- `HALL_QUAR_CMD` (R417): CHIP_HALL_CTL.QUAR quarantines a Hall with class COMMAND. -/
  | hallQuarCmd (h : Fin 4) (jtag : Bool)
  /-- `STAIR_OPEN` (R418): STAIR_OPEN returns a reset QUARANTINED Hall to RUN and starts its trunks, or sets CMD_ERR. -/
  | stairOpen (h : Fin 4)
  /-- `HALL_RESET` (R439): CHIP_HALL_RESET resets a QUARANTINED Hall, or sets CMD_ERR. -/
  | hallReset (h : Fin 4)
  /-- `HALL_RESET_DONE` (R439): A Hall reset ends and its STATE returns to QUARANTINED. -/
  | hallResetDone (h : Fin 4)
  /-- `SAFE_ENTER_CMD` (R419): NEWEL_SAFE.ENTER enters SAFE with class COMMAND. -/
  | safeEnterCmd (jtag : Bool)
  /-- `CHIP_RESET_CMD` (R438): NEWEL_SAFE.CHIP_RESET requests a chip reset. -/
  | chipResetCmd
  /-- `WDOG_KICK` (R422): A write with a non-zero KICK byte advances the kick sequence, completes a kick or counts BAD_KICKS. -/
  | wdogKick (value : (BitVec 8))
  /-- `WDOG_KICK_LAPSE` (R422): A pending 0xA5 lapses after 1 ms without its 0x5A. -/
  | wdogKickLapse
  /-- `WDOG_EXPIRE` (R422): The watchdog is not kicked within PERIOD, and the chip enters SAFE with class WATCHDOG. -/
  | wdogExpire
  /-- `CRASH_READ` (R423): The SMBus CRASH_READ command returns a 32-byte block of the crash record. -/
  | crashRead (offset : (BitVec 16))
  /-- `CRASHRD` (R423): The JTAG CRASHRD instruction reads the crash record. -/
  | crashrd
  /-- `CRASH_CLEAR` (R424): A write of 0 to byte 4 of the crash record clears VALID and LATER. -/
  | crashClear (master : Master)
  /-- `SIDEBAND_MAILBOX_GO` (R259): The board management controller submits a mailbox command over SMBus. -/
  | sidebandMailboxGo (cmd : (List Byte))
  /-- `VDD_AON_UP` (R426): VDD_AON enters its range, and the hub drives SYS_PWREN high within 1 ms. -/
  | vddAonUp
  /-- `POWER_ON_RESET` (R427): A rising edge of POR_N starts a power-on reset and samples the straps. -/
  | powerOnReset (straps : (BitVec 3)) (alarms : (BitVec 6)) (testEn : Bool)
  /-- `RESET_N_ASSERT` (R429): RESET_N low for at least 1 µs requests a chip reset held while it stays low. -/
  | resetNAssert (ns : Nat) (straps : (BitVec 3))
  /-- `BOOT_ROM_START` (R432): The boot ROM loads the first valid Docent image from the boot source and releases the Docent, or halts. -/
  | bootRomStart (flash : (List Byte))
  /-- `IMAGE_WRITE` (R433): The SMBus IMAGE_WRITE command writes image bytes during a sideband boot. -/
  | imageWrite (offset : (BitVec 32)) (data : (List Byte))
  /-- `IMAGE_GO` (R433): The SMBus IMAGE_GO command makes the ROM treat the staged image as a directory entry. -/
  | imageGo
  /-- `SIDEBAND_TIMEOUT` (R433): No sideband image arrives within 60 s of the ROM's start. -/
  | sidebandTimeout
  /-- `TEMP_UPDATE` (R468): The die temperature sensor updates NEWEL_TEMP every 1 ms. -/
  | tempUpdate (temp : (BitVec 16))
  /-- `LANE_SIGNAL_DETECT` (R126): A receiver in IDLE detects the partner's exit burst, restarts its CDR and equaliser from the stored state and enters EXITING. -/
  | laneSignalDetect (n : Fin 48)
  /-- `PRBS_CHK_LOCK` (R130): The PRBS checker seeds itself from received bits and sets CHK_LOCK after 64 consecutive correct bits. -/
  | prbsChkLock (n : Fin 48)
  /-- `PRBS_CHK_LOSS` (R130): The checker sees 16 or more errors in 64 compared bits, drops lock and increments LOSS_CNT. -/
  | prbsChkLoss (n : Fin 48) (bits : Nat) (wrong : PrbsErrs)
  /-- `REGISTER_HALF_READ` (R11): A 32-bit read of the lower half of a 64-bit register latches the upper half for the next upper-half read. -/
  | registerHalfRead (master : Master) (addr : Nat)
  /-- `USB_HOST_TRANSACTION` (R327): A host transaction for a downstream device is repeated at high speed or handled by the port's transaction translator, with NAK, NYET or split answers. -/
  | usbHostTransaction (host : Fin 6) (txn : UsbTxn)
  /-- `AUDIO_CODEC_FRAME` (R343): At each I2S or TDM frame the codec interface sends a playback sample from the FIFO, or zeros with UNDERRUN, and takes a capture sample, discarding the oldest with OVERRUN when full. -/
  | audioCodecFrame (sdi : (List (BitVec 32)))
  /-- `VCONN_OVERCURRENT` (R346): VCONN reaches its 400 mA limit, is switched off and VCONN_OC is set. -/
  | vconnOvercurrent (tc : Fin 12)
  /-- `PD_AMS_START_DELAY` (R347): 16 ms after the source set Rp to SinkTxNG for an AMS-start transmit, the unit sends the message. -/
  | pdAmsStartDelay (tc : Fin 12)
  /-- `PF0_MAILBOX_GO` (R259): A host write of GO to PF0's MBX_CTRL while BUSY = 0 submits the command buffer, sets BUSY and rings Bell 8, and is ignored while BUSY = 1. -/
  | pf0MailboxGo (h : Fin 6)
  /-- `MSIX_UNMASK` (R395): A host unmasks an MSI-X vector whose pending bit is set, and the host-function unit sends it. -/
  | msixUnmask (host : Fin 6) (fn : Fin 1024) (vector : Fin 65)
  /-- `PRT_LINK_DOWN` (R388): A root port's link goes down, clearing LINK_UP and ringing Bell 8 with the link-change event. -/
  | prtLinkDown (prt : Fin 8)
  /-- `POR_N_FALL` (R427): POR_N goes low, and the hub holds itself in power-on reset, overriding every other operation. -/
  | porNFall
  /-- `JTAG_HALT` (R85): JTAG halts a core's thread, abandoning any wait and pausing the watchdog when the Docent is halted with DEBUG_LOCK = 0. -/
  | jtagHalt (core : Fin 11) (thread : Fin 8)
  /-- `JTAG_RELEASE` (R422): JTAG releases a halted thread, which resumes and restarts a full watchdog period. -/
  | jtagRelease (core : Fin 11) (thread : Fin 8)
  /-- `JTAG_CHIP_RESET` (R438): A JTAG reset command starts a chip reset, recorded as cause JTAG in BOOT_STATUS. -/
  | jtagChipReset
  deriving DecidableEq, Repr

end Sys2Proof
end

