-- ==== Sys2Proof/Config.lean ====
section
/-! DEFINITION. What one part fixes and the spec leaves to it: fused values and identities, the free values (values the
spec does not state). None of the opaque constants has a body that a proof could see. -/

namespace Sys2Proof

/-- A value the spec leaves open: the n-th one asked for (assumption log 2). -/
opaque Config.freeValue : Nat → Word

/-- The weight, in bytes per turn, that a Hall's arbiter gives a source (01 R13, R21; assumption log 168). -/
opaque Config.arbWeight : Nat → Nat → Nat

/-- What receive coefficient i of a lane stands at when its adaptation stopped at a moment (04 R123; assumption log 2). -/
opaque Config.rxCoef : Nat → Nat → Word

/-- The random number that a draw stands for, of an ECDSA signature (FIPS 186-4; assumption log 14). -/
opaque Config.nonce : Word → Nat

/-- The SHA-384 of the image signing key, fused (15 R380). -/
opaque Config.fusePkHash : List Byte
/-- The fused anti-rollback bits of the part as delivered (15 R380). -/
opaque Config.fuseSvn : Word
/-- The fused DEBUG_LOCK bit (15 R380). -/
opaque Config.fuseDebugLock : Bool
/-- The device root key, fused (15 R377, R380). -/
opaque Config.fuseRoot : List Byte

/-- Where a capability stands in the configuration space of a kind of function, in DWs, and what the Docent's image gives a
register there (10 R256, R257; assumption log 34). -/
opaque Config.capAt : Nat → Nat → Nat
opaque Config.cfgImage : Nat → Nat → BitVec 32

/-- `TD_VENDOR`, `TD_DEVICE` and `TD_REV` of the identity block in the TD-212 image (12 R316, R318). -/
opaque Config.tdIdentity : Nat → BitVec 16

/-- Descriptor images of the USB complex that the Docent loads (13 R326), beside those whose contents the spec gives: of the
hub (0) or of the embedded device of a host that owns the audio function (2) or does not (1), by descriptor type and index. -/
opaque Config.usbImage : Nat → Nat → Nat → List Byte

/-- Vendor, product and release numbers and string indexes in those images (13 R326): of the hub (0) or the embedded device (1),
by place. -/
opaque Config.usbId : Nat → Nat → Byte

/-- Class-specific descriptors of the audio function's interfaces and endpoints in its image (13 R334), by place. -/
opaque Config.audioClass : Nat → List Byte

/-- The DOMAIN code of a step of *Wake table* (17 `PWR_WAKEi`). -/
opaque Config.wakeDomain : Nat → BitVec 8

end Sys2Proof
end

