-- ==== Sys2Proof/Machine/State.lean ====
section
/-! DEFINITION. The state of the block, its faults and refusals, and the machine right after reset (INVENTORY.md, State).
Registers hold what the spec's tables give them; everything else is in the tables beside them, one entry per unit that
is not at its reset state. -/

namespace Sys2Proof.Machine

/-- Reasons the machine stops with a fault. No command raises one: what the spec calls a fault of the hub (a fence, a
quarantine, SAFE, a core's fault) is an effect on the state. Safe: nothing stops. -/
inductive Fault where
  /-- Raised by no command. -/
  | none
  deriving DecidableEq, Repr

/-- Reasons a command is refused. -/
inductive Refusal where
  /-- Raised by the dispatch of a command that has no meaning in this model; safe, because the machine stops. -/
  | notModelled (mnemonic : String)
  deriving DecidableEq, Repr

/-- The state of the hub. -/
structure State where
  /-- The register file: registers that do not hold their reset value (00 R6). -/
  regs : Tab RegId (BitVec 64) := []
  /-- Upper halves latched by a read of a lower half (00 R11). -/
  halves : Tab RegId (Option (BitVec 32)) := []
  /-- Addressed RAM: DRAM, Hall SRAM and the cores' local memories at their alias addresses (01 R27 to R30). -/
  mem : List Host.Cell := []
  /-- Words of SRAM that hold a poisoned token: addresses, multiples of 8 (17 R400; 09 R254). -/
  poisoned : List Nat := []
  /-- Deadlines of the running timers, in TB ns (00 R3). -/
  timers : Tab TimerId (Option Nat) := []
  /-- The timebase TB in ns (02 R44). -/
  tb : Nat := 0
  /-- The threads of core c at c * 8 + t. -/
  threads : UnitMap Thread := []
  /-- The cores, and whose turn it is to issue in each. -/
  cores : UnitMap WzCore := []
  turns : UnitMap Turn := []
  /-- Priority stacks: Bell b, thread t at b * 8 + t; (priority, source), top first (16 R390). -/
  bellStacks : UnitMap (List (Nat × Nat)) := []
  /-- Sources that come first among equals: bell * 4096 + source (16 R392). -/
  bellFirst : List Nat := []
  /-- A JTAG debugger is at work (03 sys.brk; assumption log 7). -/
  jtagDebug : Bool := false
  /-- Lanes, quads and trunks. -/
  lanes : UnitMap Lane := []
  quads : UnitMap Quad := []
  trunks : UnitMap Trunk := []
  /-- Packets in the hub, in the order they were accepted or created. -/
  parcels : List Parcel := []
  /-- Packets that local sources hold, oldest first (07 R188). -/
  waiting : List LocalPacket := []
  /-- The number the next packet takes. -/
  nextParcel : Nat := 1
  /-- Landing cells claimed by each VC buffer: trunk * 8 + VC (07 R187). -/
  claims : UnitMap (List Nat) := []
  /-- Leaf queues, chip-wide number: the packets linked in each, head first. -/
  leafQ : UnitMap (List Nat) := []
  /-- Switch cores of the four Halls. -/
  halls : UnitMap HallSw := []
  /-- Gallery rings with a copy lost since their last entry; packets counted for sampling, per ring (07 R204, R206). -/
  galLossy : List Nat := []
  galCount : UnitMap Nat := []
  /-- What is in force in each live epoch; an epoch not listed has nothing in force. -/
  versions : List MapVersion := []
  /-- Ingress meters: hall * 16384 + meter. -/
  meters : UnitMap Meter := []
  /-- Scheduler nodes by node ID, and scheduler ports. -/
  nodes : UnitMap SchedNode := []
  ports : UnitMap SchedPort := []
  /-- Host functions, root ports, mailboxes (hosts 0 to 5, the sideband 6) and Alcoves. -/
  hosts : UnitMap HostSt := []
  prts : UnitMap RootPort := []
  mailboxes : UnitMap Mailbox := []
  alcoves : UnitMap Alcove := []
  /-- TLPs the bridge holds for their order or a tag, oldest first; requests it has forwarded; the next request's number. -/
  bridge : List HeldTlp := []
  reqs : List BridgeReq := []
  nextReq : Nat := 1
  /-- Display heads and the Canvas. -/
  heads : UnitMap Head := []
  canvas : Canvas := {}
  /-- The shims of TD-212 trunks. -/
  tds : UnitMap TdUnit := []
  /-- Status beacons of TD-212 trunks (12 R320). -/
  beacons : UnitMap Grid := []
  /-- The USB complex. -/
  usb : Usb := {}
  /-- Power paths and Type-C units. -/
  power : Power := {}
  /-- The Warden and the link units' keys. -/
  warden : Warden := {}
  /-- Fault containment, the Newel, power states and start-up. -/
  chip : Chip := {}
  /-- TB at which a pending source was accepted: bell * 4096 + source (16 R394). -/
  bellSince : UnitMap Nat := []
  /-- Errors logged through AER: unit, and bits of *AER kinds* (assumption log 31). -/
  aer : UnitMap Nat := []
  /-- What the block has sent out of itself, newest first. -/
  out : List Output := []
  /-- The answer to the last register access. -/
  reply : Reply := .none
  /-- How many free values have been drawn (assumption log 2). -/
  free : Nat := 0
  /-- The commands that wait, first in, first out. -/
  pending : List Instr := []
  deriving DecidableEq, Repr

/-- The machine right after reset: every table empty, so every unit and register as the spec states it for reset. -/
def State.reset : State := {}

end Sys2Proof.Machine
end

