-- ==== Sys2Proof/Machine/Ops.lean ====
section
/-! DEFINITION. The named operations over the state: registers and their fields, timers, memory, free values, output. -/

namespace Sys2Proof.Machine

/-! Registers. -/

/-- Step times of *Wake table* in ns, steps 1 to 16 (17 R406). -/
def wakeTimes : List Nat :=
  [40000, 40000, 2000000, 100000, 10000, 60000, 80000, 20000, 150000, 10000, 10000, 500, 500, 300, 500, 100]

/-- `PWR_WAKEi` as it stands: TIME_NS, DOMAIN, FIRST. The domain codes are not in the spec (assumption log 118). -/
def wakeRow (i : Nat) : Nat :=
  wakeTimes.getD (i - 1) 0 * 2 ^ 16 + (Config.wakeDomain i).toNat * 2 ^ 8 + (if i = 1 then 4 else if i = 6 then 2 else if i = 12 then 1 else 0)

/-- The value of a register at reset (Reset column of the register tables). -/
def regReset (r : RegId) : BitVec 64 :=
  match r.name with
  | .tcCtrl => if r.i = 0 then BitVec.ofNat 64 (regResetBase .tcCtrl + 5) else BitVec.ofNat 64 (regResetBase .tcCtrl)
  | .pwrWakeStep => BitVec.ofNat 64 (wakeRow (r.j + 1))
  | .fuseSvn => Config.fuseSvn
  | .fuseCfg => if Config.fuseDebugLock then 1 else 0
  | n => BitVec.ofNat 64 (regResetBase n)

/-- A number of its own for every pair of numbers. -/
def pairNum (a b : Nat) : Nat := (a + b) * (a + b) + a

/-- The order of the register file: every register has a rank of its own. -/
def regRank (r : RegId) : Nat := pairNum (pairNum (regNum r.name) r.i) r.j

/-- A register's value. -/
def State.reg (s : State) (n : RegName) (i : Nat := 0) (j : Nat := 0) : BitVec 64 := tabGet regReset s.regs ⟨n, i, j⟩

/-- Write a register whole. -/
def State.setReg (s : State) (n : RegName) (i j : Nat) (v : BitVec 64) : State :=
  { s with regs := tabSet regRank regReset s.regs ⟨n, i, j⟩ v }

/-- The bits of a field, in place. -/
def fldMask (f : Fld) : BitVec 64 := BitVec.ofNat 64 ((2 ^ (f.hi - f.lo + 1) - 1) * 2 ^ f.lo)

/-- A field of a register value. -/
def fldGet (f : Fld) (w : BitVec 64) : Nat := w.toNat / 2 ^ f.lo % 2 ^ (f.hi - f.lo + 1)

/-- A register value with a field replaced; the field takes the low bits of `v`. -/
def fldPut (f : Fld) (v : Nat) (w : BitVec 64) : BitVec 64 :=
  (w &&& ~~~ fldMask f) ||| BitVec.ofNat 64 (v % 2 ^ (f.hi - f.lo + 1) * 2 ^ f.lo)

/-- Read a field of a register. -/
def State.fld (s : State) (f : Fld) (i : Nat := 0) (j : Nat := 0) : Nat := fldGet f (s.reg f.reg i j)

/-- Write a field of a register. -/
def State.setFld (s : State) (f : Fld) (i j v : Nat) : State := s.setReg f.reg i j (fldPut f v (s.reg f.reg i j))

/-- Is a one-bit field 1? -/
def State.flag (s : State) (f : Fld) (i : Nat := 0) (j : Nat := 0) : Bool := s.fld f i j != 0

/-- Add to a field that saturates at `top`. -/
def State.addSat (s : State) (f : Fld) (i j n top : Nat) : State := s.setFld f i j (min top (s.fld f i j + n))

/-- Add to a field modulo its width. -/
def State.addFld (s : State) (f : Fld) (i j n : Nat) : State := s.setFld f i j (s.fld f i j + n)

/-- Put back every register that `p` picks to its reset value. -/
def State.resetRegs (s : State) (p : RegId → Bool) : State := { s with regs := s.regs.filter (fun e => !p e.1) }

/-! Timers. -/

/-- The order of the timers: every timer has a rank of its own. -/
def timerRank (t : TimerId) : Nat := pairNum (pairNum t.kind.ctorIdx t.i) t.j

/-- A timer's deadline, none when it does not run. -/
def State.deadline (s : State) (k : TimerKind) (i : Nat := 0) (j : Nat := 0) : Option Nat :=
  tabGet (fun _ => none) s.timers ⟨k, i, j⟩

/-- Start a timer `ns` from now. -/
def State.arm (s : State) (k : TimerKind) (i j ns : Nat) : State :=
  { s with timers := tabSet timerRank (fun _ => none) s.timers ⟨k, i, j⟩ (some (s.tb + ns)) }

/-- Start a timer unless it runs. -/
def State.armOnce (s : State) (k : TimerKind) (i j ns : Nat) : State :=
  match s.deadline k i j with
  | some _ => s
  | none => s.arm k i j ns

/-- Stop a timer. -/
def State.disarm (s : State) (k : TimerKind) (i j : Nat) : State :=
  { s with timers := tabSet timerRank (fun _ => none) s.timers ⟨k, i, j⟩ none }

/-- Has a running timer reached its deadline? -/
def State.due (s : State) (k : TimerKind) (i : Nat := 0) (j : Nat := 0) : Bool :=
  match s.deadline k i j with
  | some d => decide (d ≤ s.tb)
  | none => false

/-- Microseconds and milliseconds in ns. -/
def us (n : Nat) : Nat := n * 1000
def ms (n : Nat) : Nat := n * 1000000

/-! Free values and output. -/

/-- A value the spec leaves open, and the state with that value spent. -/
def State.openValue (s : State) : Word × State := (Config.freeValue s.free, { s with free := s.free + 1 })

/-- Send something out of the block. -/
def State.emit (s : State) (o : Output) : State := { s with out := o :: s.out }

/-- Is the chip in DEEP (17 R396)? -/
def State.chipDeep (s : State) : Bool := s.fld F.pwrStatusState == 3

/-- A wake source fires (17 R405): outside RUN it is kept until the chip leaves the state (assumption log 194). -/
def State.wakeOn (s : State) (source : Nat) : State :=
  match s.chip.inState with
  | none => s
  | some i => { s with chip := { s.chip with inState := some { i with fired := i.fired ||| 2 ^ source } } }

/-! Memory: bytes by internal address. A byte that nothing has written reads 0 (assumption log 4). -/

/-- One byte. -/
def State.byte (s : State) (a : Nat) : Byte := tabGet (fun _ => 0) s.mem a

/-- Write one byte. -/
def State.setByte (s : State) (a : Nat) (v : Byte) : State :=
  { s with mem := tabSet id (fun _ => 0) s.mem a v }

/-- `n` bytes from `a` on. -/
def State.bytes (s : State) (a n : Nat) : List Byte := (List.range n).map (fun i => s.byte (a + i))

/-- Write a list of bytes from `a` on. -/
def State.setBytes (s : State) (a : Nat) : List Byte → State
  | [] => s
  | b :: t => (s.setByte a b).setBytes (a + 1) t

/-- Does any word that `n` bytes at `a` touch hold a poisoned token? -/
def State.poisonAt (s : State) (a n : Nat) : Bool := s.poisoned.any (fun w => decide (w < a + n ∧ a < w + 8))

/-- The poisoned words that `n` bytes at `a` touch, as offsets from `a` and lengths. -/
def State.poisonIn (s : State) (a n : Nat) : List (Nat × Nat) :=
  (s.poisoned.filter (fun w => decide (w < a + n ∧ a < w + 8))).map (fun w => (w - a, min (w + 8) (a + n) - max w a))

/-- A word that is written holds no poisoned token any more (assumption log 166). -/
def State.unpoison (s : State) (a n : Nat) : State :=
  { s with poisoned := s.poisoned.filter (fun w => !decide (w < a + n ∧ a < w + 8)) }

/-- Write whole bytes of memory: the words they touch hold no poisoned token any more. -/
def State.writeBytes (s : State) (a : Nat) (l : List Byte) : State := (s.unpoison a l.length).setBytes a l

/-- A little-endian number from bytes (00 R5). -/
def leNat : List Byte → Nat
  | [] => 0
  | b :: t => b.toNat + 256 * leNat t

/-- The `n` little-endian bytes of a number. -/
def leBytes : Nat → Nat → List Byte
  | 0, _ => []
  | n + 1, v => BitVec.ofNat 8 v :: leBytes n (v / 256)

/-- The `n` bytes of a number, most significant first, and the number of such bytes. -/
def beBytes (n v : Nat) : List Byte := (leBytes n v).reverse
def beNat (l : List Byte) : Nat := leNat l.reverse

/-- The canonical form of memory. -/
abbrev Memory.wf (m : List Host.Cell) : Bool := tabWf id (fun _ => 0) m

/-! Numbers. -/

/-- a precedes b among sequence numbers modulo 2^24 (05 R140). -/
def seqLt (a b : Nat) : Bool := decide (a % 2 ^ 24 ≠ b % 2 ^ 24) && decide ((b + 2 ^ 24 - a % 2 ^ 24) % 2 ^ 24 < 2 ^ 23)

/-- The distance from a up to b modulo 2^24. -/
def seqDist (a b : Nat) : Nat := (b + 2 ^ 24 - a % 2 ^ 24) % 2 ^ 24

/-- Two's complement of a field of `w` bits. -/
def signed (w v : Nat) : Int := if v < 2 ^ (w - 1) then (v : Int) else (v : Int) - 2 ^ w

/-- Round up a division. -/
def ceilDiv (a b : Nat) : Nat := (a + b - 1) / b

end Sys2Proof.Machine
end

