-- ==== Sys2Proof/Machine/RegOps.lean ====
section
/-! DEFINITION. What a write does to a register's own bits, field by field, by its access codes (00 R6, R7, R9). -/

namespace Sys2Proof.Machine

/-- A written value as its field stores it. -/
def storedVal (r : Stored) (v : Nat) : Nat :=
  match r with
  | .asIs => v
  | .clamp lo hi => max lo (min hi v)
  | .atLeast lo => max lo v
  | .atMost hi => min hi v
  | .geAs a b => if a ≤ v then b else v
  | .eqAs a b => if v = a then b else v

/-- A field of a register by its place. -/
def slotGet (hi lo : Nat) (w : BitVec 64) : Nat := w.toNat / 2 ^ lo % 2 ^ (hi - lo + 1)

/-- A register value with the bits `hi` to `lo` replaced. -/
def slotPut (hi lo v : Nat) (w : BitVec 64) : BitVec 64 :=
  (w &&& ~~~ (BitVec.ofNat 64 ((2 ^ (hi - lo + 1) - 1) * 2 ^ lo))) ||| BitVec.ofNat 64 (v % 2 ^ (hi - lo + 1) * 2 ^ lo)

/-- One field under a write of `v`, of which the bits in `mask` are written (00 R6, R471). A field only partly covered
keeps the bits that are not written. -/
def fieldWrite (f : FieldDesc) (mask v old : BitVec 64) : BitVec 64 :=
  let cur := slotGet f.hi f.lo old
  let m := slotGet f.hi f.lo mask
  let x := slotGet f.hi f.lo v
  if m = 0 then old
  else match f.acc with
    | .ro => old
    | .wo => old
    | .rc => old
    | .rw => slotPut f.hi f.lo (storedVal f.stored ((cur &&& (2 ^ (f.hi - f.lo + 1) - 1 - m)) ||| (x &&& m))) old
    | .rwl => slotPut f.hi f.lo (storedVal f.stored ((cur &&& (2 ^ (f.hi - f.lo + 1) - 1 - m)) ||| (x &&& m))) old
    | .w1c => slotPut f.hi f.lo (cur &&& (2 ^ (f.hi - f.lo + 1) - 1 - (x &&& m))) old
    | .w1s => slotPut f.hi f.lo (cur ||| (x &&& m)) old

/-- A register's new value. -/
def regWrite (n : RegName) (mask v old : BitVec 64) : BitVec 64 :=
  (regDesc n).fields.foldl (fun w f => fieldWrite f mask v w) old

/-- Write a register's own bits. -/
def State.storeReg (s : State) (n : RegName) (i j : Nat) (v : BitVec 64) (mask : BitVec 64 := BitVec.allOnes 64) : State :=
  s.setReg n i j (regWrite n mask v (s.reg n i j))

/-- A field of a value that is being written. -/
def wr (f : Fld) (v : BitVec 64) : Nat := fldGet f v

/-- One of the values in a list that no rule orders: the model's free choice (assumption log 2). -/
def State.pick (s : State) (l : List Nat) : Nat × State :=
  let r := s.openValue
  (l.getD (r.1.toNat % max 1 l.length) 0, r.2)

/-- `n` of the values in a list, each once. -/
def State.pickN (s : State) : Nat → List Nat → List Nat × State
  | 0, _ => ([], s)
  | n + 1, l =>
    if l = [] then ([], s)
    else
      let r := s.pick l
      let rest := State.pickN r.2 n (l.erase r.1)
      (r.1 :: rest.1, rest.2)

/-- The instance of a periodic task starts now (02 R67): the grid moves on by one period, and the next start is computed
from the lag; `m` is CATCHUP_MAX in %, and m × p is rounded down to whole ns (assumption log 172). -/
def Grid.start (g : Grid) (now p m : Nat) : Grid :=
  let lag := now - g.nominal
  { g with
    lag := lag, nominal := g.nominal + p, next := now + p - min lag (p * m / 100),
    rang := decide (4 * p < lag) }

/-- A fresh grid whose first instance starts at `t`. -/
def Grid.fresh (t : Nat) : Grid := { on := true, nominal := t, next := t, lag := 0 }

/-! Flights (18 *Flight kinds*). Scopes: Halls 0 to 3, 4 the chip services. -/

/-- Instances of a Flight kind in a scope, 0 where the scope has none. -/
def flightCount (scope kind : Nat) : Nat :=
  if scope < 4 then
    (if kind = 7 then (if scope < 2 then 1 else 0) else [3, 6, 2, 1, 1, 2, 5, 0, 3, 1].getD kind 0)
  else if kind < 0x10 then 0
  else [1, 1, 1, 11, 1, 1, 6, 1, 12, 13, 1, 1, 4].getD (kind - 0x10) 0

/-- STATE of a Flight: 0 RUN, 1 FENCING, 2 FENCED, 3 RESETTING. -/
def State.flightState (s : State) (scope kind inst : Nat) : Nat :=
  if scope < 4 then s.fld F.hallFlightState scope (16 * kind + inst) else s.fld F.svcFlightState 0 (16 * (kind - 0x10) + inst)

/-- A Hall's state: 0 RUN, 1 QUARANTINING, 2 QUARANTINED, 3 RESETTING (18 R417). -/
def State.hallState (s : State) (h : Nat) : Nat := (s.reg .chipHallCtl).toNat / 2 ^ (8 * h) % 4

/-- Does a Flight take new work (18 R415)? -/
def State.flightRuns (s : State) (scope kind inst : Nat) : Bool := s.flightState scope kind inst == 0

/-- The Flight of core c. -/
def State.coreRuns (s : State) (c : Nat) : Bool :=
  if c < 8 then s.flightRuns (c / 2) 5 (c % 2) else s.flightRuns 4 (0x10 + (c - 8)) 0

end Sys2Proof.Machine
end

