-- ==== Sys2Proof/Machine/MonOps.lean ====
section
/-! DEFINITION. Samples of the monitor units (spec/18_monitors_and_errors.md R408, R409). -/

namespace Sys2Proof.Machine

/-- The bin of a value (R409). -/
def State.monBin (s : State) (m v : Nat) : Nat :=
  if s.flag F.monCtrlMode m then
    let u := v / 2 ^ s.fld F.monCtrlShift m
    if u = 0 then 0 else min 31 (1 + u.log2)
  else if v < s.fld F.monLinBase m then 0
  else min 31 ((v - s.fld F.monLinBase m) / max 1 (s.fld F.monLinWidth m))

/-- Fold one sample into a monitor, its bin given. -/
def State.monFold (s : State) (m v bin : Nat) : State :=
  let v := min v (2 ^ 48 - 1)
  if s.flag F.monCountSat m then s
  else if 2 ^ 64 ≤ s.fld F.monSumSum m + v then s.setFld F.monCountSat m 0 1
  else
    let s := (s.addFld F.monCountCount m 0 1).addFld F.monSumSum m 0 v
    let s := s.setFld F.monMinMin m 0 (min (s.fld F.monMinMin m) v)
    let s := s.setFld F.monMaxMax m 0 (max (s.fld F.monMaxMax m) v)
    let s := s.addSat F.monBinCount m bin 1 (2 ^ 32 - 1)
    if s.fld F.monCountCount m = 2 ^ 48 - 1 then s.setFld F.monCountSat m 0 1 else s

/-- A sample (R408). -/
def State.monSample (s : State) (m v : Nat) : State := s.monFold m v (s.monBin m (min v (2 ^ 48 - 1)))

/-- Does a monitor watch a quantity of a unit? SELECT 4 of DRAM_LATENCY takes every class. -/
def State.monWatches (s : State) (m quantity select : Nat) : Bool :=
  s.flag F.monCtrlEn m && s.fld F.monCtrlQuantity m == quantity &&
    (s.fld F.monCtrlSelect m == select || (quantity == 9 && s.fld F.monCtrlSelect m == 4))

/-- Offer a sample to every monitor whose quantity selects its unit. -/
def State.monOffer (s : State) (quantity select v : Nat) : State :=
  (List.range 64).foldl (fun (s : State) m => if s.monWatches m quantity select then s.monSample m v else s) s

/-- The monitors that watch a quantity of a unit, so that many samples can be offered without a search for each. -/
def State.monsOf (s : State) (quantity : Nat) : List Nat :=
  (List.range 64).filter (fun m => s.flag F.monCtrlEn m && s.fld F.monCtrlQuantity m == quantity)

/-- CLR (R412). -/
def State.monClear (s : State) (m : Nat) : State :=
  let s := (s.setFld F.monMinMin m 0 (2 ^ 48 - 1)).setFld F.monMaxMax m 0 0
  let s := (s.setReg .monCount m 0 0).setReg .monSum m 0 0
  (List.range 32).foldl (fun (s : State) i => s.setReg .monBin m i 0) s

/-- SNAP (R412). -/
def State.monSnap (s : State) (m : Nat) : State :=
  let s := (s.setReg .monSnapMin m 0 (s.reg .monMin m)).setReg .monSnapMax m 0 (s.reg .monMax m)
  let s := (s.setReg .monSnapCount m 0 (s.reg .monCount m)).setReg .monSnapSum m 0 (s.reg .monSum m)
  (List.range 32).foldl (fun (s : State) i => s.setReg .monSnapBin m i (s.reg .monBin m i)) s

end Sys2Proof.Machine
end

