-- ==== Sys2Proof/Machine/Threads.lean ====
section
/-! DEFINITION. Threads, Bells and operation tables of the eleven cores: the operations every Waizefy instruction and every
doorbell is made of (spec/03_waizefy_isa.md, spec/16_bell_interrupts.md). -/

namespace Sys2Proof.Machine

/-! Cores (03 R70). -/

/-- Threads of core c. -/
def coreThreads (c : Nat) : Nat := if c < 8 then 8 else if c = 8 then 2 else 1

/-- Entries of core c's operation table. -/
def otSize (c : Nat) : Nat := if c < 8 then 48 else if c = 8 then 16 else 8

/-- Bytes of core c's local memory. -/
def localSize (c : Nat) : Nat := if c < 8 then 0x40000 else if c = 8 then 0x80000 else 0x20000

/-- Where core c's local memory lies: its alias (01 R29); the Warden's has no alias and a place of the model's own
(assumption log 5). -/
def localBase (c : Nat) : Nat :=
  if c < 8 then 0x2_0000_0000 + c * 0x10_0000
  else if c = 8 then 0x2_0080_0000 else if c = 9 then 0x2_00A0_0000 else 0x2_00C0_0000

/-- A thread. -/
def State.thr (s : State) (c t : Nat) : Thread := unitGet {} s.threads (c * 8 + t)

/-- Write a thread. -/
def State.setThr (s : State) (c t : Nat) (v : Thread) : State := { s with threads := unitSet {} s.threads (c * 8 + t) v }

/-- What a core's threads share. -/
def State.wzCore (s : State) (c : Nat) : WzCore := unitGet {} s.cores c

/-- Write a core. -/
def State.setCore (s : State) (c : Nat) (v : WzCore) : State := { s with cores := unitSet {} s.cores c v }

/-! Registers of a thread (03 R74). -/

/-- A general register; g0 reads 0. -/
def Thread.g (th : Thread) (r : Nat) : Word := if r = 0 then 0 else unitGet 0 th.gpr r

/-- Write a general register; a write of g0 is discarded. -/
def Thread.setG (th : Thread) (r : Nat) (v : Word) : Thread :=
  if r = 0 then th else { th with gpr := unitSet 0 th.gpr r v }

/-- A predicate; p0 reads true. -/
def Thread.p (th : Thread) (i : Nat) : Bool := i == 0 || th.preds.getLsbD i

/-- Write a predicate; a write of p0 is discarded. -/
def Thread.setP (th : Thread) (i : Nat) (v : Bool) : Thread :=
  if i = 0 then th
  else { th with preds := (th.preds &&& ~~~ (1#8 <<< i)) ||| (if v then 1#8 <<< i else 0) }

/-- STATUS bits (03 *STATUS system register*). -/
def Thread.task (th : Thread) : Bool := th.status.getLsbD 0
def Thread.ie (th : Thread) : Bool := th.status.getLsbD 1
def Thread.fip (th : Thread) : Bool := th.status.getLsbD 2
def Thread.afp (th : Thread) : Bool := th.status.getLsbD 3

/-- Go on to the next instruction. -/
def Thread.next (th : Thread) : Thread := { th with pc := th.pc + 4 }

/-! Bells (16). -/

/-- The stack of Bell b's thread t, top first. -/
def State.bellStack (s : State) (b t : Nat) : List (Nat × Nat) := unitGet [] s.bellStacks (b * 8 + t)

/-- Write a stack. -/
def State.setBellStack (s : State) (b t : Nat) (v : List (Nat × Nat)) : State :=
  { s with bellStacks := unitSet [] s.bellStacks (b * 8 + t) v }

/-- Is a priority above the top of a stack; an empty stack counts as -1 (16 R390). -/
def bellAbove (stack : List (Nat × Nat)) (prio : Nat) : Bool :=
  match stack with
  | [] => true
  | top :: _ => decide (top.1 < prio)

/-- The sources of Bell b that thread t may take (03 R95), with their priorities. Only a register that does not hold its
reset value can be enabled and pending, so the listed registers are all that need be searched. -/
def State.takeable (s : State) (b t : Nat) : List (Nat × Nat) :=
  s.regs.filterMap fun e =>
    if e.1.name = .bellSrc ∧ e.1.i = b ∧ fldGet F.bellSrcEnable e.2 = 1 ∧ fldGet F.bellSrcPending e.2 = 1 ∧
        fldGet F.bellSrcActive e.2 = 0 ∧ fldGet F.bellSrcTarget e.2 = t ∧
        bellAbove (s.bellStack b t) (fldGet F.bellSrcPriority e.2) = true
    then some (fldGet F.bellSrcPriority e.2, e.1.j) else none

/-- Is a goes before b (16 R390, R392): priority, then a source that first completed while pending, then the number. -/
def bellBefore (first : List Nat) (b : Nat) (x y : Nat × Nat) : Bool :=
  if x.1 ≠ y.1 then decide (y.1 < x.1)
  else if first.contains (b * 4096 + x.2) ≠ first.contains (b * 4096 + y.2) then first.contains (b * 4096 + x.2)
  else decide (x.2 ≤ y.2)

/-- The source thread t takes next. -/
def State.bellBest (s : State) (b t : Nat) : Option (Nat × Nat) :=
  (s.takeable b t).foldl (fun best x => match best with
    | none => some x
    | some y => if bellBefore s.bellFirst b x y then some x else some y) none

/-- Does core c issue instructions: in RUN (17 R396), its Flight not fenced (18 R415), and for an Usher not in reset and not
halted by `HALT` (03 R101). -/
def State.coreIssues (s : State) (c : Nat) : Bool :=
  s.fld F.pwrStatusState == 0 && s.coreRuns c && (8 ≤ c || (!s.flag F.usherCtlReset c && !s.flag F.usherCtlHalt c && !(s.wzCore c).resetWait))

/-- Is a thread one that runs or waits? -/
def RunState.live : RunState → Bool
  | .stopped => false
  | .halted => false
  | _ => true

/-- Does JTAG hold the Docent halted with DEBUG_LOCK = 0 (18 R422): every thread of it that would run? -/
def State.docentHeld (s : State) : Bool :=
  !s.flag F.fuseCfgDebugLock && (List.range 2).any (fun t => (s.thr 8 t).jtag) &&
    (List.range 2).all (fun t => !(s.thr 8 t).run.live || (s.thr 8 t).jtag)

/-- Threads of core b waiting in bell.wait with a takeable source go on (16 R390). -/
def State.wakeBell (s : State) (b : Nat) : State :=
  if s.coreIssues b then
    (List.range (coreThreads b)).foldl (fun s t =>
      let th := s.thr b t
      if th.run = .waitBell ∧ !th.jtag ∧ s.bellBest b t ≠ none then s.setThr b t { th.next with run := .running, entered := s.tb }
      else s) s
  else s

/-- A doorbell that Bell b accepts (16 R388): PENDING is set, or the write coalesces. It is wake source 7 (17 R405). -/
def State.ring (s : State) (b src : Nat) : State :=
  let s := s.wakeOn 7
  if s.flag F.bellSrcPending b src then s.addSat F.bellStatusCoalesced b 0 1 0xFFFF
  else
    let s : State := { s with bellSince := unitSet 0 s.bellSince (b * 4096 + src) s.tb }
    (s.setFld F.bellSrcPending b src 1).wakeBell b

/-- The interval of 16 R394 for a source that thread t takes: up to the thread's INTERRUPT entry or the return of its
`bell.wait` when that came after the doorbell, else up to now. -/
def State.bellLatency (s : State) (b t src : Nat) : Nat :=
  let since := unitGet 0 s.bellSince (b * 4096 + src)
  let e := (s.thr b t).entered
  (if since ≤ e then e else s.tb) - since

/-- Take the best source for thread t (16 R390): PENDING cleared, ACTIVE set, pushed; answers its number. The interval from
its doorbell is offered to the monitors. -/
def State.bellTake (s : State) (b t : Nat) : Nat × State :=
  match s.bellBest b t with
  | none => (0x1000, s)
  | some (prio, src) =>
    let s := s.monOffer 8 b (s.bellLatency b t src)
    let s := (s.setFld F.bellSrcPending b src 0).setFld F.bellSrcActive b src 1
    (src, { s.setBellStack b t ((prio, src) :: s.bellStack b t) with
      bellFirst := s.bellFirst.filter (· != b * 4096 + src) })

/-- A completion by thread t of Bell b's core (16 R391, R392). -/
def State.bellComplete (s : State) (b t src : Nat) : State :=
  match s.bellStack b t with
  | (_, top) :: rest =>
    if top = src then
      let s := (s.setBellStack b t rest).setFld F.bellSrcActive b src 0
      (if s.flag F.bellSrcPending b src then { s with bellFirst := (b * 4096 + src) :: s.bellFirst } else s).wakeBell b
    else
      ((((((s.addSat F.bellStatusStackOrder b 0 1 0xFFFF).setFld F.bellFaultThread b 0 t).setFld
        F.bellFaultTop b 0 top).setFld F.bellFaultWritten b 0 src).setFld F.bellFaultValid b 0 1)).ring 8 3
  | [] =>
      ((((((s.addSat F.bellStatusStackOrder b 0 1 0xFFFF).setFld F.bellFaultThread b 0 t).setFld
        F.bellFaultTop b 0 0x1000).setFld F.bellFaultWritten b 0 src).setFld F.bellFaultValid b 0 1)).ring 8 3

/-- A core reset and its Bell (16 R393): stacks emptied, ACTIVE cleared; PENDING and the settings kept. -/
def State.bellCoreReset (s : State) (b : Nat) : State :=
  let s := (List.range 8).foldl (fun s t => s.setBellStack b t []) s
  let s := (s.regs.filterMap (fun e => if e.1.name = .bellSrc ∧ e.1.i = b then some e.1.j else none)).foldl
    (fun s j => s.setFld F.bellSrcActive b j 0) s
  { s with bellFirst := s.bellFirst.filter (fun k => k / 4096 != b) }

/-! Faults of a thread (03 R82 to R84). -/

/-- FAULT_ENTRY, and DOUBLE_FAULT while FIP = 1 (03 R83). -/
def State.faultEntry (s : State) (c t cls epc : Nat) (fval : Word) : State :=
  let th := s.thr c t
  if th.fip then
    let s := s.setThr c t { th with run := .halted }
    let s := if c < 8 then s.setFld F.usherStatusDoubleFault c 0 (s.fld F.usherStatusDoubleFault c ||| 2 ^ t)
      else s.setCore c { s.wzCore c with doubleFaults := (s.wzCore c).doubleFaults ||| (1#8 <<< t) }
    s.ring c 1
  else
    s.setThr c t { th with
      epc := BitVec.ofNat 64 epc
      fcause := BitVec.ofNat 64 cls
      fval := fval
      estatus := th.status
      status := (th.status &&& ~~~ 3#64) ||| 4#64
      pc := th.vbase.toNat / 1024 * 1024 + cls * 0x40 }

/-- A fault at the thread's program counter whose class states no FVAL, which is then 0 (03 R83; assumption log 6). -/
def State.faultHere (s : State) (c t cls : Nat) : State := s.faultEntry c t cls (s.thr c t).pc 0

/-- ACCESS_ASYNC arrives: AFP is set until it is taken, at an instruction boundary with FIP = 0 (03 R83). Each fault that
arrives is taken, one after the other (assumption log 160). -/
def State.raiseAsync (s : State) (c t : Nat) : State :=
  let th := s.thr c t
  s.setThr c t { th with status := th.status ||| 8#64, asyncHeld := th.asyncHeld + 1 }

/-- Is an ACCESS_ASYNC to be taken at this instruction boundary? -/
def Thread.asyncDue (th : Thread) : Bool := th.afp && !th.fip

/-- Take a held ACCESS_ASYNC: class 4, EPC at the next instruction not yet issued (03 R83, R84); those still held are taken
later, one each (assumption log 160). -/
def State.takeAsync (s : State) (c t : Nat) : State :=
  let th := s.thr c t
  let rest := th.asyncHeld - 1
  let s := s.setThr c t { th with asyncHeld := rest, status := if rest = 0 then th.status &&& ~~~ 8#64 else th.status }
  s.faultHere c t 4

/-! The operation table (03 R78 to R82). -/

/-- The entry of a tag. -/
def State.otFind (s : State) (c t tag : Nat) : Option OtEntry :=
  (s.wzCore c).ot.find? (fun e => e.thread == t && e.tag == tag)

/-- Replace or remove the entry of a tag. -/
def State.otPut (s : State) (c t tag : Nat) (v : Option OtEntry) : State :=
  let k := s.wzCore c
  s.setCore c { k with ot := k.ot.filterMap (fun e => if e.thread == t && e.tag == tag then v else some e) }

/-- Allocate an entry (03 R78, R80). -/
def State.otAlloc (s : State) (c t tag : Nat) (kind : OtKind) : State :=
  let k := s.wzCore c
  s.setCore c { k with ot := k.ot ++ [{ thread := t, tag := tag, kind := kind, issued := s.tb }], issuedOps := k.issuedOps + 1 }

/-- The completion word (03 *Completion word*). -/
def otWord (tag status result : Nat) : Word :=
  BitVec.ofNat 64 (status % 256 + tag % 16 * 2 ^ 8 + result % 2 ^ 48 * 2 ^ 16)

/-- The register a far load or atomic locks (03 R79). -/
def OtEntry.locks (e : OtEntry) : Option Nat :=
  if e.done then none else match e.kind with
    | .farLoad _ _ rd _ => if rd = 0 then none else some rd
    | .atomic _ _ rd _ _ => if rd = 0 then none else some rd
    | _ => none

/-- The register, address and class of a far access whose precise fault is still due (03 R82). -/
def OtEntry.fault (e : OtEntry) : Option (Nat × Nat × Nat) :=
  if e.done && e.faultDue then
    let cls := if e.status = 2 then 5 else 3
    match e.kind with
    | .farLoad a _ rd _ => some (rd, a, cls)
    | .atomic _ a rd _ _ => some (rd, a, cls)
    | _ => none
  else none

/-- Take the precise fault of an entry at the thread's instruction (03 R82): FVAL holds the address. -/
def State.takeEntryFault (s : State) (c t : Nat) (e : OtEntry) : State :=
  match e.fault with
  | none => s
  | some (_, a, cls) =>
    (s.otPut c t e.tag (some { e with faultDue := false })).faultEntry c t cls (s.thr c t).pc (BitVec.ofNat 64 a)

/-- Collect a completed entry into rd, free it and go on; or take its fault (03 R78, R82). -/
def State.otCollect (s : State) (c t rd : Nat) (e : OtEntry) : State :=
  if e.faultDue then (s.setThr c t { s.thr c t with run := .running }).takeEntryFault c t e
  else
    let s := s.otPut c t e.tag none
    s.setThr c t { ((s.thr c t).setG rd (otWord e.tag e.status e.result)).next with run := .running }

/-- The completed entry of the thread with the lowest tag. -/
def State.otLowest (s : State) (c t : Nat) : Option OtEntry :=
  (s.wzCore c).ot.foldl (fun best e =>
    if e.thread == t && e.done then
      match best with
      | none => some e
      | some b => if e.tag < b.tag then some e else some b
    else best) none

/-- End a thread's wait when what it waits for is there (03 R78, R85). -/
def State.otWake (s : State) (c t : Nat) : State :=
  let th := s.thr c t
  if th.jtag || !s.coreIssues c then s
  else match th.run with
    | .waitTag tag rd => match s.otFind c t tag with
      | some e => if e.done then s.otCollect c t rd e else s
      | none => s
    | .waitAny rd => match s.otLowest c t with
      | some e => s.otCollect c t rd e
      | none => s
    | _ => s

/-- Complete an operation (03 R80): its completion word is written, and a thread waiting for it goes on. -/
def State.otComplete (s : State) (c t tag status result : Nat) : State :=
  match s.otFind c t tag with
  | some e =>
    if e.done then s
    else
      let s := s.otPut c t tag (some { e with done := true, status := status, result := result })
      let k := s.wzCore c
      (s.setCore c { k with completedOps := k.completedOps + 1 }).otWake c t
  | none => s

/-- An operation that completes in the command that issues it. -/
def State.otAtOnce (s : State) (c t tag status result : Nat) : State :=
  (s.otAlloc c t tag .atOnce).otComplete c t tag status result

/-! Issue (03 R71, R72, R77 to R84). -/

/-- Instruction groups (03 *Groups by core*). -/
inductive WzGroup where
  | base | system | switch | queue | power | crypto
  deriving DecidableEq, Repr

/-- Which cores execute a group. -/
def groupOk : WzGroup → Nat → Bool
  | .base, _ => true
  | .system, _ => true
  | .switch, c => decide (c ≤ 8)
  | .queue, c => decide (c < 8)
  | .power, c => decide (c = 9)
  | .crypto, c => decide (c = 10)

/-- May an instruction be fetched at `pc` (03 R103): an Usher's instruction memory, a WZ-C core's code regions. -/
def State.fetchOk (s : State) (c pc : Nat) : Bool :=
  if c < 8 then decide (pc + 4 ≤ 0x10000)
  else (s.wzCore c).code.any (fun r => decide (r.1 ≤ pc ∧ pc + 4 ≤ r.1 + r.2))

/-! Turns (03 R72). -/

/-- Whose turn it is in core c. -/
def State.turn (s : State) (c : Nat) : Turn := unitGet {} s.turns c

/-- Is thread u ready whatever its next instruction is: it runs, and nothing is outstanding for which an instruction could
stall? A thread of which something is outstanding may be ready or not (assumption log 161). -/
def State.surelyReady (s : State) (c u : Nat) : Bool :=
  let th := s.thr c u
  th.run == .running && !th.jtag && th.posted == [] && th.storeErrs == [] &&
    !(s.wzCore c).ot.any (fun e => e.thread == u) && decide ((s.wzCore c).ot.length < otSize c)

/-- The threads of core c in the order of their turns. -/
def State.turnOrder (s : State) (c : Nat) : List Nat :=
  (List.range (coreThreads c)).map (fun i => ((s.turn c).next + i) % coreThreads c)

/-- The threads whose turn comes before that of thread t. -/
def State.turnsBefore (s : State) (c t : Nat) : List Nat := (s.turnOrder c).takeWhile (fun u => u != t)

/-- May thread t issue now: no thread that is ready comes before it, a thread that yielded giving up one turn? -/
def State.hasTurn (s : State) (c t : Nat) : Bool :=
  let gives := fun u => (s.turn c).yielded.getLsbD u
  if gives t then
    (s.turnOrder c).all (fun u => u == t || !s.surelyReady c u || (gives u && !(s.turnsBefore c t).contains u))
  else (s.turnsBefore c t).all (fun u => !s.surelyReady c u || gives u)

/-- Thread t issues: the turns given up before it are spent, and the next turn is that of the thread after it. -/
def State.tookTurn (s : State) (c t : Nat) : State :=
  let k := s.turn c
  let spent := if k.yielded.getLsbD t then s.turnOrder c else s.turnsBefore c t
  { s with turns := unitSet {} s.turns c {
      next := (t + 1) % coreThreads c
      yielded := spent.foldl (fun y u => y &&& ~~~ (1#8 <<< u)) k.yielded } }

/-- Thread t gives up its next turn. -/
def State.yieldTurn (s : State) (c t : Nat) : State :=
  { s with turns := unitSet {} s.turns c { s.turn c with yielded := (s.turn c).yielded ||| (1#8 <<< t) } }

/-- Is the thread ready to issue, and is it its turn (03 R72, R85)? -/
def State.canIssue (s : State) (c t : Nat) : Bool :=
  let th := s.thr c t
  s.coreIssues c && th.run == .running && !th.jtag && s.hasTurn c t

/-- What an instruction asks of issue. -/
structure WzReq where
  group : WzGroup := .base
  priv : Bool := false               -- not allowed in task mode (03 R76)
  illegal : Bool := false            -- a selector or number that is ILLEGAL
  tag : Option Nat := none           -- the tag of an operation-table instruction
  srcs : List Nat := []              -- registers read
  dsts : List Nat := []              -- registers written
  deriving DecidableEq, Repr

/-- Does an entry of thread t lock a register the instruction names (03 R79)? -/
def OtEntry.locksFor (e : OtEntry) (t : Nat) (q : WzReq) : Bool :=
  e.thread == t && (match e.locks with
    | some r => q.srcs.contains r || q.dsts.contains r
    | none => false)

/-- Is the fault of an entry of thread t due at an instruction that reads its register (03 R82)? -/
def OtEntry.faultsFor (e : OtEntry) (t : Nat) (q : WzReq) : Bool :=
  e.thread == t && (match e.fault with
    | some (rd, _, _) => q.srcs.contains rd
    | none => false)

/-- The entry whose fault an instruction of thread t takes: the lowest class, the oldest among equals (03 R82, R84). -/
def State.faultFor (s : State) (c t : Nat) (q : WzReq) : Option OtEntry :=
  match (s.wzCore c).ot.find? (fun e => e.faultsFor t q && e.status != 2) with
  | some e => some e
  | none => (s.wzCore c).ot.find? (fun e => e.faultsFor t q)

/-- The fault class of an instruction's own checks on its operands: 1 PRIVILEGE, 2 ALIGN or 3 ACCESS. -/
abbrev WzCheck := Option Nat

/-- Is a tag out of the core's range (03 R78)? -/
def tagIllegal (c : Nat) : Option Nat → Bool
  | none => false
  | some g => decide (9 ≤ c ∧ 8 ≤ g)

/-- Issue one instruction: the checks of every instruction in their order, then `body` for its own effect. `chk` is the
instruction's own fault class, computed from its operands. An instruction that stalls takes no turn. -/
def State.wzIssue (s : State) (x : Issue) (q : WzReq) (chk : State → WzCheck) (body : State → State) : State :=
  let c := x.core.val
  let t := x.thread.val
  let th := s.thr c t
  if !s.canIssue c t then s
  else if th.asyncDue then s.takeAsync c t
  else
  let i := s.tookTurn c t
  if !s.fetchOk c th.pc then i.faultHere c t 3
  else if !groupOk q.group c || tagIllegal c q.tag || q.illegal || x.unused then i.faultHere c t 0
  else if !th.p x.pred.val then i.setThr c t th.next
  else if q.priv && th.task then i.faultHere c t 1
  else if (s.wzCore c).ot.any (fun e => e.locksFor t q) then s
  else
    match chk s, s.faultFor c t q with
    | some 1, _ => i.faultHere c t 1
    | some 2, _ => i.faultHere c t 2
    | some k, none => i.faultHere c t k
    | some k, some e => if e.status = 2 then i.faultHere c t k else i.takeEntryFault c t e
    | none, some e => i.takeEntryFault c t e
    | none, none =>
      match q.tag with
      | none => body i
      | some g =>
        if (s.otFind c t g).isSome || decide (otSize c ≤ (s.wzCore c).ot.length) then s
        else body i

/-- No check of its own. -/
def noChk : State → WzCheck := fun _ => none

/-- An instruction that writes one general register from the thread's registers. -/
def State.wzReg (s : State) (x : Issue) (srcs : List Nat) (rd : Nat) (f : Thread → Word) : State :=
  s.wzIssue x { srcs := srcs, dsts := [rd] } noChk fun s =>
    let th := s.thr x.core.val x.thread.val
    s.setThr x.core.val x.thread.val (th.setG rd (f th)).next

/-- An instruction that writes one predicate. -/
def State.wzPred (s : State) (x : Issue) (srcs : List Nat) (pd : Nat) (f : Thread → Bool) : State :=
  s.wzIssue x { srcs := srcs } noChk fun s =>
    let th := s.thr x.core.val x.thread.val
    s.setThr x.core.val x.thread.val (th.setP pd (f th)).next

/-! Local memory (03 R86, R92, R103). -/

/-- The Hall cell at an address of Hall SRAM: Hall and cell. -/
def hallCellAt (a : Nat) : Option (Nat × Nat) :=
  if 0x1_0000_0000 ≤ a ∧ a < 0x1_4000_0000 then
    let o := a % 0x1000_0000
    if 0x800_0000 ≤ o ∧ o < 0x860_0000 then some ((a - 0x1_0000_0000) / 0x1000_0000, (o - 0x800_0000) / 256) else none
  else none

/-- The core whose local memory has its alias at an address, and the local address (01 R29); the Warden has no alias. -/
def aliasAt (a : Nat) : Option (Nat × Nat) :=
  (List.range 10).findSome? (fun c => if localBase c ≤ a ∧ a < localBase c + localSize c then some (c, a - localBase c) else none)

/-- Is a local address with its size inside the core's local memory? -/
def localIn (c a n : Nat) : Bool := decide (a + n ≤ localSize c)

/-- Does a core's code region or instruction memory cover any of these bytes? -/
def State.inCode (s : State) (c a n : Nat) : Bool :=
  if c < 8 then decide (a < 0x10000)
  else (s.wzCore c).code.any (fun r => decide (a < r.1 + r.2 ∧ r.1 < a + n))

/-- Bytes of local memory. -/
def State.localBytes (s : State) (c a n : Nat) : List Byte := s.bytes (localBase c + a) n

/-- Write bytes of local memory. -/
def State.setLocal (s : State) (c a : Nat) (v : List Byte) : State :=
  s.writeBytes (localBase c + a) v

/-- The check of a local buffer an operation reads (`store` false) or writes (03 R92, R103). -/
def State.bufChk (s : State) (c a n : Nat) (store : Bool) : WzCheck :=
  if !localIn c a n then some 3 else if store && s.inCode c a n then some 3 else none

end Sys2Proof.Machine
end

