-- ==== Sys2Proof/Machine/LaneOps.lean ====
section
/-! DEFINITION. Lanes and quads: configuration checks, clocks, lane states, transmit equaliser, counters
(spec/04_lanes.md). What a lane tells its trunk is in TrunkOps. -/

namespace Sys2Proof.Machine

/-- A lane, and writing it. -/
def State.lane (s : State) (l : Nat) : Lane := unitGet {} s.lanes l
def State.setLane (s : State) (l : Nat) (v : Lane) : State := { s with lanes := unitSet {} s.lanes l v }

/-- A quad, and writing it. -/
def State.quad (s : State) (q : Nat) : Quad := unitGet {} s.quads q
def State.setQuad (s : State) (q : Nat) (v : Quad) : State := { s with quads := unitSet {} s.quads q v }

/-- The personality of lane l's quad (04 *Personalities supported*). -/
def State.laneMode (s : State) (l : Nat) : Nat := s.fld F.quadPersonalityMode (l / 4)

/-- The lanes of a quad. -/
def quadLanes (q : Nat) : List Nat := (List.range 4).map (fun j => 4 * q + j)

/-- Trunk n: lowest lane, width and lanes (06 R159). -/
def State.trkFirst (s : State) (n : Nat) : Nat := s.fld F.trkCfgFirst n
def State.trkWidthCfg (s : State) (n : Nat) : Nat := 2 ^ s.fld F.trkCfgLanes n
def State.trkLanes (s : State) (n : Nat) : List Nat := (List.range (s.trkWidthCfg n)).map (fun p => s.trkFirst n + p)

/-- The enabled trunk that a lane belongs to. -/
def State.trkOf (s : State) (l : Nat) : Option Nat :=
  (List.range 24).find? (fun n => s.flag F.trkCfgEn n && (s.trkLanes n).contains l)

/-- Does a trunk's quad run the TD212 personality? -/
def State.isTd (s : State) (n : Nat) : Bool := s.laneMode (s.trkFirst n) == 2

/-- The position of a lane in its trunk. -/
def State.lanePos (s : State) (n l : Nat) : Nat := l - s.trkFirst n

/-! Configuration errors (04 R107). -/

/-- A refusal recorded at a quad: code, what it concerns, and Bell 8. -/
def State.quadRefuse (s : State) (q code info : Nat) : State :=
  (((s.setFld F.quadStatusCfgErr q 0 code).setFld F.quadStatusCfgInfo q 0 info).setFld F.quadStatusCfgNew q 0 1).ring 8 (32 + q)

/-- The lane groups that SPLIT defines (04 *Lane groupings*). -/
def splitUnits : Nat → Nat
  | 0 => 4
  | 1 => 3
  | 2 => 3
  | 3 => 2
  | 4 => 1
  | _ => 0

/-- Unit u's field of a personality value. -/
def unitField (v : BitVec 64) (u : Nat) : Nat := v.toNat / 2 ^ (8 + 8 * u) % 256

/-- Fields of a unit. -/
def unitEn (f : Nat) : Bool := f / 128 == 1
def unitRate (f : Nat) : Nat := f / 16 % 8
def unitNum (f : Nat) : Nat := f % 8

/-- The enabled units of a personality value. -/
def enabledUnits (v : BitVec 64) : List Nat := (List.range 4).filter (fun u => unitEn (unitField v u))

/-- Are NUMBER and RATE of a unit in range for a mode? -/
def unitInRange (mode f : Nat) : Bool :=
  if mode = 4 then decide (1 ≤ unitRate f ∧ unitRate f ≤ 4)
  else if mode = 3 then decide (unitRate f ≤ 3 ∧ unitNum f ≤ 5)
  else decide (unitRate f ≤ 2)

/-- Do the unit fields of a mode name units? They are ignored for trunks (04 R106), and OFF has none. -/
def modeHasUnits (mode : Nat) : Bool := mode == 3 || mode == 4 || mode == 5

/-- The lanes of group u under a SPLIT (04 *Lane groupings*). -/
def groupLanes (split u : Nat) : List Nat :=
  match split, u with
  | 0, u => [u]
  | 1, 0 => [0, 1]
  | 1, 1 => [2]
  | 1, 2 => [3]
  | 2, 0 => [0]
  | 2, 1 => [1]
  | 2, 2 => [2, 3]
  | 3, 0 => [0, 1]
  | 3, 1 => [2, 3]
  | 4, 0 => [0, 1, 2, 3]
  | _, _ => []

/-- The enabled unit that lane l belongs to. -/
def State.laneUnit (s : State) (l : Nat) : Option Nat :=
  if modeHasUnits (s.laneMode l) then
    (enabledUnits (s.reg .quadPersonality (l / 4))).find? (fun u =>
      (groupLanes (s.fld F.quadPersonalitySplit (l / 4)) u).contains (l % 4))
  else none

/-- The lanes of the enabled unit `num` of a personality (04 R106). -/
def State.unitLanes (s : State) (mode num : Nat) : List Nat :=
  (List.range 48).filter (fun l => s.laneMode l == mode && (match s.laneUnit l with
    | some u => unitNum (unitField (s.reg .quadPersonality (l / 4)) u) == num
    | none => false))

/-- Is a unit number enabled in another quad of the same mode? -/
def State.unitElsewhere (s : State) (q mode num : Nat) : Bool :=
  (List.range 12).any (fun q' => q' != q && s.fld F.quadPersonalityMode q' == mode &&
    (enabledUnits (s.reg .quadPersonality q')).any (fun u => unitNum (unitField (s.reg .quadPersonality q') u) == num))

/-- The first failed check of a `QUADq_PERSONALITY` write: code and CFG_INFO (04 *Configuration errors*). SPLIT and the unit
fields are ignored for trunks (R106); OFF has no numbers or rates to check. -/
def State.personalityError (s : State) (q : Nat) (v : BitVec 64) : Option (Nat × Nat) :=
  let mode := wr F.quadPersonalityMode v
  let split := wr F.quadPersonalitySplit v
  let units := enabledUnits v
  match (quadLanes q).find? (fun l => s.flag F.laneCtrlEn l || (s.trkOf l).isSome) with
  | some l => some (1, l % 4)
  | none =>
    if 6 ≤ mode ∨ (mode = 2 ∧ 6 ≤ q) then some (2, 0x7F)
    else if mode = 1 ∨ mode = 2 then none
    else if 4 < split ∨ (mode = 5 ∧ split ≠ 0) then some (3, 0x7F)
    else if mode = 0 then (units.find? (fun u => decide (splitUnits split ≤ u))).map (fun u => (3, u))
    else match (if mode = 3 then units[2]? else none) with
      | some u => some (3, u)
      | none => match units.find? (fun u => decide (splitUnits split ≤ u)) with
        | some u => some (3, u)
        | none => match units.find? (fun u => !unitInRange mode (unitField v u)) with
          | some u => some (4, u)
          | none => match units.find? (fun u => s.unitElsewhere q mode (unitNum (unitField v u)) ||
              units.any (fun u' => decide (u' < u) && unitNum (unitField v u') == unitNum (unitField v u))) with
            | some u => some (5, u)
            | none => none

/-! Clocks (04 R109 to R114). -/

/-- The lane a loop-timed PLL B follows: the lowest with LOOP_REF, ACTIVE and ALIGNED (04 R112). A lane in LOS counts as
not aligned (assumption log 20). -/
def State.pllbLane (s : State) (q : Nat) : Option Nat :=
  (quadLanes q).find? (fun l => s.flag F.laneCtrlLoopRef l && s.fld F.laneStatusState l == 2 && s.flag F.laneStatusAligned l &&
    !s.flag F.laneStatusLos l)

/-- Is PLL B of a quad loop-timed (`B_LOOP`, BIRIQUE only)? -/
def State.bLoop (s : State) (q : Nat) : Bool := s.flag F.quadPllBLoop q && s.fld F.quadPersonalityMode q == 1

/-- The PLL a lane runs on, 0 for A and 1 for B (04 R109, *PLL use*): a Birique lane by PLLSEL (R112), a head's lanes by the
head's place among the enabled ones, a root port's lanes by their speed, an Ethernet port's by its rate. -/
def State.lanePll (s : State) (l : Nat) : Nat :=
  let v := s.reg .quadPersonality (l / 4)
  match s.laneMode l with
  | 1 => s.fld F.laneCtrlPllsel l
  | 3 => match s.laneUnit l with
    | some u => if (enabledUnits v).head? = some u then 0 else 1
    | none => 0
  | 4 => if 3 ≤ (s.lane l).speed then 1 else 0
  | 5 => match s.laneUnit l with
    | some u => if unitRate (unitField v u) = 0 then 0 else 1
    | none => 0
  | _ => 0

/-- The down-spread a lane's own PLL gives it, in steps of 0.05 % (04 R111): a TD212 or ETH quad never spreads, a root port
by `SSC_A` on either PLL, the others by the field of their PLL. -/
def State.laneSsc (s : State) (l : Nat) : Nat :=
  let q := l / 4
  match s.laneMode l with
  | 1 => if s.lanePll l = 1 then s.fld F.quadPllSscB q else s.fld F.quadPllSscA q
  | 3 => if s.lanePll l = 1 then s.fld F.quadPllSscB q else s.fld F.quadPllSscA q
  | 4 => s.fld F.quadPllSscA q
  | _ => 0

/-- Bring PLL B and LOOPED up to date after a change of a lane (04 R112, R114). A PLL B that is not loop-timed is in
holdover while REFCLK is absent (R110). -/
def State.pllUpdate (s : State) (q : Nat) : State :=
  let loop := s.bLoop q
  let s := (quadLanes q).foldl (fun s l =>
    s.setFld F.laneStatusLooped l 0 (if loop && s.flag F.laneCtrlPllsel l then 1 else 0)) s
  if loop then
    match s.pllbLane q with
    | some l => (s.setQuad q { s.quad q with follow := some l }).setFld F.quadStatusBHold q 0 0
    | none =>
      if (s.quad q).follow.isSome then
        (s.setQuad q { s.quad q with follow := none }).setFld F.quadStatusBHold q 0 1
      else s
  else (s.setQuad q { s.quad q with follow := none }).setFld F.quadStatusBHold q 0 (if (s.quad q).refPresent then 0 else 1)

/-! Lane states (04 *Lane states*). -/

/-- End a scan that runs, with RESULT aborted (04 R133). -/
def State.eyeAbort (s : State) (l : Nat) : State :=
  if s.fld F.laneEyeStatusResult l = 1 then s.setFld F.laneEyeStatusResult l 0 3 else s

/-- Is a lane's signal NRZ: a Birique lane at 13.28125 Gb/s, or a lane of another personality (04 *Personalities supported*)? -/
def State.laneNrz (s : State) (l : Nat) : Bool := s.laneMode l != 1 || s.fld F.laneStatusRateNow l == 2

/-- Does the receiver of a lane adapt now (04 R123)? Not under `FREEZE`, and DP_TX lanes have none (R120). -/
def State.rxAdapts (s : State) (l : Nat) : Bool :=
  let st := s.fld F.laneStatusState l
  (st == 1 || st == 5 || st == 2 || st == 7) && s.laneMode l != 3 && !s.flag F.laneRxeqFreeze l

/-- Adaptation that ran before a change (`was`) and runs no longer: every coefficient is held as it stands now (04 R123). -/
def State.rxHold (s : State) (l : Nat) (was : Bool) : State :=
  if was && !s.rxAdapts l then
    let s := s.setLane l { s.lane l with
      rxHeld := some s.free
      ctleHeld := if s.flag F.laneRxeqCtleFix l then some (s.fld F.laneRxeqCtle l) else none }
    { s with free := s.free + 1 }
  else s

/-- The word in which receive coefficient i of a lane stands, 24 for the first DFE tap and the CTLE: any value while the receiver
adapts (`free`), the value held afterwards, and 0 before any adaptation (04 R123). -/
def State.rxWord (s : State) (l i : Nat) (free : Word) : Word :=
  if s.rxAdapts l then free
  else match (s.lane l).rxHeld with
    | some k => Config.rxCoef k i
    | none => 0

/-- The first DFE tap of a lane, and its CTLE code in force (04 *LANEn_RXEQ*). -/
def State.dfe1Now (s : State) (l : Nat) (free : Word) : Nat := (s.rxWord l 24 free).toNat % 256
def State.ctleNow (s : State) (l : Nat) (free : Word) : Nat :=
  let code := s.fld F.laneRxeqCtle l
  if s.flag F.laneRxeqCtleFix l then code
  else if s.rxAdapts l then free.toNat / 256 % 19
  else match (s.lane l).ctleHeld, (s.lane l).rxHeld with
    | some c, _ => c
    | none, some k => (Config.rxCoef k 24).toNat / 256 % 19
    | none, none => code

/-- `LANEn_RXFFEi` (04 R123): 24 FFE taps of a PAM4 receiver; on an NRZ lane entries 1 to 11 read DFE taps 2 to 12. -/
def State.ffeNow (s : State) (l i : Nat) (free : Word) : Nat :=
  if s.laneMode l = 3 ∨ (s.laneNrz l = true ∧ (i = 0 ∨ 11 < i)) then 0 else (s.rxWord l i free).toNat % 65536

/-- Write `LANEn_RXEQ` (04 R123). -/
def State.rxeqWrite (s : State) (l : Nat) (v mask : Word) : State :=
  let was := s.rxAdapts l
  let fixed := s.flag F.laneRxeqCtleFix l
  let code := s.fld F.laneRxeqCtle l
  let s := (s.storeReg .laneRxeq l 0 v mask).rxHold l was
  if fixed && !s.flag F.laneRxeqCtleFix l && !s.rxAdapts l then s.setLane l { s.lane l with ctleHeld := some code } else s

/-- Put a lane into a state: FAILED rings Bell 8 (04 R124), leaving ACTIVE and TEST ends a scan (R133), and adaptation stops
where the state allows none (R123). -/
def State.laneState (s : State) (l st : Nat) : State :=
  let s := if st ≠ 2 ∧ st ≠ 7 then s.eyeAbort l else s
  let was := s.rxAdapts l
  let s := (s.setFld F.laneStatusState l 0 st).rxHold l was
  let s := if st = 6 then s.ring 8 (48 + l) else s
  s.pllUpdate (l / 4)

/-- Zero the counters of a lane (04 R131). -/
def State.laneClr (s : State) (l : Nat) : State :=
  ((List.range 10).foldl (fun s i => s.setReg .laneCnt l i 0) s)

/-- The top of a 48-bit counter. -/
def cnt48 : Nat := 2 ^ 48 - 1

/-- Count FEC outcomes; each counter saturates by itself (04 R131). -/
def State.laneFec (s : State) (l : Nat) (f1 f2 fu : Nat) (bad : Bool) : State :=
  let s := s.addSat F.laneCntCount l 6 f1 cnt48
  let s := s.addSat F.laneCntCount l 7 f2 cnt48
  let s := s.addSat F.laneCntCount l 8 fu cnt48
  if bad then s.addSat F.laneCntCount l 9 1 cnt48 else s

/-- Count corrected symbols per level on a PAM4 lane, unless the counters have stopped (04 R131, R132). -/
def State.laneLvl (s : State) (l : Nat) (levels : List Nat) : State :=
  if s.flag F.lanePrbsSat l || s.laneNrz l then s
  else levels.foldl (fun s v => s.addSat F.laneCntCount l (2 + v % 4) 1 cnt48) s

/-- A SESSION for a new training: one more while a key is live, otherwise the sender's choice (04 R118, 05 R157). -/
def State.newSession (s : State) (l : Nat) : Nat × State :=
  let live := match s.trkOf l with
    | some n => s.flag F.trkLinkStatusSecOn n
    | none => false
  if live then (((s.lane l).txSession + 1) % 2 ^ 32, s)
  else
    let r := s.openValue
    (r.1.toNat % 2 ^ 32, r.2)

/-- Start a full training of a lane (04 R126): TRAINING, everything of the session afresh, 2 ms for a Birique lane. A LOOP
end, and a TD212 lane, keeps its transmitter idle until its receiver is aligned (06 R162 step 1, 12 R304). -/
def State.laneTrain (s : State) (l : Nat) : State :=
  let loopEnd := s.laneMode l == 2 || (match s.trkOf l with
    | some n => s.fld F.trkCfgRole n == 1 && s.laneMode l == 1
    | none => false)
  let r := s.newSession l
  let s := r.2
  let s := s.setLane l { s.lane l with
    txIdle := loopEnd, idleSince := s.tb, idleAnnounced := false, idlePending := false, rxIdle := false, stored := false,
    txSession := r.1, rxSessionKnown := false, flitsTx := 0, flitsRx := 0, sinceTx := 0, sinceRx := 0, matchSeen := false,
    crcFailTb := none, txeqAck := false, txeqLimit := false, reqPrecode := false, precodeNext := false,
    rxReady := false, peerReady := false, enWaiting := false }
  let s := ((s.setFld F.laneStatusAligned l 0 0).setFld F.laneStatusPreRx l 0 0).setFld F.laneStatusPreTx l 0 0
  let s := (s.disarm .laneRefresh l 0).disarm .laneExit l 0
  let s := s.laneState l 1
  if s.laneMode l = 1 then s.arm .laneTrain l 0 (ms 2) else s

/-- Start an equaliser refresh of a lane (04 R126, R128): both directions, 200 us. -/
def State.laneRefresh (s : State) (l : Nat) : State :=
  let s := s.setLane l { s.lane l with
    txIdle := false, idleAnnounced := false, rxIdle := false, rxReady := false,
    peerReady := false }
  (s.laneState l 5).armOnce .laneRefresh l 0 (us 200)

/-- Does a lane carry what its trunk sends: trained, transmitter on? The two directions rest in idle on their own (04 R127),
so a receiver in idle stops no sender. -/
def State.laneOn (s : State) (l : Nat) : Bool :=
  let st := s.fld F.laneStatusState l
  (st == 2 || ((st == 3 || st == 4) && (s.lane l).rxIdle)) && !(s.lane l).txIdle

/-- A lane is enabled in a quad that is ready, of a Hall in RUN: it trains. In a Hall that is quarantined or in reset its
transmitter stays idle (01 R16, R17; assumption log 179). -/
def State.laneStart (s : State) (l : Nat) : State :=
  if s.flag F.quadStatusReady (l / 4) && s.laneMode l != 0 && s.hallState (l / 12) == 0 then s.laneTrain l
  else s.setLane l { s.lane l with enWaiting := true }

/-- Put a transmitter into electrical idle without a marker (04 R125). -/
def State.txOff (s : State) (l : Nat) : State :=
  s.setLane l { s.lane l with txIdle := true, idleSince := s.tb, idleAnnounced := false, idlePending := false }

/-- A lane whose `EN` is 0, or whose quad is OFF. -/
def State.laneOff (s : State) (l : Nat) : State :=
  let s := (s.txOff l).disarm .laneTrain l 0
  let s := (s.disarm .laneRefresh l 0).disarm .laneExit l 0
  let s := s.setLane l { s.lane l with enWaiting := false, rxIdle := false, rxReady := false, peerReady := false }
  (s.setFld F.laneStatusAligned l 0 0).laneState l 0

/-! Transmit equaliser (04 R122). -/

/-- The five coefficients of a `LANEn_TXEQ` value: C(-2), C(-1), C(0), C(+1), C(+2). -/
def txeqTaps (v : BitVec 64) : List Int :=
  [signed 7 (wr F.laneTxeqCPre2 v), signed 7 (wr F.laneTxeqCPre1 v), signed 7 (wr F.laneTxeqCMain v),
   signed 7 (wr F.laneTxeqCPost1 v), signed 7 (wr F.laneTxeqCPost2 v)]

/-- The transmit equaliser limits. -/
def txeqOk (v : BitVec 64) : Bool :=
  match txeqTaps v with
  | [a, b, c, d, e] =>
    decide ((a.natAbs : Int) + b.natAbs + c + d.natAbs + e.natAbs ≤ 64) && decide (24 ≤ c) && decide (a.natAbs ≤ 8) &&
      decide (e.natAbs ≤ 8)
  | _ => false

/-- The field of a tap number of *Marker flags*. -/
def tapField : Nat → Option Fld
  | 1 => some F.laneTxeqCPre2
  | 2 => some F.laneTxeqCPre1
  | 3 => some F.laneTxeqCMain
  | 4 => some F.laneTxeqCPost1
  | 5 => some F.laneTxeqCPost2
  | _ => none

/-- A partner's request for one step of one tap (TXEQ_STEP, 04 R122): applied, or answered with TXEQ_LIMIT. -/
def State.txeqStep (s : State) (l tap : Nat) (up : Bool) : State :=
  match tapField tap with
  | none => s
  | some f =>
    let old := s.reg .laneTxeq l
    let c := signed 7 (fldGet f old)
    let v := fldPut f ((BitVec.ofInt 7 (if up then c + 1 else c - 1)).toNat) old
    let wraps := (up && c == 63) || (!up && c == -64)
    if s.flag F.laneTxeqOverride l || wraps || !txeqOk v then s.setLane l { s.lane l with txeqLimit := true }
    else (s.setReg .laneTxeq l 0 v).setLane l { s.lane l with txeqAck := true }

end Sys2Proof.Machine
end

