-- ==== Sys2Proof/Machine/Packets.lean ====
section
/-! DEFINITION. Tunnel packets: their header in bytes, CRC-32C, flow keys and classes (spec/07_tunnels_and_switching.md
R181, R182, R186, R193; spec/06_trunks_and_failover.md R173). -/

namespace Sys2Proof.Machine

/-- One bit of CRC-32C, least significant bit first. -/
def crc32cBits : Nat → Nat → Nat
  | 0, c => c
  | n + 1, c => crc32cBits n (if c % 2 = 1 then (c / 2) ^^^ 0x82F63B78 else c / 2)

/-- CRC-32C over bytes (07 R186). -/
def crc32c (l : List Byte) : Nat := (l.foldl (fun c b => crc32cBits 8 (c ^^^ b.toNat)) 0xFFFFFFFF) ^^^ 0xFFFFFFFF

/-- One bit of CRC-32 (polynomial 0x04C1_1DB7), least significant bit first. -/
def crc32Bits : Nat → Nat → Nat
  | 0, c => c
  | n + 1, c => crc32Bits n (if c % 2 = 1 then (c / 2) ^^^ 0xEDB88320 else c / 2)

/-- CRC-32, initial value all ones, result inverted: of a flit (05 R134) and of an Ethernet frame (07 R208). -/
def crc32 (l : List Byte) : Nat := (l.foldl (fun c b => crc32Bits 8 (c ^^^ b.toNat)) 0xFFFFFFFF) ^^^ 0xFFFFFFFF

/-- FLAGS of a packet (07 *Tunnel header*). -/
def Packet.flags (p : Packet) : Nat :=
  (if p.droppable then 1 else 0) + (if p.poison then 2 else 0) + (if p.copy then 4 else 0)

/-- The header as a number of 128 bits. -/
def Packet.header (p : Packet) : Nat :=
  p.type % 16 + p.tunnelId % 4096 * 2 ^ 4 + p.len % 2 ^ 14 * 2 ^ 16 + p.vc % 8 * 2 ^ 30 + p.colour % 4 * 2 ^ 33 +
  (if p.e2e then 2 ^ 35 else 0) + p.flow % 2 ^ 20 * 2 ^ 36 + p.hops % 256 * 2 ^ 56 + p.flags * 2 ^ 64 +
  p.subscriber % 1024 * 2 ^ 80 + p.psn % 2 ^ 32 * 2 ^ 96

/-- Header and payload in bytes. -/
def Packet.toBytes (p : Packet) : List Byte := leBytes 16 p.header ++ p.payload

/-- The packet that bytes hold: header in the first 16, the rest its payload. -/
def Packet.ofBytes (l : List Byte) : Packet :=
  let h := leNat (l.take 16)
  { type := h % 16, tunnelId := h / 2 ^ 4 % 4096, len := h / 2 ^ 16 % 2 ^ 14, vc := h / 2 ^ 30 % 8,
    colour := h / 2 ^ 33 % 4, e2e := h / 2 ^ 35 % 2 == 1, flow := h / 2 ^ 36 % 2 ^ 20, hops := h / 2 ^ 56 % 256,
    droppable := h / 2 ^ 64 % 2 == 1, poison := h / 2 ^ 65 % 2 == 1, copy := h / 2 ^ 66 % 2 == 1,
    subscriber := h / 2 ^ 80 % 1024, psn := h / 2 ^ 96 % 2 ^ 32,
    reserved := h / 2 ^ 67 % 2 ^ 5 != 0 || h / 2 ^ 72 % 2 ^ 8 != 0 || h / 2 ^ 90 % 2 ^ 6 != 0,
    payload := l.drop 16 }

/-- Bytes of a packet as its header states them. -/
def Packet.size (p : Packet) : Nat := 16 + p.len

/-- Credits of a packet: 64-byte units (05 R152). -/
def Packet.credits (p : Packet) : Nat := ceilDiv p.size 64

/-- Queue-buffer cells of a packet (07 R182). -/
def Packet.cellCount (p : Packet) : Nat := ceilDiv p.size 256

/-- Is a packet of a loss-tolerant class (07 R182)? -/
def Packet.lossy (p : Packet) : Bool := p.copy || p.type == 4 || ((p.type == 5 || decide (8 ≤ p.type)) && p.droppable)

/-- The flow key of 07 R193. -/
def flowKey (flow tid src : Nat) : List Byte := leBytes 8 (flow % 2 ^ 20 + tid % 4096 * 2 ^ 20 + src % 64 * 2 ^ 32)

/-- hash32 of the flow key. -/
def Packet.hash32 (p : Packet) (src : Nat) : Nat := crc32c (flowKey p.flow p.tunnelId src)

/-- The ordering context of a packet over a pair (06 R173). -/
def Packet.context (p : Packet) : Nat := crc32c (leBytes 4 (p.flow % 2 ^ 20 + p.tunnelId % 4096 * 2 ^ 20)) % 256

/-- Does the end-to-end CRC match (07 R186)? -/
def Packet.e2eOk (p : Packet) : Bool :=
  !p.e2e || crc32c (p.payload.take (p.len - 4)) == leNat ((p.payload.drop (p.len - 4)).take 4)

/-- Does a CASCADE header fit its inner packet (07 R211)? -/
def Packet.cascadeOk (p : Packet) : Bool :=
  p.type != 5 || (decide (16 ≤ p.len) && (Packet.ofBytes p.payload).size == p.len)

end Sys2Proof.Machine
end

