-- ==== Sys2Proof/Machine/SwitchOps.lean ====
section
/-! DEFINITION. What the link units and the switch core share: credits given back, Landing segments and cells, epochs, drops
and Gallery copies (spec/05_birique_link.md R152, R153; spec/07_tunnels_and_switching.md R184 to R206). -/

namespace Sys2Proof.Machine

/-- A trunk's link unit, and writing it. -/
def State.trk (s : State) (n : Nat) : Trunk := unitGet {} s.trunks n
def State.setTrk (s : State) (n : Nat) (v : Trunk) : State := { s with trunks := unitSet {} s.trunks n v }

/-- A Hall's switch core, and writing it. -/
def State.hall (s : State) (h : Nat) : HallSw := unitGet {} s.halls h
def State.setHall (s : State) (h : Nat) (v : HallSw) : State := { s with halls := unitSet {} s.halls h v }

/-- A scheduler port, and writing it. -/
def State.port (s : State) (p : Nat) : SchedPort := unitGet {} s.ports p
def State.setPort (s : State) (p : Nat) (v : SchedPort) : State := { s with ports := unitSet {} s.ports p v }

/-! TD-212 trunks (12 R312). -/

/-- The shim of a TD-212 trunk, and writing it. -/
def State.td (s : State) (n : Nat) : TdUnit := unitGet {} s.tds n
def State.setTd (s : State) (n : Nat) (v : TdUnit) : State := { s with tds := unitSet {} s.tds n v }

/-- Is a trunk an enabled TD-212 trunk? -/
def State.tdOn (s : State) (n : Nat) : Bool := s.flag F.trkCfgEn n && s.isTd n

/-- Credits go back to the host: a CREDIT frame is due at an advance of 8, or 2 us after any. -/
def State.tdGrant (s : State) (n v k : Nat) : State :=
  let t := s.td n
  let g := (unitGet 0 t.granted v + k) % 256
  let s := s.setTd n { t with granted := unitSet 0 t.granted v g }
  if 8 ≤ (g + 256 - unitGet 0 t.sent v) % 256 then s.setTd n { s.td n with creditDue := true }
  else s.armOnce .tdCredit n 0 (us 2)

/-! Control words due (05 R138). -/

/-- The order in which words are sent. -/
def Ctl.rank : Ctl → Nat
  | .nack .. => 0
  | .rnack .. => 0
  | .laneFail .. => 1
  | .ack _ => 2
  | .resume _ => 3
  | .width .. => 3
  | .widthAck _ => 3
  | .echoRsp _ => 4
  | .echoReq _ => 4
  | .credit .. => 5
  | .reserved _ => 6

/-- Does a new word stand in for one that is due already? -/
def Ctl.same : Ctl → Ctl → Bool
  | .ack _, .ack _ => true
  | .credit v _, .credit v' _ => v == v'
  | .resume _, .resume _ => true
  | .laneFail l _, .laneFail l' _ => l == l'
  | .widthAck t, .widthAck t' => t == t'
  | .nack a b, .nack a' b' => a == a' && b == b'
  | .rnack a b, .rnack a' b' => a == a' && b == b'
  | _, _ => false

/-- Put a word after those of its rank and of higher precedence. -/
def dueInsert (w : Ctl) : List Ctl → List Ctl
  | [] => [w]
  | x :: t => if w.rank < x.rank then w :: x :: t else x :: dueInsert w t

/-- A word that is due with another report in it: a NACK names up to sixteen copies behind its first, an RNACK any of a lane
(05 *Link control words*). None where the report needs a word of its own. -/
def Ctl.join : Ctl → Ctl → Option Ctl
  | .nack q b, .nack q' b' =>
    let d := (q' + 2 ^ 24 - q) % 2 ^ 24
    if b' = 0 ∧ 1 ≤ d ∧ d ≤ 16 then some (.nack q (b ||| 2 ^ (d - 1))) else none
  | .rnack l m, .rnack l' m' => if l = l' then some (.rnack l (m ||| m')) else none
  | _, _ => none

/-- Join a report with the first word that takes it. -/
def dueJoin (w : Ctl) : List Ctl → Option (List Ctl)
  | [] => none
  | x :: t => match x.join w with
    | some y => some (y :: t)
    | none => (dueJoin w t).map (fun l => x :: l)

/-- A word becomes due. -/
def Trunk.addDue (k : Trunk) (w : Ctl) : Trunk :=
  { k with due := match dueJoin w k.due with
      | some l => l
      | none => dueInsert w (k.due.filter (fun x => !w.same x)) }

/-- A word becomes due on trunk n. -/
def State.addDue (s : State) (n : Nat) (w : Ctl) : State := s.setTrk n ((s.trk n).addDue w)

/-- Count in a link counter (05 *Link counters*). -/
def State.trkCount (s : State) (n i k : Nat) : State := s.addFld F.trkCntCount n i k

/-- Advance the LIMIT of a VC of a trunk by credits, and make its CREDIT word due at 8 or after 500 ns (05 R153). On a trunk that
is LOST or resumes, the words wait for RESUME. -/
def State.grant (s : State) (n vc k : Nat) : State :=
  if k = 0 then s
  else if s.tdOn n then s.tdGrant n vc k
  else
    let t := s.trk n
    let lim := (unitGet 0 t.limit vc + k) % 2 ^ 16
    let s := s.setTrk n { t with limit := unitSet 0 t.limit vc lim }
    if s.fld F.trkLinkStatusState n = 3 ∨ t.training = .resume then s
    else if 8 ≤ (lim + 2 ^ 16 - s.fld F.trkVcCreditRxLimit n vc) % 2 ^ 16 then s.addDue n (.credit vc lim)
    else s.armOnce .trkCredit n vc 500

/-! Parcels. -/

/-- A packet by its number. -/
def State.parcel (s : State) (id : Nat) : Option Parcel := s.parcels.find? (fun p => p.id == id)

/-- Replace a packet. -/
def State.putParcel (s : State) (p : Parcel) : State :=
  { s with parcels := s.parcels.map (fun q => if q.id = p.id then p else q) }

/-- Is LOCKSTEP in force in a Hall? -/
def State.lockstep (s : State) (h : Nat) : Bool := s.flag F.hallModeLsActive h

/-- The epoch index of now. -/
def State.epochIndex (s : State) : Nat := s.tb / 64

/-- Does a packet take cells granted to or linked in a leaf queue? -/
def Parcel.inQueue (p : Parcel) (q : Nat) : Bool :=
  p.queue == some q && (match p.spot with
    | .granted => true
    | .crossing => true
    | .linked => true
    | .serving => true
    | _ => false)

/-- In a LOCKSTEP Hall, what a packet gives back is seen by decisions from the epoch on in which it does (02 R55, R56):
the depth of its leaf queue and, when `free`, its cells. -/
def State.noteFreed (s : State) (p : Parcel) (free : Bool) (sojourn : Option Nat) : State :=
  if s.lockstep p.hall && p.cells != [] then
    let n := p.cells.length
    let h := s.hall p.hall
    s.setHall p.hall { h with lsFreed := h.lsFreed ++ [{
      epoch := s.epochIndex, queue := p.queue, depth := if p.inQueue (p.queue.getD 0) then n else 0,
      free := if free then n else 0, sojourn := sojourn }] }
  else s

/-- A packet is in the hub no more. -/
def State.leaveHub (s : State) (id : Nat) : State := { s with parcels := s.parcels.filter (fun q => q.id != id) }

/-- Take a packet out of the hub, giving back what it held. -/
def State.dropParcel (s : State) (id : Nat) : State :=
  match s.parcel id with
  | some p => (s.noteFreed p true none).leaveHub id
  | none => s.leaveHub id

/-- A new packet enters; it takes the next number. -/
def State.addParcel (s : State) (p : Parcel) : State :=
  { s with parcels := s.parcels ++ [{ p with id := s.nextParcel }], nextParcel := s.nextParcel + 1 }

/-- The packets of a Hall at a spot, oldest first. -/
def State.parcelsAt (s : State) (h : Nat) (sp : Spot) : List Parcel :=
  s.parcels.filter (fun p => p.hall == h && p.spot == sp)

/-! FRAME ledger (02 R62). -/

def State.frameIn (s : State) (h : Nat) : State := s.setHall h { s.hall h with frameIn := (s.hall h).frameIn + 1 }
def State.frameOut (s : State) (h : Nat) : State := s.setHall h { s.hall h with frameOut := (s.hall h).frameOut + 1 }

/-- A link packet passes a link unit: in and out (06 R160). -/
def State.frameLink (s : State) (h : Nat) : State := (s.frameIn h).frameOut h

/-- Packets resident in a Hall. -/
def State.resident (s : State) (h : Nat) : Nat := (s.parcels.filter (fun p => p.hall == h)).length

/-! Pairs (06 R172, R173). -/

/-- The mate of a trunk, when the two form a pair: both have trained, though one may be down now. -/
def State.mateOf (s : State) (n : Nat) : Option Nat :=
  let m := s.fld F.trkPairMate n
  if m < 24 ∧ m ≠ n ∧ s.flag F.trkPairEn n = true ∧ s.flag F.trkPairEn m = true ∧ s.fld F.trkPairMate m = n ∧
      s.fld F.trkPairMode n = s.fld F.trkPairMode m ∧ s.flag F.trkPairPrimary n ≠ s.flag F.trkPairPrimary m ∧
      s.fld F.trkPeerIdId n = s.fld F.trkPeerIdId m ∧ (s.trk n).paired = some true ∧ (s.trk m).paired = some true
  then some m else none

/-- The primary of a pair. -/
def State.primary (s : State) (n m : Nat) : Nat := if s.flag F.trkPairPrimary n then n else m

/-- The member that serves an ordering context of the pair n, m (06 R173, R175, R178). -/
def State.server (s : State) (n m c : Nat) : Nat :=
  let p := s.primary n m
  let q := if p = n then m else n
  if (s.trk p).covering then p
  else if (s.trk q).covering then q
  else if s.fld F.trkPairMode p = 1 then (if (s.trk p).map.getLsbD c then q else p)
  else p

/-- SERVING of both members: each serves at least one context. -/
def State.serving (s : State) (n m : Nat) : State :=
  let any := fun x => (List.range 256).any (fun c => s.server n m c == x)
  (s.setFld F.trkPairStatusServing n 0 (if any n then 1 else 0)).setFld F.trkPairStatusServing m 0 (if any m then 1 else 0)

/-! The Landing (07 R187, R188). -/

/-- Cells of a VC buffer in a `TRKn_VC_CFG` value: BUF KiB at 256 bytes (05 R151). -/
def cfgCells (c : BitVec 64) (v : Nat) : Nat := c.toNat / 2 ^ (8 * v) % 256 * 4

/-- Cells a VC buffer of a trunk reserves: the size its latest training from DOWN applied (05 R151); on an enabled TD-212 trunk
16,320 bytes for each of its two VCs (12 R301). -/
def State.vcReserve (s : State) (n v : Nat) : Nat :=
  if s.flag F.trkCfgEn n && s.isTd n then (if v < 2 then 64 else 0)
  else cfgCells ((s.trk n).bufs.getD (s.reg .trkVcCfg n)) v

/-- Cells that the registers configure for a trunk. -/
def State.trkConfigured (s : State) (n : Nat) : Nat :=
  ((List.range 8).map (fun v => cfgCells (s.reg .trkVcCfg n) v)).sum

/-- Cells a trunk reserves. -/
def State.trkReserve (s : State) (n : Nat) : Nat := ((List.range 8).map (s.vcReserve n)).sum

/-- The trunks of a Hall. -/
def hallTrunks (h : Nat) : List Nat := (List.range 6).map (fun k => 6 * h + k)

/-- Cells claimed by a VC buffer. -/
def State.claim (s : State) (n v : Nat) : List Nat := unitGet [] s.claims (8 * n + v)

/-- All claimed Landing cells of a Hall. -/
def State.claimed (s : State) (h : Nat) : List Nat :=
  (hallTrunks h).flatMap (fun n => (List.range 8).flatMap (s.claim n))

/-- Every occupied Landing segment of a Hall. -/
def State.usedSegs (s : State) (h : Nat) : List Nat := (s.parcels.filter (fun p => p.hall == h)).flatMap (fun p => p.segs)

/-- The Landing cells that segments lie in. -/
def segCells (segs : List Nat) : List Nat := (segs.map (fun g => g / 4)).eraseDups

/-- The segments of whole cells. -/
def cellSegs (cells : List Nat) : List Nat := cells.flatMap (fun c => (List.range 4).map (fun i => 4 * c + i))

/-- Landing cells in which some segment is occupied. -/
def State.landingUsed (s : State) (h : Nat) : List Nat := segCells (s.usedSegs h)

/-- Empty Landing cells that no VC buffer holds. -/
def State.landingEmpty (s : State) (h : Nat) : List Nat :=
  let used := s.landingUsed h
  let held := s.claimed h
  (List.range 4096).filter (fun c => !used.contains c && !held.contains c)

/-- Free segments of a VC buffer. -/
def State.freeSegs (s : State) (n v : Nat) : List Nat :=
  let used := s.usedSegs (n / 6)
  (cellSegs (s.claim n v)).filter (fun g => !used.contains g)

/-- Cells that local packets may still take: those no enabled trunk reserves, less those local packets occupy. -/
def State.localRoom (s : State) (h : Nat) : Nat :=
  let reserved := ((hallTrunks h).map (fun n => if s.flag F.trkCfgEn n then s.trkReserve n else 0)).sum
  let own := (segCells ((s.parcels.filter (fun p => p.hall == h && p.loc)).flatMap (fun p => p.segs))).length
  min (4096 - reserved - own) (s.landingEmpty h).length

/-- The buffers of a trunk give up their cells and their packets' credits: at a training from DOWN, and when EN is cleared
(R187). -/
def State.dropClaims (s : State) (n : Nat) : State :=
  let s : State := { s with parcels := s.parcels.map (fun (p : Parcel) => match p.vcBuf with
    | some (k, _) => if k = n then { p with vcBuf := none } else p
    | none => p) }
  (List.range 8).foldl (fun s v =>
    ({ s with claims := unitSet [] s.claims (8 * n + v) [] } : State).setReg .trkVcCredit n v 0) s

/-- A VC buffer claims empty cells up to what it reserves; answers how many it took. -/
def State.claimCells (s : State) (n v : Nat) : Nat × State :=
  let want := s.vcReserve n v - (s.claim n v).length
  let r := s.pickN want (s.landingEmpty (n / 6))
  (r.1.length, { r.2 with claims := unitSet [] r.2.claims (8 * n + v) (s.claim n v ++ r.1) })

/-- A packet leaves the Landing: its segments are free and its credits go back to its trunk. -/
def State.leaveLanding (s : State) (p : Parcel) : Parcel × State :=
  let s := match p.vcBuf with
    | none => s
    | some (n, v) =>
      (s.setFld F.trkVcCreditRxHeld n v (s.fld F.trkVcCreditRxHeld n v - p.credits)).grant n v p.credits
  ({ p with segs := [], vcBuf := none, credits := 0 }, s)

/-! Queue-buffer cells (07 R189). -/

/-- Cells of a Hall's queue buffer that packets occupy. -/
def State.cellsUsed (s : State) (h : Nat) : List Nat := (s.parcels.filter (fun p => p.hall == h)).flatMap (fun p => p.cells)

/-- The lowest cell of the FW_CELLS range. -/
def State.fwFrom (s : State) (h : Nat) : Nat := 24576 - min 1024 (s.fld F.hallBufCtrlFwCells h)

/-- Queue-buffer cells free to be handed out. -/
def State.freeCells (s : State) (h : Nat) : List Nat :=
  let used := s.cellsUsed h
  (List.range (s.fwFrom h - 4096)).filterMap (fun i => if used.contains (4096 + i) then none else some (4096 + i))

/-- Cells of the firmware range that are free and not yet withheld. -/
def State.fwPending (s : State) (h : Nat) : List Nat :=
  let used := s.cellsUsed h
  let held := (s.hall h).fwHeld
  (List.range (24576 - s.fwFrom h)).filterMap (fun i =>
    if used.contains (s.fwFrom h + i) || held.contains (s.fwFrom h + i) then none else some (s.fwFrom h + i))

/-- Cells granted to packets and not yet linked. -/
def State.transit (s : State) (h : Nat) : Nat :=
  ((s.parcels.filter (fun p => (p.spot == .granted || p.spot == .crossing) && p.queue.any (fun q => q / 2048 == h))).map
    (fun p => p.pkt.cellCount)).sum

/-- Where a Hall cell lies in the internal address space. -/
def cellAddr (h c : Nat) : Nat := 0x1_0000_0000 + h * 0x1000_0000 + 0x800_0000 + 256 * c

/-- Write a packet into the Landing segments it occupies (07 R187, R189). -/
def State.writeSegs (s : State) (h : Nat) : List Nat → List Byte → State
  | [], _ => s
  | g :: t, b =>
    let a := cellAddr h 0 + 64 * g
    State.writeSegs ((s.unpoison a 64).setBytes a (b.take 64)) h t (b.drop 64)

/-- Write a packet into its cells and chain them. -/
def State.writeCells (s : State) (h : Nat) : List Nat → List Byte → State
  | [], _ => s
  | c :: t, b =>
    let s := (s.unpoison (cellAddr h c) 256).setBytes (cellAddr h c) (b.take 256)
    let s := s.setReg .hallCellLink h c (match t with
      | [] => 0xFFFF
      | d :: _ => BitVec.ofNat 64 d)
    State.writeCells s h t (b.drop 256)

/-! Halls (18 R417). -/

/-- Write a Hall's state. -/
def State.setHallState (s : State) (h v : Nat) : State :=
  s.setReg .chipHallCtl 0 0 (slotPut (8 * h + 1) (8 * h) v (s.reg .chipHallCtl))

/-- Does a Flight of Hall h work: its Hall in RUN, itself not fenced? -/
def State.hallRuns (s : State) (h kind inst : Nat) : Bool := s.hallState h == 0 && s.flightRuns h kind inst

/-- Is the chip in RUN: only then are packets classified, moved and served (17 R396, R405)? -/
def State.chipRuns (s : State) : Bool := s.fld F.pwrStatusState == 0

/-- May packets cross the Stair from `src` (4 the chip services) to Hall `dst`: both in RUN, the ports at both ends not fenced,
and no isolation (18 R417, *Newel operations*)? -/
def State.stairOpen (s : State) (src dst : Nat) : Bool :=
  s.chipRuns && s.chip.safe.isNone && s.hallRuns dst 6 src &&
    (if src = 4 then s.flightRuns 4 0x1C dst else s.hallRuns src 6 dst)

/-! Epochs (07 R195, R196). -/

/-- The drain slot of an epoch. -/
def State.drainSlot (s : State) (h e : Nat) : Option Nat :=
  (List.range 4).find? (fun i => s.flag F.hallEpochDrainValid h i && s.fld F.hallEpochDrainEpoch h i == e)

/-- Is an epoch live: current, or its drain counter above 0? -/
def State.epochLive (s : State) (h e : Nat) : Bool :=
  s.fld F.hallEpochStatusCurrent h == e || (match s.drainSlot h e with
    | some i => decide (0 < s.fld F.hallEpochDrainCount h i)
    | none => false)

/-- Stamp: the current epoch's counter rises; a slot is taken at the first packet. -/
def State.stampEpoch (s : State) (h : Nat) : State :=
  let e := s.fld F.hallEpochStatusCurrent h
  match s.drainSlot h e with
  | some i => s.addFld F.hallEpochDrainCount h i 1
  | none =>
    match (List.range 4).find? (fun i => !s.flag F.hallEpochDrainValid h i) with
    | some i => ((s.setFld F.hallEpochDrainValid h i 1).setFld F.hallEpochDrainEpoch h i e).setFld F.hallEpochDrainCount h i 1
    | none => s

/-- The live epochs of a Hall. -/
def State.liveEpochs (s : State) (h : Nat) : List Nat :=
  let cur := s.fld F.hallEpochStatusCurrent h
  cur :: (List.range 4).filterMap (fun i =>
    if s.flag F.hallEpochDrainValid h i ∧ s.fld F.hallEpochDrainEpoch h i ≠ cur ∧ 0 < s.fld F.hallEpochDrainCount h i
    then some (s.fld F.hallEpochDrainEpoch h i) else none)

/-- How far an epoch of a Hall lies back from the current one. -/
def State.epochAge (s : State) (h e : Nat) : Nat := (s.fld F.hallEpochStatusCurrent h + 65536 - e) % 65536

/-- Is an epoch older than e still live (07 R197)? -/
def State.olderLive (s : State) (h e : Nat) : Bool :=
  (s.liveEpochs h).any (fun x => decide (s.epochAge h e < s.epochAge h x))

/-- The published pair maps of a Hall's trunks that `go` picks come into force (06 R173, R178; 07 R198); contexts of a covering
member move back then, when both members were UP at the publication and are now. -/
def State.pairMoves (s : State) (h : Nat) (go : PairMove → Bool) : State :=
  (hallTrunks h).foldl (fun s n =>
    let t := s.trk n
    let now := t.mapNew.filter go
    match now.getLast? with
    | none => s
    | some x =>
      let s := s.setTrk n { t with map := x.map, mapNew := t.mapNew.filter (fun y => !go y) }
      match s.mateOf n with
      | none => s
      | some m =>
        let s := if now.any (·.back) && s.fld F.trkLinkStatusState n == 2 && s.fld F.trkLinkStatusState m == 2 then
            let s := s.setTrk n { s.trk n with covering := false }
            let s := s.setTrk m { s.trk m with covering := false }
            let a := n / 6 * 12 + n % 6
            let b := m / 6 * 12 + m % 6
            (s.setPort a { s.port a with foMissing := false }).setPort b { s.port b with foMissing := false }
          else s
        s.serving n m) s

/-- Maps come into force once no epoch older than the one published with them is live. -/
def State.pairMaps (s : State) (h : Nat) : State := s.pairMoves h (fun x => !s.olderLive h x.epoch)

/-- An epoch stops being live (EPOCH_RETIRE, 07 R196): its slot, its contents, and whoever waits in `epoch.drain`. -/
def State.epochRetire (s : State) (h e : Nat) : State :=
  let s := match s.drainSlot h e with
    | some i => s.setReg .hallEpochDrain h i 0
    | none => s
  let s := s.setFld F.hallEpochStatusLive h 0 (s.fld F.hallEpochStatusLive h - 1)
  let s := { s with versions := s.versions.filter (fun v => !(v.hall == h && v.epoch == e)) }
  let s := s.pairMaps h
  (List.range 9).foldl (fun s c => (s.wzCore c).ot.foldl (fun s x =>
    match x.kind with
    | .epochDrain h' e' => if h' = h ∧ e' = e ∧ !x.done then s.otComplete c x.thread x.tag 0 0 else s
    | _ => s) s) s

/-- A stamped packet is gone: the counter falls, and an epoch that is not current retires at 0. -/
def State.unstamp (s : State) (p : Parcel) : State :=
  if p.stamped then
    match s.drainSlot p.eHall p.epoch with
    | some i =>
      let s := s.setFld F.hallEpochDrainCount p.eHall i (s.fld F.hallEpochDrainCount p.eHall i - 1)
      if s.fld F.hallEpochDrainCount p.eHall i = 0 ∧ s.fld F.hallEpochStatusCurrent p.eHall ≠ p.epoch
      then s.epochRetire p.eHall p.epoch else s
    | none => s
  else s

/-! Drops and copies (07 R184, R203 to R206). -/

/-- Count a drop in a Hall. -/
def State.countDrop (s : State) (h code : Nat) : State :=
  let s := s.addFld F.hallDropCount h code 1
  s.setHall h { s.hall h with frameDropped := (s.hall h).frameDropped + 1 }

/-- A copy for a ring is lost (07 R206). -/
def State.copyLost (s : State) (h g : Nat) : State :=
  let s := (s.countDrop h 15).addFld F.galLostCount g 0 1
  { s with galLossy := if s.galLossy.contains g then s.galLossy else g :: s.galLossy }

/-- The scheduler port a leaf queue's chain ends at, if the chain is whole (08 R213, R214): every node enabled. -/
def nodeId (hall level idx : Nat) : Nat := hall * 2 ^ 14 + level * 2 ^ 12 + idx
def State.node (s : State) (id : Nat) : SchedNode := unitGet {} s.nodes id
def State.setNode (s : State) (id : Nat) (v : SchedNode) : State := { s with nodes := unitSet {} s.nodes id v }

/-- Level, Hall and index of a node ID (08 *Node ID*). -/
def nodeHall (id : Nat) : Nat := id / 2 ^ 14
def nodeLevel (id : Nat) : Nat := id / 2 ^ 12 % 4
def nodeIndex (id : Nat) : Nat := id % 2 ^ 11

/-- The nodes of a leaf queue's chain: leaf, subscriber, service, port. -/
def State.chain (s : State) (q : Nat) : List Nat :=
  let h := q / 2048
  let leaf := nodeId h 0 (q % 2048)
  let sub := nodeId h 1 (s.node leaf).param.parent
  let svc := nodeId h 2 (s.node sub).param.parent
  [leaf, sub, svc, nodeId h 3 (s.node svc).param.parent]

/-- The scheduler port (0 to 47) of a leaf queue. -/
def State.portOf (s : State) (q : Nat) : Nat := 12 * (q / 2048) + (s.chain q).getLastD 0 % 4096

/-- Is a leaf queue usable? -/
def State.usable (s : State) (q : Nat) : Bool := (s.chain q).all (fun n => (s.node n).param.enable)

/-- When a packet is released towards the Stair: now, or in a LOCKSTEP Hall at the boundary of the epoch that decides it:
that of its acceptance for a packet just classified, else the one after those decided (02 R55, assumption log 171). -/
def State.readyAt (s : State) (p : Parcel) : Nat :=
  if s.lockstep p.hall then
    64 * (match p.spot with
      | .accepted => p.tbAccept / 64 + 1
      | _ => max (p.tbAccept / 64 + 1) (s.hall p.hall).lsNext)
  else s.tb

/-- Make a copy of a packet for a ring (GALLERY_COPY, 07 R203): one cell, the original's colour and epoch, bound for the
ring's leaf queue. A ring that is not enabled loses it, as any copy is lost: in and dropped (R206). -/
def State.galleryCopy (s : State) (p : Parcel) (g flags reason ts : Nat) : State :=
  if p.copy.isSome then s
  else if !s.flag F.galCtrlEn g then (s.frameIn p.hall).copyLost p.hall g
  else
    let n := min 96 p.pkt.size
    let c : Packet := { p.pkt with copy := true, payload := p.pkt.payload.take (n - 16), len := n - 16 }
    let ready := s.readyAt p
    let s := s.frameIn p.hall
    let e := s.openValue
    let s := if p.stamped then s else e.2
    let s := if p.stamped then
      match s.drainSlot p.eHall p.epoch with
      | some i => s.addFld F.hallEpochDrainCount p.eHall i 1
      | none => s
      else s
    s.addParcel { p with
      pkt := c, spot := .asking, samples := [], tbReady := ready, segs := [], cells := [], vcBuf := none, credits := 0, punt := none, moved := false,
      queue := some (g / 4 * 2048 + s.fld F.galCtrlQueue g),
      copy := some { ring := g, pktLen := p.pkt.size, typeTid := p.pkt.type * 4096 + p.pkt.tunnelId,
                     queue := p.queue.getD 0x1FFF, egress := (match p.queue with
                       | some q => s.portOf q
                       | none => 0xFF),
                     ingress := p.src, reason := reason,
                     flags := flags + (if 96 < p.pkt.size then 8 else 0),
                     epoch := if p.stamped then p.epoch else e.1.toNat % 65536, ts := ts,
                     head := p.pkt.toBytes.take n } }

/-! What a departure does to the scheduler (08 R220 to R223). -/

/-- The children of a node: enabled nodes of the level below that name it. -/
def State.childrenOf (s : State) (id : Nat) : List Nat :=
  (s.nodes.filter (fun e => nodeHall e.1 == nodeHall id && nodeLevel e.1 + 1 == nodeLevel id && e.2.param.enable &&
    e.2.param.parent == nodeIndex id)).map (fun e => e.1)

/-- The leaf queue of a leaf node ID. -/
def leafOf (id : Nat) : Nat := nodeHall id * 2048 + nodeIndex id

/-- Does a packet remain linked below a node? -/
def State.hasBelow (s : State) : Nat → Nat → Bool
  | 0, id => unitGet [] s.leafQ (leafOf id) != []
  | l + 1, id => (s.childrenOf id).any (State.hasBelow s l)

/-- A node's turn at its parent passes to the next child (08 R219). -/
def State.passTurn (s : State) (id : Nat) : State :=
  let p := nodeId (nodeHall id) (nodeLevel id + 1) (s.node id).param.parent
  if nodeLevel id = 3 then s
  else s.setNode p { s.node p with turn := (s.node p).turn.filter (fun e => e.2 != some id) }

/-- A node below which no packet remains keeps a debt, forfeits a surplus and loses its turn (08 R219, R220). -/
def State.settle (s : State) (id : Nat) : State :=
  if s.hasBelow (nodeLevel id) id then s
  else
    let n := s.node id
    (s.setNode id { n with deficit := min n.deficit 0 }).passTurn id

/-- Packets have gone from a leaf queue. -/
def State.settleQueue (s : State) (q : Nat) : State := (s.chain q).foldl (fun s id => s.settle id) s

/-- Put a block among others, replacing the one of the same node. -/
def stagePut (l : List Staged) (b : Staged) : List Staged := l.filter (fun x => x.node != b.node) ++ [b]

/-- A port's boundary is reached: its commit applies what is staged now (08 R223). -/
def SchedPort.reach (sp : SchedPort) : SchedPort :=
  if sp.commitAt.isSome ∧ !sp.boundary then { sp with boundary := true, ready := sp.staged, staged := [], foAt := sp.foAt || sp.foDue }
  else { sp with foAt := sp.foAt || sp.foDue }

/-- A served packet ends: it leaves the queue buffer (08 R222). -/
def State.packetEnd (s : State) (p : Parcel) : State :=
  match p.spot, p.queue with
  | .serving, some q =>
    let port := s.portOf q
    let sp := s.port port
    let late := match sp.commitAt with
      | some t => decide (t + 16000 ≤ s.tb)
      | none => false
    let sp := { sp with busy := if sp.busy = some p.id then none else sp.busy }
    s.setPort port (if p.roundEnd || late then sp.reach else sp)
  | _, _ => s

/-- Drop a packet (07 R184): the copies its reason asks for, its cells and segments, its epoch, the counters. A copy that is
dropped is lost to its ring. -/
def State.dropPacket (s : State) (id code : Nat) : State :=
  match s.parcel id with
  | none => s
  | some p =>
    let s := match p.copy with
      | some c => s.copyLost p.hall c.ring
      | none =>
        let s : State := (List.range 16).foldl (fun (s : State) g =>
          if (s.fld F.galCtrlDropHalls g).testBit p.hall && (s.fld F.galCtrlDropMask g).testBit code
          then s.galleryCopy p g 1 code s.tb else s) s
        s.countDrop p.hall code
    let r := s.leaveLanding p
    let s := { r.2 with leafQ := match p.queue with
      | some q => unitSet [] r.2.leafQ q ((unitGet [] r.2.leafQ q).filter (· != id))
      | none => r.2.leafQ }
    let s := match p.queue with
      | some q => s.settleQueue q
      | none => s
    ((s.dropParcel id).unstamp p).packetEnd p

end Sys2Proof.Machine
end

