-- ==== Sys2Proof/Machine/Alu.lean ====
section
/-! DEFINITION. The base instructions of Waizefy: arithmetic, immediates, compares, predicate logic, local loads and
stores, branches (spec/03_waizefy_isa.md R73, R91, R92). -/

namespace Sys2Proof.Machine

/-! Functions of *ALU functions, major 0x00*. -/

/-- The 21 functions of major 0x00. -/
inductive AluFn where
  | add | sub | and | or | xor | sll | srl | sra | mul | mulhu | divu | remu | div | rem | min | max | minu | maxu
  | clz | popc | bswap
  deriving DecidableEq, Repr

/-- The leading zeros of a word. -/
def clzWord (a : Word) : Nat := if a = 0 then 64 else 63 - a.toNat.log2

/-- The ones in the low `n` bits of a number. -/
def popcNat : Nat → Nat → Nat
  | 0, _ => 0
  | n + 1, v => v % 2 + popcNat n (v / 2)

/-- Signed quotient rounding toward zero; -1 for a zero divisor, -2^63 for -2^63 / -1. -/
def divWord (a b : Word) : Word := if b = 0 then BitVec.allOnes 64 else a.sdiv b

/-- Signed remainder; ra for a zero divisor, 0 for -2^63 / -1. -/
def remWord (a b : Word) : Word := if b = 0 then a else a.srem b

/-- One ALU function. -/
def aluEval (f : AluFn) (a b : Word) : Word :=
  match f with
  | .add => a + b
  | .sub => a - b
  | .and => a &&& b
  | .or => a ||| b
  | .xor => a ^^^ b
  | .sll => a <<< (b.toNat % 64)
  | .srl => a >>> (b.toNat % 64)
  | .sra => a.sshiftRight (b.toNat % 64)
  | .mul => a * b
  | .mulhu => BitVec.ofNat 64 (a.toNat * b.toNat / 2 ^ 64)
  | .divu => if b = 0 then BitVec.allOnes 64 else a / b
  | .remu => if b = 0 then a else a % b
  | .div => divWord a b
  | .rem => remWord a b
  | .min => if a.slt b then a else b
  | .max => if a.slt b then b else a
  | .minu => if a.ult b then a else b
  | .maxu => if a.ult b then b else a
  | .clz => BitVec.ofNat 64 (clzWord a)
  | .popc => BitVec.ofNat 64 (popcNat 64 a.toNat)
  | .bswap => BitVec.ofNat 64 (leNat (leBytes 8 a.toNat).reverse)

/-- rd := f(ra, rb). -/
def State.wzAlu (s : State) (x : Issue) (f : AluFn) (rd ra rb : Nat) : State :=
  s.wzReg x [ra, rb] rd fun th => aluEval f (th.g ra) (th.g rb)

/-- rd := f(ra, operand). -/
def State.wzAluImm (s : State) (x : Issue) (f : AluFn) (rd ra : Nat) (v : Word) : State :=
  s.wzReg x [ra] rd fun th => aluEval f (th.g ra) v

/-- The compare codes (03 *Other base instructions*): 0 eq, 1 ne, 2 lt, 3 ge, 4 ltu, 5 geu. -/
def ccEval (cc : Nat) (a b : Word) : Bool :=
  match cc with
  | 0 => a == b
  | 1 => a != b
  | 2 => a.slt b
  | 3 => !a.slt b
  | 4 => a.ult b
  | _ => !a.ult b

/-- pd := ra cc operand; cc 6 and 7 are ILLEGAL. -/
def State.wzCmp (s : State) (x : Issue) (cc pd : Nat) (srcs : List Nat) (a b : Thread → Word) : State :=
  s.wzIssue x { srcs := srcs, illegal := decide (6 ≤ cc) } noChk fun s =>
    let th := s.thr x.core.val x.thread.val
    s.setThr x.core.val x.thread.val (th.setP pd (ccEval cc (a th) (b th))).next

/-- The local address of a load or store: ra + sext(imm13). -/
def localAddr (th : Thread) (ra : Nat) (imm : BitVec 13) : Nat := (th.g ra + imm.signExtend 64).toNat

/-- The checks of a local access of `n` bytes (03 R92): ALIGN, then ACCESS. -/
def localChk (x : Issue) (ra : Nat) (imm : BitVec 13) (n : Nat) (store : Bool) (s : State) : WzCheck :=
  let a := localAddr (s.thr x.core.val x.thread.val) ra imm
  if a % n ≠ 0 then some 2 else s.bufChk x.core.val a n store

/-- A local load of `n` bytes, sign-extended or zero-extended. -/
def State.wzLoad (s : State) (x : Issue) (n : Nat) (sx : Bool) (rd ra : Nat) (imm : BitVec 13) : State :=
  s.wzIssue x { srcs := [ra], dsts := [rd] } (localChk x ra imm n false) fun s =>
    let th := s.thr x.core.val x.thread.val
    let v := leNat (s.localBytes x.core.val (localAddr th ra imm) n)
    let w : Word := if sx then BitVec.ofInt 64 (signed (8 * n) v) else BitVec.ofNat 64 v
    s.setThr x.core.val x.thread.val (th.setG rd w).next

/-- A local store of `n` bytes. -/
def State.wzStore (s : State) (x : Issue) (n : Nat) (rs ra : Nat) (imm : BitVec 13) : State :=
  s.wzIssue x { srcs := [ra, rs] } (localChk x ra imm n true) fun s =>
    let th := s.thr x.core.val x.thread.val
    (s.setLocal x.core.val (localAddr th ra imm) (leBytes n (th.g rs).toNat)).setThr x.core.val x.thread.val th.next

/-- PC + 4 × sext(disp23), a local address of 64 bits (03 *Other base instructions*). -/
def branchTo (pc : Nat) (disp : BitVec 23) : Nat := (BitVec.ofNat 64 pc + disp.signExtend 64 * 4).toNat

/-! The instructions. -/

/-- `add rd, ra, rb` (03 R73, *ALU functions*). -/
def execAdd (x : Issue) (rd ra rb : Fin 32) (s : State) : Host.Outcome State Fault Refusal :=
  .next (s.wzAlu x .add rd.val ra.val rb.val)

/-- `sub rd, ra, rb` (03 R73, *ALU functions*). -/
def execSub (x : Issue) (rd ra rb : Fin 32) (s : State) : Host.Outcome State Fault Refusal :=
  .next (s.wzAlu x .sub rd.val ra.val rb.val)

/-- `and rd, ra, rb` (03 R73, *ALU functions*). -/
def execAnd (x : Issue) (rd ra rb : Fin 32) (s : State) : Host.Outcome State Fault Refusal :=
  .next (s.wzAlu x .and rd.val ra.val rb.val)

/-- `or rd, ra, rb` (03 R73, *ALU functions*). -/
def execOr (x : Issue) (rd ra rb : Fin 32) (s : State) : Host.Outcome State Fault Refusal :=
  .next (s.wzAlu x .or rd.val ra.val rb.val)

/-- `xor rd, ra, rb` (03 R73, *ALU functions*). -/
def execXor (x : Issue) (rd ra rb : Fin 32) (s : State) : Host.Outcome State Fault Refusal :=
  .next (s.wzAlu x .xor rd.val ra.val rb.val)

/-- `sll rd, ra, rb` (03 R73, *ALU functions*). -/
def execSll (x : Issue) (rd ra rb : Fin 32) (s : State) : Host.Outcome State Fault Refusal :=
  .next (s.wzAlu x .sll rd.val ra.val rb.val)

/-- `srl rd, ra, rb` (03 R73, *ALU functions*). -/
def execSrl (x : Issue) (rd ra rb : Fin 32) (s : State) : Host.Outcome State Fault Refusal :=
  .next (s.wzAlu x .srl rd.val ra.val rb.val)

/-- `sra rd, ra, rb` (03 R73, *ALU functions*). -/
def execSra (x : Issue) (rd ra rb : Fin 32) (s : State) : Host.Outcome State Fault Refusal :=
  .next (s.wzAlu x .sra rd.val ra.val rb.val)

/-- `mul rd, ra, rb` (03 R73, *ALU functions*). -/
def execMul (x : Issue) (rd ra rb : Fin 32) (s : State) : Host.Outcome State Fault Refusal :=
  .next (s.wzAlu x .mul rd.val ra.val rb.val)

/-- `mulhu rd, ra, rb` (03 R73, *ALU functions*). -/
def execMulhu (x : Issue) (rd ra rb : Fin 32) (s : State) : Host.Outcome State Fault Refusal :=
  .next (s.wzAlu x .mulhu rd.val ra.val rb.val)

/-- `divu rd, ra, rb` (03 R73, *ALU functions*). -/
def execDivu (x : Issue) (rd ra rb : Fin 32) (s : State) : Host.Outcome State Fault Refusal :=
  .next (s.wzAlu x .divu rd.val ra.val rb.val)

/-- `remu rd, ra, rb` (03 R73, *ALU functions*). -/
def execRemu (x : Issue) (rd ra rb : Fin 32) (s : State) : Host.Outcome State Fault Refusal :=
  .next (s.wzAlu x .remu rd.val ra.val rb.val)

/-- `div rd, ra, rb` (03 R73, *ALU functions*). -/
def execDiv (x : Issue) (rd ra rb : Fin 32) (s : State) : Host.Outcome State Fault Refusal :=
  .next (s.wzAlu x .div rd.val ra.val rb.val)

/-- `rem rd, ra, rb` (03 R73, *ALU functions*). -/
def execRem (x : Issue) (rd ra rb : Fin 32) (s : State) : Host.Outcome State Fault Refusal :=
  .next (s.wzAlu x .rem rd.val ra.val rb.val)

/-- `min rd, ra, rb` (03 R73, *ALU functions*). -/
def execMin (x : Issue) (rd ra rb : Fin 32) (s : State) : Host.Outcome State Fault Refusal :=
  .next (s.wzAlu x .min rd.val ra.val rb.val)

/-- `max rd, ra, rb` (03 R73, *ALU functions*). -/
def execMax (x : Issue) (rd ra rb : Fin 32) (s : State) : Host.Outcome State Fault Refusal :=
  .next (s.wzAlu x .max rd.val ra.val rb.val)

/-- `minu rd, ra, rb` (03 R73, *ALU functions*). -/
def execMinu (x : Issue) (rd ra rb : Fin 32) (s : State) : Host.Outcome State Fault Refusal :=
  .next (s.wzAlu x .minu rd.val ra.val rb.val)

/-- `maxu rd, ra, rb` (03 R73, *ALU functions*). -/
def execMaxu (x : Issue) (rd ra rb : Fin 32) (s : State) : Host.Outcome State Fault Refusal :=
  .next (s.wzAlu x .maxu rd.val ra.val rb.val)

/-- `clz rd, ra` (03 R73, *ALU functions*). -/
def execClz (x : Issue) (rd ra : Fin 32) (s : State) : Host.Outcome State Fault Refusal :=
  .next (s.wzAluImm x .clz rd.val ra.val 0)

/-- `popc rd, ra` (03 R73, *ALU functions*). -/
def execPopc (x : Issue) (rd ra : Fin 32) (s : State) : Host.Outcome State Fault Refusal :=
  .next (s.wzAluImm x .popc rd.val ra.val 0)

/-- `bswap rd, ra` (03 R73, *ALU functions*). -/
def execBswap (x : Issue) (rd ra : Fin 32) (s : State) : Host.Outcome State Fault Refusal :=
  .next (s.wzAluImm x .bswap rd.val ra.val 0)

/-- `addi rd, ra, imm13` (03 R91): the immediate is sign-extended. -/
def execAddi (x : Issue) (rd ra : Fin 32) (imm : BitVec 13) (s : State) : Host.Outcome State Fault Refusal :=
  .next (s.wzAluImm x .add rd.val ra.val (imm.signExtend 64))

/-- `andi rd, ra, imm13` (03 R91): the immediate is zero-extended. -/
def execAndi (x : Issue) (rd ra : Fin 32) (imm : BitVec 13) (s : State) : Host.Outcome State Fault Refusal :=
  .next (s.wzAluImm x .and rd.val ra.val (imm.setWidth 64))

/-- `ori rd, ra, imm13` (03 R91): the immediate is zero-extended. -/
def execOri (x : Issue) (rd ra : Fin 32) (imm : BitVec 13) (s : State) : Host.Outcome State Fault Refusal :=
  .next (s.wzAluImm x .or rd.val ra.val (imm.setWidth 64))

/-- `xori rd, ra, imm13` (03 R91): the immediate is zero-extended. -/
def execXori (x : Issue) (rd ra : Fin 32) (imm : BitVec 13) (s : State) : Host.Outcome State Fault Refusal :=
  .next (s.wzAluImm x .xor rd.val ra.val (imm.setWidth 64))

/-- `slli rd, ra, amount` (03 R91). -/
def execSlli (x : Issue) (rd ra : Fin 32) (amount : Fin 64) (s : State) : Host.Outcome State Fault Refusal :=
  .next (s.wzAluImm x .sll rd.val ra.val (BitVec.ofNat 64 amount.val))

/-- `srli rd, ra, amount` (03 R91). -/
def execSrli (x : Issue) (rd ra : Fin 32) (amount : Fin 64) (s : State) : Host.Outcome State Fault Refusal :=
  .next (s.wzAluImm x .srl rd.val ra.val (BitVec.ofNat 64 amount.val))

/-- `srai rd, ra, amount` (03 R91). -/
def execSrai (x : Issue) (rd ra : Fin 32) (amount : Fin 64) (s : State) : Host.Outcome State Fault Refusal :=
  .next (s.wzAluImm x .sra rd.val ra.val (BitVec.ofNat 64 amount.val))

/-- `movi rd, imm18`: rd := sext(imm18) (03 R91). -/
def execMovi (x : Issue) (rd : Fin 32) (imm : BitVec 18) (s : State) : Host.Outcome State Fault Refusal :=
  .next (s.wzReg x [] rd.val fun _ => imm.signExtend 64)

/-- `movk rd, imm18`: rd := (rd << 18) | imm18 (03 R91). -/
def execMovk (x : Issue) (rd : Fin 32) (imm : BitVec 18) (s : State) : Host.Outcome State Fault Refusal :=
  .next (s.wzReg x [rd.val] rd.val fun th => (th.g rd.val <<< 18) ||| imm.setWidth 64)

/-- `cmp.cc pd, ra, rb` (03 R91). -/
def execCmp (x : Issue) (cc pd : Fin 8) (ra rb : Fin 32) (s : State) : Host.Outcome State Fault Refusal :=
  .next (s.wzCmp x cc.val pd.val [ra.val, rb.val] (fun th => th.g ra.val) (fun th => th.g rb.val))

/-- `cmpi.cc pd, ra, imm12` (03 R91): the immediate is sign-extended. -/
def execCmpi (x : Issue) (cc pd : Fin 8) (ra : Fin 32) (imm : BitVec 12) (s : State) : Host.Outcome State Fault Refusal :=
  .next (s.wzCmp x cc.val pd.val [ra.val] (fun th => th.g ra.val) (fun _ => imm.signExtend 64))

/-- `pand pd, pa, pb` (03 R91). -/
def execPand (x : Issue) (pd pa pb : Fin 8) (s : State) : Host.Outcome State Fault Refusal :=
  .next (s.wzPred x [] pd.val fun th => th.p pa.val && th.p pb.val)

/-- `por pd, pa, pb` (03 R91). -/
def execPor (x : Issue) (pd pa pb : Fin 8) (s : State) : Host.Outcome State Fault Refusal :=
  .next (s.wzPred x [] pd.val fun th => th.p pa.val || th.p pb.val)

/-- `pxor pd, pa, pb` (03 R91). -/
def execPxor (x : Issue) (pd pa pb : Fin 8) (s : State) : Host.Outcome State Fault Refusal :=
  .next (s.wzPred x [] pd.val fun th => th.p pa.val != th.p pb.val)

/-- `pandn pd, pa, pb`: pa & !pb (03 R91). -/
def execPandn (x : Issue) (pd pa pb : Fin 8) (s : State) : Host.Outcome State Fault Refusal :=
  .next (s.wzPred x [] pd.val fun th => th.p pa.val && !th.p pb.val)

/-- `pnot pd, pa` (03 R91). -/
def execPnot (x : Issue) (pd pa : Fin 8) (s : State) : Host.Outcome State Fault Refusal :=
  .next (s.wzPred x [] pd.val fun th => !th.p pa.val)

/-- `ptst pd, ga`: pd := (ga ≠ 0) (03 R91). -/
def execPtst (x : Issue) (pd : Fin 8) (ga : Fin 32) (s : State) : Host.Outcome State Fault Refusal :=
  .next (s.wzPred x [ga.val] pd.val fun th => th.g ga.val != 0)

/-- `ld.b rd, [ra + imm13]`: local load of 1 bytes (03 R92). -/
def execLdB (x : Issue) (rd ra : Fin 32) (imm : BitVec 13) (s : State) : Host.Outcome State Fault Refusal :=
  .next (s.wzLoad x 1 true rd.val ra.val imm)

/-- `ld.h rd, [ra + imm13]`: local load of 2 bytes (03 R92). -/
def execLdH (x : Issue) (rd ra : Fin 32) (imm : BitVec 13) (s : State) : Host.Outcome State Fault Refusal :=
  .next (s.wzLoad x 2 true rd.val ra.val imm)

/-- `ld.w rd, [ra + imm13]`: local load of 4 bytes (03 R92). -/
def execLdW (x : Issue) (rd ra : Fin 32) (imm : BitVec 13) (s : State) : Host.Outcome State Fault Refusal :=
  .next (s.wzLoad x 4 true rd.val ra.val imm)

/-- `ld.d rd, [ra + imm13]`: local load of 8 bytes (03 R92). -/
def execLdD (x : Issue) (rd ra : Fin 32) (imm : BitVec 13) (s : State) : Host.Outcome State Fault Refusal :=
  .next (s.wzLoad x 8 true rd.val ra.val imm)

/-- `ld.bu rd, [ra + imm13]`: local load of 1 bytes (03 R92). -/
def execLdBu (x : Issue) (rd ra : Fin 32) (imm : BitVec 13) (s : State) : Host.Outcome State Fault Refusal :=
  .next (s.wzLoad x 1 false rd.val ra.val imm)

/-- `ld.hu rd, [ra + imm13]`: local load of 2 bytes (03 R92). -/
def execLdHu (x : Issue) (rd ra : Fin 32) (imm : BitVec 13) (s : State) : Host.Outcome State Fault Refusal :=
  .next (s.wzLoad x 2 false rd.val ra.val imm)

/-- `ld.wu rd, [ra + imm13]`: local load of 4 bytes (03 R92). -/
def execLdWu (x : Issue) (rd ra : Fin 32) (imm : BitVec 13) (s : State) : Host.Outcome State Fault Refusal :=
  .next (s.wzLoad x 4 false rd.val ra.val imm)

/-- `st.b rs, [ra + imm13]`: local store of 1 bytes (03 R92). -/
def execStB (x : Issue) (rs ra : Fin 32) (imm : BitVec 13) (s : State) : Host.Outcome State Fault Refusal :=
  .next (s.wzStore x 1 rs.val ra.val imm)

/-- `st.h rs, [ra + imm13]`: local store of 2 bytes (03 R92). -/
def execStH (x : Issue) (rs ra : Fin 32) (imm : BitVec 13) (s : State) : Host.Outcome State Fault Refusal :=
  .next (s.wzStore x 2 rs.val ra.val imm)

/-- `st.w rs, [ra + imm13]`: local store of 4 bytes (03 R92). -/
def execStW (x : Issue) (rs ra : Fin 32) (imm : BitVec 13) (s : State) : Host.Outcome State Fault Refusal :=
  .next (s.wzStore x 4 rs.val ra.val imm)

/-- `st.d rs, [ra + imm13]`: local store of 8 bytes (03 R92). -/
def execStD (x : Issue) (rs ra : Fin 32) (imm : BitVec 13) (s : State) : Host.Outcome State Fault Refusal :=
  .next (s.wzStore x 8 rs.val ra.val imm)

/-- `br disp`: PC := PC + 4 × sext(disp23) (03 R91). -/
def execBr (x : Issue) (disp : BitVec 23) (s : State) : Host.Outcome State Fault Refusal :=
  .next (s.wzIssue x {} noChk fun s =>
    let th := s.thr x.core.val x.thread.val
    s.setThr x.core.val x.thread.val { th with pc := branchTo th.pc disp })

/-- `call disp`: g31 := PC + 4, then as `br` (03 R91). -/
def execCall (x : Issue) (disp : BitVec 23) (s : State) : Host.Outcome State Fault Refusal :=
  .next (s.wzIssue x { dsts := [31] } noChk fun s =>
    let th := s.thr x.core.val x.thread.val
    s.setThr x.core.val x.thread.val { th.setG 31 (BitVec.ofNat 64 (th.pc + 4)) with pc := branchTo th.pc disp })

/-- The check of a jump target (03 R92): ALIGN unless bits [1:0] are 0. -/
def jumpChk (x : Issue) (ra : Nat) (s : State) : WzCheck :=
  if ((s.thr x.core.val x.thread.val).g ra).toNat % 4 ≠ 0 then some 2 else none

/-- `jr ra`: PC := ra (03 R92). -/
def execJr (x : Issue) (ra : Fin 32) (s : State) : Host.Outcome State Fault Refusal :=
  .next (s.wzIssue x { srcs := [ra.val] } (jumpChk x ra.val) fun s =>
    let th := s.thr x.core.val x.thread.val
    s.setThr x.core.val x.thread.val { th with pc := (th.g ra.val).toNat })

/-- `jalr rd, ra`: the target is read, then rd := PC + 4 and PC := target (03 R92; assumption log 8). -/
def execJalr (x : Issue) (rd ra : Fin 32) (s : State) : Host.Outcome State Fault Refusal :=
  .next (s.wzIssue x { srcs := [ra.val], dsts := [rd.val] } (jumpChk x ra.val) fun s =>
    let th := s.thr x.core.val x.thread.val
    s.setThr x.core.val x.thread.val { th.setG rd.val (BitVec.ofNat 64 (th.pc + 4)) with pc := (th.g ra.val).toNat })

end Sys2Proof.Machine
end

