-- ==== Sys2Proof/Machine/WzA.lean ====
section
/-! DEFINITION. The WZ-A profile: the fields of an instruction word, the check of an action program when it is staged
(spec/09_match_act_programs.md R243) and the parts of its execution that touch only its own registers and context. -/

namespace Sys2Proof.Machine

/-! Fields of an instruction word (03 *Instruction formats*). -/

def wMajor (w : Nat) : Nat := w / 2 ^ 26 % 64
def wPred (w : Nat) : Nat := w / 2 ^ 23 % 8
def wRd (w : Nat) : Nat := w / 2 ^ 18 % 32
def wRa (w : Nat) : Nat := w / 2 ^ 13 % 32
def wRb (w : Nat) : Nat := w / 2 ^ 8 % 32
def wFunc8 (w : Nat) : Nat := w % 256
def wSel (w : Nat) : Nat := w / 16 % 16
def wFunc4 (w : Nat) : Nat := w % 16
def wImm13 (w : Nat) : BitVec 13 := BitVec.ofNat 13 w
def wImm18 (w : Nat) : BitVec 18 := BitVec.ofNat 18 w
def wDisp (w : Nat) : BitVec 23 := BitVec.ofNat 23 w
def wPd (w : Nat) : Nat := w / 2 ^ 20 % 8

/-- The functions of major 0x00 by their code. -/
def aluFns : List AluFn :=
  [.add, .sub, .and, .or, .xor, .sll, .srl, .sra, .mul, .mulhu, .divu, .remu, .div, .rem, .min, .max, .minu, .maxu, .clz,
   .popc, .bswap]

/-! Checks at staging (09 R243, *Program staging results*). -/

/-- Which register fields an instruction names, and the value of the fields it does not use. -/
structure WzaForm where
  known : Bool := true
  regs : List Nat := []
  unused : Nat := 0
  deriving DecidableEq, Repr

/-- The registers and unused fields of an `act.*` word (09 *Action operations*). -/
def actForm (w : Nat) : WzaForm :=
  match wFunc4 w with
  | 0 => { regs := [wRd w], unused := wRa w + wRb w + (if 3 < wSel w then 1 else 0) }
  | 1 => { regs := [wRa w], unused := wRd w + wRb w + wSel w }
  | 2 => { regs := [wRa w, wRb w], unused := wRd w + wSel w }
  | 3 => { unused := wRd w + wRa w + wRb w + wSel w }
  | 4 => { regs := [wRa w], unused := wRd w + wRb w + wSel w }
  | 5 => { regs := [wRd w, wRa w], unused := wRb w + wSel w }
  | 6 => { regs := [wRa w], unused := wRd w + wRb w + wSel w }
  | 7 => { regs := [wRa w], unused := wRd w + wRb w + wSel w }
  | 8 => { regs := [wRa w, wRb w], unused := wRd w + (if 3 < wSel w then 1 else 0) }
  | 9 => { regs := [wRa w], unused := wRd w + wRb w + wSel w }
  | 10 => { unused := wRd w + wRa w + wRb w + wSel w }
  | 15 => { unused := wRd w + wRa w + wRb w + wSel w }
  | _ => { known := false }

/-- The registers and unused fields of a word (09 *WZ-A instructions*, 03 *Instruction formats*). -/
def wzaForm (w : Nat) : WzaForm :=
  let m := wMajor w
  if m = 0 then
    if wFunc8 w < 0x12 then { regs := [wRd w, wRa w, wRb w] }
    else if wFunc8 w ≤ 0x14 then { regs := [wRd w, wRa w], unused := wRb w }
    else { known := false }
  else if m ≤ 4 then { regs := [wRd w, wRa w] }
  else if m = 5 then
    if w / 2 ^ 11 % 4 = 3 then { known := false } else { regs := [wRd w, wRa w], unused := w / 64 % 32 }
  else if m = 6 ∨ m = 7 then { regs := [wRd w] }
  else if m = 8 then
    if 6 ≤ w % 8 then { known := false }
    else { regs := [wRa w, wRb w], unused := w / 2 ^ 18 % 4 + w / 8 % 32 }
  else if m = 9 then
    if 6 ≤ w / 2 ^ 17 % 8 then { known := false } else { regs := [w / 2 ^ 12 % 32] }
  else if m = 0x0A then
    let pa := w / 2 ^ 17 % 8
    let pb := w / 2 ^ 14 % 8
    let ga := w / 2 ^ 9 % 32
    let z := w / 8 % 64
    if w % 8 < 4 then { unused := ga + z }
    else if w % 8 = 4 then { unused := pb + ga + z }
    else if w % 8 = 5 then { regs := [ga], unused := pa + pb + z }
    else { known := false }
  else if 0x10 ≤ m ∧ m ≤ 0x16 then { regs := [wRd w, wRa w] }
  else if 0x18 ≤ m ∧ m ≤ 0x1B then { regs := [wRd w, wRa w] }
  else if m = 0x20 then {}
  else if m = 0x38 then actForm w
  else { known := false }

/-- The first failure of a word of a program of `n` words at index `i` : OPCODE 3, REGISTER 4, BACKWARD 5, TARGET 6 or
RESERVED 10. -/
def wordCheck (n i w : Nat) : Option Nat :=
  let f := wzaForm w
  if !f.known then some 3
  else if f.regs.any (fun r => decide (16 ≤ r)) then some 4
  else if wMajor w = 0x20 ∧ (wDisp w).toInt < 1 then some 5
  else if wMajor w = 0x20 ∧ n ≤ i + (wDisp w).toNat then some 6
  else if f.unused ≠ 0 then some 10
  else none

/-- The first failing word and its code, by index. -/
def wordsCheck (n : Nat) : Nat → List Nat → Option (Nat × Nat)
  | _, [] => none
  | i, w :: t => match wordCheck n i w with
    | some c => some (c, i)
    | none => wordsCheck n (i + 1) t

/-- What a word adds to the counts of a path: instructions, look, meter, count, mirror, rewrite, encap and decap, and each
binding slot. -/
def pathItems (w : Nat) : List Nat :=
  let act := fun (fs : List Nat) => if wMajor w = 0x38 ∧ fs.contains (wFunc4 w) then 1 else 0
  [1, act [0], act [5], act [6], act [7], act [8], act [9, 10]] ++
    (List.range 4).map (fun k => if act [0] = 1 ∧ wSel w = k then 1 else 0)

/-- 09 *Limits per path*. -/
def pathLimits : List Nat := [32, 4, 2, 4, 2, 8, 1, 1, 1, 1, 1]

/-- The larger count of every item. -/
def pathMax : List Nat → List Nat → List Nat
  | [], l => l
  | l, [] => l
  | a :: t, b :: u => max a b :: pathMax t u

/-- The largest counts of any path that reaches word `i`, from what earlier words sent ahead. -/
def pathAt (i : Nat) (ahead : List (Nat × List Nat)) : Option (List Nat) :=
  (ahead.filter (fun e => e.1 == i)).foldl (fun a e => match a with
    | none => some e.2
    | some l => some (pathMax l e.2)) none

/-- The limits of R243 over every path that branches and predicates allow: PATH 7, ACT_COUNT 8 or NO_DONE 9, with the
first word in which it shows. `ahead` holds the counts with which earlier words reach later ones. -/
def pathsCheck (n : Nat) : Nat → List Nat → List (Nat × List Nat) → Option (Nat × Nat)
  | _, [], _ => none
  | i, w :: t, ahead =>
    match pathAt i ahead with
    | none => pathsCheck n (i + 1) t ahead
    | some c =>
      let c := List.zipWith (· + ·) c (pathItems w)
      if c.headD 0 > 32 then some (7, i)
      else if (List.zipWith (fun a b => decide (b < a)) c pathLimits).any id then some (8, i)
      else
        let pred := wPred w ≠ 0
        if wMajor w = 0x38 ∧ wFunc4 w = 15 then
          if pred then some (9, i) else pathsCheck n (i + 1) t ahead
        else
          let out := (if wMajor w = 0x20 then [i + (wDisp w).toNat] else []) ++
            (if wMajor w = 0x20 ∧ ¬ pred then [] else [i + 1])
          if out.any (fun j => decide (n ≤ j)) then some (9, i)
          else pathsCheck n (i + 1) t (ahead ++ out.map (fun j => (j, c)))

/-- The check of a program: code and word index of the first failure, none when it passes. `binds` are BIND0 to BIND3 as
written; `en` says which tables are enabled. -/
def progCheck (en : Nat → Bool) (binds words : List Nat) : Option (Nat × Nat) :=
  let n := words.length
  if binds.any (fun b => decide (b / 32 % 4 ≠ 0)) then some (10, 0)
  else match wordsCheck n 0 words with
    | some x => some x
    | none => match pathsCheck n 0 words [(0, pathLimits.map (fun _ => 0))] with
      | some x => some x
      | none =>
        if binds.any (fun b => decide (128 ≤ b) && !en (b % 32)) then some (11, 0)
        else match (List.range n).find? (fun i =>
            let w := words.getD i 0
            decide (wMajor w = 0x38 ∧ wFunc4 w = 0 ∧ binds.getD (wSel w) 0 < 128)) with
          | some i => some (11, i)
          | none => none

/-! Execution (09 R244, R245). -/

/-- What an action program decides (09 R245). -/
inductive Disp where
  | none
  | queue (target : Nat)
  | punt (usher queue data : Nat)
  deriving DecidableEq, Repr

/-- A running action program: registers and predicates, the packet context, the COLOUR in force, what it has recorded. -/
structure WzaRun where
  th : Thread := {}
  ctx : List Byte
  colour : Nat
  rewrites : List (Nat × List Byte) := []   -- context offset and bytes, in program order
  mirrors : List Nat := []
  disp : Disp := .none
  drop : Bool := false
  decap : Bool := false
  encap : Option Nat := none
  hit : Bool := false                       -- it hit a changed entry (R251)
  fault : Option Nat := none                -- word at which an access left the context (R244)
  deriving DecidableEq, Repr

/-- Bytes of the context; those beyond its end are 0. -/
def ctxBytes (ctx : List Byte) (a n : Nat) : List Byte := (List.range n).map (fun i => ctx.getD (a + i) 0)

/-- Write bytes of the context. -/
def ctxWrite (ctx : List Byte) (a : Nat) (v : List Byte) : List Byte := ctx.take a ++ v ++ ctx.drop (a + v.length)

/-- Sign extension of the low `n` bytes. -/
def sextBytes (n : Nat) (v : Nat) : Word := BitVec.ofInt 64 (signed (8 * n) v)

/-- One base instruction: registers, predicates and context. Loads and stores outside their range end the program. -/
def wzaBase (r : WzaRun) (i w : Nat) : WzaRun :=
  let th := r.th
  let put := fun (v : Word) => { r with th := th.setG (wRd w) v }
  let a := th.g (wRa w)
  let m := wMajor w
  if m = 0 then put (aluEval (aluFns.getD (wFunc8 w) .add) a (th.g (wRb w)))
  else if m = 1 then put (a + (wImm13 w).signExtend 64)
  else if m = 2 then put (a &&& (wImm13 w).setWidth 64)
  else if m = 3 then put (a ||| (wImm13 w).setWidth 64)
  else if m = 4 then put (a ^^^ (wImm13 w).setWidth 64)
  else if m = 5 then
    put (aluEval (match w / 2 ^ 11 % 4 with
      | 0 => .sll
      | 1 => .srl
      | _ => .sra) a (BitVec.ofNat 64 (w % 64)))
  else if m = 6 then put ((wImm18 w).signExtend 64)
  else if m = 7 then put (th.g (wRd w) <<< 18 ||| (wImm18 w).setWidth 64)
  else if m = 8 then { r with th := th.setP (wPd w) (ccEval (w % 8) a (th.g (wRb w))) }
  else if m = 9 then
    { r with th := th.setP (wPd w) (ccEval (w / 2 ^ 17 % 8) (th.g (w / 2 ^ 12 % 32)) ((BitVec.ofNat 12 w).signExtend 64)) }
  else if m = 0x0A then
    let pa := th.p (w / 2 ^ 17 % 8)
    let pb := th.p (w / 2 ^ 14 % 8)
    { r with th := th.setP (wPd w) (match w % 8 with
      | 0 => pa && pb
      | 1 => pa || pb
      | 2 => pa != pb
      | 3 => pa && !pb
      | 4 => !pa
      | _ => th.g (w / 2 ^ 9 % 32) != 0) }
  else
    let ea := (a + (wImm13 w).signExtend 64).toNat
    if m < 0x18 then
      let k := m - 0x10
      let n := 2 ^ (if k < 4 then k else k - 4)
      if 0x180 < ea + n then { r with fault := some i }
      else
        let v := leNat (ctxBytes r.ctx ea n)
        put (if k < 3 then sextBytes n v else BitVec.ofNat 64 v)
    else
      let n := 2 ^ (m - 0x18)
      if ea < 0x140 ∨ 0x180 < ea + n then { r with fault := some i }
      else { r with ctx := ctxWrite r.ctx ea (leBytes n (th.g (wRd w)).toNat) }

end Sys2Proof.Machine
end

