-- ==== Sys2Proof/Machine/Map.lean ====
section
/-! DEFINITION. Classification: what is in force in an epoch, the packet context, the parse graph, lookups, meters and the
`act.*` operations (spec/09_match_act_programs.md R233 to R254; spec/08_scheduling.md R216, R229, R231). -/

namespace Sys2Proof.Machine

/-! What is in force (09 R250, 07 R195). -/

/-- The version of an epoch of a Hall; an epoch with nothing published has nothing in force. -/
def State.version (s : State) (h e : Nat) : MapVersion :=
  (s.versions.find? (fun v => v.hall == h && v.epoch == e)).getD { hall := h, epoch := e }

/-- The current epoch of a Hall. -/
def State.epochNow (s : State) (h : Nat) : Nat := s.fld F.hallEpochStatusCurrent h

/-- The registers that `epoch.pub` publishes (09 R250). -/
def stagedReg : RegName → Bool
  | .hallEntry => true
  | .hallPnode => true
  | .hallPedge => true
  | .hallTblMiss => true
  | .hallInd => true
  | _ => false

/-- A staged register in force in a version. -/
def MapVersion.reg (v : MapVersion) (n : RegName) (j : Nat) : BitVec 64 := tabGet regReset v.regs ⟨n, v.hall, j⟩

/-- A field of one. -/
def MapVersion.fld (v : MapVersion) (f : Fld) (j : Nat) : Nat := fldGet f (v.reg f.reg j)

/-- The live epochs of a Hall other than the oldest: those whose publications R251 looks at. The oldest is the one that
lies furthest back from the current epoch. -/
def State.newerEpochs (s : State) (h : Nat) : List Nat :=
  let far := ((s.liveEpochs h).map (s.epochAge h)).foldl max 0
  (s.liveEpochs h).filter (fun e => decide (s.epochAge h e < far))

/-- What the publications of an epoch and of the newer live epochs changed (09 R251). -/
def State.changesFor (s : State) (h e : Nat) : List Change :=
  (s.version h e).changes ++ ((s.newerEpochs h).filter (· != e)).flatMap (fun x => (s.version h x).changes)

/-! The parse graph (09 R236, R237). -/

/-- The parse: layers recorded and flags. -/
structure Parse where
  offs : List Nat := []
  nodes : List Nat := []
  marks : List (Nat × Nat × Nat) := []   -- mark, offset, node; the latest first
  truncated : Bool := false
  limit : Bool := false
  deriving DecidableEq, Repr

/-- A 16-bit field of the header window. A byte beyond offset 255 reads 0. -/
def field16 (be : Bool) (win : List Byte) (a : Nat) : Nat :=
  let b := fun i => if i < 256 then (win.getD i 0).toNat else 0
  if be then b a * 256 + b (a + 1) else b a + 256 * b (a + 1)

/-- The next node: the first valid edge whose masked selection field has its value. -/
def parseEdge (v : MapVersion) (node sel : Nat) : Option Nat :=
  ((List.range 8).find? (fun e =>
    v.fld F.hallPedgeValid (node * 8 + e) == 1 &&
    (sel &&& v.fld F.hallPedgeMask (node * 8 + e)) == v.fld F.hallPedgeValue (node * 8 + e))).map
    (fun e => v.fld F.hallPedgeNext (node * 8 + e))

/-- One layer and on; `size` is 16 + LEN, `fuel` the layers that may still be recorded. -/
def parseFrom (v : MapVersion) (win : List Byte) (size : Nat) : Nat → Nat → Nat → Parse → Parse
  | 0, _, _, p => { p with limit := true }
  | fuel + 1, node, off, p =>
    let p := { p with offs := p.offs ++ [off], nodes := p.nodes ++ [node],
                      marks := if v.fld F.hallPnodeMarkEn node = 1 then (v.fld F.hallPnodeMark node, off, node) :: p.marks
                               else p.marks }
    let be := v.fld F.hallPnodeBe node == 1
    let lenOff := off + v.fld F.hallPnodeLenOff node
    let selOff := off + v.fld F.hallPnodeSelOff node
    let byField := v.fld F.hallPnodeLenMode node == 1
    let edges := (List.range 8).any (fun e => v.fld F.hallPedgeValid (node * 8 + e) == 1)
    if fuel = 0 then { p with limit := true }
    else if byField && decide (size < lenOff + 2) then { p with truncated := true }
    else
      let len := (if byField then
        ((field16 be win lenOff / 2 ^ v.fld F.hallPnodeLenShift node) &&& v.fld F.hallPnodeLenMask node) *
          2 ^ v.fld F.hallPnodeLenScale node else 0) + v.fld F.hallPnodeLenAdd node
      if len = 0 then { p with truncated := true }
      else if !edges then p
      else if size < selOff + 2 then { p with truncated := true }
      else
        match parseEdge v node (field16 be win selOff) with
        | none => p
        | some next =>
          if next ≠ 0 ∧ v.fld F.hallPnodeValid next = 0 then p
          else if 256 ≤ off + len ∨ size < off + len then { p with truncated := true }
          else parseFrom v win size fuel next (off + len) p

/-- PARSE_GRAPH_WALK: the whole parse, up to 16 layers. -/
def parsePacket (v : MapVersion) (win : List Byte) (size : Nat) : Parse := parseFrom v win size 16 0 0 {}

/-- The packet context (09 *Packet context*). -/
def packetContext (v : MapVersion) (pkt : Packet) (src hash : Nat) (pass2 : Bool) : List Byte :=
  let win := ((pkt.toBytes.take 256) ++ List.replicate 256 0).take 256
  let p := parsePacket v win pkt.size
  let at_ := fun (l : List Nat) i => BitVec.ofNat 8 (l.getD i 0xFF)
  let mark := fun m => (p.marks.find? (fun e => e.1 == m))
  win ++ [BitVec.ofNat 8 src, BitVec.ofNat 8 v.hall] ++ leBytes 2 v.epoch ++ leBytes 2 pkt.size ++
    [BitVec.ofNat 8 p.offs.length,
     BitVec.ofNat 8 ((if p.truncated then 1 else 0) + (if p.limit then 2 else 0) + (if pass2 then 4 else 0))] ++
    leBytes 4 hash ++ leBytes 4 0 ++ (List.range 16).map (at_ p.offs) ++ (List.range 16).map (at_ p.nodes) ++
    (List.range 4).map (fun m => BitVec.ofNat 8 ((mark m).elim 0xFF (fun e => e.2.1))) ++
    (List.range 4).map (fun m => BitVec.ofNat 8 ((mark m).elim 0xFF (fun e => e.2.2))) ++ leBytes 8 0 ++
    [0xFF, 0] ++ List.replicate 62 0

/-! Lookups (09 R239, R240). -/

/-- The key of a table for a context. -/
def State.tableKey (s : State) (h t : Nat) (ctx : List Byte) : List Byte :=
  (List.range 8).flatMap (fun k =>
    let j := t * 8 + k
    if !s.flag F.hallTblExtValid h j then []
    else
      let n := s.fld F.hallTblExtLength h j
      let off := s.fld F.hallTblExtOffset h j
      if s.flag F.hallTblExtRel h j then
        let i := s.fld F.hallTblExtLayer h j
        if (ctx.getD 0x106 0).toNat ≤ i then List.replicate n 0 else ctxBytes ctx ((ctx.getD (0x110 + i) 0).toNat + off) n
      else ctxBytes ctx off n)

/-- Two masked keys agree. -/
def maskedEq : List Byte → List Byte → List Byte → Bool
  | m :: ms, a :: t, b :: u => (a &&& m) == (b &&& m) && maskedEq ms t u
  | _, _, _ => true

/-- KIND, size in entries and key length of a table (09 *HALLn_TBLt registers*). -/
def State.tblKind (s : State) (h t : Nat) : Nat := s.fld F.hallTblDefKind h t
def State.tblSize (s : State) (h t : Nat) : Nat :=
  s.fld F.hallTblDefSize h t * (if s.tblKind h t = 1 then 64 else 1024)
def State.tblKeyBytes (s : State) (h t : Nat) : Nat := s.fld F.hallTblDefKeyBytes h t

/-- The winning entry of a list for a key (EXACT, TERNARY) or an index (DIRECT). -/
def entryFind (kind t : Nat) (es : List TblEntry) (key : List Byte) : Option TblEntry :=
  let mine := es.filter (fun e => e.table == t)
  match kind with
  | 0 => mine.find? (fun e => e.key == key)
  | 1 => (mine.filter (fun e => maskedEq e.mask key e.key)).foldl (fun a e => match a with
      | none => some e
      | some b => if e.index < b.index then some e else some b) none
  | _ => mine.find? (fun e => e.index == leNat key)

/-- Did a lookup hit a changed entry (09 R251)? -/
def lookChanged (kind t : Nat) (key : List Byte) (hit : Bool) (cs : List Change) : Bool :=
  cs.any (fun c => match c with
    | .exact t' k => kind == 0 && t' == t && k == key
    | .ternary t' k m => kind == 1 && t' == t && maskedEq m key k
    | .direct t' i => kind == 2 && t' == t && i == leNat key
    | .miss t' => t' == t && !hit
    | _ => false)

/-! Token arithmetic (08 R216) and meters (08 R229 to R231). -/

/-- Tokens gained at rate `r` Mb/s over `dt` ns in 1/1,024 byte, with the remainder carried. -/
def tokenGain (r dt rem : Nat) : Nat × Nat := ((r * dt * 16 + rem) / 125, (r * dt * 16 + rem) % 125)

/-- A meter of a Hall, and writing it. -/
def State.meter (s : State) (h m : Nat) : Meter := unitGet {} s.meters (h * 16384 + m)
def State.setMeter (s : State) (h m : Nat) (v : Meter) : State :=
  { s with meters := unitSet {} s.meters (h * 16384 + m) v }

/-- A meter refilled to `now`. -/
def Meter.refill (m : Meter) (now : Nat) : Meter :=
  let dt := now - m.since
  let c := tokenGain m.cir dt m.remC
  let p := tokenGain m.pir dt m.remP
  let tc := min (m.cbs * 1024) (m.tc + c.1)
  let tp := min (m.pbs * 1024) (m.tp + p.1)
  { m with tc := tc, tp := tp, remC := c.2, remP := p.2, since := max m.since now, issued := m.issued + c.1 + p.1,
           discarded := m.discarded + (m.tc + c.1 - tc) + (m.tp + p.1 - tp) }

/-- Meter `b` bytes of a colour (RFC 2698, 08 R229): the result and the meter after it. 0 GREEN, 1 YELLOW, 2 or 3 RED. -/
def Meter.run (m : Meter) (colour b : Nat) : Nat × Meter :=
  let u := b * 1024
  if m.aware ∧ 2 ≤ colour then (2, m)
  else if m.tp < u then (2, m)
  else if (m.aware ∧ colour = 1) ∨ m.tc < u then (1, { m with tp := m.tp - u, spent := m.spent + u })
  else (0, { m with tp := m.tp - u, tc := m.tc - u, spent := m.spent + 2 * u })

/-- The TB a meter refills to: in a LOCKSTEP Hall the start of the epoch in which the packet was presented (08 R231). -/
def State.meterNow (s : State) (h accepted : Nat) : Nat :=
  if s.flag F.hallModeLsActive h then accepted / 64 * 64 else s.tb

/-! Running a program (09 R244, R245). -/

/-- What an action program runs with. -/
structure WzaEnv where
  hall : Nat
  size : Nat                 -- 16 + LEN
  accepted : Nat             -- TB of acceptance
  version : MapVersion
  changes : List Change
  prog : Prog

/-- One `act.*` operation (09 *Action operations*); the flag says that the program has ended. -/
def State.wzaAct (s : State) (env : WzaEnv) (r : WzaRun) (w : Nat) : State × WzaRun × Bool :=
  let a := (r.th.g (wRa w)).toNat
  let b := (r.th.g (wRb w)).toNat
  match wFunc4 w with
  | 0 =>
    let t := env.prog.binds.getD (wSel w) 0 % 32
    let kind := s.tblKind env.hall t
    let key := s.tableKey env.hall t r.ctx
    let e := entryFind kind t env.version.entries key
    let v : Word := match e with
      | some e => e.data ||| BitVec.ofNat 64 (2 ^ 63)
      | none => BitVec.ofNat 64 (env.version.fld F.hallTblMissData t)
    (s, { r with th := r.th.setG (wRd w) v, hit := r.hit || lookChanged kind t key e.isSome env.changes }, false)
  | 1 => (s, { r with disp := .queue (a % 2 ^ 20) }, false)
  | 2 => (s, { r with disp := .punt (a % 8) (a / 16 % 16) (b % 2 ^ 32) }, false)
  | 3 => (s, { r with drop := true }, false)
  | 4 => (s, { r with colour := a % 4 }, false)
  | 5 =>
    let m := a % 16384
    let x := ((s.meter env.hall m).refill (s.meterNow env.hall env.accepted)).run r.colour env.size
    (s.setMeter env.hall m x.2, { r with colour := x.1, th := r.th.setG (wRd w) (BitVec.ofNat 64 x.1) }, false)
  | 6 =>
    let c := a % 65536
    ((s.addFld F.hallCntPktPackets env.hall c 1).addFld F.hallCntByteBytes env.hall c env.size, r, false)
  | 7 => (s, { r with mirrors := r.mirrors ++ [a % 16] }, false)
  | 8 => (s, { r with rewrites := r.rewrites ++ [(a, leBytes (2 ^ wSel w) b)] }, false)
  | 9 => (s, { r with encap := some (a % 4096) }, false)
  | 10 => (s, { r with decap := true }, false)
  | _ => (s, r, true)

/-- Run from word `i` on; branches go forward only, so the words that remain bound the run. -/
def State.wzaRun (env : WzaEnv) : Nat → Nat → State → WzaRun → State × WzaRun
  | 0, _, s, r => (s, r)
  | fuel + 1, i, s, r =>
    let w := env.prog.words.getD i 0
    if !r.th.p (wPred w) then State.wzaRun env fuel (i + 1) s r
    else if wMajor w = 0x20 then State.wzaRun env fuel (i + (wDisp w).toNat) s r
    else if wMajor w = 0x38 then
      let x := s.wzaAct env r w
      if x.2.2 then (x.1, x.2.1) else State.wzaRun env fuel (i + 1) x.1 x.2.1
    else
      let r := wzaBase r i w
      if r.fault.isSome then (s, r) else State.wzaRun env fuel (i + 1) s r

/-! Rewrites, encapsulation (09 R246, R247). -/

/-- The header bits a rewrite may change: TUNNEL_ID, FLOW, SUBSCRIBER and DROPPABLE. -/
def rewriteMask : List Byte :=
  leBytes 16 ((2 ^ 12 - 1) * 2 ^ 4 + (2 ^ 20 - 1) * 2 ^ 36 + 2 ^ 64 + (2 ^ 10 - 1) * 2 ^ 80)

/-- Write one byte of a packet under a rewrite. -/
def rewriteByte (size : Nat) (pkt : List Byte) (a : Nat) (v : Byte) : List Byte :=
  if 256 ≤ a ∨ size ≤ a then pkt
  else
    let m : Byte := if a < 16 then rewriteMask.getD a 0 else 0xFF
    pkt.set a ((pkt.getD a 0 &&& ~~~ m) ||| (v &&& m))

/-- Write the bytes of a rewrite. -/
def rewriteBytes (size : Nat) : List Byte → Nat → List Byte → List Byte
  | pkt, _, [] => pkt
  | pkt, a, b :: t => rewriteBytes size (rewriteByte size pkt a b) (a + 1) t

/-- Does a rewrite touch a payload byte of a packet of `size` bytes? -/
def rewritePayload (size : Nat) (x : Nat × List Byte) : Bool :=
  decide (x.1 < min 256 size ∧ 16 < x.1 + x.2.length)

/-- Apply the rewrites of a program; a packet with E2E skips those of payload bytes, counted in REWRITE_SKIP. -/
def State.applyRewrites (s : State) (h : Nat) (pkt : Packet) (rs : List (Nat × List Byte)) : State × Packet :=
  let x := rs.foldl (fun (x : State × List Byte) e =>
    if pkt.e2e && rewritePayload pkt.size e then (x.1.addSat F.hallMapStatusRewriteSkip h 0 1 0xFFFF, x.2)
    else (x.1, rewriteBytes pkt.size x.2 e.1 e.2)) (s, pkt.toBytes)
  (x.1, Packet.ofBytes x.2)

/-- The CASCADE packet that carries `inner` (07 R211, 09 R247); its HOPS are those of a packet the hub creates
(assumption log 21). -/
def encapPacket (inner : Packet) (tid hops : Nat) : Packet :=
  { type := 5, tunnelId := tid, vc := inner.vc, colour := inner.colour, flow := inner.flow, hops := hops,
    droppable := inner.lossy, subscriber := inner.subscriber, len := inner.size, payload := inner.toBytes }

/-! Acceptance checks (07 R184). -/

/-- The first failing check of *Acceptance checks and drop reasons*; `trunk` says that the packet arrived on one. -/
def acceptCheck (pkt : Packet) (poison trunk : Bool) : Option Nat :=
  if pkt.type = 6 ∨ pkt.type = 7 then some 1
  else if 9216 < pkt.len ∨ pkt.payload.length ≠ pkt.len ∨ (pkt.e2e ∧ pkt.len < 4) ∨ !pkt.cascadeOk then some 2
  else if pkt.reserved then some 3
  else if pkt.poison ∨ poison then some 4
  else if trunk ∧ pkt.hops = 0 then some 5
  else none

/-! Disposition. -/

/-- The leaf queue of a target word (07 R193, R194; 09 *Target word*): none when the indirection entry is not valid. -/
def targetQueue (v : MapVersion) (hash w : Nat) : Option Nat :=
  if w / 2 ^ 15 % 2 = 1 then
    let e := (v.reg .hallInd (w % 16 * 256 + hash % 256)).toNat
    if e / 2 ^ 15 % 2 = 1 then some (e % 8192) else none
  else some (w % 8192)

/-- The leaf queue of an Usher's input queue (09 R248): bound, and under the USHER port. -/
def State.puntQueue (s : State) (u i : Nat) : Option Nat :=
  let h := u / 2
  let j := u % 2 * 16 + i
  let q := h * 2048 + s.fld F.hallUshqQueue h j
  if s.flag F.hallUshqValid h j ∧ s.portOf q % 12 = 10 then some q else none

/-- Leave a classified packet: held for a changed entry (07 R197), or asking for admission. -/
def State.classified (s : State) (p : Parcel) (moved : Bool) : State :=
  let h := p.hall
  let hold := moved && s.flag F.hallBufCtrlHoldMoved h && p.epoch == s.epochNow h && s.olderLive h p.epoch
  if hold then
    ((s.putParcel { p with spot := .epochHeld, moved := true }).addFld F.hallEpochStatusHeld h 0 1).armOnce
      .epochHold h p.epoch (us (s.fld F.hallBufCtrlDrainMax h))
  else s.putParcel { p with spot := .asking, moved := moved, tbReady := s.readyAt p }

/-- The end of a program: rewrites, encapsulation, mirrors and the disposition (09 R245 to R248). The flag asks for a second
classification of the packet that was inside. -/
def State.actDone (s : State) (p : Parcel) (v : MapVersion) (cs : List Change) (r : WzaRun) : State × Option Parcel :=
  let h := p.hall
  let x := s.applyRewrites h { p.pkt with colour := r.colour } r.rewrites
  let inner := x.2
  let s := x.1
  let tooLong := r.encap.isSome && decide (9200 < inner.len)
  let pkt := match r.encap with
    | some tid => if tooLong then inner else encapPacket inner tid (s.fld F.hallBufCtrlHopsInit h)
    | none => inner
  let q := match r.disp with
    | .queue w => targetQueue v p.hash w
    | .punt u i _ => s.puntQueue u i
    | .none => none
  let final := !(r.drop || r.decap || tooLong)
  let pkt := match r.disp with
    | .queue w => if final && w / 2 ^ 19 % 2 == 0 then { pkt with vc := w / 2 ^ 16 % 8 } else pkt
    | _ => pkt
  let p := { p with
    pkt := pkt, queue := if final then q else none,
    ipOff := (r.ctx.getD 0x140 0xFF).toNat, ipKind := (r.ctx.getD 0x141 0).toNat }
  let s := s.putParcel p
  let s := r.mirrors.foldl (fun s g => s.galleryCopy p g 4 0 p.tbAccept) s
  let indChanged := match r.disp with
    | .queue w => decide (w / 2 ^ 15 % 2 = 1) && cs.any (fun c => c == .ind (w % 16) (p.hash % 256))
    | _ => false
  if r.drop then (s.dropPacket p.id 7, none)
  else if tooLong then (s.dropPacket p.id 2, none)
  else if r.decap then
    if p.pkt.type ≠ 5 ∨ p.pass2 then (s.dropPacket p.id 7, none) else (s, some { p with moved := r.hit || p.moved })
  else match r.disp, q with
    | .none, _ => (s.dropPacket p.id 7, none)
    | _, none => (s.dropPacket p.id 8, none)
    | .punt u i d, some _ => (s.classified { p with punt := some (u, i, d) } (r.hit || p.moved), none)
    | .queue _, some _ => (s.classified p (r.hit || indChanged || p.moved), none)

/-- One classification of a stamped packet by its entry program (09 R234, R235); the result as for `actDone`. -/
def State.classifyOnce (s : State) (p : Parcel) : State × Option Parcel :=
  let h := p.hall
  let v := s.version h p.epoch
  let cs := s.changesFor h p.epoch
  let num := v.fld F.hallEntryProg p.src
  match (if s.flag F.hallMapCtrlEn h ∧ v.fld F.hallEntryValid p.src = 1 then v.progs.find? (fun g => g.num == num) else none) with
  | none => (s.dropPacket p.id 8, none)
  | some g =>
    let env : WzaEnv := { hall := h, size := p.pkt.size, accepted := p.tbAccept, version := v, changes := cs, prog := g }
    let early := cs.any (fun c => c == .entryOf p.src || c == .prog num || c == .parse)
    let r : WzaRun := { ctx := packetContext v p.pkt p.src p.hash p.pass2, colour := p.pkt.colour, hit := early }
    let x := State.wzaRun env (g.words.length + 1) 0 s r
    match x.2.fault with
    | some i =>
      let s := (x.1.addSat F.hallMapStatusFaults h 0 1 0xFFFF).setFld F.hallMapStatusFaultWord h 0 i
      ((s.setFld F.hallMapStatusFaultProg h 0 num).dropPacket p.id 7, none)
    | none => x.1.actDone p v cs x.2

/-- The packet inside a CASCADE packet, checked as though it had arrived on the outer packet's trunk (07 R212): the parcel to
classify again, or its drop. -/
def State.decapsulate (s : State) (p : Parcel) (hit : Bool) : State × Option Parcel :=
  let inner := Packet.ofBytes p.pkt.payload
  let trunk := decide (p.src < 24) && !p.loc
  let q := { p with pkt := inner, pass2 := true, moved := hit, queue := none }
  match acceptCheck inner false trunk with
  | some c => ((s.putParcel q).dropPacket p.id c, none)
  | none =>
    let q := { q with pkt := { inner with hops := if trunk then inner.hops - 1 else inner.hops }, hash := inner.hash32 p.src,
                      key := flowKey inner.flow inner.tunnelId p.src }
    (s.putParcel q, some q)

/-- Stamp a packet, take its sample copies and classify it (09 R233; 07 R195, R204, R212). -/
def State.classify (s : State) (p : Parcel) : State :=
  let h := p.hall
  let s := s.stampEpoch h
  let p := { p with stamped := true, eHall := h, epoch := s.epochNow h, hash := p.pkt.hash32 p.src,
                    key := flowKey p.pkt.flow p.pkt.tunnelId p.src }
  let s := s.putParcel p
  let s := p.samples.foldl (fun s g => s.galleryCopy p g 2 0 p.tbAccept) s
  let x := s.classifyOnce p
  match x.2 with
  | none => x.1
  | some o =>
    let y := x.1.decapsulate o o.moved
    match y.2 with
    | none => y.1
    | some q => (y.1.classifyOnce q).1

end Sys2Proof.Machine
end

