-- ==== Sys2Proof/Machine/SchedBase.lean ====
section
/-! DEFINITION. Rates of scheduler ports: reserved rate, service rate and the isochronous limit (spec/08_scheduling.md R227;
spec/06_trunks_and_failover.md R180). -/

namespace Sys2Proof.Machine

/-- The port of a node: the top of its chain, under the parameters that `par` gives. -/
def nodePort (par : Nat → NodeParam) (id : Nat) : Nat :=
  let h := nodeHall id
  let up := fun (lvl i : Nat) => nodeId h (lvl + 1) (par (nodeId h lvl i)).parent
  12 * h + (match nodeLevel id with
    | 0 => nodeIndex (up 2 (nodeIndex (up 1 (nodeIndex (up 0 (nodeIndex id))))))
    | 1 => nodeIndex (up 2 (nodeIndex (up 1 (nodeIndex id))))
    | 2 => nodeIndex (up 2 (nodeIndex id))
    | _ => nodeIndex id)

/-- A sum of fractions, as numerator and denominator. -/
def fracAdd (x : Nat × Nat) (a b : Nat) : Nat × Nat := (x.1 * b + a * x.2, x.2 * b)

/-- A port's reserved rate in Mb/s, as a fraction: the sum of RES_BYTES × 8 / INTERVAL over its reservations. -/
def reservedOf (ids : List Nat) (par : Nat → NodeParam) (p : Nat) : Nat × Nat :=
  ids.foldl (fun x id =>
    if nodeLevel id = 1 ∧ (par id).enable ∧ 0 < (par id).resBytes ∧ nodePort par id = p
    then fracAdd x ((par id).resBytes * 8) (max 1 (par id).interval) else x) (0, 1)

/-- The live reserved rate of a port. -/
def State.reservedRate (s : State) (p : Nat) : Nat × Nat :=
  reservedOf (s.nodes.map (fun e => e.1)) (fun id => (s.node id).param) p

/-- The payload rate of a lane in 1/512 Mb/s, by RATE_NOW. -/
def lanePayload : Nat → Nat
  | 0 => 25712500
  | 1 => 12856250
  | _ => 6428125

/-- The trunk of a scheduler port, none for a local port (01 R18). -/
def portTrunk (p : Nat) : Option Nat := if p % 12 < 6 then some (p / 12 * 6 + p % 12) else none

/-- The positions of an active list. -/
def maskPos (mask : Nat) : List Nat := (List.range 8).filter (fun p => mask.testBit p)

/-- The payload rate of a trunk over the positions of a list, in 1/512 Mb/s. -/
def State.trunkRate (s : State) (n mask : Nat) : Nat :=
  ((maskPos mask).map (fun p => lanePayload (s.fld F.laneStatusRateNow (s.trkFirst n + p)))).sum

/-- The payload rate of a TD-212 trunk in 1/512 Mb/s: 120 bytes in a frame of 130 ns on one lane, of 66 ns on two (12 R303, R305;
assumption log 187). -/
def tdRate (lanes : Nat) : Nat := if lanes = 0 then 0 else 120 * 8 * 1000 * 512 / (if lanes = 2 then 66 else 130)

/-- The service rate of a port in 1/512 Mb/s; 0 for a trunk with no active list (assumption log 24). -/
def State.serviceRate (s : State) (p : Nat) : Nat :=
  match portTrunk p with
  | some n => if s.tdOn n then tdRate (s.fld F.trkTdStatusLanesUp n) else s.trunkRate n (s.fld F.trkLinkStatusActive n)
  | none =>
    let pir := (s.node (nodeId (p / 12) 3 (p % 12))).param.pir
    (if pir = 0 then 400000 else pir) * 512

/-- The isochronous share of a port in %. -/
def State.isoShare (s : State) (p : Nat) : Nat :=
  match portTrunk p with
  | some n => s.fld F.trkPairIsoLimit n
  | none => s.fld F.spCtrlIsoLimit p

/-- Is a reserved rate above ISO_LIMIT % of a service rate in 1/512 Mb/s? -/
def overLimit (res : Nat × Nat) (rate share : Nat) : Bool := decide (rate * share * res.2 < res.1 * 512 * 100)

/-- ISO_OVER (06 R180): a trunk port's reservations exceed the limit of its new rate. -/
def State.isoCheck (s : State) (n : Nat) : State :=
  let p := n / 6 * 12 + n % 6
  if overLimit (s.reservedRate p) (s.serviceRate p) (s.isoShare p)
  then (s.setFld F.trkPairStatusIsoOver n 0 1).ring 8 (96 + n) else s

end Sys2Proof.Machine
end

