-- ==== Sys2Proof/Machine/Crypto.lean ====
section
/-! DEFINITION. The cryptographic standards that spec/00_scope.md R12 names: SHA-384 (FIPS 180-4) and HMAC over it, AES-256 (FIPS
197) in GCM (SP 800-38D), ECDSA and ECDH over P-384 (FIPS 186-4). The spec gives none of their text: they are written from the
standards (assumption log 14). -/

namespace Sys2Proof.Machine

/-- A list cut into `k` pieces of `n`. -/
def chunks {α : Type} (n : Nat) : Nat → List α → List (List α)
  | 0, _ => []
  | k + 1, l => l.take n :: chunks n k (l.drop n)

/-! SHA-384. -/

/-- The largest x below 2 ^ bits with `le x`, found from its highest bit down. -/
def rootBits (le : Nat → Bool) : Nat → Nat → Nat
  | 0, x => x
  | b + 1, x => rootBits le b (if le (x + 2 ^ b) then x + 2 ^ b else x)

/-- The first 80 primes. -/
def shaPrimes : List Nat := (List.range 410).filter (fun n => decide (2 ≤ n) && (List.range n).all (fun d => decide (d < 2) || n % d != 0))

/-- The 64-bit constants: fractions of the cube roots of the first 80 primes; of the square roots of the ninth to the sixteenth. -/
def shaK : List Nat := (shaPrimes.take 80).map (fun p => rootBits (fun x => decide (x * x * x ≤ p * 2 ^ 192)) 68 0 % 2 ^ 64)
def shaInit : List Nat := ((shaPrimes.drop 8).take 8).map (fun p => rootBits (fun x => decide (x * x ≤ p * 2 ^ 128)) 68 0 % 2 ^ 64)

/-- A 64-bit rotation to the right. -/
def rotr (n x : Nat) : Nat := x / 2 ^ n + x % 2 ^ n * 2 ^ (64 - n)

/-- The message schedule of a block, newest word first: `n` words behind those in `l`. -/
def shaWords : Nat → List Nat → List Nat
  | 0, l => l
  | n + 1, l =>
    let a := l.getD 14 0
    let b := l.getD 1 0
    let s0 := rotr 1 a ^^^ rotr 8 a ^^^ a / 2 ^ 7
    let s1 := rotr 19 b ^^^ rotr 61 b ^^^ b / 2 ^ 6
    shaWords n ((l.getD 15 0 + s0 + l.getD 6 0 + s1) % 2 ^ 64 :: l)

/-- One round on the eight working variables. -/
def shaRound (v : List Nat) (kw : Nat × Nat) : List Nat :=
  match v with
  | [a, b, c, d, e, f, g, h] =>
    let s1 := rotr 14 e ^^^ rotr 18 e ^^^ rotr 41 e
    let ch := (e &&& f) ^^^ ((2 ^ 64 - 1 - e) &&& g)
    let t1 := h + s1 + ch + kw.1 + kw.2
    let s0 := rotr 28 a ^^^ rotr 34 a ^^^ rotr 39 a
    let maj := (a &&& b) ^^^ (a &&& c) ^^^ (b &&& c)
    [(t1 + s0 + maj) % 2 ^ 64, a, b, c, (d + t1) % 2 ^ 64, e, f, g]
  | l => l

/-- The hash value after a block. -/
def shaBlock (h : List Nat) (block : List Byte) : List Nat :=
  let ws := (shaWords 64 ((chunks 8 16 block).map beNat).reverse).reverse
  h.zipWith (fun x y => (x + y) % 2 ^ 64) ((shaK.zip ws).foldl shaRound h)

/-- SHA-384, 48 bytes. -/
def sha384 (m : List Byte) : List Byte :=
  let k := (m.length + 17 + 127) / 128
  let padded := m ++ [0x80] ++ List.replicate (128 * k - m.length - 17) 0 ++ beBytes 16 (8 * m.length)
  (((chunks 128 k padded).foldl shaBlock shaInit).flatMap (beBytes 8)).take 48

/-- HMAC-SHA-384 of a key and a message. -/
def hmac384 (key m : List Byte) : List Byte :=
  let k := if 128 < key.length then sha384 key else key
  let k := k ++ List.replicate (128 - k.length) 0
  sha384 (k.map (fun b => b ^^^ 0x5C) ++ sha384 (k.map (fun b => b ^^^ 0x36) ++ m))

/-! AES-256. -/

/-- A product in GF(2^8) modulo x^8 + x^4 + x^3 + x + 1, over the low `n` bits of the second factor. -/
def aesMulBits : Nat → Nat → Nat → Nat
  | 0, _, _ => 0
  | n + 1, a, b =>
    let x := aesMulBits n a (b / 2)
    (if 128 ≤ x then (2 * x) ^^^ 0x11B else 2 * x) ^^^ (if b % 2 = 1 then a else 0)
def aesMul (a b : Nat) : Nat := aesMulBits 8 a b

/-- The S-box: inverse, then the affine map. -/
def aesSub (a : Nat) : Nat :=
  let sq := fun x => aesMul x x
  let a2 := sq a
  let a4 := sq a2
  let a8 := sq a4
  let a16 := sq a8
  let a32 := sq a16
  let a64 := sq a32
  let b := aesMul (aesMul (aesMul a2 a4) (aesMul a8 a16)) (aesMul (aesMul a32 a64) (sq a64))
  let r := fun n => b * 2 ^ n % 256 + b / 2 ^ (8 - n)
  b ^^^ r 1 ^^^ r 2 ^^^ r 3 ^^^ r 4 ^^^ 0x63

/-- The words of the key schedule, newest first: `n` words behind the `i` words in `l`. -/
def aesWords : Nat → Nat → Nat → List (List Nat) → List (List Nat)
  | 0, _, _, l => l
  | n + 1, i, rcon, l =>
    let t := l.headD []
    let x := if i % 8 = 0 then match (t.drop 1 ++ t.take 1).map aesSub with
        | a :: r => (a ^^^ rcon) :: r
        | [] => []
      else if i % 8 = 4 then t.map aesSub else t
    aesWords n (i + 1) (if i % 8 = 0 then aesMul rcon 2 else rcon) (x.zipWith (· ^^^ ·) (l.getD 7 []) :: l)

/-- The fifteen round keys of a key of 32 bytes. -/
def aesKeys (key : List Byte) : List (List Nat) :=
  (chunks 4 15 (aesWords 52 8 1 (chunks 4 8 (key.map (·.toNat))).reverse).reverse).map List.flatten

/-- Byte i of a state after ShiftRows stands at this index before. -/
def shiftRow (l : List Nat) : List Nat := (List.range 16).map (fun i => l.getD ((i + 4 * (i % 4)) % 16) 0)

/-- MixColumns on one column. -/
def mixColumn : List Nat → List Nat
  | [a, b, c, d] =>
    [aesMul a 2 ^^^ aesMul b 3 ^^^ c ^^^ d, a ^^^ aesMul b 2 ^^^ aesMul c 3 ^^^ d,
     a ^^^ b ^^^ aesMul c 2 ^^^ aesMul d 3, aesMul a 3 ^^^ b ^^^ c ^^^ aesMul d 2]
  | l => l

/-- The rounds after the first key; the last mixes no columns. -/
def aesRounds : List (List Nat) → List Nat → List Nat
  | [], s => s
  | [k], s => (shiftRow (s.map aesSub)).zipWith (· ^^^ ·) k
  | k :: t, s => aesRounds t (((chunks 4 4 (shiftRow (s.map aesSub))).flatMap mixColumn).zipWith (· ^^^ ·) k)

/-- AES of one block. -/
def aesBlock (keys : List (List Nat)) (b : List Byte) : List Byte :=
  match keys with
  | [] => b
  | k :: t => (aesRounds t ((b.map (·.toNat)).zipWith (· ^^^ ·) k)).map (BitVec.ofNat 8)

/-! GCM. -/

/-- Blocks of 16 bytes, the last filled with zeros. -/
def blocks16 (l : List Byte) : List (List Byte) :=
  let n := (l.length + 15) / 16
  chunks 16 n (l ++ List.replicate (16 * n - l.length) 0)

/-- A product in GF(2^128) as SP 800-38D orders bits, over the top `n` bits of the first factor. -/
def ghashMul : Nat → Nat → Nat → Nat → Nat
  | 0, _, _, z => z
  | n + 1, x, v, z =>
    ghashMul n x (if v % 2 = 1 then (v / 2) ^^^ (0xE1 * 2 ^ 120) else v / 2) (if x.testBit n then z ^^^ v else z)

/-- GHASH under a subkey. -/
def ghash (h : Nat) (l : List (List Byte)) : Nat := l.foldl (fun y b => ghashMul 128 (y ^^^ beNat b) h 0) 0

/-- Counter mode from a counter value on, behind a 96-bit IV. -/
def gcmCtr (keys : List (List Nat)) (iv data : List Byte) : List Byte :=
  let ks := (List.range ((data.length + 15) / 16)).flatMap (fun i => aesBlock keys (iv ++ beBytes 4 (i + 2)))
  data.zipWith (· ^^^ ·) ks

/-- The tag of a ciphertext. -/
def gcmTag (keys : List (List Nat)) (iv aad data : List Byte) : List Byte :=
  let h := beNat (aesBlock keys (List.replicate 16 0))
  let y := ghash h (blocks16 aad ++ blocks16 data ++ [beBytes 8 (8 * aad.length) ++ beBytes 8 (8 * data.length)])
  (beBytes 16 y).zipWith (· ^^^ ·) (aesBlock keys (iv ++ beBytes 4 1))

/-- AES-256-GCM encryption with a 96-bit IV: ciphertext and tag. -/
def gcmSeal (key iv aad data : List Byte) : List Byte × List Byte :=
  let ks := aesKeys key
  let c := gcmCtr ks iv data
  (c, gcmTag ks iv aad c)

/-- AES-256-GCM decryption: the plaintext when the tag verifies. -/
def gcmOpen (key iv aad data tag : List Byte) : Option (List Byte) :=
  let ks := aesKeys key
  if gcmTag ks iv aad data = tag then some (gcmCtr ks iv data) else none

/-! P-384. -/

def p384P : Nat := 2 ^ 384 - 2 ^ 128 - 2 ^ 96 + 2 ^ 32 - 1
def p384N : Nat := 0xFFFFFFFFFFFFFFFFFFFFFFFFFFFFFFFFFFFFFFFFFFFFFFFFC7634D81F4372DDF581A0DB248B0A77AECEC196ACCC52973
def p384B : Nat := 0xB3312FA7E23EE7E4988E056BE3F82D19181D9C6EFE8141120314088F5013875AC656398D8A2ED19D2A85C8EDD3EC2AEF
def p384G : Nat × Nat :=
  (0xAA87CA22BE8B05378EB1C71EF320AD746E1D3B628BA79B9859F741E082542A385502F25DBF55296C3A545E3872760AB7,
   0x3617DE4A96262C6F5D9E98BF9292DC29F8F41DBD289A147CE9DA3113B5F0B8C00A60B1CE1D7E819D7A431D7C90EA0E5F)

/-- A power modulo m, over the low `n` bits of the exponent. -/
def powMod (m a : Nat) : Nat → Nat → Nat
  | 0, _ => 1
  | n + 1, e =>
    let x := powMod m a n (e / 2)
    x * x % m * (if e % 2 = 1 then a else 1) % m

/-- The inverse modulo a prime of 384 bits. -/
def invMod (m a : Nat) : Nat := powMod m a 384 (m - 2)

/-- A point in Jacobian coordinates; Z = 0 is the point at infinity. -/
structure EcPoint where
  x : Nat
  y : Nat
  z : Nat
  deriving DecidableEq, Repr

/-- A difference modulo p. -/
def subP (a b : Nat) : Nat := (a + p384P - b) % p384P

/-- Twice a point. -/
def EcPoint.double (q : EcPoint) : EcPoint :=
  let yy := q.y * q.y % p384P
  let s := 4 * q.x * yy % p384P
  let zz := q.z * q.z % p384P
  let m := 3 * (subP q.x zz) * (q.x + zz) % p384P
  let x := subP (m * m % p384P) (2 * s % p384P)
  { x := x, y := subP (m * subP s x % p384P) (8 * yy * yy % p384P), z := 2 * q.y * q.z % p384P }

/-- The sum of two points. -/
def EcPoint.add (q r : EcPoint) : EcPoint :=
  if q.z = 0 then r else if r.z = 0 then q
  else
    let z1 := q.z * q.z % p384P
    let z2 := r.z * r.z % p384P
    let u1 := q.x * z2 % p384P
    let u2 := r.x * z1 % p384P
    let s1 := q.y * z2 * r.z % p384P
    let s2 := r.y * z1 * q.z % p384P
    if u1 = u2 then (if s1 = s2 then q.double else { x := 1, y := 1, z := 0 })
    else
      let h := subP u2 u1
      let d := subP s2 s1
      let hh := h * h % p384P
      let hhh := h * hh % p384P
      let v := u1 * hh % p384P
      let x := subP (d * d % p384P) ((hhh + 2 * v) % p384P)
      { x := x, y := subP (d * subP v x % p384P) (s1 * hhh % p384P), z := h * q.z * r.z % p384P }

/-- A multiple of a point, over the low `n` bits of the factor. -/
def EcPoint.mul (q : EcPoint) : Nat → Nat → EcPoint
  | 0, _ => { x := 1, y := 1, z := 0 }
  | n + 1, k =>
    let d := (q.mul n (k / 2)).double
    if k % 2 = 1 then d.add q else d

/-- Affine coordinates; none at infinity. -/
def EcPoint.affine (q : EcPoint) : Option (Nat × Nat) :=
  if q.z = 0 then none
  else
    let i := invMod p384P q.z
    let ii := i * i % p384P
    some (q.x * ii % p384P, q.y * ii * i % p384P)

/-- A point of affine coordinates, and the base point. -/
def EcPoint.of (q : Nat × Nat) : EcPoint := { x := q.1, y := q.2, z := 1 }
def ecBase : EcPoint := EcPoint.of p384G

/-- The point that 97 bytes give: 0x04, X, Y; none when they give none of the curve. -/
def ecParse (b : List Byte) : Option EcPoint :=
  let x := beNat ((b.drop 1).take 48)
  let y := beNat ((b.drop 49).take 48)
  if b.length = 97 ∧ b.headD 0 = 4 ∧ x < p384P ∧ y < p384P ∧ y * y % p384P = (x * x * x + (p384P - 3) * x + p384B) % p384P
  then some (EcPoint.of (x, y)) else none

/-- The public key of a private key, 97 bytes. -/
def p384Public (key : List Byte) : List Byte :=
  match (ecBase.mul 384 (beNat key % p384N)).affine with
  | some q => [4] ++ beBytes 48 q.1 ++ beBytes 48 q.2
  | none => List.replicate 97 0

/-- The integer that a digest of 48 bytes gives. -/
def digestNat (d : List Byte) : Nat := beNat (d.take 48)

/-- An ECDSA signature of a digest: r and s, 48 bytes each, under the random number that a draw stands for. -/
def ecdsaSign (key digest : List Byte) (draw : Word) : List Byte :=
  let k := 1 + Config.nonce draw % (p384N - 1)
  let r := (((ecBase.mul 384 k).affine.map (·.1)).getD 0) % p384N
  let s := invMod p384N k * ((digestNat digest + r * (beNat key % p384N)) % p384N) % p384N
  beBytes 48 r ++ beBytes 48 s

/-- ECDSA verification: public key, digest, signature. -/
def ecdsaVerify (pub digest sig : List Byte) : Bool :=
  let r := beNat (sig.take 48)
  let s := beNat ((sig.drop 48).take 48)
  match ecParse pub with
  | none => false
  | some q =>
    sig.length == 96 && decide (0 < r ∧ r < p384N ∧ 0 < s ∧ s < p384N) &&
    (let w := invMod p384N s
     let u := ecBase.mul 384 (digestNat digest * w % p384N)
     let v := q.mul 384 (r * w % p384N)
     match (u.add v).affine with
     | some x => x.1 % p384N == r
     | none => false)

/-- ECDH: the X coordinate of the product, 48 bytes; none for a point not on the curve. -/
def ecdh (key pub : List Byte) : Option (List Byte) :=
  match ecParse pub with
  | none => none
  | some q => ((q.mul 384 (beNat key % p384N)).affine).map (fun x => beBytes 48 x.1)

end Sys2Proof.Machine
end

