-- ==== Sys2Proof/Machine/TdOps.lean ====
section
/-! DEFINITION. TD frames in bytes and the loss of a TD-212 trunk (spec/12_td212_personality.md R305, R322). -/

namespace Sys2Proof.Machine

/-! Frames (R305). -/

/-- One bit of CRC-16-CCITT, most significant bit first. -/
def crc16Bits : Nat → Nat → Nat
  | 0, c => c
  | n + 1, c => crc16Bits n ((if 0x8000 ≤ c then (2 * c) ^^^ 0x1021 else 2 * c) % 2 ^ 16)

/-- CRC-16-CCITT, initial value 0xFFFF, not inverted. -/
def crc16 (l : List Byte) : Nat := l.foldl (fun c b => crc16Bits 8 (c ^^^ (b.toNat * 256))) 0xFFFF

/-- A frame: KIND, VC, SEQ, ARG, CRED0, CRED1, INFO and payload. -/
def tdFrame (kind vc seq arg c0 c1 info : Nat) (data : List Byte) : List Byte :=
  let body := [BitVec.ofNat 8 (kind % 16 * 16 + vc % 2 * 8), BitVec.ofNat 8 seq, BitVec.ofNat 8 arg, BitVec.ofNat 8 c0,
    BitVec.ofNat 8 c1, BitVec.ofNat 8 info] ++ (data ++ List.replicate 120 0).take 120
  body ++ (leBytes 2 (crc16 body)).reverse

/-- A byte of a frame as a number. -/
def tdByte (f : List Byte) (i : Nat) : Nat := (f.getD i 0).toNat

/-- KIND of a frame. -/
def tdKind (f : List Byte) : Nat := tdByte f 0 / 16

/-- Does a received frame fail? `ended` says that its K29.7 stood where it was expected (R303). -/
def tdFails (f : List Byte) (ended : Bool) : Bool :=
  !ended || f.length != 128 || crc16 (f.take 126) != tdByte f 126 * 256 + tdByte f 127 ||
  tdKind f == 0 || decide (5 < tdKind f) || tdByte f 0 % 8 != 0 || (tdKind f == 1 && decide (120 < tdByte f 2)) ||
  (tdKind f != 1 && ((f.drop 6).take 120).any (fun b => b != 0))

/-! Link state. -/

/-- Stop the timers of a shim. -/
def State.tdQuiet (s : State) (n : Nat) : State :=
  [TimerKind.tdInit, .tdTimeout, .tdWidth, .tdLinkup, .tdNak, .tdAck, .tdRetry, .tdCredit, .tdCreditAll].foldl
    (fun s k => s.disarm k n 0) s

/-- Discard the link state of a shim: unacknowledged frames, the packet being framed, partial packets. Packets not begun
stay. -/
def State.tdClear (s : State) (n : Nat) : State :=
  let t := s.td n
  let s := s.setTd n { aligned := t.aligned, inUse := t.inUse, txQ := t.txQ, pseq := t.pseq }
  ((s.setFld F.trkTdStatusTxUnack n 0 0).setFld F.trkTdStatusCred0 n 0 0).setFld F.trkTdStatusCred1 n 0 0

/-- The trunk goes to DOWN with a cause, and Bell 8 rings; the link-up starts again at once (R322), or after `wait` ns
(R304). -/
def State.tdDown (s : State) (n cause wait : Nat) : State :=
  let s := (s.tdQuiet n).tdClear n
  let s := ((s.setFld F.trkTdStatusState n 0 0).setFld F.trkTdStatusInitErr n 0 cause).setFld F.trkTdStatusLanesUp n 0 0
  (s.arm .tdLinkup n 0 wait).ring 8 (96 + n)

/-- A lane has lost alignment or signal: in use, it takes the trunk to DOWN (ALIGN); in ALIGN it counts as not aligned. -/
def State.tdLaneLost (s : State) (n l : Nat) : State :=
  let t := s.td n
  if s.fld F.trkTdStatusState n = 1 then
    let rest := t.aligned.filter (· != l)
    let s := s.setTd n { t with aligned := rest }
    if rest = [] then s.disarm .tdWidth n 0 else s
  else
    let s := s.setTd n { t with aligned := t.aligned.filter (· != l) }
    if t.inUse.contains l ∧ 2 ≤ s.fld F.trkTdStatusState n then s.tdDown n 4 0 else s

end Sys2Proof.Machine
end

