-- ==== Sys2Proof/Machine/SecOps.lean ====
section
/-! DEFINITION. Key slots and the keys of the link units (spec/15_security.md R373, R374, R382, R384, R385). -/

namespace Sys2Proof.Machine

/-- A key slot. -/
def State.slot (s : State) (k : Nat) : KeySlot := unitGet {} s.warden.slots k

/-- The state of a slot (*Slot states*). -/
def State.slotState (s : State) (k : Nat) : Nat := (s.reg .wdnSlotstate 0 (k / 16)).toNat / 2 ^ (4 * (k % 16)) % 8

/-- Write a slot's state. -/
def State.setSlotState (s : State) (k st : Nat) : State :=
  let lo := 4 * (k % 16)
  s.setReg .wdnSlotstate 0 (k / 16) (slotPut (lo + 2) lo st (s.reg .wdnSlotstate 0 (k / 16)))

/-- Write a slot's key. -/
def State.setSlot (s : State) (k : Nat) (v : KeySlot) : State :=
  let w := s.warden
  { s with warden := { w with slots := unitSet {} w.slots k v } }

/-- Erase a slot to EMPTY. -/
def State.eraseSlot (s : State) (k : Nat) : State := (s.setSlot k {}).setSlotState k 0

/-- Keys of a link unit. -/
def State.sec (s : State) (n : Nat) : SecUnit := unitGet {} s.warden.secs n

/-- Is security in force: a send key and a receive key are installed? -/
def SecUnit.on (u : SecUnit) : Bool := u.tx.isSome && (u.rx0.isSome || u.rx1.isSome)

/-- Write the keys of a link unit, with what TRKn_SEC_STATUS and TRKn_LINK_STATUS show of them. -/
def State.setSec (s : State) (n : Nat) (u : SecUnit) : State :=
  let w := s.warden
  let s : State := { s with warden := { w with secs := unitSet {} w.secs n u } }
  let bit := fun (b : Bool) => if b then 1 else 0
  let s := ((s.setFld F.trkSecStatusTx n 0 (bit u.tx.isSome)).setFld F.trkSecStatusRx0 n 0 (bit u.rx0.isSome)).setFld
    F.trkSecStatusRx1 n 0 (bit u.rx1.isSome)
  (s.setFld F.trkSecStatusRxBuf n 0 (bit u.buf.isSome)).setFld F.trkLinkStatusSecOn n 0 (bit u.on)

/-- Is a slot installed in a link unit? -/
def State.installed (s : State) (k : Nat) : Bool :=
  (List.range 24).any (fun n => (s.sec n).tx == some k || (s.sec n).rx0 == some k || (s.sec n).rx1 == some k) ||
    s.warden.canvasPort.contains k

/-- The link unit drops its keys (R384); such a trunk does not resume. -/
def State.secDrop (s : State) (n : Nat) : State :=
  let u := s.sec n
  if u.tx.isSome || u.rx0.isSome || u.rx1.isSome then s.setSec n { buf := u.buf, dropped := true } else s

/-- A training from DOWN starts without keys. -/
def State.secFresh (s : State) (n : Nat) : State :=
  let s := s.secDrop n
  if (s.sec n).dropped then s.setSec n { s.sec n with dropped := false } else s

/-- The receive key of an index. -/
def SecUnit.rx (u : SecUnit) (idx : Nat) : Option Nat := if idx = 0 then u.rx0 else u.rx1

/-- Install or remove the receive key of an index. -/
def SecUnit.setRx (u : SecUnit) (idx : Nat) (k : Option Nat) : SecUnit :=
  if idx = 0 then { u with rx0 := k } else { u with rx1 := k }

/-- A slot that no unit holds any more and that is LIVE or RETIRED is erased. -/
def State.eraseOld (s : State) (k : Nat) : State :=
  if (s.slotState k = 2 ∨ s.slotState k = 3) ∧ s.installed k = false then s.eraseSlot k else s

/-- A flit accepted under an index (R385 steps 4 and 5): the responder sends under the new index from its first such flit;
100 us after it both ends clear the old receive key and erase its slot. -/
def State.rekeyFlit (s : State) (n idx : Nat) : State :=
  let u := s.sec n
  match u.rekey with
  | none => s
  | some r =>
    if r.idx ≠ idx then s
    else match r.since with
      | none =>
        let u := { u with rekey := some { r with since := some s.tb } }
        if r.responder then (s.setSec n { u with tx := some r.slot }).setFld F.trkLinkStatusKidxTx n 0 r.idx else s.setSec n u
      | some t =>
        if s.tb < t + us 100 then s
        else
          let s := s.setSec n { u.setRx (1 - r.idx) none with rekey := none }
          match r.old with
          | some k => s.eraseOld k
          | none => s

/-- A packet of the security tunnel (R382): its payload fills the receive buffer, or is discarded and counted. -/
def State.secTunnelIn (s : State) (n : Nat) (payload : List Byte) : State :=
  let s := s.frameLink (n / 6)
  if 1024 < payload.length ∨ (s.sec n).buf.isSome = true then s.trkCount n 9 1
  else (s.setSec n { s.sec n with buf := some payload }).ring 10 (16 + n)

end Sys2Proof.Machine
end

