-- ==== Sys2Proof/Machine/TrunkOps.lean ====
section
/-! DEFINITION. The link unit of a trunk: lists and sequence numbers, replay, loss, LOST, failover, training and width
changes (spec/05_birique_link.md, spec/06_trunks_and_failover.md). -/

namespace Sys2Proof.Machine

/-! Lists and numbers (05 R139, R140). -/

/-- The position that a number is dealt to under a list in force from `base`. -/
def dealt (mask base seq : Nat) : Option Nat := (maskPos mask)[seqDist base seq % max 1 (maskPos mask).length]?

/-- The first number from `from_` on that a list deals to a position; `from_` for a position not in it. -/
def nextFor (mask base p from_ : Nat) : Nat :=
  match (List.range 8).find? (fun i => dealt mask base (from_ + i) == some p) with
  | some i => (from_ + i) % 2 ^ 24
  | none => from_ % 2 ^ 24

/-- The next number after a number. -/
def seqNext (a : Nat) : Nat := (a + 1) % 2 ^ 24

/-- Fields of a trunk. -/
def State.trkState (s : State) (n : Nat) : Nat := s.fld F.trkLinkStatusState n
def State.active (s : State) (n : Nat) : Nat := s.fld F.trkLinkStatusActive n
def State.badMask (s : State) (n : Nat) : Nat := s.fld F.trkLinkStatusBad n
def State.txNext (s : State) (n : Nat) : Nat := s.fld F.trkTxSeqNext n
def State.rcvNext (s : State) (n : Nat) : Nat := s.fld F.trkRxSeqRcvNext n

/-- Write the active list and the IN_LIST bits of the positions. -/
def State.setActive (s : State) (n mask : Nat) : State :=
  let s := s.setFld F.trkLinkStatusActive n 0 mask
  (List.range 8).foldl (fun s p => s.setFld F.trkPosInList n p (if mask.testBit p then 1 else 0)) s

/-- Write the bad positions and the BAD bits. -/
def State.setBad (s : State) (n mask : Nat) : State :=
  let s := s.setFld F.trkLinkStatusBad n 0 mask
  (List.range 8).foldl (fun s p => s.setFld F.trkPosBad n p (if mask.testBit p then 1 else 0)) s

/-- A mask without a position. -/
def maskDel (mask p : Nat) : Nat := if mask.testBit p then mask - 2 ^ p else mask

/-- A mask with a position. -/
def maskAdd (mask p : Nat) : Nat := mask ||| 2 ^ p

/-- The lowest position of a mask that is not in `bad`. -/
def lowestOf (mask bad : Nat) : Option Nat := (maskPos mask).find? (fun p => !bad.testBit p)

/-! The retry timer and the replay pool (05 R145, R150). -/

/-- The retry interval in ns. -/
def State.retryNs (s : State) (n : Nat) : Nat :=
  let r := s.fld F.trkLinkCtrlRetry n
  if r = 0 then max 1000 (min 20000 (2 * s.fld F.trkLinkStatusRtt n + 1000)) else r * 10

/-- Arm or restart the retry timer, or disarm it when the pool is empty. -/
def State.retryTimer (s : State) (n : Nat) : State :=
  if (s.trk n).replay = [] then (s.disarm .trkRetry n 0).setFld F.trkLinkStatusTimerArmed n 0 0
  else (s.arm .trkRetry n 0 (s.retryNs n)).setFld F.trkLinkStatusTimerArmed n 0 1

/-- Bring USED, UNA and REPLAY_FULL up to date with the replay pool (REPLAY_FULL_STALL, 05 R150). -/
def State.syncTx (s : State) (n : Nat) : State :=
  let t := s.trk n
  let used := t.replay.length
  let s := s.setFld F.trkTxSeqUsed n 0 used
  let s := s.setFld F.trkTxSeqUna n 0 (match t.replay with
    | [] => s.txNext n
    | e :: _ => e.seq)
  if t.window ≤ used then
    match t.stallSince with
    | some _ => s
    | none => (s.setFld F.trkLinkStatusReplayFull n 0 1).setTrk n { t with stallSince := some s.tb }
  else
    match t.stallSince with
    | some b => ((s.setFld F.trkLinkStatusReplayFull n 0 0).trkCount n 11 (s.tb - b)).setTrk n { t with stallSince := none }
    | none => s

/-- Positions that new data and resends avoid: bad ones, and those this end has cut (05 R139, R146, R147). -/
def State.avoid (s : State) (n : Nat) : Nat := s.badMask n ||| (s.trk n).cut

/-- Where a resend that becomes due is placed (05 R139): on the lane of the flit's previous copy, or, when that lane is marked bad
or out of the active list, on the lowest active position whose lane is not. -/
def State.placeOn (s : State) (n : Nat) (e : ReplayEntry) : Nat :=
  let prev := (e.copies.getLast?.map (·.lane)).getD (s.trkFirst n)
  let p := s.lanePos n prev
  if (s.active n).testBit p && !(s.avoid n).testBit p then prev
  else match lowestOf (s.active n) (s.avoid n) with
    | some q => s.trkFirst n + q
    | none => s.trkFirst n + (lowestOf (s.active n) 0).getD 0

/-- Does a lane take the resends placed on it: in the list and not bad, or draining (06 R170)? -/
def State.takesResends (s : State) (n l : Nat) : Bool :=
  let p := s.lanePos n l
  !(s.avoid n).testBit p && ((s.active n).testBit p || (unitGet none (s.trk n).txLeft p).isSome)

/-- Flits become due to be resent, oldest first; each is placed as it becomes due, and stays there. -/
def State.requestResend (s : State) (n : Nat) (seqs : List Nat) : State :=
  let t := s.trk n
  s.setTrk n { t with resends := t.replay.filterMap (fun e =>
    match t.resends.find? (fun r => r.1 == e.seq) with
    | some r => some r
    | none => if seqs.contains e.seq then some (e.seq, s.placeOn n e) else none) }

/-- Resends on lanes that take none any more are placed afresh. -/
def State.replaceResends (s : State) (n : Nat) : State :=
  let t := s.trk n
  s.setTrk n { t with resends := t.resends.map (fun r =>
    if s.takesResends n r.2 then r
    else match t.replay.find? (fun e => e.seq == r.1) with
      | some e => (r.1, s.placeOn n e)
      | none => r) }

/-- A lane is lost to the sender: every unacknowledged flit whose latest copy went on it is resent (05 R143). -/
def State.resendLane (s : State) (n l : Nat) : State :=
  (s.replaceResends n).requestResend n
    (((s.trk n).replay.filter (fun e => (e.copies.getLast?.map (·.lane)) == some l)).map (·.seq))

/-! Discarding link state (05 R156, R474). -/

/-- A packet as it stands before any of it is in a flit. -/
def TxPacket.restart (p : TxPacket) : TxPacket := { p with off := 0, flits := [] }

/-- Is it a RESYNC, which has still to come before the packets of its contexts (06 R177)? -/
def TxPacket.isResync (p : TxPacket) : Bool := p.link && p.bytes.getD 16 0 == 3

/-- Discard the link state of a trunk; `count` counts the discarded flits in FLUSHED. -/
def State.flushTrunk (s : State) (n : Nat) (count : Bool) : State :=
  let t := s.trk n
  let s := if count then s.trkCount n 5 (t.replay.length + t.store.length) else s
  let s := s.setTrk n { t with
    replay := [], resends := [], resendLog := [], expiries := 0, store := [], losses := [], due := [], sent := [],
    vcRx := [], contRx := [], vcQ := t.vcQ.map (fun e => (e.1, (e.2.filter (fun p => (!p.link || p.isResync) && !p.splice)).map TxPacket.restart)),
    own := none, reply := none, peerWidth := none, wantRetrain := false, retrainDue := false, cut := 0, limit := [], peerFirst := [],
    sinceAck := 0, rxLists := [], rxLeft := [], txLeft := [] }
  let s := (List.range 8).foldl (fun s v => ((s.setFld F.trkVcCreditTxUsed n v 0).setFld F.trkVcCreditTxLimit n v 0).setFld
    F.trkVcCreditRxLimit n v 0) s
  let s := (s.setFld F.trkRxSeqHeld n 0 0).setFld F.trkWidthBusy n 0 0
  (s.retryTimer n).syncTx n

/-! Pairs (06 R172 to R178). -/

/-- R172 judged when a trunk has trained: PAIR_ERR on both members when the mate has trained too and the conditions fail. -/
def State.pairCheck (s : State) (n : Nat) : State :=
  let m := s.fld F.trkPairMate n
  if s.flag F.trkPairEn n && (s.mateOf n).isNone && (decide (24 ≤ m) || (s.trk m).paired.isSome) then
    let s := s.setFld F.trkPairStatusPairErr n 0 1
    if m < 24 then s.setFld F.trkPairStatusPairErr m 0 1 else s
  else s

/-- A link packet's bytes: TYPE MGMT, tunnel 0xFFF. -/
def linkBytes (vc : Nat) (payload : List Byte) : List Byte :=
  Packet.toBytes { type := 0, tunnelId := 0xFFF, vc := vc, len := payload.length, payload := payload }

/-- A packet to be sent by the link unit itself (06 R160). -/
def linkPacket (vc : Nat) (payload : List Byte) : TxPacket := { bytes := linkBytes vc payload, vc := vc, link := true }

/-- A SPLICE_END link packet (06 R176). -/
def spliceEnd (vc : Nat) : TxPacket := linkPacket vc [2]

/-- A RESYNC link packet naming contexts (06 R174): the mask in payload bytes 8 to 39. -/
def resyncPacket (mask : BitVec 256) : TxPacket := linkPacket 0 ([3, 0, 0, 0, 0, 0, 0, 0] ++ leBytes 32 mask.toNat)

/-- Put packets behind the packet in progress of a VC and ahead of those that have not started. -/
def insertAhead (new : List TxPacket) : List TxPacket → List TxPacket
  | [] => new
  | p :: t => if 0 < p.off then p :: (new ++ t) else new ++ (p :: t)

/-- The queue of a VC of a trunk. -/
def Trunk.q (t : Trunk) (v : Nat) : List TxPacket := unitGet [] t.vcQ v
def Trunk.setQ (t : Trunk) (v : Nat) (l : List TxPacket) : Trunk := { t with vcQ := unitSet [] t.vcQ v l }

/-- Bytes of a packet whose flits have been acknowledged. -/
def ackedBytes (t : Trunk) (p : TxPacket) : Nat :=
  ((p.flits.filter (fun f => !t.replay.any (fun e => e.seq == f.1))).map (·.2)).sum

/-- A failed member's packet as the survivor sends it (06 R175, R176): whole, or the continuation of a straddler. -/
def takenOver (t : Trunk) (p : TxPacket) : TxPacket :=
  let a := ackedBytes t p
  if 0 < a then { p.restart with bytes := p.bytes.drop a, splice := true, ctx := none }
  else if p.flits = [] then p else { p.restart with ctx := none }

/-- The packets a failed member still has to give on a VC: unacknowledged ones oldest first, and those not begun. -/
def heldPackets (t : Trunk) (v : Nat) : List TxPacket :=
  (t.sent.filter (fun p => !p.link && p.vc == v)) ++ ((t.q v).filter (fun p => !p.link))

/-- The VC on which a trunk carries packets assigned to v: the highest it has, for a v at or above its count (05 R151). -/
def State.foldVc (s : State) (n v : Nat) : Nat := min v (s.fld F.trkLinkStatusNvcNow n - 1)

/-- Put packets assigned to VC v on trunk n, `add` saying where in its queue; `VC_FOLD` counts those moved to another VC. -/
def State.enqueue (s : State) (n v : Nat) (l : List TxPacket) (add : List TxPacket → List TxPacket → List TxPacket) : State :=
  let w := s.foldVc n v
  let s := if w = v then s else s.trkCount n 12 l.length
  s.setTrk n ((s.trk n).setQ w (add (l.map (fun p => { p with vc := w })) ((s.trk n).q w)))

/-- The scheduler port of a trunk (01 R18). -/
def trunkPort (n : Nat) : Nat := n / 6 * 12 + n % 6

/-- PAIR_FAILOVER (06 R175): the survivor m takes over the packets and contexts of the lost member n. With no failover set staged,
n's reservations are best effort from now on (R179). -/
def State.takeOver (s : State) (n m : Nat) : State :=
  let hold := (s.trk n).hold
  let moved := ((List.range 8).map (fun v => ((unitGet [] hold v).filter (fun p => p.ctx.isNone)).length)).sum
  let s := (List.range 8).foldl (fun s v => match unitGet [] hold v with
    | [] => s
    | l => s.enqueue m v l insertAhead) s
  let s := s.setTrk n { s.trk n with hold := [], covering := false }
  let s := s.setTrk m { s.trk m with covering := true }
  let s := s.addFld F.trkPairCntCount m 2 moved
  let s := s.setFld F.trkPairStatusFailoverEvt m 0 1
  let s := if (s.port (trunkPort m)).fo = [] then s.setPort (trunkPort n) { s.port (trunkPort n) with foMissing := true }
    else s.setPort (trunkPort m) { s.port (trunkPort m) with foDue := true }
  s.serving n m

/-! Training (06 R161 to R164). -/

/-- May trunks of a Hall train: it is in RUN, the link unit is not fenced, and the chip is in RUN or IDLE (01 R17, 05 R476,
17 R398). -/
def State.mayTrain (s : State) (n : Nat) : Bool :=
  s.hallState (n / 6) == 0 && !(s.trk n).fenced && decide (s.fld F.pwrStatusState < 2)

/-- Stop the timers of a link unit. -/
def State.trkQuiet (s : State) (n : Nat) : State :=
  let s := [TimerKind.trkAck, .trkRetry, .trkBeat, .trkSilence, .trkTrain, .trkTrainRetry, .trkWidth].foldl
    (fun s k => s.disarm k n 0) s
  let s := (List.range 8).foldl (fun s v => (s.disarm .trkCredit n v).disarm .trkCreditAll n v) s
  s.setFld F.trkLinkStatusTimerArmed n 0 0

/-- Take every enabled lane of a trunk to TRAINING. -/
def State.trainLanes (s : State) (n : Nat) : State :=
  (s.trkLanes n).foldl (fun s l => if s.flag F.laneCtrlEn l then s.laneStart l else s) s

/-- The quads of a trunk's lanes. -/
def State.trkQuads (s : State) (n : Nat) : List Nat := ((s.trkLanes n).map (· / 4)).eraseDups

/-- A loop-timed trunk transmits from PLL A until its partner's parameters are checked (R162 steps 1 and 4). -/
def State.loopReset (s : State) (n : Nat) : State :=
  if s.fld F.trkCfgRole n = 1 then
    let s := (s.trkLanes n).foldl (fun s l => (s.setFld F.laneCtrlPllsel l 0 0).setLane l { s.lane l with pllselDue := false }) s
    (s.trkQuads n).foldl (fun s q => s.pllUpdate q) s
  else s

/-- Start a training from DOWN with a fresh nonce (06 R161, R162), all link state discarded. -/
def State.trainDown (s : State) (n : Nat) (nonce : Word) : State :=
  if !s.mayTrain n then s else
  let s := s.secFresh n
  let strad := (s.trk n).strad
  let s := (s.flushTrunk n false).dropClaims n
  let t := s.trk n
  let s := (List.range 13).foldl (fun s i => if i = 5 then s else s.setReg .trkCnt n i 0) s
  let s := (List.range 8).foldl (fun s p => (s.setReg .trkPos n p 0).setFld F.trkPosLane n p (s.trkFirst n + p)) s
  let s := (s.setReg .trkTxSeq n 0 0).setReg .trkRxSeq n 0 0
  let s := ((s.setActive n 0).setBad n 0).trkQuiet n
  let s := s.setReg .trkNonce n 0 nonce
  let s := s.setFld F.trkLinkStatusState n 0 1
  let s := s.setFld F.trkTrainResumed n 0 0
  let s := s.setFld F.trkTrainMaster n 0 (if s.fld F.trkCfgRole n = 0 then 1 else 0)
  let s := s.setTrk n {
    vcQ := t.vcQ, psnTx := t.psnTx, psnRx := t.psnRx, map := t.map, mapNew := t.mapNew, hold := t.hold, paired := t.paired,
    covering := t.covering, strad := strad, fenced := t.fenced, bufs := some (s.reg .trkVcCfg n), training := .fromDown,
    echoesLeft := 8 }
  ((s.loopReset n).trainLanes n).arm .trkTrain n 0 (ms 2)

/-- Start the retrain of a trunk that keeps its link state (06 R164); one whose keys have been dropped discards that state and
trains from DOWN (15 R384). -/
def State.trainResume (s : State) (n : Nat) : State :=
  if !s.mayTrain n then s
  else if (s.sec n).dropped then
    let r := (s.flushTrunk n true).openValue
    r.2.trainDown n r.1
  else
  let s := s.trkQuiet n
  let s := s.setFld F.trkLinkStatusState n 0 1
  let t := s.trk n
  let s := s.setTrk n { t with
    training := .resume, echoesLeft := 8, rttMax := 0, carrying := [], due := [], resumeSay := true, dealtNew := false,
    losses := [], own := none, reply := none, peerWidth := none, wantRetrain := false, retrainDue := false, cut := 0,
    withdrawn := [], resends := [], txLeft := [], leftIdle := false, rxLists := [], rxLeft := [] }
  let s := s.setFld F.trkWidthBusy n 0 0
  let s := (s.setActive n 0).setBad n 0
  (s.trainLanes n).arm .trkTrain n 0 (ms 2)

/-- Is every lane of a trunk that is outside announced idle without signal or alignment (05 R156)? -/
def State.allDead (s : State) (n : Nat) : Bool :=
  (s.trkLanes n).any (fun l => !(s.lane l).rxIdle) &&
  (s.trkLanes n).all (fun l => (s.lane l).rxIdle || s.flag F.laneStatusLos l || !s.flag F.laneStatusAligned l)

/-- A member's link state has been moved or has nowhere to go yet: it is discarded and counted, and the member trains from DOWN
(R175, R178). -/
def State.startAfresh (s : State) (n : Nat) : State :=
  let s := s.flushTrunk n true
  let s := s.setTrk n { s.trk n with held := false }
  if s.flag F.trkCfgEn n then
    let r := s.openValue
    r.2.trainDown n r.1
  else s

/-- A member is lost: its packets, as a survivor will send them, go to its mate if the mate is UP. Otherwise they stay, and both
members train from DOWN: the first to return sends what either keeps (06 R175, R178; assumption log 182). At the receiver the
reorder contents go, and each VC's partial packet stays as a straddler. -/
def State.failOver (s : State) (n : Nat) : State :=
  match s.mateOf n with
  | none => s
  | some m =>
    let t := s.trk n
    let hold := (List.range 8).foldl (fun (h : UnitMap (List TxPacket)) v =>
      unitSet [] h v (unitGet [] t.hold v ++ (heldPackets t v).map (takenOver t))) []
    let s := s.setTrk n { t with
      held := true, hold := hold, vcQ := t.vcQ.map (fun e => (e.1, e.2.filter TxPacket.isResync)), sent := [],
      store := [], losses := [], strad := t.vcRx, vcRx := [] }
    let s := s.setFld F.trkRxSeqHeld n 0 0
    if s.trkState m = 2 then s.takeOver n m
    else
      let s := s.startAfresh n
      if (s.trk m).held && s.trkState m == 3 then s.startAfresh m else s

/-- TRUNK_LOST (05 R156): data stops, the link state is kept, Bell 8 rings; the lowest cause that holds is recorded. A pair
member's state goes to its mate; a lone trunk with EN retrains at once. -/
def State.trunkLost (s : State) (n cause : Nat) : State :=
  if s.trkState n ≠ 2 then s
  else
    let cause := if 2 < cause ∧ s.allDead n = true then 2 else cause
    let s := ((s.setFld F.trkLinkStatusState n 0 3).setFld F.trkLinkStatusLostCause n 0 cause).setFld F.trkLinkStatusLostEvt n 0 1
    let t := s.trk n
    let s := s.setTrk n { t with
      due := [], losses := [], own := none, reply := none, peerWidth := none, wantRetrain := false,
      retrainDue := false, training := .none }
    let s := (s.setFld F.trkWidthBusy n 0 0).trkQuiet n
    let s := s.ring 8 (96 + n)
    if (s.mateOf n).isSome then s.failOver n
    else if s.flag F.trkCfgEn n then s.trainResume n else s

/-- A training fails (06 R163): DOWN, or LOST for a resumption, with CAUSE and Bell 8; a trunk with EN tries again after
1 ms. -/
def State.trainFail (s : State) (n cause : Nat) : State :=
  let res := (s.trk n).training = .resume
  let s := s.trkQuiet n
  let s := s.setFld F.trkLinkStatusState n 0 (if res then 3 else 0)
  let s := if res then s else s.secDrop n
  let s := s.setFld F.trkTrainCause n 0 cause
  let s := (s.trkLanes n).foldl (fun s l => s.txOff l) s
  let s := s.ring 8 (96 + n)
  if s.flag F.trkCfgEn n then s.arm .trkTrainRetry n 0 (ms 1) else s

/-- Packets that wait on VCs the trunk no longer has move to the highest it has (05 R151). -/
def State.foldQueues (s : State) (n : Nat) : State :=
  (List.range 8).foldl (fun s v =>
    let l := (s.trk n).q v
    if s.foldVc n v = v ∨ l = [] then s
    else (s.setTrk n ((s.trk n).setQ v [])).enqueue n v l (fun new old => old ++ new)) s

/-- The trunk enters UP (06 R162 step 5, R164). The first member of a pair to return sends what either still holds (R178). -/
def State.trunkUp (s : State) (n : Nat) : State :=
  let res := (s.trk n).training = .resume
  let s := s.disarm .trkTrain n 0
  let s := (s.setFld F.trkLinkStatusState n 0 2).setFld F.trkTrainResumed n 0 (if res then 1 else 0)
  let hold := (s.trk n).hold
  let s := s.setTrk n { s.trk n with training := .none, held := false, hold := [] }
  let s := s.foldQueues n
  let s := (List.range 8).foldl (fun s v => match unitGet [] hold v with
    | [] => s
    | l => s.enqueue n v l insertAhead) s
  let s := (s.arm .trkBeat n 0 250).arm .trkSilence n 0 750
  let s := s.retryTimer n
  let s := s.pairCheck n
  match s.mateOf n with
  | some m => (if s.trkState m = 2 then s else s.takeOver m n).serving n m
  | none => s

/-- Make the CREDIT word of every VC in use due (05 R153). -/
def State.creditAll (s : State) (n : Nat) : State :=
  (List.range (s.fld F.trkLinkStatusNvcNow n)).foldl (fun s v =>
    (s.addDue n (.credit v (unitGet 0 (s.trk n).limit v))).arm .trkCreditAll n v (us 10)) s

/-- The payload of this end's PARAM (06 *PARAM link packet payload*). -/
def State.paramBytes (s : State) (n : Nat) : List Byte :=
  let lanes := s.trkWidthCfg n
  [1, 1, BitVec.ofNat 8 (s.fld F.trkCfgRole n), BitVec.ofNat 8 (s.fld F.trkLinkCtrlNvc n)] ++ leBytes 2 (64 * lanes) ++
  leBytes 2 (64 * lanes) ++ [BitVec.ofNat 8 lanes, BitVec.ofNat 8 (s.fld F.trkLinkCtrlSecEn n + 2)] ++ leBytes 6 0 ++
  leBytes 8 (s.reg .trkNonce n).toNat ++ leBytes 8 (s.reg .linkId).toNat ++ leBytes 32 0

/-- The fields of a received PARAM. -/
def paramOf (b : List Byte) : Param :=
  let at_ := fun i => (b.getD i 0).toNat
  { peerId := BitVec.ofNat 64 (leNat ((b.drop 24).take 8)), nonce := BitVec.ofNat 64 (leNat ((b.drop 16).take 8)),
    secRequired := at_ 9 % 2 == 1, pairing := at_ 9 / 2 % 2 == 1, lanes := at_ 8, reorder := leNat ((b.drop 6).take 2),
    replay := leNat ((b.drop 4).take 2), nvc := at_ 3, loop := at_ 2 == 1, version := at_ 1,
    reservedZero := decide (at_ 9 < 4) && leNat ((b.drop 10).take 6) == 0 && leNat ((b.drop 32).take 32) == 0 }

/-- Does the last step of a training hold: echoes measured, parameters checked, credits sent, keys in place? -/
def State.tryUp (s : State) (n : Nat) : State :=
  let t := s.trk n
  if s.trkState n = 1 ∧ t.training = .fromDown ∧ t.param.isSome = true ∧ t.echoesLeft = 0 ∧ t.secWait = false ∧
      t.due.all (fun w => match w with
        | .credit .. => false
        | _ => true) = true
  then s.trunkUp n else s

/-- The first quad of a loop-timed trunk that refuses it (04 R112): `B_LOOP` is 0, or the quad is loop-timed to another partner. -/
def State.loopRefuser (s : State) (n : Nat) (peer : BitVec 64) : Option Nat :=
  (s.trkQuads n).find? (fun q =>
    let k := s.fld F.quadStatusLoopTrk q
    !s.flag F.quadPllBLoop q || (k != 0x3F && k != n && s.reg .trkPeerId k != peer))

/-- Trunk n trains loop-timed: LOOP_TRK of its quads, and PLLSEL of its lanes at their next marker (04 R112, 06 R162 step 4). -/
def State.loopTime (s : State) (n : Nat) : State :=
  let s := (s.trkQuads n).foldl (fun s q =>
    if s.fld F.quadStatusLoopTrk q = 0x3F then s.setFld F.quadStatusLoopTrk q 0 n else s) s
  (s.trkLanes n).foldl (fun s l => s.setLane l { s.lane l with pllselDue := true }) s

/-- Trunk n is loop-timed no more: LOOP_TRK names another loop-timed trunk of the quad, or none. -/
def State.loopFree (s : State) (n : Nat) : State :=
  (s.trkQuads n).foldl (fun s q =>
    if s.fld F.quadStatusLoopTrk q = n then
      match (List.range 24).find? (fun k => k != n && s.flag F.trkCfgEn k && s.fld F.trkCfgRole k == 1 &&
          (s.trkQuads k).contains q && (s.trk k).param.isSome) with
      | some k => s.setFld F.quadStatusLoopTrk q 0 k
      | none => s.setFld F.quadStatusLoopTrk q 0 0x3F
    else s) s

/-- The partner's PARAM (06 R162 steps 4 and 5, R163). `nonce` is what this end draws if the nonces are equal. -/
def State.paramReceive (s : State) (n : Nat) (p : Param) (nonce : Word) : State :=
  if s.trkState n = 3 ∨ (s.trk n).training = .resume then (s.flushTrunk n true).trainDown n nonce
  else if s.trkState n ≠ 1 ∨ (s.trk n).param.isSome then s
  else if p.nonce = s.reg .trkNonce n then
    let s := s.setReg .trkNonce n 0 nonce
    s.setTrk n ((s.trk n).setQ 0 ((s.trk n).q 0 ++ [linkPacket 0 (s.paramBytes n)]))
  else
    let own := s.fld F.trkCfgRole n
    if p.loop = decide (own = 1) then s.trainFail n 2
    else match (if own = 1 then s.loopRefuser n p.peerId else none) with
    | some q => (s.quadRefuse q 6 n).trainFail n 3
    | none =>
    if p.version ≠ 1 ∨ p.reservedZero = false then s.trainFail n 5
    else
      let lanes := s.trkWidthCfg n
      let s := (s.setReg .trkPeerNonce n 0 p.nonce).setReg .trkPeerId n 0 p.peerId
      let s := s.setFld F.trkLinkStatusNvcNow n 0 (min (s.fld F.trkLinkCtrlNvc n) p.nvc)
      let s := s.setFld F.trkWidthLimit n 0 (2 ^ min lanes p.lanes - 1)
      let sec := p.secRequired || s.flag F.trkLinkCtrlSecEn n
      let s := s.setTrk n { s.trk n with
        param := some p, paired := some p.pairing, window := min (64 * lanes) p.reorder, rxWindow := min (64 * lanes) p.replay, secWait := sec }
      let s := if own = 1 then s.loopTime n else s
      let s := (List.range 8).foldl (fun s v =>
        let r := s.claimCells n v
        r.2.setTrk n { r.2.trk n with limit := unitSet 0 (r.2.trk n).limit v (4 * r.1) }) s
      (s.creditAll n).tryUp n

/-- The list of a trunk until its first new data: the lowest position whose lane is ready (06 R162 step 3, R164). -/
def State.firstActive (s : State) (n : Nat) : State :=
  match (s.trk n).carrying.foldl (fun (b : Option Nat) l => some (match b with
      | some x => min x l
      | none => l)) none with
  | none => s
  | some l =>
    if (s.trk n).dealtNew then s
    else ((s.setActive n (2 ^ s.lanePos n l)).setTrk n { s.trk n with txBase := s.txNext n }).replaceResends n

/-- A lane of a trunk carries flits (06 R162 step 2, R164): in training the first one asks for the echoes and brings PARAM or
RESUME. -/
def State.laneCarry (s : State) (n l : Nat) : State :=
  let t := s.trk n
  if t.carrying.contains l = true ∨ t.dealtNew = true ∨ (s.trkState n ≠ 1 ∧ s.trkState n ≠ 2) then s
  else
    let first := t.carrying = []
    let s := (s.setTrk n { t with carrying := t.carrying ++ [l] }).firstActive n
    if first ∧ s.trkState n = 1 then
      let s := (List.range 8).foldl (fun s _ => s.addDue n (.echoReq 0)) s
      if t.training = .resume then s
      else s.setTrk n ((s.trk n).setQ 0 (linkPacket 0 (s.paramBytes n) :: (s.trk n).q 0))
    else s

/-- The partner's RESUME (RESUME_RECEIVE, 06 R164): everything below its RCV_NEXT is free, the rest is resent, CREDIT words
follow. -/
def State.resumeReceive (s : State) (n r : Nat) : State :=
  let t := s.trk n
  if t.training ≠ .resume ∨ t.carrying = [] then s
  else
    let s := s.setTrk n { t with
      replay := t.replay.filter (fun e => !seqLt e.seq r), expiries := 0,
      sent := t.sent.filter (fun p => p.flits.any (fun f => t.replay.any (fun e => e.seq == f.1 && !seqLt e.seq r))) }
    let s := s.requestResend n ((s.trk n).replay.map (·.seq))
    ((s.trunkUp n).syncTx n).creditAll n

/-! Width changes (06 R165 to R171, R477). -/

/-- Change the sender's list: from its NEXT it deals under `mask`. A position that leaves in good health drains (R170); one that
leaves otherwise leaves at once, and what its lane carried last is resent (05 R143). -/
def State.newList (s : State) (n mask : Nat) : State :=
  let t := s.trk n
  let act := s.active n
  let next := s.txNext n
  let gone := (maskPos act).filter (fun p => !mask.testBit p)
  let well := fun p => !(s.avoid n).testBit p && !t.withdrawn.contains (s.trkFirst n + p)
  let left := (List.range 8).foldl (fun (m : UnitMap (Option Leaving)) p =>
    if mask.testBit p then unitSet none m p none
    else if gone.contains p then unitSet none m p (if well p then some { seq := nextFor act t.txBase p next } else none)
    else m) t.txLeft
  let s := (s.setTrk n { t with txLeft := left, txBase := next, dealtNew := true }).setActive n mask
  let s := (gone.filter (fun p => !well p)).foldl (fun s p => s.resendLane n (s.trkFirst n + p)) s
  s.isoCheck n

/-- Start a WIDTH transaction of this end (05 R146, 06 R165); a mask of 0 asks for a retrain (R167). -/
def State.widthStart (s : State) (n mask : Nat) : State :=
  let txn := (s.fld F.trkWidthTxn n + 1) % 256
  let s := s.setTrk n { s.trk n with own := some { mask := mask, txn := txn, base := s.txNext n } }
  let s := ((s.setFld F.trkWidthTxn n 0 txn).setFld F.trkWidthProposed n 0 mask).setFld F.trkWidthBusy n 0 1
  let s := s.arm .trkWidth n 0 (us 100)
  if mask = 0 then s else s.newList n mask

/-- May this end start a transaction: its last one is complete, and its reply to the partner's acknowledged? -/
def Trunk.widthFree (t : Trunk) : Bool := t.own.isNone && t.reply.isNone

/-- The active list without the positions that have to leave at once (05 R146, R147). -/
def State.goodList (s : State) (n : Nat) : Nat :=
  ((maskPos (s.active n)).filter (fun p => !(s.avoid n).testBit p)).foldl maskAdd 0

/-- Has a position to leave the list at once? The last one never does. -/
def State.mustRemove (s : State) (n : Nat) : Bool := s.goodList n != s.active n && s.goodList n != 0

/-- Start the change that waits: a retrain by request, or the removal of bad and failed positions (05 R146, R147). -/
def State.widthNext (s : State) (n : Nat) : State :=
  if s.trkState n ≠ 2 ∨ (s.trk n).widthFree = false then s
  else if (s.trk n).wantRetrain then (s.setTrk n { s.trk n with wantRetrain := false }).widthStart n 0
  else if s.mustRemove n then s.widthStart n (s.goodList n)
  else s

/-- A retrain request (TRUNK_RETRAIN_REQUEST, 06 R167): at once, or once the transaction outstanding is complete (R165). -/
def State.retrainAsk (s : State) (n : Nat) : State :=
  if s.trkState n = 2 then (s.setTrk n { s.trk n with wantRetrain := true }).widthNext n else s

/-- The transaction in progress is complete at this end: positions that left may drain (R170). -/
def Trunk.leftDone (t : Trunk) : Trunk :=
  { t with txLeft := t.txLeft.map (fun e => (e.1, e.2.map (fun x => { x with done := true }))) }

/-- A transaction of this end is over. -/
def State.widthDone (s : State) (n : Nat) : State :=
  let s := s.setTrk n { (s.trk n).leftDone with own := none }
  ((s.setFld F.trkWidthBusy n 0 0).disarm .trkWidth n 0).widthNext n

/-- This end's reply is acknowledged. -/
def State.replyDone (s : State) (n : Nat) : State :=
  (s.setTrk n { (s.trk n).leftDone with reply := none }).widthNext n

/-- Retrain by request: every lane to TRAINING, then resume; this end draws a fresh nonce (06 R161, R167). -/
def State.retrain (s : State) (n : Nat) : State :=
  let r := s.openValue
  (r.2.setReg .trkNonce n 0 r.1).trainResume n

/-- The partner's list of new data. -/
def Trunk.rxMask (t : Trunk) : Nat := ((t.rxLists.head?).map (·.1)).getD 0

/-- Apply the partner's list to what it sends from `base` on, once. A position that leaves in good health is expected to carry, in
its fillers, the number the old list would have dealt to it next (06 R475). -/
def State.applyRxList (s : State) (n mask base : Nat) : State :=
  let t := s.trk n
  if mask = 0 ∨ t.rxLists.head? = some (mask, base) then s
  else
    let old := t.rxMask
    let oldBase := ((t.rxLists.head?).map (·.2)).getD base
    let exp := (maskPos mask).foldl (fun e p => if old.testBit p then e else unitSet 0 e p (nextFor mask base p base)) t.expect
    let left := (List.range 8).foldl (fun (m : UnitMap (Option Nat)) p =>
      if mask.testBit p then unitSet none m p none
      else if old.testBit p && !t.withdrawn.contains (s.trkFirst n + p) then
        unitSet none m p (some (nextFor old oldBase p base))
      else m) t.rxLeft
    s.setTrk n { t with rxLists := (mask, base) :: t.rxLists, rxLeft := left, expect := exp }

/-- Is a WIDTH invalid here (06 R167): a position beyond the limit, or an added lane that is not ACTIVE? -/
def State.widthInvalid (s : State) (n mask : Nat) : Bool :=
  (maskPos mask).any (fun p => !(s.fld F.trkWidthLimit n).testBit p ||
    (!(s.trk n).rxMask.testBit p && s.fld F.laneStatusState (s.trkFirst n + p) != 2))

/-- Accept a WIDTH of the partner: it is acknowledged, and this end answers with its own (R165), or the retrain follows (R167). -/
def State.widthAccept (s : State) (n mask txn base : Nat) : State :=
  let s := s.addDue n (.widthAck txn)
  let s := s.setTrk n { s.trk n with peerWidth := some (txn, base), reAckTb := s.tb }
  if mask = 0 then s.setTrk n { s.trk n with retrainDue := true }
  else
    let s := s.applyRxList n mask base
    let s := s.setTrk n { s.trk n with reply := some { mask := mask, txn := txn, base := s.txNext n } }
    s.newList n mask

/-- The partner's WIDTH (WIDTH_RECEIVE, WIDTH_CONFLICT; 06 R165, R167, R171). It answers this end's own WIDTH when it repeats
its TXN and list and the partner has acknowledged that WIDTH, in this flit (`acked`) or before. -/
def State.widthReceive (s : State) (n mask txn base : Nat) (acked : Bool) : State :=
  let t := s.trk n
  if s.trkState n ≠ 2 then s
  else if t.peerWidth = some (txn, base) then
    if t.reAckTb + s.retryNs n ≤ s.tb then
      (s.addDue n (.widthAck txn)).setTrk n { (s.addDue n (.widthAck txn)).trk n with reAckTb := s.tb }
    else s
  else
    let answers := match t.own with
      | some o => o.txn == txn && o.mask == mask && (o.acked || acked)
      | none => false
    if answers then
      let s := (s.applyRxList n mask base).addDue n (.widthAck txn)
      let s := s.setTrk n { s.trk n with peerWidth := some (txn, base), reAckTb := s.tb, own := t.own.map (fun o => { o with answered := true }) }
      if t.own.any (·.acked) then s.widthDone n else s
    else if s.widthInvalid n mask then s.trkCount n 9 1
    else
      let both0 := mask == 0 && t.own.any (fun o => o.mask == 0)
      if t.own.any (fun o => !o.acked) && !both0 then
        if (s.reg .trkPeerNonce n).toNat < (s.reg .trkNonce n).toNat then s.applyRxList n mask base
        else
          let again := t.own.any (fun o => o.mask == 0)
          let s := s.setTrk n { t with own := none, wantRetrain := t.wantRetrain || again }
          let s := ((s.addSat F.trkTrainTies n 0 1 255).setFld F.trkWidthBusy n 0 0).disarm .trkWidth n 0
          s.widthAccept n mask txn base
      else s.widthAccept n mask txn base

/-- A WIDTH_ACK (WIDTH_ACK_RECEIVE, 06 R165). -/
def State.widthAckReceive (s : State) (n txn : Nat) : State :=
  let t := s.trk n
  let reply := fun (s : State) => if t.reply.any (fun r => r.txn == txn) then s.replyDone n else s
  match t.own with
  | some o =>
    if o.txn = txn ∧ o.acked = false then
      if o.mask = 0 then s.retrain n
      else
        let s := s.setTrk n { t with own := some { o with acked := true } }
        let s := s.disarm .trkWidth n 0
        if o.answered then s.widthDone n else s
    else reply s
  | none => reply s

/-- Would the list be empty without a position, and without those that have to leave anyway? -/
def State.lastPos (s : State) (n p : Nat) : Bool := maskDel (s.goodList n) p == 0

/-- A position is bad or failed: it leaves at once, its flits are resent, and it trains again 1 ms later (05 R146, R147; 06
R169). -/
def State.removePos (s : State) (n p : Nat) : State :=
  let s := s.setBad n (maskAdd (s.badMask n) p)
  let s := s.setTrk n { s.trk n with txLeft := unitSet none (s.trk n).txLeft p none }
  let s := s.resendLane n (s.trkFirst n + p)
  (s.arm .badLane (s.trkFirst n + p) 0 (ms 1)).widthNext n

/-- The eighth NACK of a flit against a lane (LANE_MARK_BAD, 05 R146). -/
def State.laneMarkBad (s : State) (n l : Nat) : State :=
  let p := s.lanePos n l
  if (s.badMask n).testBit p then s
  else if (s.active n).testBit p && s.lastPos n p then s.setFld F.trkLinkStatusBadLast n 0 1
  else s.removePos n p

/-- A LANE_FAIL for one of this end's lanes (LANE_FAIL_RECEIVE, 05 R147). -/
def State.laneFailReceive (s : State) (n l : Nat) : State :=
  if (s.trkLanes n).contains l && s.trkState n == 2 then
    let p := s.lanePos n l
    if (s.active n).testBit p && s.lastPos n p then s.trunkLost n 6
    else if (s.badMask n).testBit p then s else s.removePos n p
  else s

/-- Is the position of a lane the last from which this end still receives? -/
def State.lastRx (s : State) (n p : Nat) : Bool :=
  (s.trk n).rxMask.testBit p && (maskPos (s.trk n).rxMask).all (fun q => q == p || (s.trk n).withdrawn.contains (s.trkFirst n + q))

/-- A lane is withdrawn from reception at this end (LANE_WITHDRAW, 05 R147); of a TD-212 trunk, it is lost (12 R322). Of a trunk in
training it carries no more. -/
def State.laneWithdraw (s : State) (l cause : Nat) : State :=
  match s.trkOf l with
  | none => s
  | some n =>
    if s.isTd n then s.tdLaneLost n l
    else if s.trkState n = 1 then
      (s.setTrk n { s.trk n with carrying := (s.trk n).carrying.filter (· != l) }).firstActive n
    else if s.trkState n ≠ 2 then s
    else if s.allDead n then s.trunkLost n 2
    else
      let t := s.trk n
      let p := s.lanePos n l
      if t.withdrawn.contains l then s
      else if s.lastRx n p || ((s.active n).testBit p && s.lastPos n p) then s.trunkLost n 6
      else
        let drains := (unitGet none t.txLeft p).isSome
        let s := s.setTrk n { t with
          withdrawn := l :: t.withdrawn, rxLeft := unitSet none t.rxLeft p none, txLeft := unitSet none t.txLeft p none,
          cut := if cause = 4 then maskAdd t.cut p else t.cut, carrying := t.carrying.filter (· != l) }
        let s := (s.firstActive n).addDue n (.laneFail (s.fld F.laneStatusPartnerLane l % 64) cause)
        if cause = 4 then (s.resendLane n l).widthNext n
        else (if drains then s.resendLane n l else s).arm .badLane l 0 (ms 1)

/-- A receiver has gone into announced idle: what its lane's fillers told is over (06 R475). -/
def State.rxIdled (s : State) (l : Nat) : State :=
  match s.trkOf l with
  | none => s
  | some n => s.setTrk n { s.trk n with rxLeft := unitSet none (s.trk n).rxLeft (s.lanePos n l) none }

/-- A lane outside announced idle has gone into it, or has come out: a trunk without a live lane is lost (05 R156), and the silence
timer runs while some lane is outside. -/
def State.idleCheck (s : State) (l : Nat) : State :=
  match s.trkOf l with
  | none => s
  | some n =>
    if s.isTd n || s.trkState n != 2 then s
    else if s.allDead n then s.trunkLost n 2
    else if (s.trkLanes n).all (fun k => (s.lane k).rxIdle) then s.disarm .trkSilence n 0
    else s.armOnce .trkSilence n 0 750

end Sys2Proof.Machine
end

