-- ==== Sys2Proof/Machine/Switch.lean ====
section
/-! DEFINITION. The switch core: acceptance, classification, admission, the Stair, linking with random early drop, departure,
Gallery rings and Ethernet MACs (spec/07_tunnels_and_switching.md; spec/01_architecture.md R19 to R25; spec/02 R55). -/

namespace Sys2Proof.Machine

/-! Order and contention (01 R21, 02 R55). -/

/-- The epoch in which a packet is presented to Hall h: that of its acceptance at home, four after its release elsewhere. -/
def State.presented (p : Parcel) (h : Nat) : Nat := if p.hall = h then p.tbAccept / 64 else p.tbReady / 64 + 4

/-- The place of a packet's source in the order of R55: local sources by the port or endpoint that feeds them, then Stair
arrivals by source Hall, the chip services last. -/
def lsRank (p : Parcel) (h : Nat) : Nat :=
  if p.hall = 4 ∨ (p.hall = h ∧ 48 ≤ p.src) then 2048 + p.src
  else if p.hall = h then
    (if p.src < 24 then p.src % 6 else if p.src < 32 then 6 else if p.src < 40 then 7 else 10) * 64 + p.src
  else 1024 + p.hall

/-- The first of a list by a key. -/
def firstBy (key : Parcel → Nat) (l : List Parcel) : Option Parcel :=
  l.foldl (fun a p => match a with
    | none => some p
    | some b => if key p < key b then some p else some b) none

/-- The key of R55 for contention in Hall h: epoch of presentation, source, and for Stair arrivals of one source and epoch the
order in which that source released them. -/
def lsKey (h : Nat) (p : Parcel) : Nat :=
  (State.presented p h * 4096 + lsRank p h) * 64 + (if p.hall = h then 0 else p.tbReady % 64)

/-- The first packet in the order of R55 among those presented to Hall h before epoch `e`. -/
def lsFirst (h e : Nat) (l : List Parcel) : Option Parcel :=
  firstBy (lsKey h) (l.filter (fun p => decide (State.presented p h < e)))

/-! The Landing (07 R184, R185, R188, R204). -/

/-- Rings that sample the packet now accepted, and the counters moved on. -/
def State.sampleRings (s : State) (h : Nat) : List Nat × State :=
  (List.range 16).foldl (fun (x : List Nat × State) g =>
    let n := x.2.fld F.galCtrlSampleN g
    if x.2.flag F.galCtrlEn g && x.2.fld F.galCtrlSampleHall g == h && n != 0 then
      let k := unitGet 0 x.2.galCount g + 1
      let s := { x.2 with galCount := unitSet 0 x.2.galCount g k }
      (if k % n = 0 then x.1 ++ [g] else x.1, s)
    else x) ([], s)

/-- LANDING_ACCEPT (07 R184, R185): the packet of the Hall that has been whole longest is checked, and accepted or dropped. -/
def State.landingAccept (s : State) (h : Nat) : State :=
  if s.hallState h ≠ 0 then s
  else match s.parcels.find? (fun p => p.hall == h && p.spot == .arrived) with
  | none => s
  | some p =>
    let trunk := decide (p.src < 24) && !p.loc && !s.tdOn p.src
    match acceptCheck p.pkt p.poison trunk with
    | some c => s.dropPacket p.id c
    | none =>
      let x := s.sampleRings h
      let p := { p with
        pkt := { p.pkt with hops := if trunk then p.pkt.hops - 1 else p.pkt.hops },
        spot := .accepted, tbAccept := s.tb, samples := x.1, pipe := (s.hall h).deal }
      let s := x.2.setHall h { x.2.hall h with deal := 1 - (x.2.hall h).deal }
      { s with parcels := s.parcels.filter (fun q => q.id != p.id) ++ [p] }

/-- A local packet takes whole Landing cells and waits for acceptance (07 R188); none when too few are free. -/
def State.localEnter (s : State) (h src : Nat) (pkt : Packet) : Option State :=
  if s.localRoom h < pkt.cellCount then none
  else
    let x := s.pickN pkt.cellCount (s.landingEmpty h)
    some (((x.2.addParcel {
      id := 0, pkt := pkt, src := src, hall := h, spot := .arrived, loc := true, segs := cellSegs x.1 }).frameIn h).writeSegs h
        (cellSegs x.1) pkt.toBytes)

/-- A packet created by a local source takes HOPS_INIT (07 R185). -/
def State.localHops (s : State) (h : Nat) (pkt : Packet) : Packet := { pkt with hops := s.fld F.hallBufCtrlHopsInit h }

/-- The oldest packet that source `src` of Hall h holds enters the Landing; one of the chip services asks for its leaf queue
at once (01 R25). -/
def State.localPacketEnter (s : State) (h src : Nat) : State :=
  if h < 4 ∧ s.hallState h ≠ 0 then s
  else match s.waiting.find? (fun w => w.hall == h && w.src == src) with
  | none => s
  | some w =>
    let rest := s.waiting.erase w
    match w.queue with
    | some q =>
      { s with waiting := rest }.addParcel {
        id := 0, pkt := s.localHops (q / 2048) w.pkt, src := src, hall := 4, spot := .asking, loc := true, queue := some q,
        tbAccept := s.tb, tbReady := s.tb }
    | none =>
      match s.localEnter h src (s.localHops h w.pkt) with
      | none => s
      | some s => { s with waiting := rest }

/-- The next packet a Hall's pipelines take: in order of acceptance, and in a LOCKSTEP Hall in the order of R55. -/
def State.nextToClassify (s : State) (h : Nat) : Option Parcel :=
  let l := s.parcels.filter (fun p => p.hall == h && p.spot == .accepted)
  if s.lockstep h then lsFirst h s.epochIndex l else l.head?

/-! Admission (07 R190, R191, R192, R214). -/

/-- Depth of a leaf queue: cells linked plus granted in transit, without packet `but`. -/
def State.depth (s : State) (q but : Nat) : Nat :=
  ((s.parcels.filter (fun p => p.inQueue q && p.id != but)).map (fun p => p.pkt.cellCount)).sum

/-- Cells granted to packets on their way to a Hall, without packet `but`. -/
def State.inTransit (s : State) (h but : Nat) : Nat :=
  ((s.parcels.filter (fun p => (p.spot == .granted || p.spot == .crossing) && p.queue.any (fun q => q / 2048 == h) &&
    p.id != but)).map (fun p => p.pkt.cellCount)).sum

/-- The depth that decisions see: in a LOCKSTEP Hall without what was given back since the epoch they decide (02 R56). -/
def State.depthSeen (s : State) (q but : Nat) : Nat :=
  s.depth q but + (((s.hall (q / 2048)).lsFreed.filter (fun f => f.queue == some q)).map (·.depth)).sum

/-- The free queue-buffer cells that decisions see. -/
def State.freeSeen (s : State) (h : Nat) : Int := ((s.freeCells h).length : Int) - (((s.hall h).lsFreed.map (·.free)).sum : Nat)

/-- Cells of unfilled reserves of a Hall, without packet `but`. -/
def State.unreserved (s : State) (h but : Nat) : Nat :=
  (s.regs.map (fun e =>
    if e.1.name = .hallQadm ∧ e.1.i = h then fldGet F.hallQadmReserve e.2 - s.depthSeen (h * 2048 + e.1.j) but else 0)).sum

/-- The terms of R190 for a packet of `n` cells: own and shared. -/
def State.roomFor (s : State) (q but : Nat) : Nat × Int :=
  let h := q / 2048
  (s.fld F.hallQadmReserve h (q % 2048) - s.depthSeen q but,
   s.freeSeen h - (s.inTransit h but : Int) - (s.unreserved h but : Int))

/-- R190. -/
def State.admits (s : State) (q n but : Nat) : Bool :=
  let x := s.roomFor q but
  let d := s.depthSeen q but
  let h := q / 2048
  decide (n ≤ x.1) ||
    (decide (((n - x.1 : Nat) : Int) ≤ x.2) &&
     decide (((d + n) * 64 : Nat) ≤ (s.fld F.hallQadmReserve h (q % 2048) * 64 : Nat) +
       (2 ^ s.fld F.hallQadmAlpha h (q % 2048) : Nat) * x.2))

/-- The grant of a loss-tolerant packet (07 R191). -/
def State.grantsLossy (s : State) (q n : Nat) : Bool :=
  let x := s.roomFor q 0
  decide ((n : Int) ≤ (x.1 : Int) + max 0 x.2)

/-- Has a Hall an enabled unit of a personality? -/
def State.hallHasMode (s : State) (h m : Nat) : Bool :=
  (List.range 3).any (fun k => s.fld F.quadPersonalityMode (3 * h + k) == m &&
    enabledUnits (s.reg .quadPersonality (3 * h + k)) != [])

/-- Do the Ushers of a Hall serve an Alcove (10 `ALCOVEa_CFG.CORE`)? -/
def State.hallServesAlcove (s : State) (h : Nat) : Bool :=
  s.regs.any (fun e => e.1.name == .alcoveCfg && fldGet F.alcoveCfgState e.2 != 0 && fldGet F.alcoveCfgCore e.2 / 2 == h)

/-- Is the trunk or endpoint of a scheduler port configured (01 R18, R19; assumption log 22): BRIDGE by a root port on the
Hall's lanes or an Alcove the Hall serves, ETH by a MAC, DPX by a DP_TX unit; the Canvas, the Ushers and the rings are there. -/
def State.portConfigured (s : State) (p : Nat) : Bool :=
  let h := p / 12
  match portTrunk p with
  | some n => s.flag F.trkCfgEn n
  | none => match p % 12 with
    | 6 => s.hallHasMode h 4 || s.hallServesAlcove h
    | 7 => s.hallHasMode h 5
    | 9 => s.hallHasMode h 3
    | _ => true

/-- The usable leaf queues of a scheduler port. -/
def State.queuesOf (s : State) (port : Nat) : List Nat :=
  (s.nodes.filterMap (fun e => if nodeLevel e.1 = 0 then some (nodeHall e.1 * 2048 + nodeIndex e.1) else none)).filter
    (fun q => s.portOf q == port && s.usable q)

/-- A packet bound for a leaf queue of a Hall that is not in RUN (01 R16): for a trunk whose mate's Hall runs, it is steered to
a leaf queue of the mate's port, which one is open (assumption log 111); otherwise it is dropped. -/
def State.divert (s : State) (p : Parcel) (q : Nat) : State :=
  let l := match portTrunk (s.portOf q) with
    | some n => match s.mateOf n with
      | some m => if s.hallState (m / 6) = 0 then s.queuesOf (m / 6 * 12 + m % 6) else []
      | none => []
    | none => []
  if l = [] ∨ p.copy.isSome then s.dropPacket p.id 11
  else
    let r := s.pick l
    r.2.putParcel { p with queue := some r.1, spot := .asking, tbReady := s.readyAt p }

/-- Decide one packet (07 R191): granted, dropped, or left waiting. -/
def State.admitIn (s : State) (p : Parcel) : State :=
  match p.queue with
  | none => s.dropPacket p.id 8
  | some q =>
    if s.hallState (q / 2048) ≠ 0 then s.divert p q
    else if !s.usable q || !s.portConfigured (s.portOf q) then s.dropPacket p.id 8
    else if p.pkt.lossy then
      if s.grantsLossy q p.pkt.cellCount then s.putParcel { p with spot := .granted, tbGrant := s.tb } else s.dropPacket p.id 9
    else if s.admits q p.pkt.cellCount 0 then s.putParcel { p with spot := .granted, tbGrant := s.tb }
    else s.putParcel { p with spot := .refusedOnce }

/-- The packets that ask Hall h or wait for it, from Hall `src`, oldest first. -/
def State.askers (s : State) (h src : Nat) : List Parcel :=
  s.parcels.filter (fun p => p.hall == src && p.queue.any (fun q => q / 2048 == h) &&
    (p.spot == .asking || p.spot == .refusedOnce))

/-- A packet is held back while an earlier one from its Hall waits for the same leaf queue (07 R192). -/
def heldBack (l : List Parcel) (p : Parcel) : Bool :=
  (l.takeWhile (fun x => x.id != p.id)).any (fun x => x.spot == .refusedOnce && x.queue == p.queue)

/-- The packet of source `src` that asks Hall h next: the oldest that nothing holds back; of a LOCKSTEP Hall the first in
the order of R55 among those released in epochs that have ended. -/
def State.nextAsker (s : State) (h src : Nat) : Option Parcel :=
  let l := s.askers h src
  let l' := l.filter (fun p => p.spot == .asking && !heldBack l p)
  if s.lockstep src then
    firstBy (fun p => (p.tbReady / 64 * 4096 + lsRank p src)) (l'.filter (fun p => decide (p.tbReady ≤ s.tb)))
  else l'.head?

/-- Hall h decides the packet of source `src` that asks next; a LOCKSTEP Hall decides contention at epochs only. Between
sources the order is that in which their requests arrive (02 R54; assumption log 168). -/
def State.admissionDecide (s : State) (h src : Nat) : State :=
  if s.lockstep h || !s.chipRuns || !s.flightRuns h 3 0 then s
  else match s.nextAsker h src with
    | none => s
    | some p => s.admitIn p

/-- The lossless packets that wait for Hall h are decided again, oldest first (07 R191). -/
def State.admissionRetry (s : State) (h : Nat) : State :=
  if s.lockstep h || !s.chipRuns || !s.flightRuns h 3 0 then s
  else
    (s.parcels.filter (fun p => p.spot == .refusedOnce && p.queue.any (fun q => q / 2048 == h))).foldl (fun s p =>
      match s.parcel p.id with
      | some p => if heldBack (s.askers h p.hall) p then s else s.admitIn p
      | none => s) s

/-! The Stair (01 R20 to R22). -/

/-- The granted packet of Hall `src` for Hall `dst` that crosses next: the oldest by acceptance (R21); out of a LOCKSTEP
Hall the first in the order of R55 among those granted in epochs that have ended. -/
def State.nextToCross (s : State) (src dst : Nat) : Option Parcel :=
  let l := s.parcels.filter (fun p => p.hall == src && p.spot == .granted && p.queue.any (fun q => q / 2048 == dst))
  if s.lockstep src then
    firstBy (fun p => p.tbGrant / 64 * 4096 + lsRank p src) (l.filter (fun p => decide (p.tbGrant / 64 < s.epochIndex)))
  else firstBy (·.tbAccept) l

/-- A granted packet of Hall `src` for Hall `dst` crosses. -/
def State.stairCross (s : State) (src dst : Nat) : State :=
  if src = dst || !s.stairOpen src dst then s
  else match s.nextToCross src dst with
    | some p => s.putParcel { p with spot := .crossing }
    | none => s

/-! Random early drop (07 R199 to R201). -/

/-- What random early drop decides. -/
inductive RedVerdict where
  | admitIn | drop | mark
  deriving DecidableEq, Repr

/-- The average of a leaf queue in force under its profile's mode, in 1/65,536. -/
def State.redAvg (s : State) (q : Nat) : Nat :=
  let h := q / 2048
  let p := s.fld F.hallQadmProfile h (q % 2048)
  if s.flag F.hallRedCtrlMode h p then unitGet 0 (s.hall h).delayAvg (q % 2048)
  else unitGet 0 (s.hall h).redAvg (q % 2048)

/-- An average moved by 1/2^W of its distance to a new value. -/
def avgStep (avg v w : Nat) : Nat :=
  if avg ≤ v * 65536 then avg + (v * 65536 - avg) / 2 ^ w else avg - (avg - v * 65536) / 2 ^ w

/-- The random value r of R200: free in LEDGER mode, drawn in LOCKSTEP from the seed, the packet's flow key as received and its
number (02 R55, 07 R193, 09 R246). -/
def State.redRandom (s : State) (q : Nat) (p : Parcel) (n : Nat) : Nat × State :=
  let h := q / 2048
  if s.lockstep h then
    let key := if p.key = [] then flowKey p.pkt.flow p.pkt.tunnelId p.src else p.key
    (crc32c (leBytes 8 (s.reg .hallLsSeed h).toNat ++ key ++ leBytes 8 n) % 65536, s)
  else
    let r := s.openValue
    (r.1.toNat % 65536, r.2)

/-- The ECN field of a packet's IP header, when it may be marked: offset and family. -/
def ecnField (p : Parcel) : Option (Nat × Nat) :=
  if p.pkt.type ≠ 4 ∨ p.pkt.e2e then none
  else if p.ipKind ≠ 4 ∧ p.ipKind ≠ 6 then none
  else if p.ipOff = 0xFF ∨ p.ipOff < 16 ∨ p.pkt.size < p.ipOff + (if p.ipKind = 4 then 20 else 40) then none
  else
    let b := fun i => (p.pkt.payload.getD (p.ipOff - 16 + i) 0).toNat
    let ecn := if p.ipKind = 4 then b 1 % 4 else b 1 / 16 % 4
    if ecn = 1 ∨ ecn = 2 then some (p.ipOff - 16, p.ipKind) else none

/-- One's complement sum of 16-bit words, folded. -/
def ocFold (v : Nat) : Nat := let a := v % 65536 + v / 65536
  a % 65536 + a / 65536

/-- Set CE, and update an IPv4 header checksum incrementally (RFC 1624 form). -/
def ecnMark (payload : List Byte) (off kind : Nat) : List Byte :=
  let b := fun i => (payload.getD (off + i) 0).toNat
  if kind = 6 then payload.set (off + 1) (BitVec.ofNat 8 (b 1 ||| 0x30))
  else
    let old := b 0 * 256 + b 1
    let new := b 0 * 256 + (b 1 ||| 3)
    let hc := b 10 * 256 + b 11
    let c := 65535 - ocFold ((65535 - hc) + (65535 - old) + new)
    ((payload.set (off + 1) (BitVec.ofNat 8 (b 1 ||| 3))).set (off + 10) (BitVec.ofNat 8 (c / 256))).set (off + 11)
      (BitVec.ofNat 8 c)

/-- Random early drop of a packet offered to a leaf queue with RED_EN, under the average `avg` (07 R200, R201). -/
def State.redDecide (s : State) (q : Nat) (p : Parcel) (avg n : Nat) : RedVerdict × State :=
  let h := q / 2048
  let pr := s.fld F.hallQadmProfile h (q % 2048)
  let c := pr * 3 + min 2 p.pkt.colour
  let mn := s.fld F.hallRedLiveMinNow h c
  let mx := s.fld F.hallRedLiveMaxNow h c
  if avg < mn * 65536 then (.admitIn, s)
  else if mx * 65536 ≤ avg then (.drop, s)
  else
    let x := s.redRandom q p n
    -- r < p * 65536 with p = maxp / 256 * (avg - min) / (max - min); avg is in 1/65,536
    if x.1 * 256 * (mx - mn) < s.fld F.hallRedCMaxp h c * (avg - mn * 65536) then
      (if s.flag F.hallRedCtrlEcn h pr ∧ (ecnField p).isSome then .mark else .drop, x.2)
    else (.admitIn, x.2)

/-! Linking (07 R189, R191). -/

/-- A leaf queue has become non-empty: the input queues of Ushers that it feeds signal their Bells (16 *Fixed sources*; 09
R248). -/
def State.usherArrive (s : State) (q : Nat) : State :=
  let h := q / 2048
  (List.range 32).foldl (fun s j =>
    if s.flag F.hallUshqValid h j && s.fld F.hallUshqQueue h j == q % 2048 then s.ring (2 * h + j / 16) (16 + j % 16) else s) s

/-- The packet is written to queue-buffer cells and linked; its Landing segments and credits are free. In a LOCKSTEP Hall it
is linked at the end of the epoch that decided it. -/
def State.linkParcel (s : State) (p : Parcel) (q : Nat) : State :=
  let h := q / 2048
  let x := s.pickN p.pkt.cellCount (s.freeCells h)
  let s := x.2.writeCells h x.1 p.pkt.toBytes
  let s := if p.hall = h then s else (if p.hall < 4 then s.frameOut p.hall else s).frameIn h
  let y := s.leaveLanding p
  let s := y.2.putParcel { y.1 with hall := h, cells := x.1, spot := .linked, tbLink := if s.lockstep h then 64 * (s.hall h).lsNext else s.tb }
  let old := unitGet [] s.leafQ q
  let s := { s with leafQ := unitSet [] s.leafQ q (old ++ [p.id]) }
  if old = [] then s.usherArrive q else s

/-- A granted packet arrives in its egress Hall (07 R191, R199). Every packet that arrives counts as offered for the n of 02
R55 (assumption log 170). -/
def State.queueArrive (s : State) (p : Parcel) (q : Nat) : State :=
  let h := q / 2048
  let l := q % 2048
  let n := unitGet 0 (s.hall h).lsOffered l
  let s := s.setHall h { s.hall h with lsOffered := unitSet 0 (s.hall h).lsOffered l (n + 1) }
  if !p.pkt.lossy then s.linkParcel p q
  else if !s.admits q p.pkt.cellCount p.id then s.dropPacket p.id 9
  else if !s.flag F.hallQadmRedEn h l then s.linkParcel p q
  else
    let d := s.depthSeen q p.id
    let w := s.fld F.hallRedCtrlW h (s.fld F.hallQadmProfile h l)
    let avg := avgStep (if d = 0 then 0 else unitGet 0 (s.hall h).redAvg l) d w
    let s := s.setHall h { s.hall h with redAvg := unitSet 0 (s.hall h).redAvg l avg }
    let v := s.redDecide q p (s.redAvg q) n
    match v.1 with
    | .admitIn => v.2.linkParcel p q
    | .drop => v.2.dropPacket p.id 10
    | .mark =>
      match ecnField p with
      | some (off, k) =>
        let p := { p with pkt := { p.pkt with payload := ecnMark p.pkt.payload off k } }
        (v.2.putParcel p).linkParcel p q
      | none => v.2.dropPacket p.id 10

/-! The Hall's arbiter for its buffer write ports (01 R13, R21, R22; assumption log 168). -/

/-- The packet that a source offers to Hall h: the oldest on its way, or of the Hall itself granted. -/
def State.offer (s : State) (h src : Nat) : Option Parcel :=
  s.parcels.find? (fun p => p.hall == src && p.queue.any (fun q => q / 2048 == h) &&
    (if src = h then p.spot == .granted else p.spot == .crossing))

/-- The sources that offer a packet to Hall h, from the one behind the arbiter's turn on. -/
def State.offers (s : State) (h : Nat) : List Nat :=
  ((List.range 5).map (fun i => ((s.hall h).arbTurn + 1 + i) % 5)).filter (fun src => (s.offer h src).isSome)

/-- The turns a source needs before its deficit is above 0. -/
def turnsTo (deficit : Int) (w : Nat) : Nat := max 1 (ceilDiv (1 - deficit).toNat (max 1 w))

/-- The source whose packet is written next, and the deficits the arbiter then holds: a source that offers alone goes on;
otherwise the one whose turn it is while its deficit is above 0, else the first whose turns bring it above 0. -/
def State.arbiter (s : State) (h : Nat) : Option (Nat × UnitMap Int) :=
  let k := s.hall h
  let def_ := fun src => unitGet 0 k.arbDeficit src
  match s.offers h with
  | [] => none
  | [x] => some (x, k.arbDeficit)
  | l =>
    if l.contains k.arbTurn && decide (0 < def_ k.arbTurn) then some (k.arbTurn, k.arbDeficit)
    else
      let need := fun src => turnsTo (def_ src) (Config.arbWeight h src)
      let least := (l.map need).foldl min (need (l.headD 0))
      match l.find? (fun src => need src == least) with
      | none => none
      | some x =>
        let first := l.takeWhile (fun src => src != x)
        some (x, l.foldl (fun m src =>
          let turns := if src = x ∨ first.contains src then least else least - 1
          unitSet 0 m src (def_ src + (turns * max 1 (Config.arbWeight h src) : Nat))) k.arbDeficit)

/-- The packet that source `src` offers to Hall h is written, when the arbiter chooses that source (assumption log 168). -/
def State.queueLink (s : State) (h src : Nat) : State :=
  if !s.chipRuns || !s.hallRuns h 3 0 then s
  else match s.arbiter h, s.offer h src with
    | some (x, m), some p =>
      if x ≠ src then s
      else
        let alone := (s.offers h).length == 1
        let m := if alone then m else unitSet 0 m src (unitGet 0 m src - (p.pkt.size : Int))
        let s := s.setHall h { s.hall h with arbTurn := src, arbDeficit := m }
        match p.queue with
        | some q => s.queueArrive p q
        | none => s
    | _, _ => s

/-! LOCKSTEP (02 R55, R56). -/

/-- The average delay of a queue moves with a packet that leaves (07 R199, R202). -/
def State.delayMove (s : State) (q sojourn : Nat) : State :=
  let h := q / 2048
  let w := s.fld F.hallRedCtrlW h (s.fld F.hallQadmProfile h (q % 2048))
  let a := avgStep (unitGet 0 (s.hall h).delayAvg (q % 2048)) sojourn w
  s.setHall h { s.hall h with delayAvg := unitSet 0 (s.hall h).delayAvg (q % 2048) a }

/-- A packet leaves its leaf queue: its sojourn in units of 100 ns moves the average, in a LOCKSTEP Hall with the epoch. -/
def State.delayStep (s : State) (p : Parcel) (q : Nat) : State :=
  if s.lockstep (q / 2048) then s else s.delayMove q ((s.tb - p.tbLink) / 100)

/-- The sojourn that `noteFreed` keeps of a packet that leaves. -/
def State.sojourn (s : State) (p : Parcel) : Option Nat := some ((s.tb - p.tbLink) / 100)

/-- The packets that ask Hall h or wait for it, and can reach it. -/
def State.contenders (s : State) (h : Nat) : List Parcel :=
  s.parcels.filter (fun p => p.queue.any (fun q => q / 2048 == h) && (p.spot == .asking || p.spot == .refusedOnce) &&
    (p.hall == h || s.stairOpen p.hall h))

/-- Decide packets presented before epoch `e` one after another in the order of R55: admission, and for a granted packet its
crossing and linking. -/
def State.lsDecide (h e : Nat) : Nat → List Nat → State → State
  | 0, _, s => s
  | fuel + 1, done, s =>
    match lsFirst h e ((s.contenders h).filter (fun p => !done.contains p.id)) with
    | none => s
    | some p =>
      let all := s.askers h p.hall
      let s := if heldBack all p then s else s.admitIn p
      let s := match s.parcel p.id with
        | some p' => (match p'.spot, p'.queue with
          | .granted, some q => s.queueArrive p' q
          | _, _ => s)
        | none => s
      State.lsDecide h e fuel (p.id :: done) s

/-- Decide epoch `e` of Hall h: what was given back up to its end is seen, then every packet presented up to it. -/
def State.decideEpoch (s : State) (h e : Nat) : State :=
  let k := s.hall h
  let s := s.setHall h { k with lsNext := e + 1, lsFreed := k.lsFreed.filter (fun f => decide (e < f.epoch)) }
  let s := (k.lsFreed.filter (fun f => decide (f.epoch ≤ e))).foldl (fun s f =>
    match f.queue, f.sojourn with
    | some q, some d => s.delayMove q d
    | _, _ => s) s
  State.lsDecide h (e + 1) s.parcels.length [] s

/-- The next ended epoch with something new to decide: a presentation, something given back, or the epoch that ended last. -/
def State.nextEpoch (s : State) (h : Nat) : Option Nat :=
  let k := s.hall h
  let l := ((s.contenders h).map (fun p => State.presented p h) ++ k.lsFreed.map (·.epoch) ++ [s.epochIndex - 1]).filter (fun e =>
    decide (k.lsNext ≤ e ∧ e < s.epochIndex))
  match l with
  | [] => none
  | e :: t => some (t.foldl min e)

/-- Decide the ended epochs of Hall h in epoch order. -/
def State.decideEpochs (h : Nat) : Nat → State → State
  | 0, s => s
  | fuel + 1, s => match s.nextEpoch h with
    | none => s
    | some e => State.decideEpochs h fuel (s.decideEpoch h e)

/-- The decision epochs that have ended in a LOCKSTEP Hall are decided, late ones in epoch order and each as at its end. -/
def State.lockstepDecide (s : State) (h : Nat) : State :=
  if s.lockstep h && s.chipRuns && s.flightRuns h 3 0 then
    State.decideEpochs h ((s.contenders h).length + (s.hall h).lsFreed.length + 1) s
  else s

/-! Departure (01 R24). -/

/-- Has a served packet's last byte been taken: by its endpoint, or, for a trunk, by the replay buffer? -/
def State.tookLast (s : State) (p : Parcel) : Bool :=
  if p.wholly then
    !(s.trunks.any (fun e => (e.2.vcQ ++ e.2.hold).any (fun v => v.2.any (fun (x : TxPacket) => x.id == p.id)))) &&
      !(s.tds.any (fun e => e.2.txQ.any (fun x => x.id == p.id) || e.2.txId.any (fun x => x.2 == p.id)))
  else p.taken

/-- A served packet of port `p` that is wholly taken leaves the queue buffer; the port's round boundary (08 R222). -/
def State.packetDepart (s : State) (port : Nat) : State :=
  let h := port / 12
  match s.parcels.find? (fun p => p.hall == h && p.spot == .serving && p.queue.any (fun q => s.portOf q == port) && s.tookLast p) with
  | none => s
  | some p =>
    let s := match p.queue with
      | some q => s.delayStep p q
      | none => s
    ((((s.noteFreed p true (s.sojourn p)).leaveHub p.id).frameOut h).unstamp p).packetEnd p

/-! Gallery rings (07 R203 to R206). -/

/-- The 128 bytes of an entry (07 *Gallery entry*). -/
def galleryEntry (c : CopyInfo) (lost : Bool) (seq now : Nat) : List Byte :=
  leBytes 8 c.ts ++ leBytes 8 now ++ leBytes 2 seq ++ leBytes 2 c.epoch ++
    [BitVec.ofNat 8 (c.flags + (if lost then 16 else 0)), BitVec.ofNat 8 c.reason, BitVec.ofNat 8 c.ingress,
     BitVec.ofNat 8 c.egress] ++ leBytes 2 c.queue ++ leBytes 2 c.typeTid ++ leBytes 4 c.pktLen ++
    (c.head ++ List.replicate 96 0).take 96

/-- Write an entry and move WR on. -/
def State.galleryPut (s : State) (g : Nat) (p : Parcel) (c : CopyInfo) : State :=
  let wr := s.fld F.galWrWr g
  let size := 2 ^ s.fld F.galCtrlSizeLog2 g
  let e := galleryEntry c (s.galLossy.contains g) (wr % 65536) s.tb
  let s := { s with galLossy := s.galLossy.erase g }
  ((s.writeBytes (s.fld F.galBaseBase g + wr % size * 128) e).setFld F.galWrWr g 0 (wr + 1)).putParcel { p with taken := true }

/-- The GALLERY port of Hall h writes the entry of the copy it serves (07 R203, R205, R206); a packet that is no copy has
nowhere to go. -/
def State.galleryWrite (s : State) (h : Nat) : State :=
  match s.parcels.find? (fun p => p.hall == h && p.spot == .serving && !p.taken && p.queue.any (fun q => s.portOf q == 12 * h + 11)) with
  | none => s
  | some p =>
    match p.copy with
    | none => s.dropPacket p.id 8
    | some c =>
      let g := c.ring
      let full := decide ((s.fld F.galWrWr g + 2 ^ 32 - s.fld F.galRdRd g) % 2 ^ 32 = 2 ^ s.fld F.galCtrlSizeLog2 g)
      if !s.flag F.galCtrlEn g || s.flag F.galStatusStopped g then s.dropPacket p.id 15
      else if !full then s.galleryPut g p c
      else if s.flag F.galCtrlMode g then
        (((s.setFld F.galStatusStopped g 0 1).ring 8 (120 + h)).dropPacket p.id 15)
      else ((s.addFld F.galRdRd g 0 1).addFld F.galOverwrittenCount g 0 1).galleryPut g p c

/-! Ethernet MACs (07 R207 to R210). -/

/-- The quad whose enabled units hold unit `num` of a personality. -/
def State.unitQuad (s : State) (mode num : Nat) : Option Nat :=
  (List.range 12).find? (fun q => s.fld F.quadPersonalityMode q == mode &&
    (enabledUnits (s.reg .quadPersonality q)).any (fun u => unitNum (unitField (s.reg .quadPersonality q) u) == num))

/-- The EtherType of a frame at byte `a`. -/
def etherType (f : List Byte) (a : Nat) : Nat := (f.getD a 0).toNat * 256 + (f.getD (a + 1) 0).toNat

/-- A frame without the outer tag whose TPID is `tpid`. -/
def stripTag (f : List Byte) : List Byte := f.take 12 ++ f.drop 16

/-- Is a frame tagged? -/
def isTagged (f : List Byte) (tpid : Nat) : Bool :=
  let t := etherType f 12
  t == 0x8100 || t == 0x88A8 || t == tpid

/-- FLOW of a received frame (07 R208): destination, source and outer VLAN ID, two bytes big-endian (assumption log 23). -/
def ethFlow (f : List Byte) (tpid : Nat) : Nat :=
  let vid := if isTagged f tpid then etherType f 14 % 4096 else 0
  crc32c (f.take 12 ++ [BitVec.ofNat 8 (vid / 256), BitVec.ofNat 8 vid]) % 2 ^ 20

/-- The ETH packet of a frame without its FCS (07 R208, R209). -/
def ethPacket (f : List Byte) (tid flow hops : Nat) : Packet :=
  { type := 4, tunnelId := tid, vc := 4, flow := flow, hops := hops, droppable := true, len := f.length, payload := f }

/-- RS-FEC codewords of the lane of Ethernet port m, corrected and uncorrectable (04 R131); only rate 2 has that FEC. -/
def State.ethFec (s : State) (m fixed lost : Nat) : State :=
  match (s.unitLanes 5 m).head? with
  | some l => match s.laneUnit l with
    | some u => if unitRate (unitField (s.reg .quadPersonality (l / 4)) u) = 2 then s.laneFec l fixed 0 lost false else s
    | none => s
  | none => s

/-- A MAC receives a frame, destination address to FCS (07 R207, R208); `fixed` and `lost` are the RS-FEC codewords corrected
and uncorrectable on its lane since the frame before. -/
def State.ethReceive (s : State) (m : Nat) (f : List Byte) (fixed lost : Nat) : State :=
  match s.unitQuad 5 m with
  | none => s
  | some q =>
    let s := s.ethFec m fixed lost
    if !s.flag F.ethCtrlEn m then s
    else
      let h := q / 3
      let body := f.take (f.length - 4)
      let tpid := s.fld F.ethTagTpid m
      if crc32 body ≠ leNat (f.drop (f.length - 4)) then s.addFld F.ethCntCount m 2 1
      else if f.length < 64 then s.addFld F.ethCntCount m 3 1
      else if s.fld F.ethCtrlMaxFrame m < f.length then s.addFld F.ethCntCount m 4 1
      else if etherType body 12 = 0x8808 then s.addFld F.ethCntCount m 5 1
      else
        let s := ((s.wakeOn 3).addFld F.ethCntCount m 0 1).addFld F.ethCntCount m 1 f.length
        let s := if isTagged body tpid then s.addFld F.ethCntCount m 10 1 else s
        let body := if s.flag F.ethCtrlStrip m ∧ etherType body 12 = tpid then stripTag body else body
        match s.localEnter h (32 + m) (s.localHops h (ethPacket body (s.fld F.ethCtrlTid m) (ethFlow body tpid) 0)) with
        | some s => s
        | none => s.addFld F.ethCntCount m 6 1

/-- The frame that a MAC sends for a packet (07 R210), FCS included. -/
def State.ethFrame (s : State) (m : Nat) (payload : List Byte) : List Byte :=
  let tag := leBytes 0 0 ++ [BitVec.ofNat 8 (s.fld F.ethTagTpid m / 256), BitVec.ofNat 8 (s.fld F.ethTagTpid m),
    BitVec.ofNat 8 ((s.reg .ethTag m).toNat / 256), BitVec.ofNat 8 ((s.reg .ethTag m).toNat)]
  let f := if s.flag F.ethCtrlInsert m then payload.take 12 ++ tag ++ payload.drop 12 else payload
  let f := f ++ List.replicate (60 - f.length) 0
  f ++ leBytes 4 (crc32 f)

/-- MAC m sends the frame its Hall's ETH port serves. -/
def State.ethTransmit (s : State) (m : Nat) : State :=
  match s.unitQuad 5 m with
  | none => s
  | some q =>
    let port := 12 * (q / 3) + 7
    match s.parcels.find? (fun p => p.hall == q / 3 && p.spot == .serving && !p.taken && p.queue.any (fun x => s.portOf x == port)) with
    | none => s
    | some p =>
      if !s.flag F.ethCtrlEn m then s
      else if !p.pkt.e2eOk then s.dropPacket p.id 6
      else
        let f := s.ethFrame m p.pkt.payload
        if s.fld F.ethCtrlMaxFrame m < f.length then (s.addFld F.ethCntCount m 9 1).dropPacket p.id 13
        else
          let s := (s.addFld F.ethCntCount m 7 1).addFld F.ethCntCount m 8 f.length
          let s := if s.flag F.ethCtrlInsert m || isTagged f (s.fld F.ethTagTpid m) then s.addFld F.ethCntCount m 11 1 else s
          (s.emit (.ethFrame m f)).putParcel { p with taken := true }

/-! Commands. -/

/-- LANDING_ACCEPT (07 R184, R185, R204). -/
def execLandingAccept (h : Fin 4) (s : State) : Host.Outcome State Fault Refusal := .next (s.landingAccept h.val)

/-- ADMISSION_DECIDE (07 R191): Hall h decides for source Hall `src`, 4 the chip services. -/
def execAdmissionDecide (h : Fin 4) (src : Fin 5) (s : State) : Host.Outcome State Fault Refusal :=
  .next (s.admissionDecide h.val src.val)

/-- ADMISSION_RETRY (07 R191). -/
def execAdmissionRetry (h : Fin 4) (s : State) : Host.Outcome State Fault Refusal := .next (s.admissionRetry h.val)

/-- STAIR_CROSS (01 R20, R21). -/
def execStairCross (src : Fin 5) (dst : Fin 4) (s : State) : Host.Outcome State Fault Refusal :=
  .next (s.stairCross src.val dst.val)

/-- QUEUE_LINK (07 R191). -/
def execQueueLink (h : Fin 4) (src : Fin 5) (s : State) : Host.Outcome State Fault Refusal := .next (s.queueLink h.val src.val)

/-- PACKET_DEPART (01 R24). -/
def execPacketDepart (p : Fin 48) (s : State) : Host.Outcome State Fault Refusal := .next (s.packetDepart p.val)

/-- LOCAL_PACKET_ENTER (07 R188, 01 R25). -/
def execLocalPacketEnter (h : Fin 5) (src : Fin 64) (s : State) : Host.Outcome State Fault Refusal :=
  .next (s.localPacketEnter h.val src.val)

/-- LANDING_CELL_CLAIM (07 R187), up to the size the latest training applied: cells that have become free are claimed, each
announced as 4 credits. -/
def execLandingCellClaim (n : Fin 24) (vc : Fin 8) (s : State) : Host.Outcome State Fault Refusal :=
  if s.flag F.trkCfgEn n.val && (s.trk n.val).param.isSome then
    let x := s.claimCells n.val vc.val
    .next (x.2.grant n.val vc.val (4 * x.1))
  else .next s

/-- FW_CELL_WITHHOLD (07 R189). -/
def execFwCellWithhold (h : Fin 4) (s : State) : Host.Outcome State Fault Refusal :=
  match s.fwPending h.val with
  | [] => .next s
  | c :: _ => .next (s.setHall h.val { s.hall h.val with fwHeld := (s.hall h.val).fwHeld ++ [c] })

/-- The packets held in a Hall for changed entries (07 R197). -/
def State.heldIn (s : State) (h : Nat) (f : Nat → Bool) : List Parcel :=
  (s.parcelsAt h .epochHeld).filter (fun p => f p.epoch)

/-- The packets held under the epochs that `f` picks go on, in order of acceptance. -/
def State.releaseHeld (s : State) (h : Nat) (f : Nat → Bool) : State :=
  let l := s.heldIn h f
  let s := (l.map (·.epoch)).foldl (fun s e => s.disarm .epochHold h e) s
  let s := { s with parcels := s.parcels.map (fun (p : Parcel) =>
    if p.hall = h ∧ p.spot = Spot.epochHeld ∧ f p.epoch = true then { p with spot := .asking, tbReady := s.readyAt p } else p) }
  s.setFld F.hallEpochStatusHeld h 0 (s.fld F.hallEpochStatusHeld h - l.length)

/-- EPOCH_HOLD_RELEASE (07 R197): every live epoch older than theirs has drained. -/
def execEpochHoldRelease (h : Fin 4) (s : State) : Host.Outcome State Fault Refusal :=
  .next (s.releaseHeld h.val (fun e => !s.olderLive h.val e))

/-- EPOCH_HOLD_TIMEOUT (07 R197, R198): a hold has lasted DRAIN_MAX with an older epoch still live; a pair map that has waited as
long comes into force, which counts no broken order (assumption log 185). -/
def execEpochHoldTimeout (h : Fin 4) (s : State) : Host.Outcome State Fault Refusal :=
  let late := fun e => s.due .epochHold h.val e && s.olderLive h.val e
  let n := (s.heldIn h.val late).length
  let s := s.pairMoves h.val (fun x => decide (x.since + us (s.fld F.hallBufCtrlDrainMax h.val) ≤ s.tb))
  if n = 0 then .next s
  else .next (((s.addFld F.hallOrderBreakCount h.val 0 n).ring 8 (120 + h.val)).releaseHeld h.val late)

/-- LOCKSTEP_EPOCH_DECIDE (02 R55, R56). -/
def execLockstepEpochDecide (h : Fin 4) (s : State) : Host.Outcome State Fault Refusal := .next (s.lockstepDecide h.val)

/-- GALLERY_WRITE (07 R203, R205). -/
def execGalleryWrite (h : Fin 4) (s : State) : Host.Outcome State Fault Refusal := .next (s.galleryWrite h.val)

/-- ETH_FRAME_RECEIVE (07 R207, R208). -/
def execEthFrameReceive (m : Fin 8) (rx : EthIn) (s : State) : Host.Outcome State Fault Refusal :=
  .next (s.ethReceive m.val rx.frame rx.fixed rx.lost)

/-- ETH_FRAME_TRANSMIT (07 R210). -/
def execEthFrameTransmit (m : Fin 8) (s : State) : Host.Outcome State Fault Refusal := .next (s.ethTransmit m.val)

/-- QADM_WRITE (07 R190): ALPHA above 9 is stored as 9; a reserve that would take the Hall's sum above 4,096 sets CFG_ERR. -/
def State.qadmWrite (s : State) (h q : Nat) (value mask : BitVec 64) : State :=
  let new := regWrite .hallQadm mask value (s.reg .hallQadm h q)
  let others := (s.regs.map (fun e =>
    if e.1.name = .hallQadm ∧ e.1.i = h ∧ e.1.j ≠ q then fldGet F.hallQadmReserve e.2 else 0)).sum
  if 4096 < others + fldGet F.hallQadmReserve new then s.setFld F.hallBufCtrlCfgErr h 0 1 else s.setReg .hallQadm h q new

def execQadmWrite (h : Fin 4) (q : Fin 2048) (value : BitVec 64) (s : State) : Host.Outcome State Fault Refusal :=
  .next (s.qadmWrite h.val q.val value (BitVec.allOnes 64))

/-- RED_PROFILE_WRITE (07 R200, R202): colour c of profile p; a MIN above MAX is refused with CFG_ERR, and an applied write
restores the values in force. -/
def State.redWrite (s : State) (h c : Nat) (value mask : BitVec 64) : State :=
  let new := regWrite .hallRedC mask value (s.reg .hallRedC h c)
  if fldGet F.hallRedCMax new < fldGet F.hallRedCMin new then s.setFld F.hallBufCtrlCfgErr h 0 1
  else
    let s := s.setReg .hallRedC h c new
    (s.setFld F.hallRedLiveMinNow h c (fldGet F.hallRedCMin new)).setFld F.hallRedLiveMaxNow h c (fldGet F.hallRedCMax new)

def execRedProfileWrite (h : Fin 4) (p : Fin 16) (c : Fin 3) (value : BitVec 64) (s : State) :
    Host.Outcome State Fault Refusal :=
  .next (s.redWrite h.val (p.val * 3 + c.val) value (BitVec.allOnes 64))

/-- The thresholds in force of one colour, adapted: down to a quarter of the written values, up to them. -/
def adaptValue (up : Bool) (now written : Nat) : Nat :=
  if up then min written (now * 17 / 16) else max (ceilDiv written 4) (now * 15 / 16)

/-- RED_ADAPT (07 R202): an adaptive profile's instance starts, under the catch-up rule. -/
def State.redAdapt (s : State) (h p : Nat) : State :=
  let g := unitGet {} (s.hall h).redGrid p
  if !s.chipRuns ∨ !s.flag F.hallRedCtrlAdapt h p ∨ !g.on ∨ s.tb < g.next then s
  else
    let g' := g.start s.tb (s.fld F.hallRedCtrlAdaptPeriod h p * us 64) (s.fld F.chipCatchupMon)
    let s := s.setHall h { s.hall h with redGrid := unitSet {} (s.hall h).redGrid p g' }
    let s := if g'.rang ∧ !g.rang then s.ring 8 2 else s
    let qs := s.leafQ.filter (fun e => e.1 / 2048 == h && e.2 != [] && s.fld F.hallQadmProfile h (e.1 % 2048) == p)
    let d := (qs.map (fun e => unitGet 0 (s.hall h).delayAvg (e.1 % 2048))).foldl max 0
    let t := s.fld F.hallRedCtrlTarget h p * 65536
    let move := fun (up : Bool) => (List.range 3).foldl (fun s c =>
      let j := p * 3 + c
      (s.setFld F.hallRedLiveMinNow h j (adaptValue up (s.fld F.hallRedLiveMinNow h j) (s.fld F.hallRedCMin h j))).setFld
        F.hallRedLiveMaxNow h j (adaptValue up (s.fld F.hallRedLiveMaxNow h j) (s.fld F.hallRedCMax h j))) s
    if t * 11 < d * 10 then move false else if d * 10 < t * 9 then move true else s

def execRedAdapt (h : Fin 4) (p : Fin 16) (s : State) : Host.Outcome State Fault Refusal := .next (s.redAdapt h.val p.val)

/-- May a ring stand here: 4 KiB aligned, inside the DRAM fitted or one Usher's data memory? -/
def State.galRingOk (s : State) (base size : Nat) : Bool :=
  let n := size * 128
  base % 4096 == 0 &&
    (decide (0x10_0000_0000 ≤ base ∧ base + n ≤ 0x10_0000_0000 + s.fld F.dramCfgCapacity * 2 ^ 28) ||
     (List.range 8).any (fun u => decide (0x2_0000_0000 + u * 0x10_0000 + 0x1_0000 ≤ base ∧
       base + n ≤ 0x2_0000_0000 + u * 0x10_0000 + 0x4_0000)))

/-- A write to GALg_CTRL (07 *Gallery registers*): setting EN zeroes WR and RD, or is refused with CFG_ERR. -/
def State.galCtrlWrite (s : State) (g : Nat) (value mask : BitVec 64) : State :=
  let old := s.reg .galCtrl g
  let new := regWrite .galCtrl mask value old
  if fldGet F.galCtrlEn new = 1 ∧ fldGet F.galCtrlEn old = 0 then
    if s.galRingOk (s.fld F.galBaseBase g) (2 ^ fldGet F.galCtrlSizeLog2 new) then
      let s := ((s.setReg .galCtrl g 0 new).setReg .galWr g 0 0).setReg .galRd g 0 0
      { s with galCount := unitSet 0 s.galCount g 0 }
    else (s.setReg .galCtrl g 0 (fldPut F.galCtrlEn 0 new)).setFld F.galStatusCfgErr g 0 1
  else s.setReg .galCtrl g 0 new

/-- GAL_ENABLE (07 R205). -/
def execGalEnable (g : Fin 16) (value : BitVec 64) (s : State) : Host.Outcome State Fault Refusal :=
  .next (s.galCtrlWrite g.val value (BitVec.allOnes 64))

/-- GAL_REARM (07 R205): STOPPED is cleared. -/
def execGalRearm (g : Fin 16) (s : State) : Host.Outcome State Fault Refusal :=
  .next (s.setFld F.galStatusStopped g.val 0 0)

end Sys2Proof.Machine
end

