-- ==== Sys2Proof/Machine/Tlp.lean ====
section
/-! DEFINITION. TLPs in bytes and their splitting (spec/10_host_functions.md R258, R263; PCI Express Base Specification 4.0,
sections 2.2.1 to 2.2.9; assumption log 30). -/

namespace Sys2Proof.Machine

/-- Does a TLP carry data? -/
def Tlp.hasData (t : Tlp) : Bool := t.data != []

/-- Format and type. -/
def Tlp.fmtType (t : Tlp) : Nat :=
  let wide := if 2 ^ 32 ≤ t.addr then 0x20 else 0
  match t.op with
  | .memRd => wide
  | .memRdLk => 0x01 + wide
  | .memWr => 0x40 + wide
  | .ioRd => 0x02
  | .ioWr => 0x42
  | .cfgRd k => 0x04 + k % 2
  | .cfgWr k => 0x44 + k % 2
  | .atomic k => 0x4C + k % 3 + wide
  | .msg _ r => 0x30 + r % 8 + (if t.hasData then 0x40 else 0)
  | .cpl _ => 0x0A + (if t.hasData then 0x40 else 0)
  | .cplLk _ => 0x0B + (if t.hasData then 0x40 else 0)

/-- Is a TLP posted, non-posted or a completion (10 *Bridge prefix*, KIND)? -/
def Tlp.kind (t : Tlp) : Nat :=
  match t.op with
  | .memWr => 0
  | .msg .. => 0
  | .cpl _ => 2
  | .cplLk _ => 2
  | _ => 1

/-- Completion Status; 0 of any other TLP. -/
def Tlp.status (t : Tlp) : Nat :=
  match t.op with
  | .cpl st => st
  | .cplLk st => st
  | _ => 0

/-- The first DW of the header. -/
def Tlp.dw0 (t : Tlp) : List Byte :=
  let f := fun (b : Bool) (v : Nat) => if b then v else 0
  [BitVec.ofNat 8 t.fmtType,
   BitVec.ofNat 8 (t.tag / 512 % 2 * 0x80 + t.tc % 8 * 16 + t.tag / 256 % 2 * 8 + f t.ido 4 + f t.ln 2 + f t.th 1),
   BitVec.ofNat 8 (f (t.ecrc != []) 0x80 + f t.ep 0x40 + f t.ro 0x20 + f t.ns 0x10 + t.at_ % 4 * 4 + t.dws / 256 % 4),
   BitVec.ofNat 8 t.dws]

/-- The second and third DWs of a completion's header. -/
def Tlp.cplDws (t : Tlp) (st : Nat) : List Byte :=
  beBytes 2 t.cplId ++ beBytes 2 (st % 8 * 2 ^ 13 + t.count % 2 ^ 12) ++ beBytes 2 t.reqId ++
    [BitVec.ofNat 8 t.tag, BitVec.ofNat 8 (t.lower % 128)]

/-- A TLP in bytes. -/
def Tlp.bytes (t : Tlp) : List Byte :=
  let rest : List Byte := match t.op with
    | .cpl st => t.cplDws st
    | .cplLk st => t.cplDws st
    | .msg code _ => beBytes 2 t.reqId ++ [BitVec.ofNat 8 t.tag, BitVec.ofNat 8 code] ++ beBytes 8 t.addr
    | .cfgRd _ => beBytes 2 t.reqId ++ [BitVec.ofNat 8 t.tag, BitVec.ofNat 8 t.be] ++ beBytes 4 (t.addr / 4 * 4)
    | .cfgWr _ => beBytes 2 t.reqId ++ [BitVec.ofNat 8 t.tag, BitVec.ofNat 8 t.be] ++ beBytes 4 (t.addr / 4 * 4)
    | _ => beBytes 2 t.reqId ++ [BitVec.ofNat 8 t.tag, BitVec.ofNat 8 t.be] ++
        beBytes (if 2 ^ 32 ≤ t.addr then 8 else 4) (t.addr / 4 * 4 + t.ph % 4)
  t.pre ++ t.dw0 ++ rest ++ t.data ++ t.ecrc

/-- The TLP Prefixes at the front of a TLP, and the bytes behind them. -/
def tlpPrefixes : Nat → List Byte → List Byte × List Byte
  | 0, l => ([], l)
  | n + 1, l =>
    if (l.getD 0 0).toNat / 32 = 4 ∧ 4 ≤ l.length then
      let r := tlpPrefixes n (l.drop 4)
      (l.take 4 ++ r.1, r.2)
    else ([], l)

/-- The TLP that bytes without prefixes hold; none when they are not one whole TLP of PCI Express. -/
def Tlp.ofHeader (l : List Byte) : Option Tlp :=
  let b := fun i => (l.getD i 0).toNat
  let t0 := b 0
  let type := t0 % 32
  let wide := t0 / 32 % 2 == 1
  let dat := t0 / 64 % 2 == 1
  let dws := if b 2 % 4 * 256 + b 3 = 0 then 1024 else b 2 % 4 * 256 + b 3
  let td := b 2 / 128 == 1
  let hdr := if wide then 16 else 12
  let n := if dat then 4 * dws else 0
  let high := b 1 / 128 * 512 + b 1 / 8 % 2 * 256
  let base : Tlp := {
    op := .memRd, dws := dws, be := b 7, data := (l.drop hdr).take n, reqId := b 4 * 256 + b 5, tag := high + b 6,
    tc := b 1 / 16 % 8, ro := b 2 / 32 % 2 == 1, ido := b 1 / 4 % 2 == 1, ns := b 2 / 16 % 2 == 1, ep := b 2 / 64 % 2 == 1,
    at_ := b 2 / 4 % 4, th := b 1 % 2 == 1, ln := b 1 / 2 % 2 == 1, ph := b (hdr - 1) % 4,
    ecrc := if td then (l.drop (hdr + n)).take 4 else [],
    addr := beNat ((l.drop 8).take (if wide then 8 else 4)) / 4 * 4 }
  let cpl : Tlp := {
    base with cplId := b 4 * 256 + b 5, count := b 6 % 16 * 256 + b 7, reqId := b 8 * 256 + b 9, tag := high + b 10,
              lower := b 11 % 128, addr := 0, be := 0, ph := 0 }
  if l.length ≠ hdr + n + (if td then 4 else 0) ∨ 128 ≤ t0 then none
  else if type = 0 then some { base with op := if dat then .memWr else .memRd }
  else if type = 1 ∧ !dat then some { base with op := .memRdLk }
  else if type = 2 ∧ !wide then some { base with op := if dat then .ioWr else .ioRd, ph := 0 }
  else if (type = 4 ∨ type = 5) ∧ !wide then some { base with op := if dat then .cfgWr (type - 4) else .cfgRd (type - 4), ph := 0 }
  else if 0x0C ≤ type ∧ type ≤ 0x0E ∧ dat then some { base with op := .atomic (type - 0x0C) }
  else if type = 0x0A ∧ !wide then some { cpl with op := .cpl (b 6 / 32) }
  else if type = 0x0B ∧ !wide then some { cpl with op := .cplLk (b 6 / 32) }
  else if type / 8 = 2 ∧ wide then some { base with op := .msg (b 7) (type % 8), be := 0, ph := 0, addr := beNat ((l.drop 8).take 8) }
  else none

/-- The TLP that bytes hold, its prefixes with it. -/
def Tlp.ofBytes (l : List Byte) : Option Tlp :=
  let x := tlpPrefixes (l.length / 4) l
  (Tlp.ofHeader x.2).map (fun t => { t with pre := x.1 })

/-- The byte that byte enables switch on in DW `i` of `n`. -/
def Tlp.enabled (t : Tlp) (i byte : Nat) : Bool :=
  if i = 0 then t.be.testBit byte
  else if i + 1 = t.dws then t.be.testBit (4 + byte) else true

/-- Cut a request of `dws` DWs at every 4 KiB boundary and at `max` bytes (10 R263 Splitting): address, length and byte
enables of each part. -/
def cutParts (max : Nat) : Nat → Nat → Nat → Nat → Nat → List (Nat × Nat × Nat)
  | 0, _, _, _, _ => []
  | fuel + 1, addr, dws, first, last =>
    if dws = 0 then []
    else
      let n := min dws (min (Nat.max 1 (max / 4)) ((4096 - addr % 4096) / 4))
      if n = dws then [(addr, n, if n = 1 then first &&& last else first + last * 16)]
      else (addr, n, first + (if n = 1 then 0 else 0xF0)) :: cutParts max fuel (addr + 4 * n) (dws - n) 0xF last

/-- Byte enables of a request; a read with TLP Hints carries none and means every byte. -/
def Tlp.enables (t : Tlp) : Nat :=
  if t.th && t.op == .memRd then (if t.dws = 1 then 0xF else 0xFF) else t.be

/-- The parts of a request. -/
def Tlp.cut (t : Tlp) (max : Nat) : List (Nat × Nat × Nat) :=
  let e := t.enables
  let l := cutParts max t.dws t.addr t.dws (e % 16) (if t.dws = 1 then e % 16 else e / 16)
  if t.th && t.op == .memRd then l.map (fun x => (x.1, x.2.1, t.be)) else l

/-- One part of a request, under a tag; an ECRC is kept only by a request that is not cut. -/
def Tlp.part (t : Tlp) (addr dws be tag : Nat) : Tlp :=
  { t with addr := addr, dws := dws, be := be, tag := tag, ecrc := if dws = t.dws then t.ecrc else [] }

/-- The writes a memory write is cut into. -/
def Tlp.cutWrite (t : Tlp) (max : Nat) : List Tlp :=
  (t.cut max).map (fun x =>
    { t.part x.1 x.2.1 x.2.2 t.tag with data := (t.data.drop (x.1 - t.addr)).take (4 * x.2.1) })

/-- The bytes a memory write stores, with their addresses. -/
def Tlp.stores (t : Tlp) : List (Nat × Byte) :=
  (List.range (4 * t.dws)).filterMap (fun i =>
    if t.enabled (i / 4) (i % 4) then some (t.addr + i, t.data.getD i 0) else none)

/-- A completion of a request with data or, for a status other than 0, without. -/
def Tlp.answer (t : Tlp) (status : Nat) (addr : Nat) (data : List Byte) (count : Nat) (ep : Bool) (cplId : Nat) : Tlp :=
  { op := if t.op = .memRdLk then .cplLk status else .cpl status, dws := data.length / 4, data := data,
    reqId := t.reqId, tag := t.tag, tc := t.tc, ro := t.ro, ido := t.ido, ns := t.ns, ep := ep, cplId := cplId, count := count, lower := addr % 128 }

/-- Unsupported Request and Completer Abort. -/
def cplUr : Nat := 1
def cplCa : Nat := 4

end Sys2Proof.Machine
end

