-- ==== Sys2Proof/Machine/WzSys.lean ====
section
/-! DEFINITION. The system, operation-table, fence and Bell instructions that reach no far address, interrupt entry, the
late results of far accesses, and the Usher control commands (spec/03_waizefy_isa.md R74 to R85, R88, R93 to R95, R101;
spec/16_bell_interrupts.md R388 to R393). -/

namespace Sys2Proof.Machine

/-! System registers (03 R75). -/

/-- OTBUSY: the tags of a thread that hold an entry. -/
def State.otBusy (s : State) (c t : Nat) : Word :=
  ((s.wzCore c).ot.filter (fun e => e.thread == t)).foldl (fun w e => w ||| (1#64 <<< e.tag)) 0

/-- The profile code of a core: 0 WZ-U, 1 WZ-C, 2 WZ-C with crypto. -/
def coreProfile (c : Nat) : Nat := if c < 8 then 0 else if c < 10 then 1 else 2

/-- Is a system register number listed? -/
def sysListed (n : Nat) : Bool :=
  decide (n ≤ 3) || (decide (0x10 ≤ n) && decide (n ≤ 0x14)) || (decide (0x20 ≤ n) && decide (n ≤ 0x27)) ||
  n == 0x30 || n == 0x31 || (decide (0x40 ≤ n) && decide (n ≤ 0x43))

/-- May task mode read it? -/
def sysTaskRead (n : Nat) : Bool := decide (n ≤ 3) || decide (0x30 ≤ n)

/-- May task mode write it? -/
def sysTaskWrite (n : Nat) : Bool := decide (0x40 ≤ n)

/-- A listed system register's value. -/
def State.sysRead (s : State) (c t n : Nat) : Word :=
  let th := s.thr c t
  match n with
  | 0x000 => BitVec.ofNat 64 t
  | 0x001 => BitVec.ofNat 64 (c + 256 * coreProfile c)
  | 0x002 => BitVec.ofNat 64 s.tb
  | 0x003 => th.status
  | 0x010 => th.vbase
  | 0x011 => th.epc
  | 0x012 => th.fcause
  | 0x013 => th.fval
  | 0x014 => th.estatus
  | 0x030 => BitVec.ofNat 64 (otSize c - (s.wzCore c).ot.length)
  | 0x031 => s.otBusy c t
  | _ => if n < 0x40 then unitGet 0 th.twin (n - 0x20) else unitGet 0 th.scratch (n - 0x40)

/-- Write a listed system register; a read-only one keeps its value, and `STATUS` takes its three RW bits. -/
def Thread.sysWrite (th : Thread) (n : Nat) (v : Word) : Thread :=
  match n with
  | 0x003 => { th with status := (th.status &&& 8#64) ||| (v &&& 7#64) }
  | 0x010 => { th with vbase := v }
  | 0x011 => { th with epc := v }
  | 0x012 => { th with fcause := v }
  | 0x013 => { th with fval := v }
  | 0x014 => { th with estatus := v }
  | _ =>
    if 0x20 ≤ n ∧ n ≤ 0x27 then { th with twin := unitSet 0 th.twin (n - 0x20) v }
    else if 0x40 ≤ n ∧ n ≤ 0x43 then { th with scratch := unitSet 0 th.scratch (n - 0x40) v }
    else th

/-- `sys.rd g, num` (03 R75): PRIVILEGE for a register that task mode may not read; ILLEGAL for an unlisted number. -/
def execSysRd (x : Issue) (g : Fin 32) (num : BitVec 12) (s : State) : Host.Outcome State Fault Refusal :=
  .next (s.wzIssue x { group := .system, priv := !sysTaskRead num.toNat, illegal := !sysListed num.toNat, dsts := [g.val] }
    noChk fun s =>
      s.setThr x.core.val x.thread.val
        ((s.thr x.core.val x.thread.val).setG g.val (s.sysRead x.core.val x.thread.val num.toNat)).next)

/-- `sys.wr num, g` (03 R75). -/
def execSysWr (x : Issue) (num : BitVec 12) (g : Fin 32) (s : State) : Host.Outcome State Fault Refusal :=
  .next (s.wzIssue x { group := .system, priv := !sysTaskWrite num.toNat, illegal := !sysListed num.toNat, srcs := [g.val] }
    noChk fun s =>
      let th := s.thr x.core.val x.thread.val
      s.setThr x.core.val x.thread.val (th.sysWrite num.toNat (th.g g.val)).next)

/-- `sys.eret` (03 R83): STATUS from ESTATUS with FIP cleared, and on at EPC, with no ALIGN fault of its own (assumption
log 162). AFP, which is read-only, stays. -/
def execSysEret (x : Issue) (s : State) : Host.Outcome State Fault Refusal :=
  .next (s.wzIssue x { group := .system, priv := true } noChk fun s =>
    let th := s.thr x.core.val x.thread.val
    s.setThr x.core.val x.thread.val
      { th with status := (th.status &&& 8#64) ||| (th.estatus &&& 3#64), pc := th.epc.toNat })

/-- `sys.trap num` (03 R83): a TRAP fault, FVAL holds the number. -/
def execSysTrap (x : Issue) (num : BitVec 12) (s : State) : Host.Outcome State Fault Refusal :=
  .next (s.wzIssue x { group := .system } noChk fun s =>
    s.faultEntry x.core.val x.thread.val 6 (s.thr x.core.val x.thread.val).pc (num.setWidth 64))

/-- `sys.brk num` (03 *sys group*): a BREAK fault, FVAL holds the number; with JTAG debug enabled the thread halts
instead, behind the instruction (assumption logs 7 and 9). -/
def execSysBrk (x : Issue) (num : BitVec 12) (s : State) : Host.Outcome State Fault Refusal :=
  .next (s.wzIssue x { group := .system } noChk fun s =>
    if s.jtagDebug && !s.flag F.fuseCfgDebugLock then
      let s := s.setThr x.core.val x.thread.val { (s.thr x.core.val x.thread.val).next with jtag := true }
      if s.docentHeld then s.disarm .wdog 0 0 else s
    else s.faultEntry x.core.val x.thread.val 7 (s.thr x.core.val x.thread.val).pc (num.setWidth 64))

/-- `sys.yield` (03 R72): the thread goes on and gives up its next turn. -/
def execSysYield (x : Issue) (s : State) : Host.Outcome State Fault Refusal :=
  .next (s.wzIssue x { group := .system } noChk fun s =>
    (s.yieldTurn x.core.val x.thread.val).setThr x.core.val x.thread.val (s.thr x.core.val x.thread.val).next)

/-- `sys.halt` (03 *sys group*): the thread halts; only a core reset restarts it. -/
def execSysHalt (x : Issue) (s : State) : Host.Outcome State Fault Refusal :=
  .next (s.wzIssue x { group := .system, priv := true } noChk fun s =>
    s.setThr x.core.val x.thread.val { (s.thr x.core.val x.thread.val) with run := .halted })

/-- INTERRUPT entry (03 R83 to R85, R95): a source is takeable for a thread with IE = 1. A wait is abandoned, EPC at the
wait instruction; the source is not taken. A fetch that would fail is a precise fault of the next instruction, which goes
before INTERRUPT (R84); that an instruction which can be fetched raises none is the sender's affair, as log 1 says. -/
def execInterruptEntry (core : Fin 11) (thread : Fin 8) (s : State) : Host.Outcome State Fault Refusal :=
  let th := s.thr core.val thread.val
  if s.coreIssues core.val && th.run.live && !th.jtag && th.ie && !th.asyncDue &&
      (s.bellBest core.val thread.val).isSome then
    if !s.fetchOk core.val th.pc then .next (s.faultHere core.val thread.val 3)
    else .next ((s.setThr core.val thread.val { th with run := .running, entered := s.tb }).faultEntry core.val thread.val 8 th.pc 0)
  else .next s

/-! Operation table (03 R78). -/

/-- `ot.wait rd, t` (03 *ot group*). -/
def execOtWait (x : Issue) (rd : Fin 32) (tag : Fin 16) (s : State) : Host.Outcome State Fault Refusal :=
  .next (s.wzIssue x { group := .system, illegal := tagIllegal x.core.val (some tag.val), dsts := [rd.val] } noChk fun s =>
    let c := x.core.val
    let t := x.thread.val
    match s.otFind c t tag.val with
    | none => s.setThr c t ((s.thr c t).setG rd.val (otWord tag.val 0x0F 0)).next
    | some e => if e.done then s.otCollect c t rd.val e else s.setThr c t { s.thr c t with run := .waitTag tag.val rd.val })

/-- `ot.waitany rd` (03 *ot group*): the lowest-numbered completed tag; TAG of the NOTAG word is 0 (assumption log 163). -/
def execOtWaitany (x : Issue) (rd : Fin 32) (s : State) : Host.Outcome State Fault Refusal :=
  .next (s.wzIssue x { group := .system, dsts := [rd.val] } noChk fun s =>
    let c := x.core.val
    let t := x.thread.val
    match s.otLowest c t with
    | some e => s.otCollect c t rd.val e
    | none =>
      if (s.wzCore c).ot.any (fun e => e.thread == t) then s.setThr c t { s.thr c t with run := .waitAny rd.val }
      else s.setThr c t ((s.thr c t).setG rd.val (otWord 0 0x0F 0)).next)

/-- `ot.poll rd, t` (03 *ot group*): as `ot.wait` if complete, otherwise PENDING with nothing freed. -/
def execOtPoll (x : Issue) (rd : Fin 32) (tag : Fin 16) (s : State) : Host.Outcome State Fault Refusal :=
  .next (s.wzIssue x { group := .system, illegal := tagIllegal x.core.val (some tag.val), dsts := [rd.val] } noChk fun s =>
    let c := x.core.val
    let t := x.thread.val
    match s.otFind c t tag.val with
    | none => s.setThr c t ((s.thr c t).setG rd.val (otWord tag.val 0x0F 0)).next
    | some e =>
      if e.done then s.otCollect c t rd.val e
      else s.setThr c t ((s.thr c t).setG rd.val (otWord tag.val 0x0E 0)).next)

/-- `ot.mask rd` (03 *ot group*): OTBUSY. -/
def execOtMask (x : Issue) (rd : Fin 32) (s : State) : Host.Outcome State Fault Refusal :=
  .next (s.wzIssue x { group := .system, dsts := [rd.val] } noChk fun s =>
    s.setThr x.core.val x.thread.val
      ((s.thr x.core.val x.thread.val).setG rd.val (s.otBusy x.core.val x.thread.val)).next)

/-! Fences (03 R88). -/

/-- Has every far load and atomic of a thread completed? -/
def State.loadsDone (s : State) (c t : Nat) : Bool :=
  !(s.wzCore c).ot.any (fun e => e.thread == t && !e.done && (match e.kind with
    | .farLoad .. => true
    | .atomic .. => true
    | _ => false))

/-- Has every far store of a thread been performed? -/
def State.storesDone (s : State) (c t : Nat) : Bool := (s.thr c t).posted == []

/-- A fence: the thread goes on when the condition holds, and waits at the fence until then; a wait takes no turn. -/
def State.fence (s : State) (x : Issue) (ok : State → Bool) : State :=
  s.wzIssue x { group := .system } noChk fun i =>
    if ok i then i.setThr x.core.val x.thread.val (i.thr x.core.val x.thread.val).next else s

/-- `fence.rw` (03 *Fences*). -/
def execFenceRw (x : Issue) (s : State) : Host.Outcome State Fault Refusal :=
  .next (s.fence x fun s => s.loadsDone x.core.val x.thread.val && s.storesDone x.core.val x.thread.val)

/-- `fence.w` (03 *Fences*). -/
def execFenceW (x : Issue) (s : State) : Host.Outcome State Fault Refusal :=
  .next (s.fence x fun s => s.storesDone x.core.val x.thread.val)

/-- `fence.r` (03 *Fences*). -/
def execFenceR (x : Issue) (s : State) : Host.Outcome State Fault Refusal :=
  .next (s.fence x fun s => s.loadsDone x.core.val x.thread.val)

/-- `fence.ot` (03 *Fences*). -/
def execFenceOt (x : Issue) (s : State) : Host.Outcome State Fault Refusal :=
  .next (s.fence x fun s => !(s.wzCore x.core.val).ot.any (fun e => e.thread == x.thread.val && !e.done))

/-- `fence.io` (03 *Fences*): as `fence.rw`, and no error response of a far store is still on its way. -/
def execFenceIo (x : Issue) (s : State) : Host.Outcome State Fault Refusal :=
  .next (s.fence x fun s => s.loadsDone x.core.val x.thread.val && s.storesDone x.core.val x.thread.val &&
    (s.thr x.core.val x.thread.val).storeErrs == [])

/-! Late results of far accesses (03 R81 to R83). -/

/-- End a far load or atomic: its register, its completion word, and the fault of R82 where it ended badly. -/
def State.farDone (s : State) (c t tag status : Nat) (v : Word) : State :=
  match s.otFind c t tag with
  | none => s
  | some e =>
    match e.kind with
    | .farLoad _ _ rd _ =>
      if e.done then s else
      let s := (s.setThr c t ((s.thr c t).setG rd v)).otPut c t tag (some { e with faultDue := status != 0 })
      (s.disarm .farLoad (c * 8 + t) tag).otComplete c t tag status 0
    | .atomic _ _ rd _ _ =>
      if e.done then s else
      let s := (s.setThr c t ((s.thr c t).setG rd v)).otPut c t tag (some { e with faultDue := status != 0 })
      (s.disarm .farLoad (c * 8 + t) tag).otComplete c t tag status 0
    | _ => s

/-- FAR_LOAD_TIMEOUT (03 R81): 1 ms without a response; TIMEOUT, and the register takes 0. -/
def execFarLoadTimeout (core : Fin 11) (thread : Fin 8) (tag : Fin 16) (s : State) : Host.Outcome State Fault Refusal :=
  if s.due .farLoad (core.val * 8 + thread.val) tag.val then .next (s.farDone core.val thread.val tag.val 8 0) else .next s

/-- FAR_STORE_ERROR (03 R83): the oldest outstanding error response of the thread's far stores arrives. -/
def execFarStoreError (core : Fin 11) (thread : Fin 8) (s : State) : Host.Outcome State Fault Refusal :=
  let th := s.thr core.val thread.val
  match th.storeErrs with
  | [] => .next s
  | _ :: rest => .next ((s.setThr core.val thread.val { th with storeErrs := rest }).raiseAsync core.val thread.val)

/-! Bells (16). -/

/-- A discarded write (16 R388, R391, R395). -/
def State.bellBad (s : State) (b : Nat) : State := s.addSat F.bellStatusBadWrites b 0 1 0xFFFF

/-- The fixed sources that are ever signalled (16 *Fixed sources*). -/
def fixedSource (b src : Nat) : Bool :=
  decide (src ≤ 1) || (src == 2 && (b == 8 || b == 9)) || (src == 3 && b == 8) ||
  (decide (b < 8) && decide (16 ≤ src ∧ src ≤ 31)) ||
  (b == 8 && (decide (16 ≤ src ∧ src ≤ 21) || decide (32 ≤ src ∧ src ≤ 43) || decide (48 ≤ src ∧ src ≤ 149))) ||
  (b == 9 && (decide (16 ≤ src ∧ src ≤ 27) || decide (32 ≤ src ∧ src ≤ 46))) ||
  (b == 10 && decide (16 ≤ src ∧ src ≤ 64))

/-- A write to DOORBELL (16 R388). -/
def State.doorbell (s : State) (b : Nat) (m : Master) (v size : Nat) : State :=
  let src := v % 4096
  if size ≠ 4 then s.bellBad b
  else if src < 256 then
    match m with
    | .hw b' src' => if b' = b ∧ src' = src ∧ fixedSource b src then s.ring b src else s.bellBad b
    | _ => s.bellBad b
  else s.ring b src

/-- A write to EOI (16 R391): from a thread of the Bell's own core. -/
def State.eoiWrite (s : State) (b : Nat) (m : Master) (v : Nat) : State :=
  match m with
  | .core c t _ => if c = b then s.bellComplete b t (v % 4096) else s.bellBad b
  | _ => s.bellBad b

/-- `bell.take rd` (03 *bell group*, 16 R390). -/
def execBellTake (x : Issue) (rd : Fin 32) (s : State) : Host.Outcome State Fault Refusal :=
  .next (s.wzIssue x { group := .system, dsts := [rd.val] } noChk fun s =>
    let r := s.bellTake x.core.val x.thread.val
    r.2.setThr x.core.val x.thread.val ((r.2.thr x.core.val x.thread.val).setG rd.val (BitVec.ofNat 64 r.1)).next)

/-- `bell.eoi ra` (03 *bell group*, 16 R391); a refused completion raises no fault (R93). -/
def execBellEoi (x : Issue) (ra : Fin 32) (s : State) : Host.Outcome State Fault Refusal :=
  .next (s.wzIssue x { group := .system, srcs := [ra.val] } noChk fun s =>
    let v := ((s.thr x.core.val x.thread.val).g ra.val).toNat % 4096
    (s.setThr x.core.val x.thread.val (s.thr x.core.val x.thread.val).next).bellComplete x.core.val x.thread.val v)

/-- `bell.wait` (03 *bell group*, 16 R390): at once when a source is takeable. -/
def execBellWait (x : Issue) (s : State) : Host.Outcome State Fault Refusal :=
  .next (s.wzIssue x { group := .system } noChk fun s =>
    let th := s.thr x.core.val x.thread.val
    if (s.bellBest x.core.val x.thread.val).isSome then s.setThr x.core.val x.thread.val { th.next with entered := s.tb }
    else s.setThr x.core.val x.thread.val { th with run := .waitBell })

/-- BELL_DOORBELL (16 R388). -/
def execBellDoorbell (bell : Fin 11) (master : Master) (value : BitVec 32) (size : Nat) (s : State) :
    Host.Outcome State Fault Refusal :=
  .next (s.doorbell bell.val master value.toNat size)

/-- BELL_EOI_STORE (16 R391). -/
def execBellEoiStore (core : Fin 11) (thread : Fin 8) (bell : Fin 11) (value : BitVec 32) (s : State) :
    Host.Outcome State Fault Refusal :=
  .next (s.eoiWrite bell.val (.core core.val thread.val true) value.toNat)

/-! Usher control (03 R101). -/

/-- Abandon the waits of a core's threads (03 R85): they stand at the wait instruction again. -/
def State.abandonWaits (s : State) (c : Nat) : State :=
  (List.range 8).foldl (fun s t =>
    let th := s.thr c t
    if th.run.live then s.setThr c t { th with run := .running } else s) s

/-- Start threads at the core's entry address (03 R74). -/
def State.startThreads (s : State) (c mask entry : Nat) : State :=
  (List.range (coreThreads c)).foldl (fun s t =>
    if mask.testBit t then s.setThr c t { pc := entry / 4 * 4, run := .running } else s) s

/-- Start the threads in `THREAD_EN` at `ENTRY`. -/
def State.usherStart (s : State) (u : Nat) : State :=
  s.startThreads u (s.fld F.usherCtlThreadEn u) (s.fld F.usherCtlEntry u)

/-- Has the Usher nothing outstanding: no operation in flight and no far store unperformed? -/
def State.usherQuiet (s : State) (u : Nat) : Bool :=
  (s.wzCore u).ot.all (fun e => e.done) && (List.range 8).all (fun t => (s.thr u t).posted == [])

/-- Clear the thread state of a core: threads, tags and completion words not collected. -/
def State.clearThreads (s : State) (c : Nat) : State :=
  let s := (List.range 8).foldl (fun s t => s.setThr c t {}) s
  let s : State := { s with turns := unitSet {} s.turns c {} }
  s.setCore c { s.wzCore c with ot := [], resetWait := false }

/-- The end of a reset's wait: the thread state is cleared, and a release written during the wait starts the threads. -/
def State.usherResetDone (s : State) (u : Nat) : State :=
  if (s.wzCore u).resetWait && s.usherQuiet u then
    let go := (s.wzCore u).release
    let s := s.clearThreads u
    let s := s.setCore u { s.wzCore u with release := false }
    if go then s.usherStart u else s
  else s

/-- RESET written 1: issue stops, the Bell's stacks empty (16 R393), and the Usher is held until all it issued has
completed, which may be at once. -/
def State.usherResetSet (s : State) (u : Nat) : State :=
  let s := (s.setFld F.usherCtlReset u 0 1).abandonWaits u
  let s := s.bellCoreReset u
  (s.setCore u { s.wzCore u with resetWait := true, release := false }).usherResetDone u

/-- RESET written 0. -/
def State.usherResetClear (s : State) (u : Nat) : State :=
  if s.flag F.usherCtlReset u then
    let s := s.setFld F.usherCtlReset u 0 0
    if (s.wzCore u).resetWait then s.setCore u { s.wzCore u with release := true } else s.usherStart u
  else s

/-- HALT written 1. -/
def State.usherHaltSet (s : State) (u : Nat) : State := (s.setFld F.usherCtlHalt u 0 1).abandonWaits u

/-- USHER_RESET_SET (03 R101). -/
def execUsherResetSet (u : Fin 8) (s : State) : Host.Outcome State Fault Refusal := .next (s.usherResetSet u.val)

/-- USHER_RESET_DONE (03 R101): the last outstanding operation of a resetting Usher has completed. -/
def execUsherResetDone (u : Fin 8) (s : State) : Host.Outcome State Fault Refusal := .next (s.usherResetDone u.val)

/-- USHER_RESET_CLEAR (03 R101). -/
def execUsherResetClear (u : Fin 8) (s : State) : Host.Outcome State Fault Refusal := .next (s.usherResetClear u.val)

/-- USHER_HALT_SET (03 R101). -/
def execUsherHaltSet (u : Fin 8) (s : State) : Host.Outcome State Fault Refusal := .next (s.usherHaltSet u.val)

/-- USHER_HALT_CLEAR (03 R101): each thread goes on at the instruction where it stopped. -/
def execUsherHaltClear (u : Fin 8) (s : State) : Host.Outcome State Fault Refusal :=
  .next (s.setFld F.usherCtlHalt u.val 0 0)

end Sys2Proof.Machine
end

