-- ==== Sys2Proof/Machine/HostOps.lean ====
section
/-! DEFINITION. What the host functions share: the path to a host, configuration fields, messages to hosts, mailboxes and the
registers of Alcoves (spec/10_host_functions.md R255 to R259, R267; spec/16_bell_interrupts.md R395). -/

namespace Sys2Proof.Machine

/-! Units. -/

def State.hostSt (s : State) (h : Nat) : HostSt := unitGet {} s.hosts h
def State.setHostSt (s : State) (h : Nat) (v : HostSt) : State := { s with hosts := unitSet {} s.hosts h v }
def State.prt (s : State) (k : Nat) : RootPort := unitGet {} s.prts k
def State.setPrt (s : State) (k : Nat) (v : RootPort) : State := { s with prts := unitSet {} s.prts k v }
def State.mbx (s : State) (m : Nat) : Mailbox := unitGet {} s.mailboxes m
def State.setMbx (s : State) (m : Nat) (v : Mailbox) : State := { s with mailboxes := unitSet {} s.mailboxes m v }
def State.alc (s : State) (a : Nat) : Alcove := unitGet {} s.alcoves a
def State.setAlc (s : State) (a : Nat) (v : Alcove) : State := { s with alcoves := unitSet {} s.alcoves a v }

/-! AER (10 R261, R263, R265; assumption log 31): bits 0 Unsupported Request, 1 Completer Abort, 2 Completion Timeout,
3 Unexpected Completion, 4 Poisoned TLP, 5 ERR_COR, 6 ERR_NONFATAL, 7 ERR_FATAL. -/

/-- The AER unit of a function of host h, and of a root port. -/
def aerFn (h fn : Nat) : Nat := h * 1024 + fn
def aerPrt (k : Nat) : Nat := 0x2000 + k

/-- Log an error. -/
def State.aerLog (s : State) (u bit : Nat) : State := { s with aer := unitSet 0 s.aer u (unitGet 0 s.aer u ||| 2 ^ bit) }

/-- Log an error in a root port's AER, which rings Bell 8. -/
def State.prtAer (s : State) (k bit : Nat) : State := (s.aerLog (aerPrt k) bit).ring 8 (138 + k)

/-! Functions and configuration fields (10 R255 to R257). -/

/-- The number of a function. -/
def HostFn.num : HostFn → Nat
  | .upstream => 0
  | .vdsp => 1
  | .dsp k => 2 + k.val
  | .pf0 => 10
  | .td => 11
  | .vf n => 16 + n.val
  | .behind k _ => 512 + k

/-- The number of a field. -/
def CfgField.num : CfgField → Nat
  | .primaryBus => 0
  | .secondaryBus => 1
  | .subordinateBus => 2
  | .busMaster => 3
  | .prefBase => 4
  | .prefLimit => 5
  | .numVfs => 6
  | .vfEnable => 7
  | .msixEnable => 8
  | .msixMask => 9
  | .msiEnable => 10
  | .msiAddr => 11
  | .msiData => 12
  | .maxPayload => 13
  | .maxRead => 14
  | .ariForward => 15
  | .slotChanged => 16
  | .flr => 17
  | .aer => 18
  | .pciBar => 19
  | .pciOff => 20
  | .pciLen => 21
  | .pciData => 22
  | .other r => 32 + r

/-- What a field holds at reset: PCI Express gives Max_Read_Request_Size 512 bytes; the others are 0. -/
def CfgField.reset : CfgField → Nat
  | .maxRead => 2
  | _ => 0

/-- A configuration field of a function of host h. -/
def State.cfgGet (s : State) (h fn : Nat) (f : CfgField) : Nat := unitGet f.reset (s.hostSt h).cfg (fn * 2048 + f.num)

/-- Write it. -/
def State.cfgSet (s : State) (h fn : Nat) (f : CfgField) (v : Nat) : State :=
  s.setHostSt h { s.hostSt h with cfg := unitSet f.reset (s.hostSt h).cfg (fn * 2048 + f.num) v }

/-- The host number an enabled trunk names; none for a CASCADE trunk. -/
def State.namesHost (s : State) (k : Nat) : Option Nat :=
  if s.isTd k then some (s.fld F.trkTdCtrlHost k)
  else if s.flag F.trkCfgCascade k then none else some (s.fld F.trkCfgHost k)

/-- The TD-212 trunk that carries host h, if one does (12 R301). -/
def State.tdTrunk (s : State) (h : Nat) : Option Nat :=
  (List.range 12).find? (fun n => s.flag F.trkCfgEn n && s.isTd n && s.fld F.trkTdCtrlHost n == h)

/-- The trunk and tunnel ID of a host's PCI Express traffic (10 R258; 12 R313); none when no switch is presented. -/
def State.hostPath (s : State) (h : Nat) : Option (Nat × Nat) :=
  if s.flag F.hostCfgEn h then some (s.fld F.hostCfgTrk h, s.fld F.hostCfgTid h)
  else match s.tdTrunk h with
    | some n => some (n, 1)
    | none => none

/-- The host whose tunnel a packet from trunk `n` with a tunnel ID belongs to. -/
def State.hostOf (s : State) (n tid : Nat) : Option Nat :=
  (List.range 6).find? (fun h => match s.hostPath h with
    | some (t, i) => i == tid && (t == n || s.mateOf t == some n)
    | none => false)

/-- Does the host's trunk or pair carry its tunnel (HOSTh_STATUS.LINK)? -/
def State.hostLink (s : State) (h : Nat) : Bool :=
  match s.hostPath h with
  | none => false
  | some (t, _) =>
    if s.flag F.trkCfgEn t && s.isTd t then s.fld F.trkTdStatusState t == 3
    else s.trkState t == 2 || (match s.mateOf t with
      | some m => s.trkState m == 2
      | none => false)

/-- The bus of PF0 and the VFs: the secondary bus of the VDSP. -/
def State.pfBus (s : State) (h : Nat) : Nat := s.cfgGet h 1 .secondaryBus

/-- Is VF n of host h there (10 R255)? -/
def State.vfThere (s : State) (h n : Nat) : Bool :=
  s.cfgGet h 10 .vfEnable != 0 && decide (1 ≤ n ∧ n ≤ s.cfgGet h 10 .numVfs)

/-- The Requester ID of a VF (10 R257). -/
def State.vfRid (s : State) (h n : Nat) : Nat := s.pfBus h * 256 + n

/-- The Requester ID of a function of host h, by its number: formed from the bus numbers that the host has programmed (R257). -/
def State.fnRid (s : State) (h fn : Nat) : Nat :=
  if fn = 0 ∨ fn = 11 then s.cfgGet h fn .primaryBus * 256
  else if fn < 10 then s.cfgGet h 0 .secondaryBus * 256 + (fn - 1) * 8
  else s.pfBus h * 256 + (fn - 10 - (if fn = 10 then 0 else 6))

/-- The function that answers a TLP of host h for the hub, by its prefix: the DSP of a root port, PF0, or an Alcove's VF; the
one function of a TD-212 host. -/
def State.fnOf (s : State) (h fn prt : Nat) : Nat :=
  if !s.flag F.hostCfgEn h then 11
  else if prt < 8 then 2 + prt
  else if fn = 0x3FF then 10 else 16 + s.fld F.alcoveCfgVf fn

/-! TLPs to hosts (10 R258). -/

/-- The bridge prefix. -/
def bridgePrefix (pseq kind fn prt : Nat) : List Byte :=
  leBytes 8 (prt % 16 * 2 ^ 16 + fn % 1024 * 2 ^ 20 + kind % 4 * 2 ^ 30 + pseq % 2 ^ 32 * 2 ^ 32)

/-- Send a TLP to host h from source `src` in Hall `hall`: the packet waits to enter that Hall's Landing (07 R188). -/
def State.toHost (s : State) (h hall src fn prt : Nat) (t : Tlp) : State :=
  match s.hostPath h with
  | none => s
  | some (_, tid) =>
    let hs := s.hostSt h
    let body := bridgePrefix hs.txPosted t.kind fn prt ++ t.bytes
    let s := if t.kind = 0 then s.setHostSt h { hs with txPosted := (hs.txPosted + 1) % 2 ^ 32 } else s
    { s with waiting := s.waiting ++ [{
      hall := hall, src := src,
      pkt := { type := 1, tunnelId := tid, vc := if t.kind = 1 then 3 else 2, flow := 0, len := body.length, payload := body } }] }

/-- The Hall of a host's trunk, where the packets of the host-function unit enter (assumption log 32). -/
def State.hostHall (s : State) (h : Nat) : Nat :=
  match s.hostPath h with
  | some (t, _) => t / 6 % 4
  | none => 0

/-- A TLP of the host-function unit. -/
def State.unitToHost (s : State) (h fn prt : Nat) (t : Tlp) : State := s.toHost h (s.hostHall h) 49 fn prt t

/-- The Hall of root port k: that of its quad. -/
def State.prtHall (s : State) (k : Nat) : Nat :=
  match s.unitQuad 4 k with
  | some q => q / 3
  | none => 0

/-- A TLP that comes from root port k. -/
def State.prtToHost (s : State) (h k fn : Nat) (t : Tlp) : State := s.toHost h (s.prtHall k) (24 + k) fn k t

/-- A memory write of the host-function unit. -/
def memWrite (rid addr : Nat) (data : List Byte) : Tlp :=
  { op := .memWr, addr := addr, dws := data.length / 4, be := if data.length = 4 then 0xF else 0xFF, data := data, reqId := rid }

/-! Interrupts to hosts (10 R259, R262, R263; 16 R395; 12 R320). -/

/-- The MSI of a function of host h. -/
def State.hostMsi (s : State) (h fn : Nat) : State :=
  if s.cfgGet h fn .msiEnable = 0 then s
  else s.unitToHost h 0x3FF 0xF (memWrite (s.fnRid h fn) (s.cfgGet h fn .msiAddr / 4 * 4) (leBytes 4 (s.cfgGet h fn .msiData)))

/-- Vectors of an Alcove's function (10 R256). -/
def State.alcVectors (s : State) (a : Nat) : Nat := s.fld F.alcoveCfgNvq a + 1

/-- The function number of an Alcove in its host's configuration. -/
def State.alcFn (s : State) (a : Nat) : Nat := 16 + s.fld F.alcoveCfgVf a

/-- Send vector v of an MSI-X table, or set its pending bit when it is masked: the table, the pending bits, and the
function. Answers the new pending bits. -/
def State.msixSend (s : State) (h fn rid prefixFn : Nat) (table : UnitMap Word) (pba v : Nat) : Nat × State :=
  let ctl := (unitGet 0 table (2 * v + 1)).toNat
  if ctl / 2 ^ 32 % 2 = 1 ∨ s.cfgGet h fn .msixMask ≠ 0 then (pba ||| 2 ^ v, s)
  else
    (pba &&& (2 ^ 65 - 1 - 2 ^ v),
     s.unitToHost h prefixFn 0xF (memWrite rid ((unitGet 0 table (2 * v)).toNat / 4 * 4) (leBytes 4 (ctl % 2 ^ 32))))

/-- Vector v of PF0 of host h. -/
def State.pf0Vector (s : State) (h v : Nat) : State :=
  if s.cfgGet h 10 .msixEnable = 0 then s
  else
    let m := s.mbx h
    let r := s.msixSend h 10 (s.pfBus h * 256) 0x3FF m.msix m.pba v
    r.2.setMbx h { r.2.mbx h with pba := r.1 }

/-- Vector v of Alcove a's VF. -/
def State.alcVector (s : State) (a v : Nat) : State :=
  let h := s.fld F.alcoveCfgHost a
  if s.cfgGet h (s.alcFn a) .msixEnable = 0 ∨ s.alcVectors a ≤ v then s
  else
    let r := s.msixSend h (s.alcFn a) (s.vfRid h (s.fld F.alcoveCfgVf a)) a (s.alc a).msix (s.alc a).pba v
    r.2.setAlc a { r.2.alc a with pba := r.1 }

/-- Is a HOSTMSG of function `fn` and vector v discarded (16 R395)? -/
def State.hostMsgBad (s : State) (host fn v : Nat) : Bool :=
  if fn = 0x3FF then decide (32 ≤ v) || s.cfgGet host 10 .msixEnable == 0 || decide (6 ≤ host)
  else decide (s.alcVectors fn ≤ v) || s.fld F.alcoveCfgState fn == 0 ||
    s.cfgGet (s.fld F.alcoveCfgHost fn) (s.alcFn fn) .msixEnable == 0

/-- A write to HOSTMSG of Bell b (16 R395). -/
def State.hostMsg (s : State) (b : Nat) (m : Master) (v : BitVec 64) : State :=
  let host := wr F.bellHostmsgHost v
  let fn := wr F.bellHostmsgFn v
  let vec := wr F.bellHostmsgVector v
  match m with
  | .core .. =>
    if s.hostMsgBad host fn vec then s.bellBad b
    else if fn = 0x3FF then s.pf0Vector host vec else s.alcVector fn vec
  | _ => s.bellBad b

/-- The mask bit of vector v of a table, cleared. -/
def unmasked (t : UnitMap Word) (v : Nat) : UnitMap Word :=
  unitSet 0 t (2 * v + 1) (unitGet 0 t (2 * v + 1) &&& ~~~ (1#64 <<< 32))

/-- A host unmasks vector v of PF0 (`fn` = 0x3FF) or of an Alcove; a pending one is sent (16 R395). -/
def State.msixUnmask (s : State) (host fn v : Nat) : State :=
  if fn = 0x3FF then
    if 32 ≤ v then s
    else
      let m := s.mbx host
      let s := s.setMbx host { m with msix := unmasked m.msix v }
      if m.pba.testBit v then s.pf0Vector host v else s
  else if s.fld F.alcoveCfgState fn = 0 ∨ s.alcVectors fn ≤ v then s
  else
    let a := s.alc fn
    let s := s.setAlc fn { a with msix := unmasked a.msix v }
    if a.pba.testBit v then s.alcVector fn v else s

/-! Slots (10 R255, R262). -/

/-- Set bits of PF0's EVENTS. -/
def State.pf0Event (s : State) (h bit : Nat) : State :=
  s.setMbx h { s.mbx h with events := (s.mbx h).events ||| 2 ^ bit }

/-- The owner's DSPk shows a new state, and its hot-plug MSI is sent. -/
def State.slotShow (s : State) (k h : Nat) (on : Bool) : State :=
  let p := s.prt k
  if p.shown = on then s
  else (((s.setPrt k { p with shown := on }).cfgSet h (2 + k) .slotChanged 3).hostMsi h (2 + k)).pf0Event h 1

/-- Is the link of root port k up, and no handover under way (R262)? -/
def State.prtLive (s : State) (k : Nat) : Bool := s.flag F.prtStatusLinkUp k && (s.prt k).handover == none

/-- Is root port k passed through to host h, its link up? -/
def State.passed (s : State) (k h : Nat) : Bool :=
  s.fld F.prtBridgeMode k == 1 && s.fld F.prtBridgeHost k == h && s.prtLive k

/-! Mailboxes (10 R259, R269). -/

/-- Bytes of a mailbox's command as a number. -/
def Mailbox.par (m : Mailbox) (a b : Nat) : Nat := leNat ((List.range (b - a)).map (fun i => unitGet 0 m.cmd (a + i)))

/-- Write bytes into a byte table. -/
def putBytes (t : UnitMap Byte) (a : Nat) : List Byte → UnitMap Byte
  | [] => t
  | b :: l => putBytes (unitSet 0 t a b) (a + 1) l

/-- Read bytes of a byte table. -/
def getBytes (t : UnitMap Byte) (a n : Nat) : List Byte := (List.range n).map (fun i => unitGet 0 t (a + i))

/-- INFLIGHT of an Alcove as the hub judges it (10 R277). -/
def State.inflight (s : State) (a : Nat) : Nat := s.fld F.alcoveInflightHw a + s.fld F.alcoveInflightFw a

/-- The host a mailbox's command speaks for: the host itself, or the one the sideband names. -/
def State.mbxHost (s : State) (m : Nat) : Nat := if m < 6 then m else (s.mbx m).par 4 5

/-- The Docent writes a response: status, INFLIGHT, Alcove and 16 bytes of results from byte 16; BUSY is cleared, DONE and
MAILBOX_DONE set, and vector 0 follows (R259). -/
def State.respond (s : State) (m status inflight alcove : Nat) (extra : List Byte) : State :=
  let b := s.mbx m
  let rsp := putBytes [] 0 ([BitVec.ofNat 8 status, BitVec.ofNat 8 (min 255 inflight)] ++ leBytes 2 alcove ++
    [BitVec.ofNat 8 (s.mbxHost m)] ++ List.replicate 11 0 ++ extra)
  let s := s.setMbx m { b with rsp := rsp, busy := false, done := true, count := (b.count + 1) % 256,
                               events := if m < 6 then b.events ||| 1 else b.events }
  if m < 6 then (s.setFld F.hostStatusMbxBusy m 0 0).pf0Vector m 0 else s

/-- Submit the command buffer: GO while BUSY = 0 (R259). An opcode that is not defined is answered UNKNOWN at once. -/
def State.mailboxGo (s : State) (m : Nat) : State :=
  let b := s.mbx m
  if b.busy then s
  else
    let s := s.setMbx m { b with busy := true }
    let s := if m < 6 then (s.setFld F.hostStatusMbxBusy m 0 1).ring 8 (131 + m) else s.ring 8 137
    let op := (s.mbx m).par 0 2
    if op = 0 ∨ 0x0A < op then s.respond m 8 0 ((s.mbx m).par 2 4) [] else s

end Sys2Proof.Machine
end

