-- ==== Sys2Proof/Machine/BridgeOps.lean ====
section
/-! DEFINITION. Requests the bridge forwards and the hub makes, and the TD-212 status they raise
(spec/10_host_functions.md R263 to R266; spec/12_td212_personality.md R318, R320). -/

namespace Sys2Proof.Machine

/-! TD-212 status (12 R318, R320). -/

/-- Is status pending: some status bit set in a register whose TD_IMASK bit is 1? -/
def State.tdPending (s : State) (n : Nat) : Bool :=
  let m := s.fld F.wtdImaskMask n
  (m.testBit 0 && s.reg .wtdStLink n != 0) || (m.testBit 1 && s.reg .wtdStPcie n != 0) ||
  (m.testBit 2 && s.reg .wtdStDisp n != 0) || (m.testBit 3 && s.reg .wtdStHpd n != 0) ||
  (m.testBit 4 && s.reg .wtdStAux n != 0)

/-- Send the status MSI of a TD-212 trunk and count it; nothing while MSI Enable is 0. -/
def State.tdMsi (s : State) (n : Nat) : State :=
  (s.hostMsi (s.fld F.trkTdCtrlHost n) 11).addFld F.trkTdCntCount n 9 1

/-- The beacon after a change: it starts when status has become pending with MSI Enable set, and ends with it. -/
def State.tdBeaconCheck (s : State) (n : Nat) : State :=
  let g := unitGet {} s.beacons n
  let on := s.tdPending n && s.cfgGet (s.fld F.trkTdCtrlHost n) 11 .msiEnable != 0
  let s := s.setFld F.trkTdStatusPending n 0 (if s.tdPending n then 1 else 0)
  if on = g.on then s
  else if on then
    { s.tdMsi n with beacons := unitSet {} s.beacons n ((Grid.fresh s.tb).start s.tb (us 125) 25) }
  else { s with beacons := unitSet {} s.beacons n {} }

/-- A status bit of the legacy window is set. -/
def State.tdSet (s : State) (n : Nat) (f : Fld) : State := (s.setFld f n 0 1).tdBeaconCheck n

/-- The same for the TD-212 trunk of host h, if it has one. -/
def State.tdNote (s : State) (h : Nat) (f : Fld) : State :=
  if s.flag F.hostCfgEn h then s
  else match s.tdTrunk h with
    | some n => s.tdSet n f
    | none => s

/-! Forwarded requests. -/

/-- A forwarded request by its number. -/
def State.req (s : State) (id : Nat) : Option BridgeReq := s.reqs.find? (fun r => r.id == id)

/-- Replace it. -/
def State.putReq (s : State) (r : BridgeReq) : State :=
  { s with reqs := s.reqs.map (fun x => if x.id = r.id then r else x) }

/-- Tags of root port k that are held. -/
def State.prtTags (s : State) (k : Nat) : List Nat :=
  (s.reqs.filter (fun r => r.toPrt && r.unit == k)).flatMap (fun r => (r.parts.filter (fun p => !p.done)).map (fun p => p.tag))

/-- PRTk_STATUS.TAGS follows. -/
def State.tagsNow (s : State) (k : Nat) : State := s.setFld F.prtStatusTags k 0 (min 255 (s.prtTags k).length)

/-- Is a request of a host's memory for an Alcove, made by a SHARED endpoint (10 R261, R268)? -/
def BridgeReq.translated (r : BridgeReq) : Bool :=
  !r.toPrt && r.fn != 0x3FF && (match r.origin with
    | .endpoint _ => true
    | _ => false)

/-- A request is over: its timer stops, its tags are free. -/
def State.reqEnd (s : State) (r : BridgeReq) : State :=
  let s := State.disarm { s with reqs := s.reqs.filter (fun x => x.id != r.id) } .bridgeCto r.id 0
  let s := if r.translated then s.setFld F.alcoveInflightHw r.fn 0 (s.fld F.alcoveInflightHw r.fn - 1) else s
  if r.toPrt then s.tagsNow r.unit else s

/-- Record a request, its completion timeout running. -/
def State.newReq (s : State) (toPrt : Bool) (unit : Nat) (origin : ReqOrigin) (fn prt : Nat) (t : Tlp) (parts : List ReqPart)
    (prefetch : Bool) : State :=
  let id := s.nextReq
  let r : BridgeReq := { id := id, toPrt := toPrt, unit := unit, origin := origin, fn := fn, prt := prt, tlp := t,
                         parts := parts, prefetch := prefetch }
  let s := { s with nextReq := id + 1, reqs := s.reqs ++ [r] }
  let s := s.arm .bridgeCto id 0 (us (if toPrt then s.fld F.prtBridgeCto unit else s.fld F.hostCfgCto unit))
  if toPrt then s.tagsNow unit else s

/-- Tags of a requester that no open request to host h holds. -/
def State.freeHostTags (s : State) (h rid : Nat) : List Nat :=
  let used := (s.reqs.filter (fun r => !r.toPrt && r.unit == h && r.tlp.reqId == rid)).flatMap (fun r =>
    (r.parts.filter (fun p => !p.done)).map (fun p => p.tag))
  (List.range 256).filter (fun t => !used.contains t)

/-- The hub's payload limit towards host h, of its upstream port, and the read limit of what the hub asks for itself, of PF0
(assumption log 33). -/
def State.hostMps (s : State) (h : Nat) : Nat := 128 * 2 ^ min 5 (s.cfgGet h 0 .maxPayload)
def State.hostMrrs (s : State) (h : Nat) : Nat := 128 * 2 ^ min 5 (s.cfgGet h 10 .maxRead)

/-- The hub reads `n` bytes of host memory at a DW-aligned address on behalf of function `fn` (Requester ID `rid`), from
source `src` in Hall `hall`. -/
def State.hubRead (s : State) (h hall src : Nat) (origin : ReqOrigin) (fn rid addr n : Nat) : State :=
  let t : Tlp := { op := .memRd, addr := addr, dws := ceilDiv n 4, be := if n ≤ 4 then 0xF else 0xFF, reqId := rid }
  let cut := t.cut (s.hostMrrs h)
  let x := s.pickN cut.length (s.freeHostTags h rid)
  let parts := (cut.zip x.1).map (fun (c, tag) => ({ tag := tag, addr := c.1, dws := c.2.1, be := c.2.2 } : ReqPart))
  let s := parts.foldl (fun s p =>
    s.toHost h hall src fn 0xF (t.part p.addr p.dws p.be p.tag)) x.2
  s.newReq false h origin fn 0xF t parts false

/-- The hub writes bytes to host memory at an address, cut at 4 KiB and at the host's Max_Payload_Size: DWs from the one
that holds the first byte, bytes outside not enabled. -/
def State.hubWrite (s : State) (h hall src fn rid addr : Nat) (data : List Byte) : State :=
  if data = [] then s
  else
    let lead := addr % 4
    let n := ceilDiv (lead + data.length) 4
    let pad := List.replicate lead 0 ++ data ++ List.replicate (4 * n - lead - data.length) 0
    let first := 0xF % 2 ^ 4 - (2 ^ lead - 1)
    let tail := (lead + data.length) % 4
    let last := if tail = 0 then 0xF else 2 ^ tail - 1
    let t : Tlp := { op := .memWr, addr := addr - lead, dws := n, be := if n = 1 then first &&& last else first + 16 * last,
                     data := pad, reqId := rid }
    (t.cutWrite (s.hostMps h)).foldl (fun s t => s.toHost h hall src fn 0xF t) s

/-! Prefetch and lost-and-found (10 R266). -/

/-- Put one 64-byte chunk's discarded bytes into a lost-and-found entry of root port k: (offset in the chunk, byte). -/
def State.lafPut (s : State) (k chunk : Nat) (bytes : List (Nat × Byte)) : State :=
  let p := s.prt k
  let free := (List.range 4).find? (fun i => !p.lafOrder.contains i)
  let slot := free.getD (p.lafOrder.headD 0)
  let s := if free.isNone then s.addFld F.prtLafCtrlOverflow k 0 1 else s
  let s := s.setPrt k { p with lafOrder := p.lafOrder.filter (· != slot) ++ [slot] }
  let at_ := fun j => ((bytes.find? (fun e => e.1 == j)).map (fun e => e.2)).getD 0
  let s := s.setReg .prtLafAddr k slot (BitVec.ofNat 64 (chunk * 64 + 1))
  let s := s.setReg .prtLafMask k slot (BitVec.ofNat 64 ((bytes.map (fun e => 2 ^ e.1)).sum))
  let s := (List.range 8).foldl (fun s w =>
    s.setReg .prtLafData k (slot * 8 + w) (BitVec.ofNat 64 (leNat ((List.range 8).map (fun i => at_ (8 * w + i)))))) s
  s.pf0Event (s.fld F.prtBridgeHost k) 2

/-- A prefetch entry is discarded: each 64-byte chunk of its unused bytes becomes a lost-and-found entry. -/
def State.pfDiscard (s : State) (k : Nat) (e : PfEntry) : State :=
  let s := s.setPrt k { s.prt k with prefetch := (s.prt k).prefetch.filter (fun x => x.slot != e.slot) }
  let s := s.disarm .prefetch k e.slot
  let at_ := e.unused.map (fun o => (e.addr + o, e.data.getD o 0))
  ((at_.map (fun x => x.1 / 64)).eraseDups).foldl (fun s c =>
    s.lafPut k c ((at_.filter (fun x => x.1 / 64 == c)).map (fun x => (x.1 % 64, x.2)))) s

/-- A block has been read: the bytes that are not the host's request are held for PF_LIFE in an entry; when all eight are in
use, one is reused (which one is left open). -/
def State.pfStore (s : State) (k addr cplId : Nat) (data : List Byte) (used : List Nat) : State :=
  let p := s.prt k
  let slots := (List.range 8).filter (fun i => !p.prefetch.any (fun e => e.slot == i))
  let x := s.pick (p.prefetch.map (fun e => e.slot))
  let s := if slots = [] then (match p.prefetch.find? (fun e => e.slot == x.1) with
    | some e => x.2.pfDiscard k e
    | none => x.2) else s
  let slot := if slots = [] then x.1 else slots.headD 0
  let unused := (List.range data.length).filter (fun o => !used.contains o)
  if unused = [] then s
  else
    let s := s.setPrt k { s.prt k with prefetch := (s.prt k).prefetch ++ [{
      slot := slot, addr := addr, cplId := cplId, data := data, unused := unused }] }
    s.arm .prefetch k slot (s.fld F.prtBridgePfLife k * 100)

/-- The prefetch entry that holds every byte of a read. -/
def State.pfFind (s : State) (k addr n : Nat) : Option PfEntry :=
  (s.prt k).prefetch.find? (fun e => decide (e.addr ≤ addr) && (List.range n).all (fun i => e.unused.contains (addr + i - e.addr)))

/-- A write overlaps the entries of a root port. -/
def State.pfOverlap (s : State) (k addr n : Nat) : State :=
  ((s.prt k).prefetch.filter (fun e => decide (addr < e.addr + e.data.length ∧ e.addr < addr + n))).foldl
    (fun s e => s.pfDiscard k e) s

/-- Clear VALID of lost-and-found entries. -/
def State.lafClear (s : State) (k mask : Nat) : State :=
  (List.range 4).foldl (fun s i =>
    if mask.testBit i then
      (s.setFld F.prtLafAddrValid k i 0).setPrt k { s.prt k with lafOrder := (s.prt k).lafOrder.filter (· != i) }
    else s) s

/-! Answers to hosts. -/

/-- Bytes of a request's first DW that are not enabled at its start. -/
def Tlp.lead (t : Tlp) : Nat :=
  let b := t.enables
  if b.testBit 0 then 0 else if b.testBit 1 then 1 else if b.testBit 2 then 2 else if b.testBit 3 then 3 else 0

/-- Bytes after the last enabled one in the last DW. -/
def Tlp.trail (t : Tlp) : Nat :=
  let b := if t.dws = 1 then t.enables % 16 else t.enables / 16
  if b.testBit 3 then 0 else if b.testBit 2 then 1 else if b.testBit 1 then 2 else if b.testBit 0 then 3 else 0

/-- The completions that return `data`, bytes `off` on of a read request's range, in pieces of at most `max` bytes. -/
def Tlp.cplList (t : Tlp) (max cplId : Nat) (ep : Bool) : Nat → Nat → List Byte → List Tlp
  | 0, _, _ => []
  | fuel + 1, off, data =>
    if data = [] then []
    else
      let n := min data.length (Nat.max 4 (max - (t.addr + off) % max))
      let left := 4 * t.dws - t.trail - (if off = 0 then t.lead else off)
      t.answer 0 (t.addr + off + (if off = 0 then t.lead else 0)) (data.take n) (left % 4096) ep cplId ::
        Tlp.cplList t max cplId ep fuel (off + n) (data.drop n)

/-- Answer a host's request with data: completions of completer `cplId` in address order. -/
def State.answerHost (s : State) (h hall src fn prt : Nat) (t : Tlp) (cplId off : Nat) (data : List Byte) (ep : Bool) : State :=
  (t.cplList (s.hostMps h) cplId ep data.length off data).foldl (fun s c => s.toHost h hall src fn prt c) s

/-- A TD-212 host's status notes a refusal returned to it. -/
def State.noteRefusal (s : State) (h status : Nat) : State :=
  if status = cplUr then s.tdNote h F.wtdStPcieUr else if status = cplCa then s.tdNote h F.wtdStPcieCa else s

/-- Answer a host's request with a status other than success. -/
def State.refuseHost (s : State) (h hall src fn prt : Nat) (t : Tlp) (status : Nat) : State :=
  let s := s.toHost h hall src fn prt (t.answer status t.addr [] 4 false (s.fnRid h (s.fnOf h fn prt)))
  s.noteRefusal h status

end Sys2Proof.Machine
end

