-- ==== Sys2Proof/Machine/Alcove.lean ====
section
/-! DEFINITION. Alcoves: the BAR0 of a VF, the mailbox commands, teardown, dirty logging and migration images
(spec/10_host_functions.md R267 to R277). The layout of VIRTIO common configuration is that of VIRTIO 1.2, 4.1.4.3. -/

namespace Sys2Proof.Machine

/-! Alcove states (10 *Alcove states*). -/

/-- STATE of an Alcove. -/
def State.alcState (s : State) (a : Nat) : Nat := s.fld F.alcoveCfgState a

/-- Is its teardown unfinished? -/
def tearing (st : Nat) : Bool := st == 2 || st == 4 || st == 6

/-- Enter a state. -/
def State.alcEnter (s : State) (a st : Nat) : State := s.setFld F.alcoveCfgState a 0 st

/-- The Alcove of VF n of host h. -/
def State.alcOf (s : State) (h n : Nat) : Option Nat :=
  (List.range 1023).find? (fun a => s.alcState a != 0 && s.fld F.alcoveCfgHost a == h && s.fld F.alcoveCfgVf a == n)

/-- The Requester ID of an Alcove's function. -/
def State.alcRid (s : State) (a : Nat) : Nat := s.vfRid (s.fld F.alcoveCfgHost a) (s.fld F.alcoveCfgVf a)

/-! Dirty logging (R274). -/

/-- The bitmap that is active. -/
def State.dirtyMap (s : State) (a : Nat) : Nat :=
  if s.flag F.alcoveDirtyCtlActiveB a then s.fld F.alcoveDirtyBAddr a * 8 else s.fld F.alcoveDirtyAAddr a * 8

/-- Read the words of the bitmap that have bits due and no update outstanding. -/
def State.dirtyIssue (s : State) (a : Nat) : State :=
  let h := s.fld F.alcoveCfgHost a
  ((s.alc a).dirty.filter (fun e => !(s.alc a).dirtyBusy.contains e.1)).foldl (fun s e =>
    let s := s.setAlc a { s.alc a with dirtyBusy := e.1 :: (s.alc a).dirtyBusy }
    s.hubRead h (s.hostHall h) 49 (.dirty a e.1) a (s.alcRid a) (s.dirtyMap a + 8 * e.1) 8) s

/-- A write of `n` bytes into host memory on the Alcove's behalf sets the bits of its pages. -/
def State.dirtyMark (s : State) (a addr n : Nat) : State :=
  if !s.flag F.alcoveDirtyCtlOn a ∨ n = 0 then s
  else
    let base := s.fld F.alcoveDirtyBaseBase a
    let top := base + s.fld F.alcoveDirtyCtlPages a
    let first := addr / 4096
    let pages := (List.range ((addr + n - 1) / 4096 + 1 - first)).map (fun i => first + i)
    let s := if pages.any (fun p => decide (p < base ∨ top ≤ p)) then s.addFld F.alcoveDirtyMissCount a 0 1 else s
    let s := (pages.filter (fun p => decide (base ≤ p ∧ p < top))).foldl (fun s p =>
      let d := (s.alc a).dirty
      s.setAlc a { s.alc a with dirty := unitSet 0 d ((p - base) / 64) (unitGet 0 d ((p - base) / 64) ||| 2 ^ ((p - base) % 64)) }) s
    s.dirtyIssue a

/-- A write into host memory for an Alcove, from source `src` in Hall `hall`. -/
def State.alcWrite (s : State) (a hall src addr : Nat) (data : List Byte) : State :=
  (s.hubWrite (s.fld F.alcoveCfgHost a) hall src a (s.alcRid a) addr data).dirtyMark a addr data.length

/-- A SYNC is complete once no bit is due: the other bitmap becomes active; a STOP ends logging, and a SAVE is answered. -/
def State.dirtySettle (s : State) (a : Nat) : State :=
  let al := s.alc a
  if al.dirty ≠ [] ∨ al.dirtyBusy ≠ [] then s
  else
    let swap := fun (s : State) =>
      s.setFld F.alcoveDirtyCtlActiveB a 0 (1 - s.fld F.alcoveDirtyCtlActiveB a)
    let inactive := fun (s : State) => 1 - s.fld F.alcoveDirtyCtlActiveB a
    let s := match al.syncFor with
      | none => s
      | some (m, op) =>
        let s := swap (s.setAlc a { al with syncFor := none })
        let s := if op = 2 then s.setFld F.alcoveDirtyCtlOn a 0 0 else s
        s.respond m 0 (s.inflight a) a [BitVec.ofNat 8 (inactive s)]
    match al.saveFor with
    | none => s
    | some m =>
      let s := s.setAlc a { s.alc a with saveFor := none }
      let s := if s.flag F.alcoveDirtyCtlOn a then swap s else s
      s.respond m 0 (s.inflight a) a (leBytes 16 (4096 + 64 * s.fld F.alcoveCfgNvq a))

/-- The word of a bitmap has been read: OR and write back. -/
def State.dirtyBack (s : State) (a word : Nat) (data : List Byte) : State :=
  let al := s.alc a
  let bits := unitGet 0 al.dirty word
  let h := s.fld F.alcoveCfgHost a
  let s := s.setAlc a { al with dirty := unitSet 0 al.dirty word 0, dirtyBusy := al.dirtyBusy.filter (· != word) }
  (s.hubWrite h (s.hostHall h) 49 a (s.alcRid a) (s.dirtyMap a + 8 * word) (leBytes 8 (leNat data ||| bits))).dirtySettle a

/-! Device state (R272). -/

/-- The device state a reset leaves: queues disabled, features cleared; `status` is what device status then reads. -/
def Alcove.cleared (al : Alcove) (nvq status : Nat) : Alcove :=
  { al with
    status := status, driverFeatures := 0, featureSel := 0, driverSel := 0, msixConfig := 0xFFFF, queueSel := 0, isr := 0,
    queues := (List.range nvq).map (fun q => (q, { size := al.maxSize })) }

/-- ALCOVE_RESET's work (R272): RESETTING to READY, device state and NOTIFY cleared, and, for a reset that the guest did not
ask for, the configuration-change interrupt. -/
def State.alcReset (s : State) (a status : Nat) (interrupt : Bool) : State :=
  let s := s.alcEnter a 6
  let al := s.alc a
  let v := al.msixConfig
  let s := s.setAlc a ((al.cleared (s.fld F.alcoveCfgNvq a) status))
  let s := s.setFld F.alcoveNotifyPend a 0 0
  let s := if interrupt then
      (if v = 0xFFFF then s else s.alcVector a v).setAlc a { (if v = 0xFFFF then s else s.alcVector a v).alc a with isr := 2 }
    else s
  (s.setFld F.alcoveCfgXlat a 0 1).alcEnter a 1

/-- INFLIGHT has reached 0 (R271, R275): QUIESCED or FROZEN, and whoever waits is answered. -/
def State.alcQuiet (s : State) (a : Nat) : State :=
  if s.inflight a ≠ 0 then s
  else
    let w := (s.alc a).wait
    let st := s.alcState a
    if st ≠ 2 ∧ st ≠ 4 then s
    else
      let s := (s.alcEnter a (if st = 2 then 3 else 5)).setAlc a { s.alc a with wait := .none }
      let s := (s.disarm .alcQuiesce a 0).disarm .alcXlat a 0
      match w with
      | .quiesce m => s.respond m 0 0 a []
      | .freeze m => s.respond m 0 0 a []
      | .guest => s.alcReset a 0 false
      | .flr => s.alcReset a 0 false
      | .none => s

/-- R271 steps 1 and 2: fetching stops, TIMEOUT runs; with nothing in flight it ends at once. -/
def State.alcQuiesce (s : State) (a : Nat) (w : AlcoveWait) (freeze : Bool) (msec : Nat) : State :=
  let s := s.setAlc a { s.alc a with wait := w }
  let s := if freeze then s.alcEnter a 4 else (s.alcEnter a 2).setFld F.alcoveCfgAborted a 0 0
  (s.arm .alcQuiesce a 0 (ms msec)).alcQuiet a

/-! VF BAR0 (R267, R270, R273). -/

/-- Does BAR0 of an Alcove answer: its VF is there and no Function Level Reset runs? -/
def State.barOpen (s : State) (a : Nat) : Bool :=
  s.vfThere (s.fld F.alcoveCfgHost a) (s.fld F.alcoveCfgVf a) && (s.alc a).wait != .flr

/-- A byte of VIRTIO common configuration as read. -/
def Alcove.commonByte (al : Alcove) (nvq o : Nat) : Byte :=
  let q := unitGet {} al.queues al.queueSel
  let feat := fun (v sel : Nat) => if sel < 2 then v / 2 ^ (32 * sel) % 2 ^ 32 else 0
  let img : List Byte := leBytes 4 al.featureSel ++ leBytes 4 (feat al.deviceFeatures al.featureSel) ++ leBytes 4 al.driverSel ++
    leBytes 4 (feat al.driverFeatures al.driverSel) ++ leBytes 2 al.msixConfig ++ leBytes 2 nvq ++ leBytes 1 al.status ++
    leBytes 1 al.configGen ++ leBytes 2 al.queueSel ++
    (if al.queueSel < nvq then leBytes 2 q.size ++ leBytes 2 q.vector ++ leBytes 2 (if q.enable then 1 else 0) ++
      leBytes 2 al.queueSel ++ leBytes 8 q.desc ++ leBytes 8 q.driver ++ leBytes 8 q.device else List.replicate 32 0)
  img.getD o 0

/-- Replace byte `i` of a number. -/
def putByte (v i b : Nat) : Nat := v - v / 256 ^ i % 256 * 256 ^ i + b * 256 ^ i

/-- Write one byte of common configuration into the image; device status apart. -/
def Alcove.commonPut (al : Alcove) (nvq o b : Nat) : Alcove :=
  let q := unitGet {} al.queues al.queueSel
  let setQ := fun (q : VQueue) => if al.queueSel < nvq then { al with queues := unitSet {} al.queues al.queueSel q } else al
  if o < 4 then { al with featureSel := putByte al.featureSel o b }
  else if 8 ≤ o ∧ o < 12 then { al with driverSel := putByte al.driverSel (o - 8) b }
  else if 12 ≤ o ∧ o < 16 then
    (if al.driverSel < 2 then { al with driverFeatures := putByte al.driverFeatures (4 * al.driverSel + o - 12) b } else al)
  else if o = 16 ∨ o = 17 then { al with msixConfig := putByte al.msixConfig (o - 16) b }
  else if o = 22 ∨ o = 23 then { al with queueSel := putByte al.queueSel (o - 22) b }
  else if o = 24 ∨ o = 25 then setQ { q with size := putByte q.size (o - 24) b }
  else if o = 26 ∨ o = 27 then setQ { q with vector := putByte q.vector (o - 26) b }
  else if o = 28 then setQ { q with enable := q.enable || b % 2 == 1 }
  else if 32 ≤ o ∧ o < 40 then setQ { q with desc := putByte q.desc (o - 32) b }
  else if 40 ≤ o ∧ o < 48 then setQ { q with driver := putByte q.driver (o - 40) b }
  else if 48 ≤ o ∧ o < 56 then setQ { q with device := putByte q.device (o - 48) b }
  else al

/-- A vector beyond the table reads back as none (VIRTIO 1.2, 4.1.5.1.2). -/
def Alcove.fixVectors (al : Alcove) (vectors : Nat) : Alcove :=
  { al with
    msixConfig := if al.msixConfig < vectors then al.msixConfig else 0xFFFF,
    queues := al.queues.map (fun e => (e.1, if e.2.vector < vectors then e.2 else { e.2 with vector := 0xFFFF })) }

/-- VF_COMMON_CONFIG_WRITE (R267, R270, R272): bytes from offset `o` of common configuration. A CANVAS Alcove has none there, and
its client registers belong to the Docent (assumption log 189). -/
def State.vfCommonWrite (s : State) (a o : Nat) (data : List Byte) : State :=
  if !s.barOpen a ∨ s.fld F.alcoveCfgType a = 2 then s
  else if s.alcState a ≠ 1 then s.addSat F.alcoveCfgDiscards a 0 1 0xFFFF
  else
    let nvq := s.fld F.alcoveCfgNvq a
    let at_ := (List.range data.length).map (fun i => (o + i, (data.getD i 0).toNat))
    let al := (at_.foldl (fun (al : Alcove) e => al.commonPut nvq e.1 e.2) (s.alc a)).fixVectors (s.alcVectors a)
    let s := ((s.setAlc a al).setFld F.alcoveEvtCfgEvt a 0 1).ring 8 148
    match at_.find? (fun e => e.1 == 20) with
    | some (_, 0) => s.alcQuiesce a .guest false 50
    | some (_, v) => s.setAlc a { s.alc a with status := v }
    | none => s

/-- VF_NOTIFY_WRITE (R267): queue q's notification address. -/
def State.vfNotify (s : State) (a q : Nat) : State :=
  if !s.barOpen a ∨ s.fld F.alcoveCfgNvq a ≤ q then s
  else
    let s := s.setReg .alcoveNotify a 0 (s.reg .alcoveNotify a ||| BitVec.ofNat 64 (2 ^ q))
    if s.alcState a = 1 then s.ring (s.fld F.alcoveCfgCore a) (s.fld F.alcoveCfgBellSrc a) else s

/-- A byte of an MSI-X table, and a byte of pending bits. -/
def msixByte (t : UnitMap Word) (o : Nat) : Byte := BitVec.ofNat 8 ((unitGet 0 t (o / 8)).toNat / 256 ^ (o % 8))
def msixPut (t : UnitMap Word) (o b : Nat) : UnitMap Word :=
  unitSet 0 t (o / 8) (BitVec.ofNat 64 (putByte (unitGet 0 t (o / 8)).toNat (o % 8) b))

/-- The Canvas client that an Alcove is registered as (11 R297). -/
def State.alcClient (s : State) (a : Nat) : Option Nat :=
  (List.range 256).find? (fun c => s.flag F.canvasClientValid c && s.flag F.canvasClientAlcove c && s.fld F.canvasClientKey c == a)

/-- A byte of an Alcove's BAR0. -/
def State.vfByte (s : State) (a o : Nat) : Byte :=
  let al := s.alc a
  if o < 0x400 then
    (if s.fld F.alcoveCfgType a = 2 then
      (match s.alcClient a with
      | some c => (leBytes 8 (s.reg .canvasClient c).toNat ++ leBytes 8 (s.reg .canvasClientPages c).toNat).getD o 0
      | none => 0)
     else al.commonByte (s.fld F.alcoveCfgNvq a) o)
  else if o < 0x800 then (if o = 0x400 then BitVec.ofNat 8 al.isr else 0)
  else if o < 0xC00 then unitGet 0 al.devCfg (o - 0x800)
  else if o < 0x2000 then 0
  else if o < 0x3000 then (if o - 0x2000 < 16 * s.alcVectors a then msixByte al.msix (o - 0x2000) else 0)
  else BitVec.ofNat 8 (al.pba / 256 ^ (o - 0x3000))

/-- A host writes bytes to an Alcove's BAR0. -/
def State.vfWrite (s : State) (a o : Nat) (data : List Byte) : State :=
  if !s.barOpen a then s
  else if o < 0x400 then s.vfCommonWrite a o data
  else if 0x800 ≤ o ∧ o < 0xC00 then
    (if s.alcState a = 1 then s.setAlc a { s.alc a with devCfg := putBytes (s.alc a).devCfg (o - 0x800) data } else s)
  else if 0x1000 ≤ o ∧ o < 0x2000 then s.vfNotify a ((o - 0x1000) / 4)
  else if 0x2000 ≤ o ∧ o < 0x2000 + 16 * s.alcVectors a then
    let t := (List.range data.length).foldl (fun t i => msixPut t (o - 0x2000 + i) (data.getD i 0).toNat) (s.alc a).msix
    let s := s.setAlc a { s.alc a with msix := t }
    let v := (o - 0x2000) / 16
    if (unitGet 0 t (2 * v + 1)).toNat / 2 ^ 32 % 2 = 0 ∧ (s.alc a).pba.testBit v then s.alcVector a v else s
  else s

/-! The mailbox commands (R269). -/

/-- Is a mailbox's command being carried out? -/
def State.mbxAtWork (s : State) (m : Nat) : Bool :=
  s.alcoves.any (fun e => e.2.wait == .quiesce m || e.2.wait == .freeze m || e.2.syncFor.any (fun x => x.1 == m) ||
    e.2.saveFor == some m || e.2.restoreFor == some m)

/-- Are the header's reserved bytes 0, and the host a sideband command names one of the six? -/
def State.headOk (s : State) (m : Nat) : Bool :=
  (s.mbx m).par 8 16 == 0 && (s.mbx m).par 5 8 == 0 && decide (s.mbxHost m < 6)

/-- A command on an existing Alcove: INVALID, NOT_OWNER, BUSY, STATE in this order, then its work. `busy` says that the
teardown check applies. -/
def State.alcCmd (s : State) (m op : Nat) (ok : Mailbox → Bool) (busy : Bool) (allowed : Nat → Bool) (body : Nat → State → State) :
    State :=
  let b := s.mbx m
  let a := b.par 2 4
  if !b.busy ∨ b.par 0 2 ≠ op ∨ s.mbxAtWork m then s
  else if !s.headOk m ∨ 1022 < a ∨ !ok b then s.respond m 2 0 a []
  else if s.alcState a ≠ 0 ∧ s.fld F.alcoveCfgHost a ≠ s.mbxHost m then s.respond m 5 0 a []
  else if busy ∧ tearing (s.alcState a) then s.respond m 1 (s.inflight a) a []
  else if !allowed a then s.respond m 4 (s.inflight a) a []
  else body a s

/-- Are the parameters of ALCOVE_CREATE in range? -/
def State.createOk (s : State) (b : Mailbox) (h : Nat) : Bool :=
  let size := b.par 20 22
  b.par 2 4 == 0xFFFF && decide (1 ≤ b.par 16 17 ∧ b.par 16 17 ≤ s.fld F.hostCfgTotalvfs h) && decide (b.par 17 18 ≤ 2) &&
  decide (1 ≤ b.par 18 19 ∧ b.par 18 19 ≤ 64) && decide (b.par 19 20 ≤ 8) &&
  (List.range 15).any (fun i => size == 2 ^ (i + 1)) && (b.par 17 18 != 1 || decide (b.par 32 33 < 8)) &&
  (b.par 17 18 != 0 || decide (b.par 38 39 < 8) || b.par 38 39 == 0xFF)

/-- The namespace range that backing parameters name: root port, namespace, first LBA and count. -/
def backingRange (b : List Byte) : Nat × Nat × Nat × Nat :=
  (leNat (b.take 1), leNat ((b.drop 4).take 4), leNat ((b.drop 8).take 8), leNat ((b.drop 16).take 8))

/-- Do two namespace ranges share an LBA? -/
def rangesMeet (x y : Nat × Nat × Nat × Nat) : Bool :=
  x.1 == y.1 && x.2.1 == y.2.1 && decide (x.2.2.1 < y.2.2.1 + y.2.2.2) && decide (y.2.2.1 < x.2.2.1 + x.2.2.2)

/-- Canvas clients that are not registered. -/
def State.freeClients (s : State) : List Nat := (List.range 256).filter (fun c => !s.flag F.canvasClientValid c)

/-- Does the backing lack a resource: a BLK namespace range that another Alcove holds, or for CANVAS a free client and pages of
the pool that no quota takes (*Status codes*; assumption log 189)? -/
def State.noBacking (s : State) (b : Mailbox) : Bool :=
  if b.par 17 18 = 1 then
    (List.range 1023).any (fun a => s.alcState a != 0 && s.fld F.alcoveCfgType a == 1 &&
      rangesMeet (backingRange (s.alc a).backing) (backingRange (getBytes b.cmd 32 32)))
  else if b.par 17 18 = 2 then
    s.freeClients.isEmpty || decide (s.fld F.canvasPoolPagesPages < b.par 32 36 +
      (((List.range 256).filter (fun c => s.flag F.canvasClientValid c)).map (fun c => s.fld F.canvasClientPagesQuota c)).sum)
  else false

/-- The Docent registers a CANVAS Alcove as a client with its page quota (11 *Clients and commands*). -/
def State.canvasJoin (s : State) (a quota : Nat) : State :=
  if s.freeClients = [] then s
  else
    let x := s.pick s.freeClients
    ((((x.2.setReg .canvasClientPages x.1 0 (BitVec.ofNat 64 quota)).setFld F.canvasClientValid x.1 0 1).setFld
      F.canvasClientAlcove x.1 0 1).setFld F.canvasClientKey x.1 0 a)

/-- ALCOVE_CREATE: a free index, and a Bell source of the serving core that no Alcove uses; which ones is left open. -/
def State.alcCreate (s : State) (m : Nat) : State :=
  let b := s.mbx m
  let h := s.mbxHost m
  if !b.busy ∨ b.par 0 2 ≠ 1 ∨ s.mbxAtWork m then s
  else if !s.headOk m ∨ !s.createOk b h then s.respond m 2 0 (b.par 2 4) []
  else
    match s.alcOf h (b.par 16 17) with
    | some a =>
      if tearing (s.alcState a) then s.respond m 1 (s.inflight a) a [] else s.respond m 4 (s.inflight a) a []
    | none =>
      let core := b.par 19 20
      let used := ((List.range 1023).filter (fun a => s.alcState a != 0 && s.fld F.alcoveCfgCore a == core)).map
        (fun a => s.fld F.alcoveCfgBellSrc a)
      let idx := (List.range 1023).filter (fun a => s.alcState a == 0)
      let bells := ((List.range 3840).map (· + 256)).filter (fun x => !used.contains x)
      if idx = [] ∨ bells = [] ∨ s.noBacking b then s.respond m 3 0 0xFFFF []
      else
        let x := s.pick idx
        let y := x.2.pick bells
        let z := y.2.openValue
        let a := x.1
        let nvq := b.par 18 19
        let type := b.par 17 18
        let s := z.2.resetRegs (fun r => r.i == a && (r.name == .alcoveCfg || r.name == .alcoveNotify || r.name == .alcoveInflight ||
          r.name == .alcoveEvt || r.name == .alcoveDirtyA || r.name == .alcoveDirtyB || r.name == .alcoveDirtyBase ||
          r.name == .alcoveDirtyCtl || r.name == .alcoveDirtyMiss))
        let s := ((((((((s.setFld F.alcoveCfgHost a 0 h).setFld F.alcoveCfgVf a 0 (b.par 16 17)).setFld F.alcoveCfgType a 0 type).setFld
          F.alcoveCfgNvq a 0 nvq).setFld F.alcoveCfgCore a 0 core).setFld F.alcoveCfgBellSrc a 0 y.1).setFld
          F.alcoveCfgXlat a 0 1).alcEnter a 1)
        let al : Alcove := {
          maxSize := b.par 20 22, backing := getBytes b.cmd 32 32, deviceFeatures := z.1.toNat,
          devCfg := if type = 0 then putBytes [] 0 (getBytes b.cmd 32 6) else if type = 1 then putBytes [] 0 (getBytes b.cmd 48 8) else [] }
        let s := s.setAlc a (al.cleared nvq 0)
        let s := if type = 2 then s.canvasJoin a (b.par 32 36) else s
        s.respond m 0 0 a []

/-- TIMEOUT of a QUIESCE or FREEZE in ms. -/
def Mailbox.timeout (b : Mailbox) : Nat := if b.par 16 20 = 0 then 50 else b.par 16 20

/-- ALCOVE_DESTROY: FREE; a Canvas client it was is no longer registered. -/
def State.alcFree (s : State) (a : Nat) : State :=
  let s := (s.alcEnter a 0).setFld F.alcoveCfgXlat a 0 0
  let s := match s.alcClient a with
    | some c => s.setFld F.canvasClientValid c 0 0
    | none => s
  (s.setFld F.alcoveDirtyCtlOn a 0 0).setAlc a {}

/-! Migration images (R276). -/

/-- A queue record. -/
def VQueue.record (q : VQueue) : List Byte :=
  leBytes 8 q.desc ++ leBytes 8 q.driver ++ leBytes 8 q.device ++ leBytes 1 (if q.enable then 1 else 0) ++ leBytes 3 0 ++
    leBytes 2 q.size ++ leBytes 2 q.vector ++ leBytes 2 q.lastAvail ++ leBytes 2 q.usedIdx ++ List.replicate 28 0

/-- The queue of a record. -/
def VQueue.ofRecord (d : List Byte) : VQueue :=
  let f := fun (a b : Nat) => leNat ((d.drop a).take (b - a))
  { desc := f 0 8, driver := f 8 16, device := f 16 24, enable := f 24 25 % 2 == 1, size := f 28 30, vector := f 30 32,
    lastAvail := f 32 34, usedIdx := f 34 36 }

/-- "ALCOVE" in ASCII. -/
def alcoveMagic : List Byte := [0x41, 0x4C, 0x43, 0x4F, 0x56, 0x45]

/-- Bytes [4091:0] of the image header. -/
def State.alcHeader (s : State) (a : Nat) : List Byte :=
  let al := s.alc a
  alcoveMagic ++ leBytes 1 1 ++ leBytes 1 (s.fld F.alcoveCfgType a) ++ leBytes 1 (s.fld F.alcoveCfgNvq a) ++ leBytes 1 al.status ++
    leBytes 2 al.msixConfig ++ leBytes 4 al.configGen ++ List.replicate 48 0 ++ leBytes 8 al.deviceFeatures ++
    leBytes 8 al.driverFeatures ++ leBytes 8 (s.reg .alcoveNotify a).toNat ++ getBytes al.devCfg 0 1024 ++
    (List.range 1040).map (msixByte al.msix) ++ leBytes 8 al.pba ++ (al.backing ++ List.replicate 64 0).take 64 ++
    List.replicate 1868 0

/-- The whole image. -/
def State.alcImage (s : State) (a : Nat) : List Byte :=
  let head := s.alcHeader a
  let recs := (List.range (s.fld F.alcoveCfgNvq a)).flatMap (fun q => (unitGet {} (s.alc a).queues q).record)
  head ++ leBytes 4 (crc32c (head ++ recs)) ++ recs

/-- Does an image pass the checks of ALCOVE_RESTORE? -/
def State.imageOk (s : State) (a : Nat) (d : List Byte) : Bool :=
  let f := fun (x y : Nat) => leNat ((d.drop x).take (y - x))
  let nvq := s.fld F.alcoveCfgNvq a
  let recs := (d.drop 4096).take (64 * nvq)
  d.take 6 == alcoveMagic && f 6 7 == 1 && f 7 8 == s.fld F.alcoveCfgType a && f 8 9 == nvq &&
  f 4092 4096 == crc32c (d.take 4092 ++ recs) && (d.drop 2160).take 64 == ((s.alc a).backing ++ List.replicate 64 0).take 64 &&
  (List.range nvq).all (fun q => decide ((VQueue.ofRecord (recs.drop (64 * q))).size ≤ (s.alc a).maxSize))

/-- The image of a RESTORE has been read: it is loaded and the Alcove is FROZEN, or the command completes IMAGE. -/
def State.restoreEnd (s : State) (a m : Nat) : State :=
  let al := s.alc a
  let nvq := s.fld F.alcoveCfgNvq a
  let d := getBytes al.restoreImg 0 (4096 + 64 * nvq)
  let s := s.setAlc a { al with restoreImg := [], restoreFor := none }
  if !s.imageOk a d then s.respond m 7 0 a []
  else
    let f := fun (x y : Nat) => leNat ((d.drop x).take (y - x))
    let al := s.alc a
    let s := s.setAlc a { al with
      status := f 9 10, msixConfig := f 10 12, configGen := f 12 16, deviceFeatures := f 64 72, driverFeatures := f 72 80,
      devCfg := putBytes [] 0 ((d.drop 88).take 1024),
      msix := (List.range 1040).foldl (fun t o => msixPut t o (d.getD (1112 + o) 0).toNat) [], pba := f 2152 2160,
      queues := (List.range nvq).foldl (fun t q => unitSet {} t q (VQueue.ofRecord (d.drop (4096 + 64 * q)))) [] }
    ((s.setReg .alcoveNotify a 0 (BitVec.ofNat 64 (f 80 88))).alcEnter a 5).respond m 0 0 a []

/-- The bytes a RESTORE has still to read: it reads page by page. -/
def State.restoreNext (s : State) (a m off : Nat) : State :=
  let total := 4096 + 64 * s.fld F.alcoveCfgNvq a
  if total ≤ off then s.restoreEnd a m
  else
    let h := s.fld F.alcoveCfgHost a
    let addr := (s.mbx m).par 16 24 + off
    let n := min (total - off) (4096 - addr % 4096)
    s.hubRead h (s.hostHall h) 49 (.restore a m) a (s.alcRid a) addr n

/-! Commands. -/

/-- PF0_MAILBOX_GO (R259). -/
def execPf0MailboxGo (h : Fin 6) (s : State) : Host.Outcome State Fault Refusal :=
  if s.flag F.hostCfgEn h.val then .next (s.mailboxGo h.val) else .next s

/-- SIDEBAND_MAILBOX_GO (R259): the board management controller's command buffer, and GO. -/
def execSidebandMailboxGo (cmd : List Byte) (s : State) : Host.Outcome State Fault Refusal :=
  if (s.mbx 6).busy then .next s
  else .next ((s.setMbx 6 { s.mbx 6 with cmd := putBytes [] 0 (cmd.take 256) }).mailboxGo 6)

/-- MSIX_UNMASK (16 R395): `fn` 0x3FF is PF0 of the host, else an Alcove. -/
def execMsixUnmask (host : Fin 6) (fn : Fin 1024) (vector : Fin 65) (s : State) : Host.Outcome State Fault Refusal :=
  .next (s.msixUnmask host.val fn.val vector.val)

/-- BELL_HOSTMSG (16 R395). -/
def execBellHostmsg (bell : Fin 11) (master : Master) (value : BitVec 64) (s : State) : Host.Outcome State Fault Refusal :=
  .next (s.hostMsg bell.val master value)

/-- VF_COMMON_CONFIG_WRITE (R267, R270, R272). -/
def execVfCommonConfigWrite (host : Fin 6) (vf : Fin 256) (offset : Fin 64) (data : List Byte) (s : State) :
    Host.Outcome State Fault Refusal :=
  match s.alcOf host.val vf.val with
  | none => .next s
  | some a => .next (s.vfCommonWrite a offset.val data)

/-- VF_NOTIFY_WRITE (R267). -/
def execVfNotifyWrite (host : Fin 6) (vf : Fin 256) (q : Fin 64) (s : State) : Host.Outcome State Fault Refusal :=
  match s.alcOf host.val vf.val with
  | none => .next s
  | some a => .next (s.vfNotify a q.val)

/-- VF_FLR (R273): TIMEOUT 80 ms, then the reset with device status 0. An Alcove already quiesced is reset at once; a
teardown under way becomes the Function Level Reset's. -/
def State.vfFlr (s : State) (a : Nat) : State :=
  let st := s.alcState a
  if st = 1 then s.alcQuiesce a .flr false 80
  else if tearing st then
    let s := match (s.alc a).wait with
      | .quiesce m => s.respond m 4 (s.inflight a) a []
      | .freeze m => s.respond m 4 (s.inflight a) a []
      | _ => s
    s.alcQuiesce a .flr false 80
  else s.alcReset a 0 false

def execVfFlr (host : Fin 6) (vf : Fin 256) (s : State) : Host.Outcome State Fault Refusal :=
  match s.alcOf host.val vf.val with
  | none => .next s
  | some a => .next (s.vfFlr a)

/-- ALCOVE_CREATE (R269). -/
def execAlcoveCreate (mbx : Fin 7) (s : State) : Host.Outcome State Fault Refusal := .next (s.alcCreate mbx.val)

/-- ALCOVE_QUIESCE (R271). -/
def execAlcoveQuiesce (mbx : Fin 7) (s : State) : Host.Outcome State Fault Refusal :=
  .next (s.alcCmd mbx.val 2 (fun b => decide (b.par 16 20 ≤ 1000)) true (fun a => s.alcState a == 1) fun a s =>
    s.alcQuiesce a (.quiesce mbx.val) false (s.mbx mbx.val).timeout)

/-- ALCOVE_RESET (R272). -/
def execAlcoveReset (mbx : Fin 7) (s : State) : Host.Outcome State Fault Refusal :=
  .next (s.alcCmd mbx.val 3 (fun _ => true) true (fun a => s.alcState a == 3) fun a s =>
    (s.alcReset a 0x40 true).respond mbx.val 0 0 a [])

/-- ALCOVE_DESTROY (R269). -/
def execAlcoveDestroy (mbx : Fin 7) (s : State) : Host.Outcome State Fault Refusal :=
  .next (s.alcCmd mbx.val 4 (fun _ => true) true (fun a => s.alcState a == 3 || s.alcState a == 5) fun a s =>
    (s.alcFree a).respond mbx.val 0 0 a [])

/-- ALCOVE_FREEZE (R275). -/
def execAlcoveFreeze (mbx : Fin 7) (s : State) : Host.Outcome State Fault Refusal :=
  .next (s.alcCmd mbx.val 5 (fun b => decide (b.par 16 20 ≤ 1000)) true (fun a => s.alcState a == 1) fun a s =>
    s.alcQuiesce a (.freeze mbx.val) true (s.mbx mbx.val).timeout)

/-- ALCOVE_SAVE (R276): the image, then the implicit final SYNC; INVALID when the buffer is too small. -/
def execAlcoveSave (mbx : Fin 7) (s : State) : Host.Outcome State Fault Refusal :=
  .next (s.alcCmd mbx.val 6 (fun b => decide (4096 + 64 * s.fld F.alcoveCfgNvq (b.par 2 4) ≤ b.par 24 28)) false
    (fun a => s.alcState a == 5) fun a s =>
      let h := s.fld F.alcoveCfgHost a
      let s := s.alcWrite a (s.hostHall h) 49 ((s.mbx mbx.val).par 16 24) (s.alcImage a)
      (s.setAlc a { s.alc a with saveFor := some mbx.val }).dirtySettle a)

/-- ALCOVE_RESTORE (R276): reads the image from host memory. -/
def execAlcoveRestore (mbx : Fin 7) (s : State) : Host.Outcome State Fault Refusal :=
  .next (s.alcCmd mbx.val 7 (fun b => b.par 16 18 % 4 == 0) true
    (fun a => s.alcState a == 1 && (s.alc a).status == 0) fun a s =>
      (s.setAlc a { s.alc a with restoreFor := some mbx.val, restoreImg := [] }).restoreNext a mbx.val 0)

/-- ALCOVE_THAW (R269, R272): queues with a latched bit are served at once. -/
def execAlcoveThaw (mbx : Fin 7) (s : State) : Host.Outcome State Fault Refusal :=
  .next (s.alcCmd mbx.val 8 (fun _ => true) true
    (fun a => s.alcState a == 5 || (s.alcState a == 3 && !s.flag F.alcoveCfgAborted a)) fun a s =>
      let s := (s.alcEnter a 1).setFld F.alcoveCfgXlat a 0 1
      let s := if s.reg .alcoveNotify a = 0 then s else s.ring (s.fld F.alcoveCfgCore a) (s.fld F.alcoveCfgBellSrc a)
      s.respond mbx.val 0 (s.inflight a) a [])

/-- ALCOVE_DIRTY (R274). -/
def execAlcoveDirty (mbx : Fin 7) (s : State) : Host.Outcome State Fault Refusal :=
  .next (s.alcCmd mbx.val 9
    (fun b => decide (b.par 16 17 ≤ 2) && (b.par 16 17 != 0 || (b.par 24 32 % 8 == 0 && b.par 32 40 % 8 == 0 && b.par 40 48 % 4096 == 0)))
    true (fun a => (s.alcState a == 1 || s.alcState a == 5) && ((s.mbx mbx.val).par 16 17 == 0 || s.flag F.alcoveDirtyCtlOn a)) fun a s =>
      let b := s.mbx mbx.val
      if b.par 16 17 = 0 then
        let s := ((s.setReg .alcoveDirtyA a 0 (BitVec.ofNat 64 (b.par 24 32))).setReg .alcoveDirtyB a 0 (BitVec.ofNat 64 (b.par 32 40))).setReg
          .alcoveDirtyBase a 0 (BitVec.ofNat 64 (b.par 40 48))
        let s := s.setReg .alcoveDirtyCtl a 0 (BitVec.ofNat 64 (2 ^ 63 + b.par 48 52))
        s.respond mbx.val 0 (s.inflight a) a [1]
      else (s.setAlc a { s.alc a with syncFor := some (mbx.val, b.par 16 17) }).dirtySettle a)

/-- ALCOVE_QUERY (R269). -/
def execAlcoveQuery (mbx : Fin 7) (s : State) : Host.Outcome State Fault Refusal :=
  .next (s.alcCmd mbx.val 10 (fun _ => true) false (fun _ => true) fun a s =>
    s.respond mbx.val 0 (s.inflight a) a [BitVec.ofNat 8 (s.alcState a)])

/-- ALCOVE_QUIESCE_TIMEOUT (R271, R275): the remaining work is aborted, or the freeze returns to READY. -/
def execAlcoveQuiesceTimeout (a : Fin 1023) (s : State) : Host.Outcome State Fault Refusal :=
  if !s.due .alcQuiesce a.val then .next s
  else
    let s := s.disarm .alcQuiesce a.val 0
    if s.alcState a.val = 2 then .next ((s.setFld F.alcoveCfgAborted a.val 0 1).arm .alcXlat a.val 0 (ms 1))
    else if s.alcState a.val = 4 then
      let w := (s.alc a.val).wait
      let s := (s.alcEnter a.val 1).setAlc a.val { s.alc a.val with wait := .none }
      .next (match w with
        | .freeze m => s.respond m 6 (s.inflight a.val) a.val []
        | _ => s)
    else .next s

/-- ALCOVE_XLAT_CLOSE (R271): XLAT is cleared, and the requests still with the drive leave INFLIGHT. -/
def execAlcoveXlatClose (a : Fin 1023) (s : State) : Host.Outcome State Fault Refusal :=
  if s.due .alcXlat a.val then
    .next (((s.disarm .alcXlat a.val 0).setFld F.alcoveCfgXlat a.val 0 0).setFld F.alcoveInflightFw a.val 0 0)
  else .next s

/-- ALCOVE_INFLIGHT_ZERO (R271, R275). -/
def execAlcoveInflightZero (a : Fin 1023) (s : State) : Host.Outcome State Fault Refusal := .next (s.alcQuiet a.val)

end Sys2Proof.Machine
end

