-- ==== Sys2Proof/Machine/CfgSpace.lean ====
section
/-! DEFINITION. The configuration spaces of the functions that a host sees: which function a request names, and what each
register reads and writes (spec/10_host_functions.md R255 to R257, R270, R273; spec/12_td212_personality.md R316; PCI Express
Base Specification 4.0, chapter 7, and its SR-IOV chapter; VIRTIO 1.2, 4.1.4; assumption log 34). -/

namespace Sys2Proof.Machine

/-! The function that a request names (R255). -/

/-- Bus, device and function numbers of a configuration request. -/
def Tlp.bus (t : Tlp) : Nat := t.addr / 2 ^ 24 % 256
def Tlp.device (t : Tlp) : Nat := t.addr / 2 ^ 19 % 32
def Tlp.function (t : Tlp) : Nat := t.addr / 2 ^ 16 % 8

/-- Is a bus within the range behind a bridge function, and is it the bus just behind it? -/
def State.busWithin (s : State) (h fn bus : Nat) : Bool :=
  let a := s.cfgGet h fn .secondaryBus
  a != 0 && decide (a ≤ bus ∧ bus ≤ s.cfgGet h fn .subordinateBus)

/-- What a request finds on the bus behind a slot: the endpoint's link takes Device 0 alone by Type 0 requests, further buses
by Type 1 requests. -/
def State.behindSlot (s : State) (h fn k : Nat) (t : Tlp) : Option HostFn :=
  if t.bus = s.cfgGet h fn .secondaryBus then (if t.device = 0 then some (.behind k 0) else none) else some (.behind k 1)

/-- The function that a configuration request of Type `type` names. -/
def State.cfgTarget (s : State) (h type : Nat) (t : Tlp) : Option HostFn :=
  if !s.flag F.hostCfgEn h then
    (match s.tdTrunk h with
    | none => none
    | some n =>
      if type = 0 then (if t.device = 0 ∧ t.function = 0 then some .td else none)
      else if s.busWithin h 11 t.bus then s.behindSlot h 11 (s.fld F.trkTdCtrlPrt n) t else none)
  else if type = 0 then (if t.device = 0 ∧ t.function = 0 then some .upstream else none)
  else if !s.busWithin h 0 t.bus then none
  else if t.bus = s.cfgGet h 0 .secondaryBus then
    (if t.function ≠ 0 then none else if t.device = 0 then some .vdsp
     else if d : t.device - 1 < 8 then some (.dsp ⟨t.device - 1, d⟩) else none)
  else if s.busWithin h 1 t.bus then
    (let n := t.device * 8 + t.function
     if t.bus ≠ s.pfBus h ∨ (t.device ≠ 0 ∧ s.cfgGet h 1 .ariForward = 0) then none
     else if n = 0 then some .pf0
     else if d : n < 256 then (if s.vfThere h n then some (.vf ⟨n, d⟩) else none) else none)
  else match (List.range 8).find? (fun k => s.busWithin h (2 + k) t.bus) with
    | some k => s.behindSlot h (2 + k) k t
    | none => none

/-! Registers. -/

/-- What a run of bits of a register is. -/
inductive CfgBits where
  | fixed (v : Nat)                      -- reads v
  | field (f : CfgField) (shift : Nat)   -- bits of a field from `shift` on
  | clear (f : CfgField) (shift : Nat)   -- the same, cleared by writing 1
  | image                                -- from the Docent's image
  deriving DecidableEq, Repr

/-- A run of bits: lowest bit, width, and what it is. -/
structure CfgRun where
  lo : Nat
  w : Nat
  is : CfgBits
  deriving DecidableEq, Repr

/-- The capability structures. -/
inductive Cap where
  | pcie | pm | msi | msix | virtio (type : Nat) | aer | ari | sriov | dsn
  deriving DecidableEq, Repr

/-- Its ID, its length in DWs, and whether it is an extended capability. -/
def Cap.id : Cap → Nat
  | .pcie => 0x10
  | .pm => 1
  | .msi => 5
  | .msix => 0x11
  | .virtio _ => 9
  | .aer => 1
  | .ari => 0xE
  | .sriov => 0x10
  | .dsn => 3
def Cap.dws : Cap → Nat
  | .pcie => 15
  | .pm => 2
  | .msi => 4
  | .msix => 3
  | .virtio t => if t = 2 ∨ t = 5 then 5 else 4
  | .aer => 18
  | .ari => 2
  | .sriov => 16
  | .dsn => 3
def Cap.extended : Cap → Bool
  | .aer | .ari | .sriov | .dsn => true
  | _ => false

/-- Does VF n of host h show VIRTIO capabilities: a NET or BLK Alcove stands behind it (R256, R270)? -/
def State.vfVirtio (s : State) (h n : Nat) : Bool :=
  match s.alcOf h n with
  | some a => decide (s.fld F.alcoveCfgType a < 2)
  | none => false

/-- The capabilities of a function, in the order of *Capabilities presented*. -/
def State.caps (s : State) (h : Nat) : HostFn → List Cap
  | .upstream => [.pcie, .pm, .aer, .dsn]
  | .vdsp => [.pcie, .aer]
  | .dsp _ => [.pcie, .msi, .aer]
  | .pf0 => [.pcie, .pm, .msix, .aer, .ari, .sriov, .dsn]
  | .td => [.pcie, .pm, .msi]
  | .vf n => [.pcie, .msix, .ari] ++ (if s.vfVirtio h n.val then [1, 2, 3, 4, 5].map Cap.virtio else [])
  | .behind .. => []

/-- The kind of a function's image: the DSPs share one, the VFs another. -/
def HostFn.kind : HostFn → Nat
  | .upstream => 0
  | .vdsp => 1
  | .dsp _ => 2
  | .pf0 => 3
  | .td => 4
  | .vf _ => 5
  | .behind .. => 6

/-- The DW at which a capability stands: extended ones from DW 64, each where the image puts it. -/
def HostFn.capAt (fn : HostFn) (c : Cap) : Nat :=
  Config.capAt fn.kind (c.id + (if c.extended then 0x100 else 0) + (match c with
    | .virtio t => t * 0x200
    | _ => 0))

/-- The capability that holds a DW, and the DW's place in it. -/
def State.capOf (s : State) (h : Nat) (fn : HostFn) (d : Nat) : Option (Cap × Nat) :=
  ((s.caps h fn).find? (fun c => decide (fn.capAt c ≤ d ∧ d < fn.capAt c + c.dws))).map (fun c => (c, d - fn.capAt c))

/-- Where the next capability of the same list stands, in bytes. -/
def State.capNext (s : State) (h : Nat) (fn : HostFn) (c : Cap) : Nat :=
  let l := (s.caps h fn).filter (fun x => x.extended == c.extended)
  match (l.drop (l.findIdx (· == c) + 1)).head? with
  | some x => 4 * fn.capAt x
  | none => 0

/-- Runs shared by several registers. -/
def runFixed (lo w v : Nat) : CfgRun := { lo := lo, w := w, is := .fixed v }
def runImage (lo w : Nat) : CfgRun := { lo := lo, w := w, is := .image }
def runField (lo w : Nat) (f : CfgField) (shift : Nat := 0) : CfgRun := { lo := lo, w := w, is := .field f shift }
/-- Bits that the host writes and reads and the hub does not act on. -/
def runPlain (d lo w : Nat) : CfgRun := runField lo w (.other d) lo

/-- Has a function a Type 1 header? -/
def HostFn.bridge : HostFn → Bool
  | .upstream | .vdsp | .dsp _ | .td => true
  | _ => false

/-- A DW of the header. -/
def State.cfgHeader (s : State) (h : Nat) (fn : HostFn) (d : Nat) : List CfgRun :=
  let isVf := match fn with
    | .vf _ => true
    | _ => false
  if d = 0 ∧ fn = .td then [runFixed 0 16 (Config.tdIdentity 0).toNat, runFixed 16 16 (Config.tdIdentity 1).toNat]
  else if d = 0 ∨ d = 2 ∨ (d = 11 ∧ !fn.bridge) then [runImage 0 32]
  else if d = 1 then
    [runField 2 1 .busMaster, runFixed 20 1 1] ++
      (if isVf then [] else [runPlain 1 0 2, runPlain 1 6 1, runPlain 1 8 1, runPlain 1 10 1])
  else if d = 3 then [runPlain 3 0 8, runFixed 16 8 (if fn.bridge then 1 else 0)]
  else if d = 13 then [runFixed 0 8 (match ((s.caps h fn).filter (fun c => !c.extended)).head? with
    | some c => 4 * fn.capAt c
    | none => 0)]
  else if d = 15 then (if isVf then [] else [runPlain 15 0 8] ++ (if fn.bridge then [runPlain 15 16 2, runPlain 15 18 3, runPlain 15 22 1] else []))
  else if fn.bridge then
    (if d = 4 ∧ fn = .td then [runFixed 0 4 0, runPlain 4 12 20]
     else if d = 6 then [runField 0 8 .primaryBus, runField 8 8 .secondaryBus, runField 16 8 .subordinateBus]
     else if d = 8 then [runPlain 8 4 12, runPlain 8 20 12]
     else if d = 9 then [runFixed 0 4 1, runField 4 12 .prefBase 20, runFixed 16 4 1, runField 20 12 .prefLimit 20]
     else if d = 10 then [runField 0 32 .prefBase 32]
     else if d = 11 then [runField 0 32 .prefLimit 32]
     else [])
  else if fn = .pf0 ∧ d = 4 then [runFixed 0 4 4, runPlain 4 14 18]
  else if fn = .pf0 ∧ d = 5 then [runPlain 5 0 32]
  else []

/-- A DW of the PCI Express capability, at `d` in the function's space. -/
def State.cfgPcie (s : State) (h : Nat) (fn : HostFn) (d i : Nat) : List CfgRun :=
  let isVf := match fn with
    | .vf _ => true
    | _ => false
  let slot := match fn with
    | .dsp k => some k.val
    | _ => none
  let port := match fn with
    | .upstream => 5
    | .vdsp => 6
    | .dsp _ => 6
    | .td => 6
    | _ => 0
  let there := match slot with
    | some k => if (s.prt k).shown && s.fld F.prtBridgeHost k == h then 1 else 0
    | none => 0
  match i with
  | 0 => [runFixed 16 4 2, runFixed 20 4 port, runFixed 24 1 (if slot.isSome then 1 else 0)]
  | 1 => [runImage 0 15, runFixed 15 1 1, runImage 16 12, runFixed 28 1 (if isVf then 1 else 0)]
  | 2 =>
    if isVf then [runField 15 1 .flr, runFixed 21 1 (match fn with
      | .vf n => (match s.alcOf h n.val with
        | some a => if s.fld F.alcoveInflightHw a = 0 then 0 else 1
        | none => 0)
      | _ => 0)]
    else [runPlain d 0 5, runField 5 3 .maxPayload, runPlain d 8 4] ++ (if fn = .pf0 then [runField 12 3 .maxRead] else [])
  | 3 =>
    if fn = .td then [runFixed 0 4 2, runFixed 4 6 1, runImage 10 22]
    else [runImage 0 20, runFixed 20 1 (if slot.isSome then 1 else 0), runImage 21 11]
  | 4 =>
    [runPlain d 0 2, runPlain d 3 1, runPlain d 6 4] ++
    (if fn = .td then [runFixed 16 4 2, runFixed 20 6 1]
     else if slot.isSome then [runImage 16 13, runFixed 29 1 there] else [runImage 16 13])
  | 5 => if slot.isSome then [runFixed 0 5 0, runFixed 5 2 3, runImage 19 13] else []
  | 6 =>
    if slot.isSome then
      [runPlain d 0 13, { lo := 19, w := 1, is := .clear .slotChanged 0 }, runFixed 22 1 there,
       { lo := 24, w := 1, is := .clear .slotChanged 1 }]
    else []
  | 9 => [runImage 0 5, runFixed 5 1 (if fn = .vdsp then 1 else 0), runImage 6 26]
  | 10 => [runPlain d 0 5, if fn = .vdsp then runField 5 1 .ariForward else runFixed 5 1 0, runPlain d 6 10]
  | 11 => [runImage 0 32]
  | 12 => [runPlain d 0 16, runImage 16 16]
  | _ => []

/-- A DW of another capability. -/
def State.cfgCap (s : State) (h : Nat) (fn : HostFn) (d : Nat) : Cap → Nat → List CfgRun
  | .pcie, i => s.cfgPcie h fn d i
  | .pm, 0 => [runFixed 16 3 3, runImage 19 6]
  | .pm, 1 => [runPlain d 0 2]
  | .msi, 0 => [runField 16 1 .msiEnable, runPlain d 20 3, runFixed 23 1 1]
  | .msi, 1 => [runField 2 30 .msiAddr 2]
  | .msi, 2 => [runField 0 32 .msiAddr 32]
  | .msi, 3 => [runField 0 16 .msiData]
  | .msix, 0 =>
    let n := match fn with
      | .vf n => (match s.alcOf h n.val with
        | some a => s.fld F.alcoveCfgNvq a + 1
        | none => 1)
      | _ => 32
    [runFixed 16 11 (n - 1), runField 30 1 .msixMask, runField 31 1 .msixEnable]
  | .msix, 1 => [runFixed 0 32 0x2000]
  | .msix, 2 => [runFixed 0 32 0x3000]
  | .virtio t, 0 => [runFixed 16 8 (4 * (Cap.virtio t).dws), runFixed 24 8 t]
  | .virtio 5, 1 => [runField 0 8 .pciBar]
  | .virtio 5, 2 => [runField 0 32 .pciOff]
  | .virtio 5, 3 => [runField 0 32 .pciLen]
  | .virtio 5, 4 => [runField 0 32 .pciData]
  | .virtio t, 2 => [runFixed 0 32 (if t = 1 then 0 else if t = 2 then 0x1000 else if t = 3 then 0x400 else 0x800)]
  | .virtio t, 3 =>
    let nvq := match fn with
      | .vf n => (match s.alcOf h n.val with
        | some a => s.fld F.alcoveCfgNvq a
        | none => 0)
      | _ => 0
    [runFixed 0 32 (if t = 1 then 56 else if t = 2 then 4 * nvq else if t = 3 then 1 else 0x400)]
  | .virtio 2, 4 => [runFixed 0 32 4]
  | .aer, 1 => [{ lo := 0, w := 32, is := .clear .aer 0 }]
  | .aer, 2 => [runPlain d 0 32]
  | .aer, 3 => [runPlain d 0 32]
  | .aer, 5 => [runPlain d 0 32]
  | .aer, 6 => [runImage 0 32]
  | .aer, 7 => [runImage 0 32]
  | .aer, 8 => [runImage 0 32]
  | .aer, 9 => [runImage 0 32]
  | .aer, 10 => [runImage 0 32]
  | .sriov, 1 => [runImage 0 32]
  | .sriov, 2 => [runField 0 1 .vfEnable, runPlain d 3 1, runPlain d 4 1]
  | .sriov, 3 => [runFixed 0 16 (s.fld F.hostCfgTotalvfs h), runFixed 16 16 (s.fld F.hostCfgTotalvfs h)]
  | .sriov, 4 => [runField 0 16 .numVfs]
  | .sriov, 5 => [runFixed 0 16 1, runFixed 16 16 1]
  | .sriov, 6 => [runImage 16 16]
  | .sriov, 7 => [runImage 0 32]
  | .sriov, 8 => [runPlain d 0 32]
  | .sriov, 9 => [runFixed 0 4 4, runPlain d 14 18]
  | .sriov, 10 => [runPlain d 0 32]
  | .dsn, 1 => [runImage 0 32]
  | .dsn, 2 => [runImage 0 32]
  | _, _ => []

/-- The runs of a DW; bits in none of them read 0. -/
def State.cfgRuns (s : State) (h : Nat) (fn : HostFn) (d : Nat) : List CfgRun :=
  if d < 16 then s.cfgHeader h fn d
  else match s.capOf h fn d with
    | none => []
    | some (c, i) =>
      (if i ≠ 0 then []
       else if c.extended then [runFixed 0 16 c.id, runFixed 16 4 (if c = .aer then 2 else 1), runFixed 20 12 (s.capNext h fn c)]
       else [runFixed 0 8 c.id, runFixed 8 8 (s.capNext h fn c)]) ++ s.cfgCap h fn d c i

/-! Reads. -/

/-- Uncorrectable Error Status of a function, from its AER log (*AER kinds*; assumption log 31). -/
def State.aerStatus (s : State) (h fn : Nat) : Nat :=
  let a := unitGet 0 s.aer (aerFn h fn)
  let bit := fun (i j : Nat) => if a.testBit i then 2 ^ j else 0
  bit 4 12 + bit 2 14 + bit 1 15 + bit 3 16 + bit 0 20

/-- The value of a field. -/
def State.cfgValue (s : State) (h : Nat) (fn : HostFn) (f : CfgField) : Nat :=
  match f with
  | .aer => s.aerStatus h fn.num
  | .flr => 0
  | .pciData =>
    (match fn with
    | .vf n => (match s.alcOf h n.val with
      | some a =>
        let o := s.cfgGet h fn.num .pciOff
        leNat ((List.range (min 4 (s.cfgGet h fn.num .pciLen))).map (fun i => s.vfByte a (o + i)))
      | none => 0)
    | _ => 0)
  | f => s.cfgGet h fn.num f

/-- A run of a DW as it reads. -/
def State.cfgRunRead (s : State) (h : Nat) (fn : HostFn) (d : Nat) (r : CfgRun) : Nat :=
  (match r.is with
  | .fixed v => v
  | .field f sh => s.cfgValue h fn f / 2 ^ sh
  | .clear f sh => s.cfgValue h fn f / 2 ^ sh
  | .image => (Config.cfgImage fn.kind d).toNat / 2 ^ r.lo) % 2 ^ r.w * 2 ^ r.lo

/-- A DW of a function's configuration space. -/
def State.cfgRead (s : State) (h : Nat) (fn : HostFn) (d : Nat) : Nat :=
  ((s.cfgRuns h fn d).map (fun r => s.cfgRunRead h fn d r)).sum

/-! Writes. -/

/-- A field takes a new value (R255 to R257): bus numbers are recorded, NumVFs is bounded by TotalVFs and fixed while VF Enable
is 1, a cleared function mask sends what is pending, and a Function Level Reset begins. -/
def State.cfgPut (s : State) (h : Nat) (fn : HostFn) (f : CfgField) (v : Nat) : State :=
  match f with
  | .numVfs =>
    if v ≤ s.fld F.hostCfgTotalvfs h ∧ s.cfgGet h 10 .vfEnable = 0
    then (s.cfgSet h 10 f v).setFld F.hostStatusNumvfs h 0 v else s
  | .vfEnable => (s.cfgSet h 10 f (v % 2)).setFld F.hostStatusVfEn h 0 (v % 2)
  | .primaryBus =>
    let s := s.cfgSet h fn.num f v
    if fn = .upstream then s.setFld F.hostStatusUpBus h 0 v else s
  | .secondaryBus =>
    let s := s.cfgSet h fn.num f v
    if fn = .upstream then s.setFld F.hostStatusIntBus h 0 v else if fn = .vdsp then s.setFld F.hostStatusPfBus h 0 v else s
  | .msiEnable =>
    let s := s.cfgSet h fn.num f v
    (match fn, s.tdTrunk h with
    | .td, some n => s.tdBeaconCheck n
    | _, _ => s)
  | .msixMask =>
    let s := s.cfgSet h fn.num f v
    if v ≠ 0 then s
    else (match fn with
      | .pf0 => (List.range 32).foldl (fun s i => if (s.mbx h).pba.testBit i then s.pf0Vector h i else s) s
      | .vf n => (match s.alcOf h n.val with
        | some a => (List.range 65).foldl (fun s i => if (s.alc a).pba.testBit i then s.alcVector a i else s) s
        | none => s)
      | _ => s)
  | .flr =>
    (match fn with
    | .vf n => (match s.alcOf h n.val with
      | some a => if v % 2 = 1 then s.vfFlr a else s
      | none => s)
    | _ => s)
  | .pciData =>
    (match fn with
    | .vf n => (match s.alcOf h n.val with
      | some a => s.vfWrite a (s.cfgGet h fn.num .pciOff) (leBytes (min 4 (s.cfgGet h fn.num .pciLen)) v)
      | none => s)
    | _ => s)
  | f => s.cfgSet h fn.num f v

/-- Bits [w - 1:0] of a number replaced, from bit `sh` on. -/
def putBits (old sh w v : Nat) : Nat := old - old / 2 ^ sh % 2 ^ w * 2 ^ sh + v % 2 ^ w * 2 ^ sh

/-- A run of a DW written: bits whose byte is enabled (`mask`); read-only bits ignore it (R257). -/
def State.cfgRunWrite (s : State) (h : Nat) (fn : HostFn) (v mask : Nat) (r : CfgRun) : State :=
  let m := mask / 2 ^ r.lo % 2 ^ r.w
  let x := v / 2 ^ r.lo % 2 ^ r.w
  if m = 0 then s
  else match r.is with
    | .field f sh =>
      let old := s.cfgGet h fn.num f
      let bits := old / 2 ^ sh % 2 ^ r.w
      s.cfgPut h fn f (putBits old sh r.w ((bits &&& (2 ^ r.w - 1 - m)) ||| (x &&& m)))
    | .clear .aer _ =>
      let u := aerFn h fn.num
      let keep := fun (i j : Nat) => if (x &&& m).testBit j then 0 else (unitGet 0 s.aer u / 2 ^ i % 2) * 2 ^ i
      let left := keep 0 20 + keep 1 15 + keep 2 14 + keep 3 16 + keep 4 12 + unitGet 0 s.aer u / 32 * 32
      { s with aer := unitSet 0 s.aer u left }
    | .clear f sh =>
      let old := s.cfgGet h fn.num f
      s.cfgSet h fn.num f (putBits old sh r.w (old / 2 ^ sh % 2 ^ r.w &&& (2 ^ r.w - 1 - (x &&& m))))
    | _ => s

/-- The bits that byte enables switch on. -/
def enableMask (be : Nat) : Nat := ((List.range 4).map (fun i => if be.testBit i then 0xFF * 256 ^ i else 0)).sum

/-- A write of a DW. -/
def State.cfgWrite (s : State) (h : Nat) (fn : HostFn) (d v be : Nat) : State :=
  (s.cfgRuns h fn d).foldl (fun s r => s.cfgRunWrite h fn v (enableMask be) r) s

end Sys2Proof.Machine
end

