-- ==== Sys2Proof/Machine/Tables.lean ====
section
/-! DEFINITION. The `tbl`, `epoch` and `q` instructions, table definitions, program staging and publication
(spec/09_match_act_programs.md R238 to R252; spec/03_waizefy_isa.md R96, R97; spec/08_scheduling.md R230). -/

namespace Sys2Proof.Machine

/-- Bytes `a` to `b` - 1 of a block as a little-endian number. -/
def field (d : List Byte) (a b : Nat) : Nat := leNat ((d.drop a).take (b - a))

/-- Are the bytes `a` to `b` - 1 all 0? -/
def zeroBytes (d : List Byte) (a b : Nat) : Bool := ((d.drop a).take (b - a)).all (· == 0)

/-! An operation that completes as it issues: its check, then the next instruction and the completion word. -/

/-- The value of a general register of the issuing thread. -/
def State.wzG (s : State) (x : Issue) (r : Nat) : Nat := ((s.thr x.core.val x.thread.val).g r).toNat

/-- Issue an operation-table instruction that completes at once; `body` answers status, RESULT and the state after it. -/
def State.wzOp (s : State) (x : Issue) (group : WzGroup) (priv : Bool) (tag : Nat) (srcs : List Nat) (chk : State → WzCheck)
    (body : State → Nat × Nat × State) : State :=
  s.wzIssue x { group := group, priv := priv, tag := some tag, srcs := srcs } chk fun s =>
    let c := x.core.val
    let t := x.thread.val
    let r := body (s.setThr c t (s.thr c t).next)
    r.2.2.otAtOnce c t tag r.1 r.2.1

/-- The check of a local buffer at the address in register `ra`. -/
def wzBuf (x : Issue) (ra n : Nat) (store : Bool) (s : State) : WzCheck := s.bufChk x.core.val (s.wzG x ra) n store

/-! Entries, staged and in force (09 R241). -/

/-- Do two entries have one identity: the key for EXACT, the index otherwise? -/
def sameEntry (kind : Nat) (a b : TblEntry) : Bool :=
  a.table == b.table && (if kind = 0 then a.key == b.key else a.index == b.index)

/-- The versions of a Hall that are retained: those of its live epochs. -/
def State.retained (s : State) (h : Nat) : List MapVersion := s.versions.filter (fun v => v.hall == h)

/-- Entries a table occupies, retained versions included (USED, R252). -/
def State.tblUsed (s : State) (h t : Nat) : List TblEntry :=
  (((s.retained h).flatMap (fun v => v.entries.filter (fun e => e.table == t))).eraseDups)

/-- Staged changes of a table. -/
def State.tblStaged (s : State) (h t : Nat) : List TblChange := (s.hall h).staged.filter (fun c => c.entry.table == t)

/-- Words of the program store in use: every retained version of a program once, and the staged ones but `but`. -/
def State.progUsed (s : State) (h but : Nat) : Nat :=
  (((s.retained h).flatMap (fun v => v.progs)).eraseDups.map (fun p => p.words.length)).sum +
    (((s.hall h).stagedProg.filter (fun p => p.num != but)).map (fun p => p.words.length)).sum

/-- An entry descriptor (09 *Entry descriptor*): none when a reserved byte, a byte beyond the key or the index is bad, or the
table is not enabled. -/
def State.entryOf (s : State) (h t : Nat) (d : List Byte) : Option TblEntry :=
  let n := s.tblKeyBytes h t
  let kind := s.tblKind h t
  let idx := field d 4 8
  if !s.flag F.hallTblDefEn h t ∨ !zeroBytes d 0 4 ∨ !zeroBytes d (8 + n) 72 ∨ (kind ≠ 0 ∧ s.tblSize h t ≤ idx) then none
  else some {
    table := t, index := if kind = 0 then 0 else idx, key := if kind = 2 then [] else (d.drop 8).take n,
    mask := if kind = 1 then (d.drop 72).take n else [], data := BitVec.ofNat 64 (field d 136 144 % 2 ^ 63) }

/-- The Hall and table of a handle. -/
def handleHall (v : Nat) : Nat := v / 2 ^ 14 % 4
def handleTable (v : Nat) : Nat := v % 32

/-- Stage a change; a later one of the same identity replaces the earlier. -/
def State.stageEntry (s : State) (h : Nat) (c : TblChange) : State :=
  let k := s.tblKind h c.entry.table
  let hs := s.hall h
  s.setHall h { hs with staged := hs.staged.filter (fun x => !sameEntry k x.entry c.entry) ++ [c] }

/-- Does a change of this identity replace a staged one? -/
def State.isStaged (s : State) (h : Nat) (e : TblEntry) : Option TblChange :=
  (s.hall h).staged.find? (fun x => sameEntry (s.tblKind h e.table) x.entry e)

/-- `tbl.ins` (09 R241): status and state. What counts is the entry with the versions that live epochs retain; above 90 % of
an EXACT table the hash buckets decide, which is left open. -/
def State.tblIns (s : State) (h t : Nat) (d : List Byte) : Nat × State :=
  match s.entryOf h t d with
  | none => (4, s)
  | some e =>
    let new := (s.isStaged h e).isNone
    let size := s.tblSize h t
    let used := (s.tblUsed h t).length
    if (new ∧ 4096 ≤ (s.hall h).staged.length) ∨ size < used + 1 then (5, s)
    else if s.tblKind h t = 0 ∧ size * 9 ≤ used * 10 then
      let r := s.openValue
      if r.1.getLsbD 0 then (5, r.2) else (0, r.2.stageEntry h { entry := e, del := false })
    else (0, s.stageEntry h { entry := e, del := false })

/-- `tbl.del` (09 R241). -/
def State.tblDel (s : State) (h t : Nat) (d : List Byte) : Nat × State :=
  match s.entryOf h t d with
  | none => (4, s)
  | some e =>
    let k := s.tblKind h t
    let inForce := (s.version h (s.epochNow h)).entries.any (fun x => sameEntry k x e)
    let st := s.isStaged h e
    if !inForce ∧ st.isNone then (6, s)
    else if st.isNone ∧ 4096 ≤ (s.hall h).staged.length then (5, s)
    else (0, s.stageEntry h { entry := e, del := true })

/-- `tbl.find` (09 R241): the entry in force in the current epoch, written back. -/
def State.tblFind (s : State) (c a h t : Nat) (d : List Byte) : Nat × State :=
  match s.entryOf h t d with
  | none => (4, s)
  | some e =>
    let k := s.tblKind h t
    let key := if k = 2 then leBytes 4 e.index else (d.drop 8).take (s.tblKeyBytes h t)
    match entryFind k t (s.version h (s.epochNow h)).entries key with
    | none => (6, s)
    | some w =>
      let pad := fun (l : List Byte) => (l ++ List.replicate 64 0).take 64
      (0, s.setLocal c a (leBytes 4 0 ++ leBytes 4 (if k = 0 then field d 4 8 else w.index) ++
        (if k = 2 then (d.drop 8).take 64 else pad w.key) ++ (if k = 1 then pad w.mask else (d.drop 72).take 64) ++
        leBytes 8 (w.data.toNat + 2 ^ 63)))

/-- A meter descriptor (08 *Meter descriptor*): none when refused. -/
def meterOf (d : List Byte) : Option Meter :=
  let cir := field d 0 4
  let pir := field d 8 12
  let cbs := field d 16 20
  let pbs := field d 20 24
  if pir < cir ∨ 400000 < cir ∨ 400000 < pir ∨ cbs = 0 ∨ 1048576 < cbs ∨ pbs = 0 ∨ 1048576 < pbs ∨
      !zeroBytes d 4 8 ∨ !zeroBytes d 12 16 ∨ !zeroBytes d 25 32 ∨ 2 ≤ field d 24 25 then none
  else some { cir := cir, pir := pir, cbs := cbs, pbs := pbs, aware := field d 24 25 == 1 }

/-- `tbl.mtr` (08 R230). -/
def State.tblMtr (s : State) (v : Nat) (d : List Byte) : Nat × State :=
  match meterOf d with
  | none => (4, s)
  | some m =>
    let h := v / 2 ^ 14 % 4
    let i := v % 2 ^ 14
    (0, s.setHall h { s.hall h with stagedMtr := (s.hall h).stagedMtr.filter (fun x => x.1 != i) ++ [(i, m)] })

/-- A table instruction that reads `n` bytes at [ra] and names its object in rb. -/
def State.wzTbl (s : State) (x : Issue) (ra rb tag n : Nat) (store : Bool) (f : State → Nat → Nat → List Byte → Nat × State) :
    State :=
  s.wzOp x .switch true tag [ra, rb] (wzBuf x ra n store) fun s =>
    let a := s.wzG x ra
    let r := f s a (s.wzG x rb) (s.localBytes x.core.val a n)
    (r.1, 0, r.2)

/-- TBL_INS. -/
def execTblIns (x : Issue) (ra rb : Fin 32) (tag : Fin 16) (s : State) : Host.Outcome State Fault Refusal :=
  .next (s.wzTbl x ra.val rb.val tag.val 144 false fun s _ v d => s.tblIns (handleHall v) (handleTable v) d)

/-- TBL_DEL. -/
def execTblDel (x : Issue) (ra rb : Fin 32) (tag : Fin 16) (s : State) : Host.Outcome State Fault Refusal :=
  .next (s.wzTbl x ra.val rb.val tag.val 144 false fun s _ v d => s.tblDel (handleHall v) (handleTable v) d)

/-- TBL_FIND. -/
def execTblFind (x : Issue) (ra rb : Fin 32) (tag : Fin 16) (s : State) : Host.Outcome State Fault Refusal :=
  .next (s.wzTbl x ra.val rb.val tag.val 144 true fun s a v d => s.tblFind x.core.val a (handleHall v) (handleTable v) d)

/-- A counter pair to 16 bytes of local memory (09 R242). -/
def State.cntRead (s : State) (c a v : Nat) : State :=
  s.setLocal c a (leBytes 8 (s.reg .hallCntPkt (v / 2 ^ 16 % 4) (v % 2 ^ 16)).toNat ++
    leBytes 8 (s.reg .hallCntByte (v / 2 ^ 16 % 4) (v % 2 ^ 16)).toNat)

/-- TBL_CNT. -/
def execTblCnt (x : Issue) (ra rb : Fin 32) (tag : Fin 16) (s : State) : Host.Outcome State Fault Refusal :=
  .next (s.wzTbl x ra.val rb.val tag.val 16 true fun s a v _ => (0, s.cntRead x.core.val a v))

/-- TBL_CNTC: read and clear. -/
def execTblCntc (x : Issue) (ra rb : Fin 32) (tag : Fin 16) (s : State) : Host.Outcome State Fault Refusal :=
  .next (s.wzTbl x ra.val rb.val tag.val 16 true fun s a v _ =>
    (0, ((s.cntRead x.core.val a v).setReg .hallCntPkt (v / 2 ^ 16 % 4) (v % 2 ^ 16) 0).setReg .hallCntByte
      (v / 2 ^ 16 % 4) (v % 2 ^ 16) 0))

/-- TBL_MTR. -/
def execTblMtr (x : Issue) (ra rb : Fin 32) (tag : Fin 16) (s : State) : Host.Outcome State Fault Refusal :=
  .next (s.wzTbl x ra.val rb.val tag.val 32 false fun s _ v d => s.tblMtr v d)

/-! Publication (09 R250 to R252; 07 R195, R196). -/

/-- The registers staged in a Hall. -/
def State.stagedRegs (s : State) (h : Nat) : Tab RegId (BitVec 64) := s.regs.filter (fun e => stagedReg e.1.name && e.1.i == h)

/-- The entries after the staged changes. -/
def State.entriesAfter (s : State) (h : Nat) (old : List TblEntry) : List TblEntry :=
  (s.hall h).staged.foldl (fun es c =>
    let es := es.filter (fun e => !sameEntry (s.tblKind h c.entry.table) e c.entry)
    if c.del then es else es ++ [c.entry]) old

/-- What a publication changes, from the staged registers that differ. -/
def regChanges (old new : Tab RegId (BitVec 64)) : List Change :=
  (((old ++ new).map (fun e => e.1)).eraseDups.filter (fun r => tabGet regReset old r != tabGet regReset new r)).map (fun r =>
    match r.name with
    | .hallTblMiss => .miss r.j
    | .hallInd => .ind (r.j / 256) (r.j % 256)
    | .hallEntry => .entryOf r.j
    | _ => .parse)

/-- What a publication changes in the tables. -/
def State.tblChanges (s : State) (h : Nat) (old : List TblEntry) : List Change :=
  (s.hall h).staged.flatMap (fun c =>
    let k := s.tblKind h c.entry.table
    let gone := old.filter (fun e => sameEntry k e c.entry)
    let name := fun (e : TblEntry) => match k with
      | 0 => Change.exact e.table e.key
      | 1 => Change.ternary e.table e.key e.mask
      | _ => Change.direct e.table e.index
    (gone.map name) ++ (if c.del then [] else [name c.entry]))

/-- Would a publication need space the store has not (09 R252)? -/
def State.pubFull (s : State) (h : Nat) (new : List TblEntry) : Bool :=
  (List.range 32).any (fun t =>
    decide (s.tblSize h t < ((s.tblUsed h t) ++ (new.filter (fun e => e.table == t))).eraseDups.length)) ||
  decide (16384 < s.progUsed h 256)

/-- Publish a staged meter: both buckets full, the additions issued (08 R230). -/
def State.meterPut (s : State) (h i : Nat) (m : Meter) : State :=
  let old := s.meter h i
  s.setMeter h i { m with
    tc := m.cbs * 1024, tp := m.pbs * 1024, since := s.tb,
    issued := old.issued + (m.cbs * 1024 - old.tc) + (m.pbs * 1024 - old.tp),
    discarded := old.discarded + (old.tc - m.cbs * 1024) + (old.tp - m.pbs * 1024), spent := old.spent }

/-- The staged pair map of every primary in a Hall is published (06 R173, R178); it waits on drain as held packets do, and with
`HOLD_MOVED` = 0 not at all (07 R197, R198). -/
def State.mapsPublish (s : State) (h : Nat) : State :=
  let s := (hallTrunks h).foldl (fun s n =>
    if s.flag F.trkPairEn n && s.flag F.trkPairPrimary n then
      let t := s.trk n
      let m : BitVec 256 := BitVec.ofNat 256 (((List.range 4).map (fun k => (s.reg .trkPairMap n k).toNat * 2 ^ (64 * k))).sum)
      let up := fun k => s.fld F.trkLinkStatusState k == 2
      s.setTrk n { t with mapNew := t.mapNew ++ [
        { map := m, epoch := s.fld F.hallEpochStatusCurrent h, since := s.tb, back := up n && up (s.fld F.trkPairMate n) }] }
    else s) s
  if s.flag F.hallBufCtrlHoldMoved h then s.pairMaps h else s.pairMoves h (fun _ => true)

/-- `epoch.pub` (09 R250): status, RESULT and state. -/
def State.epochPub (s : State) (h : Nat) : Nat × Nat × State :=
  let cur := s.epochNow h
  if 4 ≤ s.fld F.hallEpochStatusLive h then (3, 0, s)
  else
    let v := s.version h cur
    let hs := s.hall h
    let es := s.entriesAfter h v.entries
    if s.pubFull h es then (5, 0, s)
    else
      let progs := (v.progs.filter (fun p => !hs.stagedProg.any (fun q => q.num == p.num))) ++
        hs.stagedProg.filter (fun p => p.words != [])
      let e := (cur + 1) % 65536
      let new : MapVersion := {
        hall := h, epoch := e, regs := s.stagedRegs h, entries := es, progs := progs,
        changes := regChanges v.regs (s.stagedRegs h) ++ s.tblChanges h v.entries ++ hs.stagedProg.map (fun p => .prog p.num) }
      let s := { s with versions := s.versions.filter (fun (x : MapVersion) => !(x.hall == h && x.epoch == e)) ++ [new] }
      let s := s.setHall h { hs with staged := [], stagedMtr := [], stagedProg := [] }
      let s := hs.stagedMtr.foldl (fun s x => s.meterPut h x.1 x.2) s
      let s := (s.setFld F.hallEpochStatusCurrent h 0 e).setFld F.hallEpochStatusLive h 0 (s.fld F.hallEpochStatusLive h + 1)
      let s := if s.epochLive h cur then s else s.epochRetire h cur
      (0, e, s.mapsPublish h)

/-- EPOCH_PUB. -/
def execEpochPub (x : Issue) (ra : Fin 32) (tag : Fin 16) (s : State) : Host.Outcome State Fault Refusal :=
  .next (s.wzOp x .switch true tag.val [ra.val] noChk fun s =>
    let h := s.wzG x ra.val
    if h < 4 then s.epochPub h else (4, 0, s))

/-- EPOCH_DRAIN (03 *epoch group*; 07 R196): at once when the epoch is not live. -/
def execEpochDrain (x : Issue) (ra rb : Fin 32) (tag : Fin 16) (s : State) : Host.Outcome State Fault Refusal :=
  .next (s.wzIssue x { group := .switch, priv := true, tag := some tag.val, srcs := [ra.val, rb.val] } noChk fun s =>
    let c := x.core.val
    let t := x.thread.val
    let h := s.wzG x ra.val
    let e := s.wzG x rb.val
    let s := s.setThr c t (s.thr c t).next
    if h < 4 ∧ e < 65536 ∧ s.epochLive h e then s.otAlloc c t tag.val (.epochDrain h e)
    else s.otAtOnce c t tag.val (if h < 4 then 0 else 4) 0)

/-- EPOCH_CUR. -/
def execEpochCur (x : Issue) (rd ra : Fin 32) (s : State) : Host.Outcome State Fault Refusal :=
  .next (s.wzIssue x { group := .switch, priv := true, srcs := [ra.val], dsts := [rd.val] } noChk fun s =>
    let h := s.wzG x ra.val
    s.setThr x.core.val x.thread.val (((s.thr x.core.val x.thread.val).setG rd.val
      (BitVec.ofNat 64 (if h < 4 then s.epochNow h else 0))).next))

/-! Usher queues (03 R97, 09 R248). -/

/-- The leaf queue an Usher's input queue binds. -/
def State.inputQueue (s : State) (u i : Nat) : Option Nat :=
  if i < 16 ∧ s.flag F.hallUshqValid (u / 2) (u % 2 * 16 + i) then
    some (u / 2 * 2048 + s.fld F.hallUshqQueue (u / 2) (u % 2 * 16 + i))
  else none

/-- The descriptor of a popped packet (09 *Packet descriptor*). -/
def popDescriptor (p : Parcel) : List Byte :=
  leBytes 16 p.pkt.header ++ [BitVec.ofNat 8 p.hall,
    BitVec.ofNat 8 ((if p.pkt.e2e then 1 else 0) + (if p.pkt.e2eOk then 0 else 2) + (if p.pass2 then 4 else 0)),
    BitVec.ofNat 8 p.src] ++ leBytes 3 0 ++ leBytes 2 p.cells.length ++ leBytes 2 (p.cells.headD 0) ++ leBytes 2 p.epoch ++
    leBytes 4 (match p.punt with
      | some (_, _, d) => d
      | none => 0)

/-- `q.pop`. -/
def State.qPop (s : State) (u a i : Nat) : Nat × State :=
  match s.inputQueue u i with
  | none => (6, s)
  | some q =>
    match (unitGet [] s.leafQ q) with
    | [] => (6, s)
    | id :: rest =>
      match s.parcel id with
      | none => (6, s)
      | some p =>
        let s := (s.noteFreed p false (s.sojourn p)).delayStep p q
        let s := State.settleQueue { s with leafQ := unitSet [] s.leafQ q rest } q
        (0, (s.putParcel { p with spot := .popped u }).setLocal u a (popDescriptor p))

/-- The popped packet a descriptor names, in the Hall of Usher u. -/
def State.poppedAt (s : State) (u : Nat) (d : List Byte) : Option Parcel :=
  s.parcels.find? (fun p => p.hall == u / 2 && (match p.spot with
    | .popped _ => true
    | _ => false) && p.cells.headD 0xFFFF == field d 24 26)

/-- May Usher u name a source as the ingress context of a packet (07 R183)? -/
def State.pushSource (s : State) (u v : Nat) : Bool :=
  let h := u / 2
  decide (v = 40 + u) || (decide (v < 24) && decide (v / 6 = h)) ||
  (decide (24 ≤ v ∧ v < 32) && (match s.unitQuad 4 (v - 24) with
    | some q => decide (q / 3 = h)
    | none => false)) ||
  (decide (32 ≤ v ∧ v < 40) && (match s.unitQuad 5 (v - 32) with
    | some q => decide (q / 3 = h)
    | none => false))

/-- `q.push`: the packet, with the header given and LEN bytes of what its cells hold, moves into the Landing and is classified
afresh. -/
def State.qPush (s : State) (u v : Nat) (d : List Byte) : Nat × State :=
  match s.poppedAt u d with
  | none => (6, s)
  | some p =>
    let held := (p.cells.flatMap (fun c => s.bytes (cellAddr p.hall c) 256)).drop 16
    let pkt := { Packet.ofBytes (d.take 16) with payload := held.take (Packet.ofBytes (d.take 16)).len }
    if !s.pushSource u v ∨ pkt.cellCount ≠ p.cells.length ∨ field d 22 24 ≠ p.cells.length then (4, s)
    else if s.localRoom (u / 2) < pkt.cellCount then (5, s)
    else
      let x := s.pickN pkt.cellCount (s.landingEmpty (u / 2))
      let s := (x.2.dropParcel p.id).unstamp p
      (0, (s.addParcel {
        id := 0, pkt := pkt, src := v, hall := u / 2, spot := .arrived, loc := true, segs := cellSegs x.1 }).writeSegs (u / 2)
          (cellSegs x.1) pkt.toBytes)

/-- `q.drop`: the packet's cells are free and it counts as dropped. -/
def State.qDrop (s : State) (u : Nat) (d : List Byte) : Nat × State :=
  match s.poppedAt u d with
  | none => (6, s)
  | some p => (0, s.dropPacket p.id 7)

/-- Q_POP. -/
def execQPop (x : Issue) (ra rb : Fin 32) (tag : Fin 16) (s : State) : Host.Outcome State Fault Refusal :=
  .next (s.wzOp x .queue false tag.val [ra.val, rb.val] (wzBuf x ra.val 32 true) fun s =>
    let r := s.qPop x.core.val (s.wzG x ra.val) (s.wzG x rb.val)
    (r.1, 0, r.2))

/-- Q_PUSH. -/
def execQPush (x : Issue) (ra rb : Fin 32) (tag : Fin 16) (s : State) : Host.Outcome State Fault Refusal :=
  .next (s.wzOp x .queue false tag.val [ra.val, rb.val] (wzBuf x ra.val 32 false) fun s =>
    let r := s.qPush x.core.val (s.wzG x rb.val) (s.localBytes x.core.val (s.wzG x ra.val) 32)
    (r.1, 0, r.2))

/-- Q_DROP. -/
def execQDrop (x : Issue) (ra : Fin 32) (tag : Fin 16) (s : State) : Host.Outcome State Fault Refusal :=
  .next (s.wzOp x .queue false tag.val [ra.val] (wzBuf x ra.val 32 false) fun s =>
    let r := s.qDrop x.core.val (s.localBytes x.core.val (s.wzG x ra.val) 32)
    (r.1, 0, r.2))

/-- Q_DEPTH. -/
def execQDepth (x : Issue) (rd rb : Fin 32) (s : State) : Host.Outcome State Fault Refusal :=
  .next (s.wzIssue x { group := .queue, srcs := [rb.val], dsts := [rd.val] } noChk fun s =>
    let n := match s.inputQueue x.core.val (s.wzG x rb.val) with
      | some q => (unitGet [] s.leafQ q).length
      | none => 0
    s.setThr x.core.val x.thread.val (((s.thr x.core.val x.thread.val).setG rd.val (BitVec.ofNat 64 n)).next))

/-! Table definitions (09 R238). -/

/-- Entries of the enabled tables of a kind, table `but` left out. -/
def State.storeUsed (s : State) (h kind but : Nat) : Nat :=
  ((List.range 32).map (fun t =>
    if t ≠ but ∧ s.flag F.hallTblDefEn h t ∧ s.tblKind h t = kind then s.tblSize h t else 0)).sum

/-- Does a definition pass the checks for EN, as the registers hold it? -/
def State.tblDefOk (s : State) (h t : Nat) : Bool :=
  let kind := s.tblKind h t
  let keys := ((List.range 8).map (fun k =>
    if s.flag F.hallTblExtValid h (t * 8 + k) then s.fld F.hallTblExtLength h (t * 8 + k) else 0)).sum
  let n := s.tblKeyBytes h t
  decide (n = keys) && decide (kind < 3) && decide (n ≤ (if kind = 0 then 64 else if kind = 1 then 40 else 2)) &&
    decide (s.storeUsed h kind t + s.tblSize h t ≤ (if kind = 0 then 65536 else if kind = 1 then 2048 else 16384))

/-- Does a program version in the store bind a table? -/
def State.tblBound (s : State) (h t : Nat) : Bool :=
  (((s.retained h).flatMap (fun v => v.progs)) ++ (s.hall h).stagedProg).any (fun p => p.binds.any (fun b => b == 128 + t))

/-- A write to HALLn_TBLt_DEF. -/
def State.tblDefWrite (s : State) (h t : Nat) (value mask : BitVec 64) : State :=
  let old := s.reg .hallTblDef h t
  let new := regWrite .hallTblDef mask value old
  let err := s.setFld F.hallMapStatusCfgErr h 0 1
  if fldGet F.hallTblDefEn old = 1 then
    if fldGet F.hallTblDefEn new = 1 then s
    else if (s.tblUsed h t) ≠ [] ∨ s.tblBound h t then err
    else s.setReg .hallTblDef h t (fldPut F.hallTblDefEn 0 old)
  else if fldGet F.hallTblDefEn new = 0 then s.setReg .hallTblDef h t new
  else
    let s' := s.setReg .hallTblDef h t new
    if s'.tblDefOk h t then s'
    else (s.setReg .hallTblDef h t (fldPut F.hallTblDefEn 0 new)).setFld F.hallMapStatusCfgErr h 0 1

/-- TABLE_DEFINE (09 R238). -/
def execTableDefine (h : Fin 4) (t : Fin 32) (value : BitVec 64) (s : State) : Host.Outcome State Fault Refusal :=
  .next (s.tblDefWrite h.val t.val value (BitVec.allOnes 64))

/-! Program staging (09 R249). -/

/-- Is a range of the internal address space memory: DRAM in use, Hall SRAM or a local memory alias (01 R27, R29, R30;
11 R470)? -/
def State.inMemory (s : State) (a n : Nat) : Bool :=
  decide (0x10_0000_0000 ≤ a ∧ a + n ≤ 0x10_0000_0000 + s.fld F.dramCfgCapacity * 2 ^ 28) ||
  (List.range 4).any (fun h => decide (0x1_0800_0000 + h * 0x1000_0000 ≤ a ∧ a + n ≤ 0x1_0860_0000 + h * 0x1000_0000)) ||
  (List.range 10).any (fun c => decide (localBase c ≤ a ∧ a + n ≤ localBase c + localSize c))

/-- May a cell of Hall SRAM be stored to (07 R189): a cell withheld for firmware, or any cell of a Hall that is quarantined or
held in reset? -/
def State.cellOpen (s : State) (h c : Nat) : Bool :=
  s.hallState h != 0 || (decide (s.fwFrom h ≤ c) && (s.hall h).fwHeld.contains c)

/-- Does memory refuse a store: of instruction memory or a code region through its alias (01 R32; 03 R102, R103), or of a
Hall cell that is not open (07 R189)? -/
def State.storeRefused (s : State) (a n : Nat) : Bool :=
  (match aliasAt a with
    | some (c, l) => s.inCode c l n
    | none => false) ||
  (match hallCellAt a with
    | some (h, c) => !s.cellOpen h c
    | none => false)

/-- GO (PROGRAM_STAGE, 09 R249): staging starts unless one is under way. -/
def State.progGo (s : State) (h prog : Nat) : State :=
  if (s.hall h).progBusy then s
  else
    let s := (s.setFld F.hallProgStageProg h 0 prog).setFld F.hallProgStageBusy h 0 1
    s.setHall h { s.hall h with progBusy := true, progSrc := s.fld F.hallProgSrcSrc h, progNum := prog }

/-- PROGRAM_STAGE. -/
def execProgramStage (h : Fin 4) (prog : BitVec 8) (s : State) : Host.Outcome State Fault Refusal :=
  .next (s.progGo h.val prog.toNat)

/-- The check of an image for program `num`, its bytes read by `read` (none outside its memory): the result code, the word of
the first failure, and the program. -/
def State.progOf (s : State) (h num : Nat) (read : Nat → Option (List Byte)) : Nat × Nat × Option Prog :=
  match read 16 with
  | none => (2, 0, none)
  | some hdr =>
    let n := field hdr 0 2
    match if 512 < n then none else read (16 + 4 * n) with
    | none => (2, 0, none)
    | some b =>
      if !zeroBytes hdr 2 4 ∨ !zeroBytes hdr 8 16 then (10, 0, none)
      else
        let p : Prog := {
          num := num, binds := (hdr.drop 4 |>.take 4).map (·.toNat),
          words := (List.range n).map (fun i => leNat ((b.drop (16 + 4 * i)).take 4)) }
        match progCheck (fun t => s.flag F.hallTblDefEn h t) p.binds p.words with
        | some (c, i) => (c, i, none)
        | none => if 16384 < s.progUsed h num + n then (1, 0, none) else (0, 0, some p)

/-- The check of the image at an internal address. -/
def State.progLoad (s : State) (h num a : Nat) : Nat × Nat × Option Prog :=
  s.progOf h num (fun n => if s.inMemory a n then some (s.bytes a n) else none)

/-- A program that has passed is staged, in place of one staged under its number. -/
def HallSw.stageProg (hs : HallSw) (r : Nat × Nat × Option Prog) : HallSw :=
  match r.2.2 with
  | some p => { hs with stagedProg := hs.stagedProg.filter (fun x => x.num != p.num) ++ [p] }
  | none => hs

/-- The end of a staging (PROGRAM_STAGE_DONE, 09 R249): RESULT, BUSY cleared, Bell 8. -/
def State.progDone (s : State) (h : Nat) : State :=
  let hs := s.hall h
  if !hs.progBusy then s
  else
    let r := s.progLoad h hs.progNum hs.progSrc
    let s := ((s.setFld F.hallProgStageErrWord h 0 r.2.1).setFld F.hallProgStageResult h 0 r.1).setFld F.hallProgStageBusy h 0 0
    (s.setHall h ({ hs with progBusy := false }.stageProg r)).ring 8 (120 + h)

/-- PROGRAM_STAGE_DONE. -/
def execProgramStageDone (h : Fin 4) (s : State) : Host.Outcome State Fault Refusal := .next (s.progDone h.val)

end Sys2Proof.Machine
end

