-- ==== Sys2Proof/Machine/Sched.lean ====
section
/-! DEFINITION. The scheduler: parameter blocks, token buckets, the choice of the next packet, commits, isochronous instances
and failover sets (spec/08_scheduling.md; spec/06_trunks_and_failover.md R179, R180; spec/02 R61). -/

namespace Sys2Proof.Machine

/-! Parameter blocks (08 R214, R215). -/

/-- Two's complement of a number in `n` bytes. -/
def intBytes (n : Nat) (v : Int) : List Byte := leBytes n (v % (2 ^ (8 * n) : Int)).toNat

/-- Nodes of a level. -/
def levelSize : Nat → Nat
  | 0 => 2048
  | 1 => 1024
  | 2 => 96
  | _ => 12

/-- Does a node ID name a node (08 *Node ID*)? -/
def nodeIdOk (id : Nat) : Bool := decide (id < 65536) && id / 2 ^ 11 % 2 == 0 && decide (nodeIndex id < levelSize (nodeLevel id))

/-- The parameters in a block, and its FLAGS. -/
def blockParam (d : List Byte) : NodeParam :=
  let fl := field d 40 42
  { altParent := field d 58 60, weight := field d 56 58, minRes := field d 52 56, resBytes := field d 48 52,
    interval := if field d 46 48 = 0 then 125 else field d 46 48, parent := field d 44 46, level := field d 43 44,
    policy := field d 42 43, enable := fl % 2 == 1, minEn := fl / 2 % 2 == 1, zero := fl / 4 % 2 == 1,
    fo := fl / 8 % 2 == 1, pbs := field d 36 40, cbs := field d 32 36, pir := field d 28 32, cir := field d 24 28 }

/-- The parameters of a node as they stand with everything staged in its Hall. -/
def State.stagedParam (s : State) (id : Nat) : NodeParam :=
  let all := fun (f : SchedPort → List Staged) => (List.range 12).flatMap (fun k => f (s.port (12 * nodeHall id + k)))
  match (all (·.staged) ++ all (·.ready)).find? (fun b => b.node == id) with
  | some b => b.param
  | none => (s.node id).param

/-- The checks of R215; `parentLevel` is the LEVEL of the parent as it will stand. -/
def paramOk (id : Nat) (flags : Nat) (q : NodeParam) (parentLevel : Nat) : Bool :=
  let lvl := nodeLevel id
  decide (flags < 16) && decide (q.interval ≤ 1000) && decide (q.pbs ≤ 1048576) && decide (q.cbs ≤ 1048576) &&
  decide (q.pir ≤ 400000) && decide (q.cir ≤ 400000) && decide (q.level ≤ 3) && decide (q.policy ≤ 3) &&
  (lvl == 3 || decide (q.parent < levelSize (lvl + 1))) && (lvl != 1 || decide (q.altParent < 96)) &&
  q.weight != 0 && !(q.minEn && q.cir == 0) && !(q.pir != 0 && decide (q.pir < q.cir)) &&
  !(q.level != 0 && lvl != 2) && !(q.resBytes != 0 && lvl != 1) &&
  !(lvl == 1 && parentLevel == 0 && q.resBytes == 0) && !(lvl == 1 && q.resBytes != 0 && parentLevel != 0)

/-- The port a node belongs to now; none for one that no block has described yet (assumption log 188). -/
def State.livePort (s : State) (id : Nat) : Option Nat :=
  if (s.node id).placed then some (nodePort (fun i => (s.node i).param) id) else none

/-- `sched.wr` (08 R215, R221, R228): status and state. -/
def State.schedWr (s : State) (id : Nat) (d : List Byte) : Nat × State :=
  let q := blockParam d
  let par := s.stagedParam (nodeId (nodeHall id) 2 q.parent)
  if !nodeIdOk id || !paramOk id (field d 40 42) q par.level then (4, s)
  else
    let b : Staged := { node := id, param := { q with fo := false } }
    let port := nodePort (fun i => if i = id then q else s.stagedParam i) id
    let sp := s.port port
    if q.fo then
      let l := stagePut sp.fo b
      if 64 < l.length then (5, s) else (0, s.setPort port { sp with fo := l })
    else
      let s := (List.range 12).foldl (fun s k =>
        let p := 12 * nodeHall id + k
        s.setPort p { s.port p with staged := (s.port p).staged.filter (fun x => x.node != id) }) s
      let s := s.setPort port { s.port port with staged := stagePut (s.port port).staged b }
      (0, match s.livePort id with
        | some o => if o = port then s else s.setPort o { s.port o with staged := stagePut (s.port o).staged b }
        | none => s)

/-! Token buckets (08 R216). -/

/-- Is a node a reservation, whose CIR, PIR and MIN_EN are ignored? -/
def SchedNode.reserved (n : SchedNode) : Bool := n.param.resBytes != 0

/-- Does the hub maintain the committed, or the peak bucket? -/
def SchedNode.keepsC (n : SchedNode) : Bool := n.param.minEn && !n.reserved
def SchedNode.keepsP (n : SchedNode) : Bool := n.param.pir != 0 && !n.reserved

/-- A node with its buckets refilled to `now`. -/
def SchedNode.refill (n : SchedNode) (now : Nat) : SchedNode :=
  let dt := now - n.since
  let c := if n.keepsC then tokenGain n.param.cir dt n.remC else (0, n.remC)
  let p := if n.keepsP then tokenGain n.param.pir dt n.remP else (0, n.remP)
  let ct : Int := if n.keepsC then min (n.param.cbs * 1024 : Nat) (n.ctok + c.1) else n.ctok
  let pt : Int := if n.keepsP then min (n.param.pbs * 1024 : Nat) (n.ptok + p.1) else n.ptok
  { n with ctok := ct, ptok := pt, remC := c.2, remP := p.2, since := now, issued := n.issued + c.1 + p.1,
           discarded := n.discarded + (n.ctok + c.1 - ct) + (n.ptok + p.1 - pt) }

/-- A node as it stands now. -/
def State.nodeNow (s : State) (id : Nat) : SchedNode := (s.node id).refill s.tb

/-- A bucket set to a value: additions are issued, what goes is discarded. -/
def bucketSet (n : SchedNode) (old new : Int) : SchedNode :=
  { n with issued := n.issued + max 0 (new - old), discarded := n.discarded + max 0 (old - new) }

/-- The buckets of a node set as its TOKENS_ON_CHANGE chooses (08 R224). -/
def SchedNode.setTokens (n : SchedNode) : SchedNode :=
  let c : Int := if n.keepsC ∧ !n.param.zero then (n.param.cbs * 1024 : Nat) else 0
  let p : Int := if n.keepsP ∧ !n.param.zero then (n.param.pbs * 1024 : Nat) else 0
  { bucketSet (bucketSet n n.ctok c) n.ptok p with ctok := c, ptok := p, remC := 0, remP := 0 }

/-! Choosing the next packet (08 R218 to R220). -/

/-- The trunk that carries a packet from trunk port n: the member that serves its context, for a pair (06 R173). -/
def State.carrier (s : State) (n : Nat) (p : Packet) : Nat × Option Nat :=
  match s.mateOf n with
  | some m => (s.server n m p.context, some p.context)
  | none => (n, none)

/-- KIND of a bridge prefix (10 *Bridge prefix*). -/
def Packet.bridgeKind (p : Packet) : Nat := (p.payload.getD 3 0).toNat / 64

/-- Is a trunk UP (12 TRKn_TD_STATUS for a TD-212 trunk)? -/
def State.carries (s : State) (n : Nat) : Bool :=
  if s.tdOn n then s.fld F.trkTdStatusState n == 3 else s.trkState n == 2

/-- Can a port take a packet now? A trunk port: its carrier is UP and no packet of the VC waits there; a local port serves
one packet at a time; the bridge takes no non-posted request while one of its Hall waits for a tag (10 R263). -/
def State.portTakes (s : State) (port : Nat) (p : Parcel) : Bool :=
  match portTrunk port with
  | some n =>
    let c := (s.carrier n p.pkt).1
    s.carries c && (if s.tdOn c then (s.td c).txQ == [] else ((s.trk c).q (s.foldVc c p.pkt.vc)).all (fun x => x.link))
  | none => port % 12 != 10 &&
    !(port % 12 == 6 && p.pkt.bridgeKind == 1 && s.bridge.any (fun x => x.hall == port / 12 && x.kind == 1))

/-- The packet at the head of a leaf queue, when the port can take it. -/
def State.headFor (s : State) (port q : Nat) : Option Parcel :=
  match unitGet [] s.leafQ q with
  | [] => none
  | id :: _ => match s.parcel id with
    | some p => if s.portTakes port p then some p else none
    | none => none

/-- The strict level of a service at a port: after a failover with no set staged, the level of reservations is best effort,
the lowest (06 R179). -/
def State.levelNow (s : State) (port id : Nat) : Nat :=
  let l := (s.node id).param.level
  if (s.port port).foMissing ∧ l = 0 then 3 else l

/-- A child is eligible (08 R218): a packet below it, its peak bucket not negative, bytes owed to a reservation, unless that is
best effort now (06 R179). A node none of whose children is eligible is not (assumption log 25). With `take`, the port must be
able to take the packet as well. -/
def State.eligible (s : State) (port : Nat) (take : Bool) : Nat → Nat → Bool
  | 0, id => (if take then (s.headFor port (leafOf id)).isSome else unitGet [] s.leafQ (leafOf id) != []) && (!(s.node id).keepsP || decide (0 ≤ (s.nodeNow id).ptok))
  | l + 1, id =>
    (!(s.node id).keepsP || decide (0 ≤ (s.nodeNow id).ptok)) &&
    (!(s.node id).reserved || decide (0 < (s.node id).owed) || (s.port port).foMissing) && (s.childrenOf id).any (State.eligible s port take l)

/-- The next of a list after a node, in ascending order and round again. -/
def nextAfter (l : List Nat) : Option Nat → Nat
  | none => l.headD 0
  | some b => (l.find? (fun x => decide (b < x))).getD (l.headD 0)

/-- A weighted pick among the children `cands` of node n whose packets the port can take (08 R219), within the rounds of strict
level `lvl`; `all` are the eligible children, of which one that the port cannot take now is passed over (assumption log 25). -/
def State.weightedPick (n lvl quantum : Nat) (all cands : List Nat) : Nat → State → Nat × State
  | 0, s => (cands.headD 0, s)
  | fuel + 1, s =>
    let nd := s.node n
    let cur := match unitGet none nd.turn lvl with
      | some c => if cands.contains c ∧ 0 < (s.node c).deficit then some c else none
      | none => none
    match cur with
    | some c => (c, s)
    | none =>
      let left := (unitGet [] nd.round lvl).filter (fun c => all.contains c)
      let round := if left.any (fun c => cands.contains c) then left else all
      match round.find? (fun c => cands.contains c) with
      | none => (cands.headD 0, s)
      | some c =>
        let s := s.setNode n { nd with turn := unitSet none nd.turn lvl (some c), round := unitSet [] nd.round lvl (round.erase c) }
        let ch := s.node c
        State.weightedPick n lvl quantum all cands fuel
          (s.setNode c { ch with deficit := ch.deficit + (ch.param.weight * quantum : Nat) })

/-- Turns that a weighted pick can need: each adds at least 1 to a deficit. -/
def State.pickFuel (s : State) (cands : List Nat) : Nat := (cands.map (fun c => (s.node c).deficit.natAbs + 1)).sum + cands.length + 1

/-- Choose below node n at level l: the path down to a leaf, each node with whether it was a weighted pick. -/
def State.choose (s : State) (port quantum : Nat) : Nat → Nat → List (Nat × Bool) × State
  | 0, _ => ([], s)
  | l + 1, n =>
    let can := (s.childrenOf n).filter (fun c => s.eligible port true l c)
    let low := (can.map (fun c => s.levelNow port c)).foldl min 3
    let level := fun (l' : List Nat) => if l = 2 then l'.filter (fun c => s.levelNow port c == low) else l'
    let cands := level can
    let all := level ((s.childrenOf n).filter (fun c => s.eligible port false l c))
    match cands with
    | [] => ([], s)
    | _ =>
      let g := cands.filter (fun c => (s.node c).keepsC && decide (0 ≤ (s.nodeNow c).ctok))
      let lvl := if l = 2 then low else 0
      let r : Nat × Bool × State := match g with
        | [] =>
          let w := State.weightedPick n lvl quantum all cands (s.pickFuel cands) s
          (w.1, true, w.2)
        | _ =>
          let c := nextAfter g (s.node n).lastG
          (c, false, s.setNode n { s.node n with lastG := some c })
      let d := State.choose r.2.2 port quantum l r.1
      ((r.1, r.2.1) :: d.1, d.2)

/-- The charged length of a packet at a port (08 R217). -/
def State.chargedLen (s : State) (port : Nat) (p : Packet) : Int :=
  (p.size : Int) + signed 8 (s.fld F.spCtrlOverhead port)

/-- Charge one node (08 R217). -/
def State.charge (s : State) (id : Nat) (weighted : Bool) (len : Int) : State :=
  let n := s.nodeNow id
  let n := if n.keepsC then { n with ctok := n.ctok - len * 1024, spent := n.spent + len * 1024 } else n
  let n := if n.keepsP then { n with ptok := n.ptok - len * 1024, spent := n.spent + len * 1024 } else n
  let n := if weighted then { n with deficit := n.deficit - len } else n
  s.setNode id (if nodeLevel id = 1 ∧ n.reserved then { n with owed := n.owed - len } else n)

/-- The packets a port serves now. -/
def State.servingAt (s : State) (port : Nat) : List Parcel :=
  s.parcels.filter (fun p => p.hall == port / 12 && p.spot == .serving && p.queue.any (fun q => s.portOf q == port))

/-- Is a boundary reached at which staged changes have still to be applied? -/
def State.boundaryDue (s : State) (port : Nat) : Bool :=
  let sp := s.port port
  (sp.boundary && sp.commitAt.isSome) || (sp.foAt && sp.foDue)

/-- May the port choose now: its Hall is in RUN, it is free, its own bucket is not negative, no change waits at a boundary,
and, in a LOCKSTEP Hall, an epoch begins (02 R55)? -/
def State.mayChoose (s : State) (port : Nat) : Bool :=
  let id := nodeId (port / 12) 3 (port % 12)
  s.chipRuns && s.hallRuns (port / 12) 4 0 && (s.node id).param.enable && s.portConfigured port &&
  (!(s.node id).keepsP || decide (0 ≤ (s.nodeNow id).ptok)) && !s.boundaryDue port &&
  (!s.lockstep (port / 12) || s.tb % 64 == 0) && ((portTrunk port).isSome || (s.servingAt port).isEmpty)

/-- What a TD-212 shim sends of a packet: the TLP of a PCIE packet of tunnel 0x001 (12 R313); of any other, nothing. -/
def tdPayload (p : Parcel) : Option TdPacket :=
  if p.pkt.type = 1 ∧ p.pkt.tunnelId = 1 then
    some { id := p.id, vc := 0, bytes := (p.pkt.payload.take (p.pkt.len - (if p.pkt.e2e then 4 else 0))).drop 8 }
  else none

/-- Give a chosen packet to its port: to the trunk's link unit, or to the endpoint. A packet of the link tunnel or of the
security tunnel is refused there (06 R160, 15 R382). -/
def State.servePacket (s : State) (port : Nat) (p : Parcel) : State :=
  match portTrunk port with
  | some n =>
    if (p.pkt.tunnelId = 0xFFF ∨ p.pkt.tunnelId = 0xFFE) ∧ p.pkt.type = 0 then s.dropPacket p.id 12
    else if s.tdOn n then
      let t := s.td n
      (s.setTd n { t with txQ := t.txQ ++ (tdPayload p).toList }).putParcel { p with spot := .serving, wholly := true }
    else
      let c := s.carrier n p.pkt
      let pkt := { p.pkt with psn := 0 }
      (s.enqueue c.1 p.pkt.vc [{ bytes := pkt.toBytes, id := p.id, ctx := c.2 }] (fun new old => old ++ new)).putParcel {
        p with spot := .serving, wholly := true }
  | none => s.putParcel { p with spot := .serving }

/-- PORT_SCHEDULE (08 R218): the port chooses its next packet, and every node on its path is charged. -/
def State.portSchedule (s : State) (port : Nat) : State :=
  if !s.mayChoose port then s
  else
    let top := nodeId (port / 12) 3 (port % 12)
    let c := s.choose port (s.fld F.spCtrlQuantum port) 3 top
    match c.1.getLast? with
    | none => s
    | some leaf =>
      let q := leafOf leaf.1
      match c.2.headFor port q with
      | none => s
      | some p =>
        let s := { c.2 with leafQ := unitSet [] c.2.leafQ q ((unitGet [] c.2.leafQ q).drop 1) }
        let len := s.chargedLen port p.pkt
        let s := (c.1 ++ [(top, false)]).foldl (fun s e => s.charge e.1 e.2 len) s
        let s := s.servePacket port p
        let s := c.1.foldl (fun s e => s.settle e.1) s
        let first := c.1.headD (0, false)
        let lvl := s.levelNow port first.1
        let ends := first.2 &&
          !((unitGet [] (s.node top).round lvl).any (fun x => s.eligible port false 2 x)) &&
          (decide ((s.node first.1).deficit ≤ (0 : Int)) || !s.eligible port false 2 first.1)
        let s := c.1.foldl (fun s e => if s.eligible port false (nodeLevel e.1) e.1 then s else s.passTurn e.1) s
        let s := match s.parcel p.id with
          | some p => s.putParcel { p with roundEnd := ends }
          | none => s
        s.setPort port { s.port port with busy := some p.id }

/-- Has a port an eligible child? -/
def State.portActive (s : State) (port : Nat) : Bool :=
  (s.childrenOf (nodeId (port / 12) 3 (port % 12))).any (fun c => s.eligible port false 2 c)

/-- Is a port at rest: nothing being served and nothing to serve, or its trunk not UP (08 R222)? -/
def State.portIdle (s : State) (port : Nat) : Bool :=
  ((s.servingAt port).isEmpty && !s.portActive port) || (match portTrunk port with
    | some n => !s.carries n
    | none => false)

/-! Commits (08 R221 to R224, R226, R227). -/

/-- A failure or the end of every operation of a kind, with one status and RESULT. -/
def State.completeWhere (s : State) (f : OtKind → Bool) (status result : Nat) : State :=
  (List.range 11).foldl (fun s c => (s.wzCore c).ot.foldl (fun s x =>
    if f x.kind && !x.done then s.otComplete c x.thread x.tag status result else s) s) s

/-- `sched.commit` issued for a port: a boundary may be reached at once. -/
def State.commitIssue (s : State) (port : Nat) : State :=
  let sp := s.port port
  let sp := match sp.commitAt with
    | some _ => sp
    | none => { sp with commitAt := some s.tb }
  s.setPort port (if s.portIdle port then sp.reach else sp)

/-- Parameters with the blocks of a list in place. -/
def State.overlay (s : State) (l : List Staged) (id : Nat) : NodeParam :=
  match l.find? (fun b => b.node == id) with
  | some b => b.param
  | none => (s.node id).param

/-- Does a node's subtree hold packets? -/
def State.subtreeBusy (s : State) (id : Nat) : Bool :=
  s.parcels.any (fun p => match p.queue with
    | some q => p.inQueue q && (s.chain q).contains id
    | none => false)

/-- A block moves its node from a port it belongs to now to another. -/
def State.moves (s : State) (l : List Staged) (b : Staged) : Option (Nat × Nat) :=
  match s.livePort b.node with
  | some o =>
    let n := nodePort (s.overlay l) b.node
    if o = n then none else some (o, n)
  | none => none

/-- Put one block in force (08 R224, R225, R226); `fo` is a block of a failover set. -/
def State.applyBlock (s : State) (fo : Bool) (b : Staged) : State :=
  let old := s.nodeNow b.node
  let q := b.param
  let o := old.param
  let fresh := !o.enable && q.enable
  let n := { old with param := q, placed := true }
  let n := if fresh ∨ o.cir ≠ q.cir ∨ o.pir ≠ q.pir ∨ o.cbs ≠ q.cbs ∨ o.pbs ≠ q.pbs
    then n.setTokens else n
  let n := if fresh then { n with deficit := 0 } else n
  let p := q.interval * 1000
  let n :=
    if q.resBytes = 0 then { n with grid := {}, owed := 0 }
    else if !old.grid.on ∨ o.resBytes = 0 ∨ fresh then
      { n with owed := q.resBytes, grid := (Grid.fresh s.tb).start s.tb p (s.fld F.chipCatchupIso) }
    else if fo ∨ o.interval ≠ q.interval then { n with grid := Grid.fresh s.tb }
    else n
  s.setNode b.node n

/-- A port stands at a round boundary with a commit outstanding (08 R222). -/
def State.atBoundary (s : State) (p : Nat) : Bool := (s.port p).commitAt.isSome && (s.port p).boundary

/-- A block that moves its node to another port waits until both ports commit at one boundary (08 R221). -/
def State.waits (s : State) (p : Nat) (b : Staged) : Bool :=
  match s.moves (s.port p).ready b with
  | some (o, n) => !(s.atBoundary o && s.atBoundary n)
  | none => false

/-- The blocks a commit of a port applies together with those of the ports its moves name, and these ports. -/
def State.commitSet (s : State) (port : Nat) : List Nat × List Staged :=
  let ready := fun p => (s.port p).ready.filter (fun b => !s.waits p b)
  let others := ((ready port).filterMap (s.moves (s.port port).ready)).flatMap (fun x => [x.1, x.2])
  let ports := (port :: others).eraseDups
  (ports, (ports.flatMap ready).foldl stagePut [])

/-- Why a commit applies nothing (08 R223): 3 BUSY, 5 FULL; 0 where it applies its blocks. -/
def State.commitStatus (s : State) (port : Nat) : Nat :=
  let cs := s.commitSet port
  if cs.2.any (fun b =>
      ((s.node b.node).param.enable && !b.param.enable || (s.moves cs.2 b).isSome) && s.subtreeBusy b.node) then 3
  else
    let par := s.overlay cs.2
    let ids := (cs.2.map (fun b => b.node) ++ s.nodes.map (fun e => e.1)).eraseDups
    if cs.1.any (fun p =>
      let rate := match portTrunk p with
        | some _ => s.serviceRate p
        | none =>
          let pir := (par (nodeId (p / 12) 3 (p % 12))).pir
          (if pir = 0 then 400000 else pir) * 512
      overLimit (reservedOf ids par p) rate (s.isoShare p)) then 5 else 0

/-- The status with which the commits of a port end at its boundary: BUSY too while a move of the port waits (08 R221). -/
def State.commitEnd (s : State) (port p : Nat) : Nat :=
  if s.commitStatus port ≠ 0 then s.commitStatus port
  else if (s.port p).ready.any (s.waits p) then 3 else 0

/-- Firmware has committed reservations for a trunk's port: those of the pair are best effort no more (06 R179). -/
def State.foKnown (s : State) (p : Nat) : State :=
  let clear := fun (s : State) k => s.setPort k { s.port k with foMissing := false }
  let s := clear s p
  match (portTrunk p).bind s.mateOf with
  | some m => clear s (trunkPort m)
  | none => s

/-- SCHED_COMMIT_APPLY (08 R221 to R223): every block staged at the boundary but a move that waits is applied in one step, or
none is; what is not applied stays staged. -/
def State.commitApply (s : State) (port : Nat) : State :=
  if !s.atBoundary port || (s.lockstep (port / 12) && s.tb % 64 != 0) then s
  else
    let st := s.commitStatus port
    let cs := s.commitSet port
    let ports := if st = 0 then cs.1 else [port]
    let t := if st = 0 then cs.2.foldl (fun s b => s.applyBlock false b) s else s
    ports.foldl (fun t p =>
      let t := if st = 0 then t.foKnown p else t
      let sp := t.port p
      let t := t.setPort p { sp with
        staged := sp.staged.foldl stagePut (if st = 0 then sp.ready.filter (s.waits p) else sp.ready), ready := [],
        commitAt := none, boundary := false }
      t.completeWhere (fun k => match k with
        | .schedCommit q => q == p
        | _ => false) (s.commitEnd port p) (if st = 0 then s.tb % 2 ^ 48 else 0)) t

/-- SCHED_COMMIT_APPLY. -/
def execSchedCommitApply (p : Fin 48) (s : State) : Host.Outcome State Fault Refusal := .next (s.commitApply p.val)

/-- PORT_SCHEDULE (08 R218). -/
def execPortSchedule (p : Fin 48) (s : State) : Host.Outcome State Fault Refusal := .next (s.portSchedule p.val)

/-- FAILOVER_COMMIT_APPLY (06 R179, R180; 08 R228) at the port of survivor n: after a commit of the same boundary. -/
def State.failoverApply (s : State) (n : Nat) : State :=
  let port := n / 6 * 12 + n % 6
  let sp := s.port port
  if !sp.foDue ∨ (sp.commitAt.isSome ∧ sp.boundary) ∨ !(sp.foAt || s.portIdle port) ∨
      (s.lockstep (port / 12) ∧ s.tb % 64 ≠ 0) then s
  else
    let s := sp.fo.foldl (fun s b => s.applyBlock true b) s
    (s.setPort port { s.port port with fo := [], foDue := false, foAt := false }).isoCheck n

def execFailoverCommitApply (n : Fin 24) (s : State) : Host.Outcome State Fault Refusal := .next (s.failoverApply n.val)

/-- SCHED_FO_CLEAR (08 R228). -/
def State.foClear (s : State) (p : Nat) : State := s.setPort p { s.port p with fo := [], foDue := false, foAt := false }

def execSchedFoClear (p : Fin 48) (s : State) : Host.Outcome State Fault Refusal := .next (s.foClear p.val)

/-- ISO_INSTANCE_START (08 R225): a reservation's next instance starts once its time has come and the work before it is
done. -/
def State.isoStart (s : State) (id : Nat) : State :=
  let n := s.node id
  if !s.chipRuns ∨ !n.reserved ∨ !n.param.enable ∨ !n.grid.on ∨ s.tb < n.grid.next ∨ (0 < n.owed ∧ s.hasBelow 1 id) then s
  else
    let g := n.grid.start s.tb (n.param.interval * 1000) (s.fld F.chipCatchupIso)
    let s := s.setNode id { n with grid := g, owed := (n.param.resBytes : Int) + min n.owed 0 }
    if g.rang ∧ !n.grid.rang then
      let port := nodePort (fun i => (s.node i).param) id
      (s.setFld F.spStatusCatchupLag port 0 1).ring 8 2
    else s

def execIsoInstanceStart (h : Fin 4) (sub : Fin 1024) (s : State) : Host.Outcome State Fault Refusal :=
  .next (s.isoStart (nodeId h.val 1 sub.val))

/-! The `sched` instructions. -/

/-- SCHED_WR. -/
def execSchedWr (x : Issue) (ra rb : Fin 32) (tag : Fin 16) (s : State) : Host.Outcome State Fault Refusal :=
  .next (s.wzTbl x ra.val rb.val tag.val 64 false fun s _ v d => s.schedWr v d)

/-- The block `sched.rd` returns (08 *Scheduler parameter block*). -/
def nodeBlock (n : SchedNode) : List Byte :=
  let q := n.param
  intBytes 8 n.ctok ++ intBytes 8 n.ptok ++ intBytes 4 n.deficit ++ intBytes 4 n.owed ++ leBytes 4 q.cir ++ leBytes 4 q.pir ++
    leBytes 4 q.cbs ++ leBytes 4 q.pbs ++
    leBytes 2 ((if q.enable then 1 else 0) + (if q.minEn then 2 else 0) + (if q.zero then 4 else 0) + (if q.fo then 8 else 0)) ++
    leBytes 1 q.policy ++ leBytes 1 q.level ++ leBytes 2 q.parent ++ leBytes 2 q.interval ++ leBytes 4 q.resBytes ++
    leBytes 4 q.minRes ++ leBytes 2 q.weight ++ leBytes 2 q.altParent ++ leBytes 4 (if n.grid.on then n.grid.lag else 0)

/-- SCHED_RD. -/
def execSchedRd (x : Issue) (ra rb : Fin 32) (tag : Fin 16) (s : State) : Host.Outcome State Fault Refusal :=
  .next (s.wzTbl x ra.val rb.val tag.val 64 true fun s a v _ =>
    if nodeIdOk v then (0, s.setLocal x.core.val a (nodeBlock (s.nodeNow v))) else (4, s))

/-- SCHED_COMMIT (08 R222, R223): for the chip-wide port in ra. -/
def execSchedCommit (x : Issue) (ra : Fin 32) (tag : Fin 16) (s : State) : Host.Outcome State Fault Refusal :=
  .next (s.wzIssue x { group := .switch, priv := true, tag := some tag.val, srcs := [ra.val] } noChk fun s =>
    let c := x.core.val
    let t := x.thread.val
    let p := s.wzG x ra.val
    let s := s.setThr c t (s.thr c t).next
    if p < 48 then (s.otAlloc c t tag.val (.schedCommit p)).commitIssue p else s.otAtOnce c t tag.val 4 0)

/-! LOCKSTEP_SWITCH (02 R61): a change of GUARANTEE takes effect at an epoch boundary. -/

/-- Every node of a Hall enters LOCKSTEP: no deficit, buckets as TOKENS_ON_CHANGE directs. -/
def State.lockstepSwitch (s : State) (h : Nat) : State :=
  let want := s.flag F.hallModeGuarantee h
  if s.tb % 64 ≠ 0 ∨ want = s.lockstep h then s
  else if want then
    let s := (s.nodes.filter (fun e => nodeHall e.1 == h)).foldl (fun s e =>
      s.setNode e.1 { (s.nodeNow e.1).setTokens with deficit := 0 }) s
    let s := s.setHall h { s.hall h with lsOffered := [], lsNext := s.epochIndex, lsFreed := [] }
    (s.setFld F.hallModeLsActive h 0 1).setFld F.hallLsOriginEpoch h 0 s.epochIndex
  else (s.setFld F.hallModeLsActive h 0 0).setHall h { s.hall h with lsFreed := [] }

def execLockstepSwitch (h : Fin 4) (s : State) : Host.Outcome State Fault Refusal := .next (s.lockstepSwitch h.val)

end Sys2Proof.Machine
end

