-- ==== Sys2Proof/Machine/Bridge.lean ====
section
/-! DEFINITION. The bridge and the root ports: TLPs between PCIE tunnels, host functions and root ports, completion timeouts,
prefetch, configuration requests and the hot-plug handover (spec/10_host_functions.md R255 to R266; spec/20 R455). -/

namespace Sys2Proof.Machine

/-! Delivery of a host's TLPs (R263). -/

/-- A byte of PF0's BAR0 (10 *PF0 BAR0 layout*). -/
def State.pf0Byte (s : State) (h o : Nat) : Byte :=
  let m := s.mbx h
  if o < 0x100 then unitGet 0 m.cmd o
  else if o < 0x200 then unitGet 0 m.rsp (o - 0x100)
  else if o = 0x208 then BitVec.ofNat 8 ((if m.busy then 1 else 0) + (if m.done then 2 else 0))
  else if o = 0x209 then BitVec.ofNat 8 m.count
  else if o = 0x210 then BitVec.ofNat 8 m.events
  else if 0x1000 ≤ o ∧ o < 0x2000 then
    let k := (o - 0x1000) / 0x200
    let r := (o - 0x1000) % 0x200
    if s.fld F.prtBridgeMode k ≠ 1 ∨ s.fld F.prtBridgeHost k ≠ h then 0
    else
      let w : BitVec 64 :=
        if 0x1F8 ≤ r then s.reg .prtLafCtrl k
        else if r % 0x80 < 8 then s.reg .prtLafAddr k (r / 0x80)
        else if r % 0x80 < 16 then s.reg .prtLafMask k (r / 0x80)
        else if r % 0x80 < 0x50 then s.reg .prtLafData k (r / 0x80 * 8 + (r % 0x80 - 16) / 8) else 0
      BitVec.ofNat 8 (w.toNat / 256 ^ (r % 8))
  else if 0x2000 ≤ o ∧ o < 0x2200 then msixByte m.msix (o - 0x2000)
  else if 0x3000 ≤ o ∧ o < 0x3008 then BitVec.ofNat 8 (m.pba / 256 ^ (o - 0x3000))
  else 0

/-- A byte written to PF0's BAR0. -/
def State.pf0Put (s : State) (h o : Nat) (v : Byte) : State :=
  let m := s.mbx h
  if o < 0x100 then s.setMbx h { m with cmd := unitSet 0 m.cmd o v }
  else if o = 0x200 then (if v.getLsbD 0 then s.mailboxGo h else s)
  else if o = 0x208 then s.setMbx h { m with done := m.done && !v.getLsbD 1 }
  else if o = 0x210 then s.setMbx h { m with events := m.events &&& (15 - v.toNat % 16) }
  else if 0x1000 ≤ o ∧ o < 0x2000 ∧ o % 0x200 = 0x1F8 then
    let k := (o - 0x1000) / 0x200
    if s.fld F.prtBridgeMode k = 1 ∧ s.fld F.prtBridgeHost k = h then s.lafClear k (v.toNat % 16) else s
  else if 0x2000 ≤ o ∧ o < 0x2200 then
    let t := msixPut m.msix (o - 0x2000) v.toNat
    let s := s.setMbx h { m with msix := t }
    let n := (o - 0x2000) / 16
    if (unitGet 0 t (2 * n + 1)).toNat / 2 ^ 32 % 2 = 0 ∧ m.pba.testBit n then s.pf0Vector h n else s
  else s

/-- The endpoint's TLPs go out of the root port. -/
def State.toPort (s : State) (k : Nat) (t : Tlp) : State := s.emit (.rootPort k t)

/-- A host's posted TLP reaches its destination. -/
def State.deliverPosted (s : State) (x : HeldTlp) : State :=
  let t := x.tlp
  if x.prt < 8 then
    if s.passed x.prt x.host then
      let s := if t.op = .memWr then s.pfOverlap x.prt t.addr (4 * t.dws) else s
      (if t.op = .memWr then t.cutWrite (s.prt x.prt).maxPayload else [t]).foldl (fun s t => s.toPort x.prt t) s
    else s.aerLog (aerFn x.host (2 + x.prt)) 0
  else if t.op ≠ .memWr then s
  else if x.fn = 0x3FF then t.stores.foldl (fun s e => s.pf0Put x.host (e.1 % 0x4000) e.2) s
  else
    let st := t.stores
    match st with
    | [] => s
    | e :: _ => s.vfWrite x.fn (e.1 % 0x4000) (st.map (fun x => x.2))

/-- The Hall and source of the bridge's answers to a request: those of the root port, or of the host-function unit. -/
def State.answerFrom (s : State) (host prt : Nat) : Nat × Nat :=
  if prt < 8 then (s.prtHall prt, 24 + prt) else (s.hostHall host, 49)

/-- Answer a held request with data, or with a status. -/
def State.heldData (s : State) (x : HeldTlp) (data : List Byte) : State :=
  let w := s.answerFrom x.host x.prt
  s.answerHost x.host w.1 w.2 x.fn x.prt x.tlp (s.fnRid x.host (s.fnOf x.host x.fn x.prt)) 0 data false
def State.heldRefuse (s : State) (x : HeldTlp) (status : Nat) : State :=
  let w := s.answerFrom x.host x.prt
  s.refuseHost x.host w.1 w.2 x.fn x.prt x.tlp status

/-- Forward a request to root port k in parts, each holding a tag; none when too few tags are free. -/
def State.forward (s : State) (x : HeldTlp) (k : Nat) (t : Tlp) (prefetch : Bool) : Option State :=
  let cut := if t.op = .memRd then t.cut (s.prt k).maxRead else [(t.addr, t.dws, t.be)]
  let free := (List.range 256).filter (fun g => !(s.prtTags k).contains g)
  if free.length < cut.length then none
  else
    let y := s.pickN cut.length free
    let parts := (cut.zip y.1).map (fun (c, g) => ({ tag := g, addr := c.1, dws := c.2.1, be := c.2.2 } : ReqPart))
    let s := parts.foldl (fun s (p : ReqPart) => s.toPort k (t.part p.addr p.dws p.be p.tag)) y.2
    some (s.newReq true k (.host x.host) x.fn x.prt x.tlp parts prefetch)

/-- The aligned PREFETCH block that a host's read makes the bridge read (R266), if it does. -/
def State.prefetchBlock (s : State) (h k : Nat) (t : Tlp) : Option (Nat × Nat) :=
  let p := s.fld F.prtBridgePrefetch k
  let w := 32 * 2 ^ p
  let n := 4 * t.dws
  if p = 0 ∨ t.op ≠ .memRd ∨ w ≤ n then none
  else if t.addr < s.cfgGet h (2 + k) .prefBase ∨ s.cfgGet h (2 + k) .prefLimit + 0xFFFFF < t.addr + n - 1 then none
  else if t.addr / w ≠ (t.addr + n - 1) / w then none
  else some (t.addr / w * w, w)

/-- A host's non-posted request: answered, refused or forwarded; none while it waits for tags. Configuration requests wait
for HOST_CONFIG_REQUEST. -/
def State.deliverNonposted (s : State) (x : HeldTlp) : Option State :=
  let t := x.tlp
  match t.op with
  | .cfgRd _ => none
  | .cfgWr _ => none
  | _ =>
    if x.prt < 8 then
      if !s.passed x.prt x.host then some (s.heldRefuse x cplUr)
      else match s.prefetchBlock x.host x.prt t with
        | none => s.forward x x.prt t false
        | some (a, w) =>
          match s.pfFind x.prt t.addr (4 * t.dws) with
          | some e =>
            let off := t.addr - e.addr
            let e' := { e with unused := e.unused.filter (fun o => decide (o < off ∨ off + 4 * t.dws ≤ o)) }
            let p := s.prt x.prt
            let left := if e'.unused = [] then p.prefetch.filter (fun y => y.slot != e.slot)
              else p.prefetch.map (fun y => if y.slot = e.slot then e' else y)
            let s := s.setPrt x.prt { p with prefetch := left }
            let s := if e'.unused = [] then s.disarm .prefetch x.prt e.slot else s
            let w := s.answerFrom x.host x.prt
            some (s.answerHost x.host w.1 w.2 x.fn x.prt t e.cplId 0 ((e.data.drop off).take (4 * t.dws)) false)
          | none => s.forward x x.prt { t with addr := a, dws := w / 4, be := 0xFF } true
    else if t.op ≠ .memRd then some (s.heldRefuse x cplUr)
    else if x.fn = 0x3FF then
      some (s.heldData x ((List.range (4 * t.dws)).map (fun i => s.pf0Byte x.host ((t.addr + i) % 0x4000))))
    else if s.alcState x.fn = 0 ∨ !s.barOpen x.fn then some (s.heldRefuse x cplUr)
    else
      let o := t.addr % 0x4000
      let data := (List.range (4 * t.dws)).map (fun i => s.vfByte x.fn (o + i))
      let s := if o ≤ 0x400 ∧ 0x400 < o + 4 * t.dws then s.setAlc x.fn { s.alc x.fn with isr := 0 } else s
      some (s.heldData x data)

/-! Completions (R263 to R266). -/

/-- What a TD-212 host reads in the endpoint's PCI Express capability (12 R316): at most 128 bytes of payload, 5 GT/s and x1.
`reg` is the DW of the capability, plus 1. -/
def tdShow (reg : Nat) (data : List Byte) : List Byte :=
  let v := leNat data
  let cap := fun (v sh w top : Nat) => putBits v sh w (min top (v / 2 ^ sh % 2 ^ w))
  if data.length ≠ 4 then data
  else if reg = 2 then leBytes 4 (putBits v 0 3 0)
  else if reg = 4 then leBytes 4 (cap (cap v 0 4 2) 4 6 1)
  else if reg = 5 then leBytes 4 (cap (cap v 16 4 2) 20 6 1)
  else data

/-- A completion of the endpoint, of the bytes from `off` on of a request, goes back to the host as it came, with the request's
Requester ID and tag; one longer than the host's Max_Payload_Size is cut. Of a request that was cut, Byte Count covers what is
left of the whole. -/
def State.cplBack (s : State) (h : Nat) (w : Nat × Nat) (r : BridgeReq) (off : Nat) (c : Tlp) : State :=
  if s.hostMps h < c.data.length then s.answerHost h w.1 w.2 r.fn r.prt r.tlp c.cplId off c.data c.ep
  else
    let left := (4 * r.tlp.dws - r.tlp.trail - (if off = 0 then r.tlp.lead else off)) % 4096
    s.toHost h w.1 w.2 r.fn r.prt { c with
      reqId := r.tlp.reqId, tag := r.tlp.tag, count := if r.parts.length = 1 then c.count else left,
      data := tdShow r.reg c.data }

/-- The completions of one part. -/
def State.cplsBack (s : State) (h : Nat) (w : Nat × Nat) (r : BridgeReq) : Nat → List Tlp → State
  | _, [] => s
  | off, c :: l => State.cplsBack (s.cplBack h w r off c) h w r (off + c.data.length) l

/-- The completions of a forwarded request that are now in order go back to the host. -/
def State.returnParts (s : State) (h : Nat) (w : Nat × Nat) : Nat → BridgeReq → BridgeReq × State
  | 0, r => (r, s)
  | fuel + 1, r =>
    match r.parts[r.sent]? with
    | some p =>
      if !p.done ∨ r.closed then (r, s)
      else
        let s := if r.prefetch then s else s.cplsBack h w r (p.addr - r.tlp.addr) p.cpls
        State.returnParts s h w fuel { r with sent := r.sent + 1 }
    | none => (r, s)

/-- Every part of a prefetch block has come: the host's bytes go back, the rest is held. -/
def State.prefetchDone (s : State) (h : Nat) (w : Nat × Nat) (r : BridgeReq) : State :=
  let base := (r.parts.head?.map (fun p => p.addr)).getD 0
  let data := r.parts.flatMap (fun p => p.got)
  let off := r.tlp.addr - base
  let n := 4 * r.tlp.dws
  let cplId := ((r.parts.flatMap (fun p => p.cpls)).head?.map (fun c => c.cplId)).getD 0
  let s := s.answerHost h w.1 w.2 r.fn r.prt r.tlp cplId 0 ((data.drop off).take n) r.poisoned
  s.pfStore r.unit base cplId data ((List.range n).map (fun i => off + i))

/-- A request is over: what waits on it goes on. -/
def State.reqDone (s : State) (r : BridgeReq) : State :=
  match r.origin with
  | .dma .. => s
  | .dirty a w =>
    if r.closed then (s.reqEnd r).dirtyIssue a else (s.reqEnd r).dirtyBack a w (r.parts.flatMap (fun p => p.got))
  | .restore a m =>
    let s := s.reqEnd r
    if r.closed then (s.setAlc a { s.alc a with restoreFor := none, restoreImg := [] }).respond m 7 0 a []
    else
      let off := r.tlp.addr - (s.mbx m).par 16 24
      let data := r.parts.flatMap (fun p => p.got)
      (s.setAlc a { s.alc a with restoreImg := putBytes (s.alc a).restoreImg off data }).restoreNext a m (off + data.length)
  | _ => s.reqEnd r

/-- A part of a request has been answered, wholly or with an error. -/
def State.partAnswer (s : State) (r : BridgeReq) (i : Nat) (t : Tlp) : State :=
  let st := t.status
  let parts := r.parts.modify i (fun p =>
    let got := p.got ++ t.data
    { p with got := got, cpls := p.cpls ++ [t], done := st != 0 || t.data == [] || decide (4 * p.dws ≤ got.length) })
  let r' := { r with parts := parts, poisoned := r.poisoned || t.ep }
  let whole := parts.all (fun p => p.done)
  match r.origin with
  | .host h =>
    let w := s.answerFrom h r.prt
    let s := s.putReq r'
    let s := if r.toPrt then s.tagsNow r.unit else s
    if st ≠ 0 then
      let s := if r.closed then s
        else (s.toHost h w.1 w.2 r.fn r.prt { t with reqId := r.tlp.reqId, tag := r.tlp.tag }).noteRefusal h st
      let r' := { r' with closed := true }
      if whole then s.reqEnd r' else s.putReq r'
    else
      let y := s.returnParts h w r'.parts.length r'
      let s := if whole ∧ r.prefetch ∧ !r.closed then y.2.prefetchDone h w r' else y.2
      if whole then s.reqEnd y.1 else s.putReq y.1
  | .endpoint k =>
    let s := s.toPort k { t with reqId := r.tlp.reqId, tag := r.tlp.tag }
    if whole then s.reqEnd r' else s.putReq r'
  | _ =>
    let r' := { r' with closed := r.closed || st != 0 }
    let s := s.putReq r'
    if whole then s.reqDone r' else s

/-- A completion that names no open request is logged and discarded (R265). -/
def State.unexpected (s : State) (toPrt : Bool) (unit : Nat) : State :=
  if toPrt then s.prtAer unit 3 else s.aerLog (aerFn unit 10) 3

/-- A completion reaches the bridge from a root port, or from a host. -/
def State.completion (s : State) (toPrt : Bool) (unit : Nat) (t : Tlp) : State :=
  match s.reqs.find? (fun r => r.toPrt == toPrt && r.unit == unit && (toPrt || r.tlp.reqId == t.reqId) &&
      r.parts.any (fun p => p.tag == t.tag && !p.done)) with
  | none => s.unexpected toPrt unit
  | some r => s.partAnswer r (r.parts.findIdx (fun p => p.tag == t.tag && !p.done)) t

/-! Order (R263, R264). -/

/-- Is a number at or before the count of posted TLPs delivered, modulo 2^32? -/
def pseqReached (pseq rx : Nat) : Bool := decide ((rx + 2 ^ 32 - pseq % 2 ^ 32) % 2 ^ 32 < 2 ^ 31)

/-- Deliver what may be delivered of the TLPs held: posted in PSEQ order, the others behind every posted TLP of lower PSEQ. -/
def State.bridgeRun : Nat → State → State
  | 0, s => s
  | fuel + 1, s =>
    let step : HeldTlp → Option State := fun x =>
      let hs := s.hostSt x.host
      let rest : State := { s with bridge := s.bridge.erase x }
      if x.kind = 0 then
        if x.pseq = hs.rxPosted then
          some ((rest.setHostSt x.host { hs with rxPosted := (hs.rxPosted + 1) % 2 ^ 32 }).deliverPosted x)
        else none
      else if !pseqReached x.pseq hs.rxPosted then none
      else if x.kind = 2 then some (rest.completion false x.host x.tlp)
      else rest.deliverNonposted x
    match s.bridge.findSome? step with
    | some s => State.bridgeRun fuel s
    | none => s

/-- Run the bridge; every TLP held is delivered at most once. -/
def State.bridgeGo (s : State) : State := s.bridgeRun s.bridge.length

/-- The packet that the BRIDGE port of a Hall serves and has not handed over. -/
def State.bridgePacket (s : State) (hall : Nat) : Option Parcel :=
  s.parcels.find? (fun p => p.hall == hall && p.spot == .serving && !p.taken && p.queue.any (fun q => s.portOf q == 12 * hall + 6))

/-- The trunk a packet came by; a root port's or another source's packet has no host. -/
def Parcel.trunk (p : Parcel) : Option Nat := if p.src < 24 ∧ !p.loc then some p.src else none

/-- The bridge takes the packet its port serves when the prefix's KIND is `kind`: dropped for a bad end-to-end CRC, for KIND 3,
for a payload that is not the prefix and one TLP of that kind, and when no host's tunnel brought it or it names a root port
that is not on the Hall's lanes (01 R18). -/
def State.bridgeTake (s : State) (hall kind : Nat) : State :=
  match s.bridgePacket hall with
  | none => s
  | some p =>
    let k := p.pkt.bridgeKind
    if k ≠ kind ∧ !(k = 3 ∧ kind = 0) then s
    else if !p.pkt.e2eOk then s.dropPacket p.id 6
    else
      let body := p.pkt.payload.take (p.pkt.len - (if p.pkt.e2e then 4 else 0))
      let pre := leNat (body.take 8)
      match Tlp.ofBytes (body.drop 8) with
      | none => s.dropPacket p.id 2
      | some t =>
        if k = 3 ∨ body.length < 8 ∨ t.kind ≠ k ∨ p.pkt.type ≠ 1 then s.dropPacket p.id 2
        else match p.trunk.bind (fun n => s.hostOf n p.pkt.tunnelId) with
          | none => s.dropPacket p.id 8
          | some h =>
            let prt := pre / 2 ^ 16 % 16
            if prt < 8 ∧ s.prtHall prt ≠ hall then s.dropPacket p.id 8 else
            let x : HeldTlp := { hall := hall, host := h, kind := k, pseq := pre / 2 ^ 32, fn := pre / 2 ^ 20 % 1024,
                                 prt := prt, tlp := t }
            let s := s.putParcel { p with taken := true }
            State.bridgeGo { s with bridge := s.bridge ++ [x] }

/-! Root ports (R260 to R262). -/

/-- ERR_COR, ERR_NONFATAL and ERR_FATAL message codes. -/
def errBit (code : Nat) : Option Nat := if code = 0x30 then some 5 else if code = 0x31 then some 6 else if code = 0x33 then some 7 else none

/-- A TLP that the endpoint behind root port k sends: in PASS mode upstream to its host, unchanged; a SHARED endpoint's error
message is logged. -/
def State.fromPort (s : State) (k : Nat) (t : Tlp) : State :=
  let mode := s.fld F.prtBridgeMode k
  let h := s.fld F.prtBridgeHost k
  let s := s.wakeOn 3
  if !s.prtLive k then s
  else if mode = 1 then
    let s := (if t.op = .memWr then t.cutWrite (s.hostMps h) else [t]).foldl (fun s u => s.prtToHost h k 0x3FF u) s
    if t.kind = 1 then s.newReq false h (.endpoint k) 0x3FF k t [{ tag := t.tag, addr := t.addr, dws := t.dws, be := t.be }] false
    else s
  else if mode = 2 then
    match t.op with
    | .msg code _ => (match errBit code with
      | some b => s.prtAer k b
      | none => s)
    | _ => s
  else s

/-- Is an internal address within external DRAM or the Usher data memories (R261; 01 R29, R32)? -/
def State.sharedTarget (s : State) (a n : Nat) : Bool :=
  decide (0x10_0000_0000 ≤ a ∧ a + n ≤ 0x10_0000_0000 + s.fld F.dramCfgCapacity * 2 ^ 28) ||
  (List.range 8).any (fun u => decide (0x2_0001_0000 + u * 0x10_0000 ≤ a ∧ a + n ≤ 0x2_0000_0000 + u * 0x10_0000 + 0x40000))

/-- The answer to a SHARED endpoint's read. -/
def State.endpointRefuse (s : State) (k : Nat) (t : Tlp) : State :=
  let s := (s.addFld F.prtStatusDecodeErr k 0 1).ring 8 (138 + k)
  if t.kind = 1 then s.toPort k (t.answer cplUr t.addr [] 4 false 0) else s.aerLog (aerPrt k) 0

/-- SHARED_ENDPOINT_REQUEST (R261): a request of the endpoint behind root port k. A request that is no read or write of memory
is one of the others; an AtomicOp is translated, and has no completer inside the hub (assumption log 186). -/
def State.sharedRequest (s : State) (k : Nat) (t : Tlp) : State :=
  let atomic : Bool := match t.op with
    | .atomic _ => true
    | _ => false
  let msg : Bool := match t.op with
    | .msg .. => true
    | _ => false
  if s.fld F.prtBridgeMode k ≠ 2 ∨ !s.prtLive k ∨ t.kind = 2 ∨ msg then s
  else if t.op ≠ .memRd ∧ t.op ≠ .memWr ∧ !atomic then s.endpointRefuse k t
  else if 2 ^ 63 ≤ t.addr then
    let a := t.addr / 2 ^ 52 % 1024
    let addr := t.addr % 2 ^ 52
    if t.addr / 2 ^ 62 % 2 = 1 ∨ a = 1023 ∨ !s.flag F.alcoveCfgXlat a then s.endpointRefuse k t
    else
      let h := s.fld F.alcoveCfgHost a
      let u : Tlp := { t with addr := addr, reqId := s.alcRid a }
      if t.op = .memWr then
        ((u.cutWrite (s.hostMps h)).foldl (fun s t => s.toHost h (s.prtHall k) (24 + k) a 0xF t) s).dirtyMark a addr (4 * t.dws)
      else
        let cut := if atomic then [(u.addr, u.dws, u.be)] else u.cut (s.hostMrrs h)
        let x := s.pickN cut.length (s.freeHostTags h (s.alcRid a))
        let parts := (cut.zip x.1).map (fun (c, g) => ({ tag := g, addr := c.1, dws := c.2.1, be := c.2.2 } : ReqPart))
        let s := parts.foldl (fun s (p : ReqPart) =>
          s.toHost h (s.prtHall k) (24 + k) a 0xF (u.part p.addr p.dws p.be p.tag)) x.2
        (s.newReq false h (.endpoint k) a 0xF { t with reqId := s.alcRid a } parts false).addFld F.alcoveInflightHw a 0 1
  else if t.addr / 2 ^ 48 ≠ 0 ∨ atomic ∨ !s.sharedTarget t.addr (4 * t.dws) then s.endpointRefuse k t
  else if t.op = .memWr then t.stores.foldl (fun s e => (s.unpoison e.1 1).setByte e.1 e.2) s
  else (t.cplList 4096 0 false (4 * t.dws) 0 (s.bytes t.addr (4 * t.dws))).foldl (fun s c => s.toPort k c) s

/-- Every request held or open for an owner of root port k completes with Unsupported Request (R262 step 2); a posted one held
keeps its place in the order, and is discarded when it comes to its turn. -/
def State.releaseOwner (s : State) (k h : Nat) : State :=
  let s := (s.bridge.filter (fun x => x.host == h && x.prt == k && x.kind == 1)).foldl (fun s x =>
    State.heldRefuse { s with bridge := s.bridge.erase x } x cplUr) s
  (s.reqs.filter (fun r => (r.toPrt && r.unit == k && r.origin == .host h && !r.closed))).foldl (fun s r =>
    let w := s.answerFrom h r.prt
    (s.refuseHost h w.1 w.2 r.fn r.prt r.tlp cplUr).reqEnd r) s

/-- A write of PRTk_BRIDGE (R260, R262, R277): MODE and HOST that change the owner start the handover; other fields but PERST
are applied only while MODE is OFF. -/
def State.prtBridgeWrite (s : State) (k : Nat) (value mask : BitVec 64) : State :=
  let old := s.reg .prtBridge k
  let new := regWrite .prtBridge mask value old
  let om := fldGet F.prtBridgeMode old
  let oh := fldGet F.prtBridgeHost old
  let nm := fldGet F.prtBridgeMode new
  let nh := fldGet F.prtBridgeHost new
  let perst := fldGet F.prtBridgePerst new
  if om = 0 then
    let s := s.setReg .prtBridge k 0 new
    if nm = 1 ∧ s.flag F.prtStatusLinkUp k then s.slotShow k nh true else s
  else if (om = 1 ∨ nm = 1) ∧ (om ≠ nm ∨ oh ≠ nh) then
    let s := if om = 1 then (s.slotShow k oh false).releaseOwner k oh else s
    let s := s.setReg .prtBridge k 0 (fldPut F.prtBridgePerst perst (fldPut F.prtBridgeHost nh (fldPut F.prtBridgeMode nm old)))
    let s := s.setPrt k { s.prt k with handover := some (s.tb + us 100), prefetch := [] }
    let s := (List.range 8).foldl (fun s i => s.disarm .prefetch k i) s
    s.arm .prtPerst k 0 (us 100 + ms 1)
  else if om = 2 ∧ nm = 0 then s.setReg .prtBridge k 0 (fldPut F.prtBridgePerst perst (fldPut F.prtBridgeMode 0 old))
  else s.setReg .prtBridge k 0 (fldPut F.prtBridgePerst perst old)

/-- Does the hub drive PERSTk_N low? -/
def State.perstLow (s : State) (k : Nat) : Bool :=
  s.flag F.prtBridgePerst k || (match (s.prt k).handover with
    | some t => decide (t ≤ s.tb)
    | none => false)

/-- A root port's link comes up or goes down; the owner's slot follows (R262; 16 R388). -/
def State.prtLink (s : State) (k : Nat) (up : Bool) : State :=
  let s := (s.setFld F.prtStatusLinkUp k 0 (if up then 1 else 0)).ring 8 (138 + k)
  let s := if up then s
    else (s.unitLanes 4 k).foldl (fun s l => if s.fld F.laneStatusState l = 2 then s.laneTrain l else s) s
  let h := s.fld F.prtBridgeHost k
  let s := if s.fld F.prtBridgeMode k = 1 then s.slotShow k h up else s
  if s.fld F.prtBridgeMode k = 1 then s.tdNote h (if up then F.wtdStPcieEpUp else F.wtdStPcieEpDown) else s

/-! Configuration requests (R255 to R257; 12 R316). -/

/-- The DW that a configuration request addresses. -/
def Tlp.cfgDw (t : Tlp) : Nat := t.addr % 4096 / 4

/-- A configuration write through the hub to the endpoint behind root port k: the hub takes Max_Payload_Size and
Max_Read_Request_Size from Device Control, the third DW of the capability at `cap` (R260). -/
def State.epControl (s : State) (k : Nat) (cap : Option Nat) (t : Tlp) : State :=
  let v := leNat t.data
  let p := s.prt k
  match t.op with
  | .cfgWr 0 =>
    if some t.cfgDw ≠ cap.map (· + 2) then s
    else s.setPrt k { p with
      maxPayload := if t.be.testBit 0 then 128 * 2 ^ min 2 (v / 32 % 8) else p.maxPayload,
      maxRead := if t.be.testBit 1 then min 512 (128 * 2 ^ (v / 4096 % 8)) else p.maxRead }
  | _ => s

/-- A configuration request for a bus behind a slot goes to the root port as a Type 0 or Type 1 request. A TD-212 host's larger
Max_Payload_Size is stored as 128 bytes (12 R316). None while it waits for a tag. -/
def State.cfgForward (s : State) (x : HeldTlp) (k type : Nat) (cap : Option Nat) : Option State :=
  let td := !s.flag F.hostCfgEn x.host
  let control := td && some x.tlp.cfgDw == cap.map (· + 2) && type == 0
  let write := x.tlp.data != []
  let t : Tlp := { x.tlp with
    op := if write then .cfgWr type else .cfgRd type,
    data := if control && write then leBytes 4 (putBits (leNat x.tlp.data) 5 3 0) else x.tlp.data }
  let id := s.nextReq
  let reg := match cap with
    | some c => if td && type == 0 && !write && decide (c ≤ t.cfgDw) then t.cfgDw - c + 1 else 0
    | none => 0
  (s.forward { x with prt := k } k t false).map (fun s =>
    State.epControl { s with reqs := s.reqs.map (fun r => if r.id = id then { r with reg := reg } else r) } k cap t)

/-- HOST_CONFIG_REQUEST (R255, R257): the oldest configuration request of host h that its order lets through is answered from
the image of the function it names, or goes to the root port; `cap` is the DW of its configuration space at which the function
behind the slot has its PCI Express capability, if it has one. -/
def State.hostConfig (s : State) (h : Nat) (cap : Option Nat) : State :=
  let isCfg := fun (x : HeldTlp) => match x.tlp.op with
    | .cfgRd _ => true
    | .cfgWr _ => true
    | _ => false
  match s.bridge.find? (fun x => x.host == h && isCfg x && pseqReached x.pseq (s.hostSt h).rxPosted) with
  | none => s
  | some x =>
    let s0 : State := { s with bridge := s.bridge.erase x }
    let w := s.answerFrom h x.prt
    let type := match x.tlp.op with
      | .cfgRd k => k
      | .cfgWr k => k
      | _ => 0
    match s.cfgTarget h type x.tlp with
    | none => s0.heldRefuse x cplUr
    | some (.behind k t) =>
      if s.passed k h then (s0.cfgForward x k t cap).getD s else s0.heldRefuse x cplUr
    | some fn =>
      let id := s.fnRid h fn.num
      if x.tlp.data = [] then
        s0.toHost h w.1 w.2 x.fn x.prt (x.tlp.answer 0 0 (leBytes 4 (s.cfgRead h fn x.tlp.cfgDw)) 4 false id)
      else
        (s0.cfgWrite h fn x.tlp.cfgDw (leNat x.tlp.data) x.tlp.be).toHost h w.1 w.2 x.fn x.prt (x.tlp.answer 0 0 [] 4 false id)

/-! The endpoint of a SHARED root port, driven by Usher firmware (R260). -/

/-- A TLP of the firmware (assumption log 196): posted ones and completions go out as they are; a request holds a tag, and
waits for none. -/
def State.usherTlp (s : State) (k cap : Nat) (t : Tlp) : State :=
  if s.fld F.prtBridgeMode k ≠ 2 ∨ !s.prtLive k then s
  else if t.kind ≠ 1 then
    (if t.op = .memWr then t.cutWrite (s.prt k).maxPayload else [t]).foldl (fun s t => s.toPort k t) s
  else
    let cut := if t.op = .memRd then t.cut (s.prt k).maxRead else [(t.addr, t.dws, t.be)]
    let free := (List.range 256).filter (fun g => !(s.prtTags k).contains g)
    if free.length < cut.length then s
    else
      let y := s.pickN cut.length free
      let parts := (cut.zip y.1).map (fun (c, g) => ({ tag := g, addr := c.1, dws := c.2.1, be := c.2.2 } : ReqPart))
      let s := parts.foldl (fun s (p : ReqPart) => s.toPort k (t.part p.addr p.dws p.be p.tag)) y.2
      (s.newReq true k .usher 0x3FF k t parts false).epControl k (some cap) t

/-! Commands. -/

/-- HOST_CONFIG_REQUEST. -/
def execHostConfigRequest (host : Fin 6) (express : Bool) (cap : Fin 1024) (s : State) : Host.Outcome State Fault Refusal :=
  .next (s.hostConfig host.val (if express then some cap.val else none))

/-- BRIDGE_POSTED (R263, R264): from the tunnel in PSEQ order, from an endpoint on the posted path to its host, from Usher
firmware to a SHARED endpoint. -/
def execBridgePosted (src : BridgeFrom) (s : State) : Host.Outcome State Fault Refusal :=
  match src with
  | .tunnel hall => .next (s.bridgeTake hall.val 0)
  | .port k t => if t.kind = 0 then .next (s.fromPort k.val t) else .next s
  | .usher k cap t => if t.kind = 0 then .next (s.usherTlp k.val cap.val t) else .next s

/-- BRIDGE_NONPOSTED (R263, R266). -/
def execBridgeNonposted (src : BridgeFrom) (s : State) : Host.Outcome State Fault Refusal :=
  match src with
  | .tunnel hall => .next (s.bridgeTake hall.val 1)
  | .port k t => if t.kind = 1 ∧ s.fld F.prtBridgeMode k.val = 1 then .next (s.fromPort k.val t) else .next s
  | .usher k cap t => if t.kind = 1 then .next (s.usherTlp k.val cap.val t) else .next s

/-- BRIDGE_COMPLETION (R263, R265): tags that come free let waiting requests go. -/
def execBridgeCompletion (src : BridgeFrom) (s : State) : Host.Outcome State Fault Refusal :=
  match src with
  | .tunnel hall => .next (s.bridgeTake hall.val 2)
  | .port k t => if t.kind = 2 ∧ s.flag F.prtStatusLinkUp k.val then .next ((s.wakeOn 3).completion true k.val t).bridgeGo else .next s
  | .usher k cap t => if t.kind = 2 then .next (s.usherTlp k.val cap.val t) else .next s

/-- BRIDGE_COMPLETION_TIMEOUT (R265): the open parts of request `id` complete with Completer Abort, and its tags are free. -/
def execBridgeCompletionTimeout (id : Nat) (s : State) : Host.Outcome State Fault Refusal :=
  match s.req id with
  | none => .next s
  | some r =>
    if !s.due .bridgeCto id then .next s
    else
      let s := if r.toPrt then s.prtAer r.unit 2
        else s.aerLog (aerFn r.unit (if r.prt < 8 then 2 + r.prt else 10)) 2
      let s := match r.origin with
        | .host h => s.tdNote h F.wtdStPcieCto
        | _ => s
      let done := r.parts.map (fun p => { p with done := true })
      match r.origin with
      | .host h =>
        let w := s.answerFrom h r.prt
        let s := if r.closed then s else s.refuseHost h w.1 w.2 r.fn r.prt r.tlp cplCa
        .next (s.reqEnd r).bridgeGo
      | .usher => .next (s.reqEnd r).bridgeGo
      | .endpoint k => .next ((s.toPort k (r.tlp.answer cplCa r.tlp.addr [] 4 false 0)).reqEnd r)
      | _ =>
        let r := { r with parts := done, closed := true }
        .next (((s.putReq r).disarm .bridgeCto id 0).reqDone r)

/-- PREFETCH_EXPIRE (R266). -/
def execPrefetchExpire (prt entry : Fin 8) (s : State) : Host.Outcome State Fault Refusal :=
  if !s.due .prefetch prt.val entry.val then .next s
  else match (s.prt prt.val).prefetch.find? (fun e => e.slot == entry.val) with
    | some e => .next (s.pfDiscard prt.val e)
    | none => .next s

/-- LAF_CLEAR (R266). -/
def execLafClear (prt : Fin 8) (mask : BitVec 4) (s : State) : Host.Outcome State Fault Refusal :=
  .next (s.lafClear prt.val mask.toNat)

/-- SHARED_ENDPOINT_REQUEST (R261). -/
def execSharedEndpointRequest (prt : Fin 8) (tlp : Tlp) (s : State) : Host.Outcome State Fault Refusal :=
  .next ((s.wakeOn 3).sharedRequest prt.val tlp)

/-- PRT_OWNER_CHANGE (R262): a write of PRTk_BRIDGE. -/
def execPrtOwnerChange (prt : Fin 8) (value : BitVec 64) (s : State) : Host.Outcome State Fault Refusal :=
  .next (s.prtBridgeWrite prt.val value (BitVec.allOnes 64))

/-- PRT_PERST_RELEASE (R262 step 4): after 1 ms of PERSTk_N low; the link retrains. -/
def execPrtPerstRelease (prt : Fin 8) (s : State) : Host.Outcome State Fault Refusal :=
  if s.due .prtPerst prt.val then
    .next (((s.setPrt prt.val { s.prt prt.val with handover := none }).disarm .prtPerst prt.val 0).setFld F.prtStatusLinkUp prt.val 0 0)
  else .next s

/-- PRT_LINK_UP (R262 step 5). -/
def execPrtLinkUp (prt : Fin 8) (s : State) : Host.Outcome State Fault Refusal :=
  if s.perstLow prt.val ∨ (s.prt prt.val).handover ≠ none ∨ s.fld F.prtBridgeMode prt.val = 0 ∨
      s.flag F.prtStatusLinkUp prt.val then .next s
  else .next (s.prtLink prt.val true)

/-- PRT_LINK_DOWN (16 R388). -/
def execPrtLinkDown (prt : Fin 8) (s : State) : Host.Outcome State Fault Refusal :=
  if s.flag F.prtStatusLinkUp prt.val then .next (s.prtLink prt.val false) else .next s

/-- PEWAKE_ASSERT (20 R455). -/
def execPewakeAssert (prt : Fin 8) (s : State) : Host.Outcome State Fault Refusal :=
  if s.flag F.prtStatusLinkUp prt.val then .next s else .next (s.ring 8 (138 + prt.val))

end Sys2Proof.Machine
end

