-- ==== Sys2Proof/Machine/Heads.lean ====
section
/-! DEFINITION. Display heads: link, AUX and HPD, raster timing, frame grids, layers, commits and underrun
(spec/11_canvas_display.md R278 to R293). -/

namespace Sys2Proof.Machine

def State.head (s : State) (n : Nat) : Head := unitGet {} s.heads n
def State.setHead (s : State) (n : Nat) (v : Head) : State := { s with heads := unitSet {} s.heads n v }

/-- Bell 8 source of a head. -/
def State.headBell (s : State) (n : Nat) : State := s.ring 8 (124 + n)

/-! Sets of shadowed registers (R290). -/

/-- The shadows of head n. -/
def State.shadowSet (s : State) (n : Nat) : HeadSet :=
  { ctrl := s.reg .dhCtrl n, h := s.reg .dhH n, v := s.reg .dhV n, clk := s.reg .dhClk n, sync := s.reg .dhSync n,
    pass := s.reg .dhPass n,
    layers := (List.range 8).map (fun l => (s.reg .dhLSrc n l, s.reg .dhLSize n l, s.reg .dhLDst n l, s.reg .dhLBlend n l)) }

/-- The live set of head n. -/
def State.liveSet (s : State) (n : Nat) : HeadSet :=
  { ctrl := s.reg .dhCtrlLive n, h := s.reg .dhHLive n, v := s.reg .dhVLive n, clk := s.reg .dhClkLive n,
    sync := s.reg .dhSyncLive n, pass := s.reg .dhPassLive n,
    layers := (List.range 8).map (fun l =>
      (s.reg .dhLSrcLive n l, s.reg .dhLSizeLive n l, s.reg .dhLDstLive n l, s.reg .dhLBlendLive n l)) }

/-- A set becomes live. -/
def State.putLive (s : State) (n : Nat) (x : HeadSet) : State :=
  let s := (((((s.setReg .dhCtrlLive n 0 x.ctrl).setReg .dhHLive n 0 x.h).setReg .dhVLive n 0 x.v).setReg .dhClkLive n 0 x.clk).setReg
    .dhSyncLive n 0 x.sync).setReg .dhPassLive n 0 x.pass
  (List.range 8).foldl (fun s l =>
    match x.layers[l]? with
    | some (a, b, c, d) =>
      (((s.setReg .dhLSrcLive n l a).setReg .dhLSizeLive n l b).setReg .dhLDstLive n l c).setReg .dhLBlendLive n l d
    | none => s) s

def HeadSet.mode (x : HeadSet) : Nat := fldGet F.dhCtrlMode x.ctrl
def HeadSet.source (x : HeadSet) : Nat := fldGet F.dhSyncSource x.sync
def HeadSet.hactive (x : HeadSet) : Nat := fldGet F.dhHHactive x.h
def HeadSet.htotal (x : HeadSet) : Nat := fldGet F.dhHHtotal x.h
def HeadSet.vactive (x : HeadSet) : Nat := fldGet F.dhVVactive x.v
def HeadSet.vtotal (x : HeadSet) : Nat := fldGet F.dhVVtotal x.v
def HeadSet.khz (x : HeadSet) : Nat := fldGet F.dhClkPixelKhz x.clk

/-! Timing (R279, R280, R284). -/

/-- Bits per component, lanes, and the lane rate in Mb/s, of a link's codes. -/
def bpcOf (c : Nat) : Nat := if c = 0 then 6 else if c = 2 then 10 else 8
def lanesOf (c : Nat) : Nat := if c = 0 then 1 else if c = 1 then 2 else 4
def rateOf (c : Nat) : Nat := if c = 0 then 1620 else if c = 1 then 2700 else if c = 2 then 5400 else 8100

/-- R280: PIXEL_KHZ × 1,000 × 3 × BPC ≤ LANES × rate × 0.8 × 0.99, the pixel clock in its range. -/
def clockFits (khz bpc lanes mbps : Nat) : Bool :=
  decide (25000 ≤ khz ∧ khz ≤ 1100000) && decide (khz * 3 * bpc * 10 ≤ lanes * mbps * 7920)

/-- R280 on the link of head n. -/
def State.linkFits (s : State) (n khz : Nat) : Bool :=
  clockFits khz (bpcOf (s.fld F.dhLinkBpc n)) (lanesOf (s.fld F.dhLinkLanes n)) (rateOf (s.fld F.dhLinkRate n))

/-- R284, with the ranges of the timing registers' fields. -/
def State.timingOk (s : State) (n : Nat) (h v clk : BitVec 64) : Bool :=
  let ha := fldGet F.dhHHactive h
  let hf := fldGet F.dhHHfront h
  let hs := fldGet F.dhHHsync h
  let va := fldGet F.dhVVactive v
  let vf := fldGet F.dhVVfront v
  let vs := fldGet F.dhVVsync v
  decide (320 ≤ ha ∧ ha ≤ 8192 ∧ 1 ≤ hf ∧ hf ≤ 4095 ∧ 1 ≤ hs ∧ hs ≤ 1023) &&
  decide (200 ≤ va ∧ va ≤ 8192 ∧ 1 ≤ vf ∧ vf ≤ 4095 ∧ 1 ≤ vs ∧ vs ≤ 63) &&
  decide (ha + hf + hs + 16 ≤ fldGet F.dhHHtotal h) && decide (va + vf + vs + 2 ≤ fldGet F.dhVVtotal v) &&
  s.linkFits n (fldGet F.dhClkPixelKhz clk)

/-- The time of `k` lines in ns, rounded down (assumption log 50). -/
def HeadSet.lines (x : HeadSet) (k : Nat) : Nat := if x.khz = 0 then 0 else k * x.htotal * 1000000 / x.khz

/-- The frame period P. -/
def HeadSet.period (x : HeadSet) : Nat := x.lines x.vtotal

/-- The line the head is in (DHn_STATUS.LINE). -/
def State.lineNow (s : State) (n : Nat) : Nat :=
  let x := s.liveSet n
  if x.htotal = 0 ∨ x.mode = 0 ∨ !(s.head n).running then 0 else (s.tb - (s.head n).frameStart) * x.khz / (x.htotal * 1000000)

/-! Fetch (R289). -/

/-- The fetch of a set in pixels per second, as a fraction. -/
def HeadSet.fetch (x : HeadSet) : Nat × Nat :=
  if x.mode = 0 ∨ x.htotal * x.vtotal = 0 then (0, 1)
  else
    let px := (x.layers.map (fun l =>
      if fldGet F.dhLSrcEn l.1 = 1 then (fldGet F.dhLSizeW l.2.1 + 1) * (fldGet F.dhLSizeH l.2.1 + 1) else 0)).sum
    (px * x.khz * 1000, x.htotal * x.vtotal)

/-- The fetch in use: live and armed sets of every head. -/
def State.fetchSum (s : State) : Nat × Nat :=
  (List.range 6).foldl (fun a n =>
    let f := (s.liveSet n).fetch
    let a := fracAdd a f.1 f.2
    match (s.head n).armed with
    | some x => fracAdd a x.fetch.1 x.fetch.2
    | none => a) (0, 1)

/-! Surfaces (R292, R294, R295). -/

/-- Bytes per pixel of a format. -/
def formatBytes (f : Nat) : Nat := if f = 0 then 2 else if f = 1 then 3 else 4

/-- Does a set name a surface in an enabled layer? -/
def HeadSet.names (x : HeadSet) (k : Nat) : Bool :=
  x.mode != 0 && x.layers.any (fun l => fldGet F.dhLSrcEn l.1 == 1 && fldGet F.dhLSrcSurface l.1 == k)

/-- The reference count of a surface. -/
def State.refsOf (s : State) (k : Nat) : Nat :=
  ((List.range 6).map (fun n =>
    (if (s.liveSet n).names k then 1 else 0) + (match (s.head n).armed with
      | some x => if x.names k then 1 else 0
      | none => 0))).sum

/-- A surface is freed: its pages and number are free, its client's charge goes, and held operations on its pages are done. -/
def State.surfFree (s : State) (k : Nat) : State :=
  let c := s.fld F.canvasSurfClient k
  let n := s.fld F.canvasSurfMapPages k
  let pages := unitGet [] s.canvas.pages k
  let done := s.canvas.held.filter (fun p => pages.contains p)
  let s := s.setFld F.canvasClientPagesUsed c 0 (s.fld F.canvasClientPagesUsed c - n)
  let s := (s.setReg .canvasSurf k 0 0).setReg .canvasSurfMap k 0 0
  let held := s.canvas.held.filter (fun p => !pages.contains p)
  let s : State := { s with canvas := {
    s.canvas with
    pages := unitSet [] s.canvas.pages k [], held := held,
    ingests := s.canvas.ingests.filter (fun i => i.surface != k) } }
  if done = [] then s
  else ((s.setFld F.canvasPageOpResult 0 0 0).setFld F.canvasPageOpHeld 0 0 held.length).ring 8 146

/-- Retiring surfaces that no set names are freed (SURFACE_RETIRE). -/
def State.retire (s : State) : State :=
  (s.regs.filter (fun e => e.1.name == .canvasSurf && fldGet F.canvasSurfState e.2 == 2)).foldl (fun s e =>
    if s.refsOf e.1.i = 0 then s.surfFree e.1.i else s) s

/-! Commits (R290, R291). -/

/-- Why an armed set is refused, in the order of R291; 0 when it stands. The set is not counted in `s`. -/
def State.armedError (s : State) (n : Nat) (x : HeadSet) : Nat :=
  let f := x.fetch
  let sum := fracAdd s.fetchSum f.1 f.2
  let on := x.layers.filter (fun l => fldGet F.dhLSrcEn l.1 == 1)
  let k := fun (l : BitVec 64 × BitVec 64 × BitVec 64 × BitVec 64) => fldGet F.dhLSrcSurface l.1
  if !s.timingOk n x.h x.v x.clk then 1
  else if 1100000000 * f.2 < f.1 then 2
  else if 4000000000 * sum.2 < sum.1 then 3
  else if on.any (fun l => s.fld F.canvasSurfState (k l) != 1) then 4
  else if on.any (fun l =>
      decide (s.fld F.canvasSurfW (k l) + 1 < fldGet F.dhLSrcX l.1 + fldGet F.dhLSizeW l.2.1 + 1) ||
      decide (s.fld F.canvasSurfH (k l) + 1 < fldGet F.dhLSrcY l.1 + fldGet F.dhLSizeH l.2.1 + 1)) then 5
  else 0

/-- An armed set is refused (ARMED_SET_REFUSE). -/
def State.refuseSet (s : State) (n code : Nat) : State :=
  ((s.setFld F.dhStatusArmed n 0 0).setFld F.dhStatusCommitErr n 0 code).headBell n

/-- A set replaces the live one: references of the old one go. A head that stays in PASS keeps the timing of its stream (R298). -/
def State.goLive (s : State) (n : Nat) (x : HeadSet) : State :=
  let old := s.liveSet n
  let hd := s.head n
  let keep := if x.mode = 1 ∧ old.mode = 1 then hd.msaLive else none
  let x := match keep with
    | some (h, v, clk) => { x with h := h, v := v, clk := clk }
    | none => x
  let s := (s.putLive n x).setFld F.dhStatusArmed n 0 0
  let timing := old.h != x.h || old.v != x.v || old.clk != x.clk || old.source != x.source
  (s.setHead n { hd with armed := none, msaLive := keep, fresh := hd.fresh || timing }).retire

/-- DH_COMMIT_WINDOW (R290 step 2). In PASS mode the timing is the stream's (R298). -/
def State.commitWindow (s : State) (n : Nat) : State :=
  let x := s.liveSet n
  let hd := s.head n
  if x.mode = 0 ∨ !hd.running ∨ hd.windowDone ∨ s.tb < hd.frameStart + x.lines (x.vactive - 4) then s
  else
    let s := s.setHead n { hd with windowDone := true }
    if !s.flag F.dhCommitCommit n ∨ (s.shadowSet n).mode = 0 then s
    else
      let y := s.shadowSet n
      let s := s.setFld F.dhCommitCommit n 0 0
      let e := s.armedError n y
      if e ≠ 0 then s.refuseSet n e
      else (s.setFld F.dhStatusArmed n 0 1).setHead n { s.head n with armed := some y }

/-- A timing from the stream takes effect, or is refused (R298). -/
def State.takeMsa (s : State) (n : Nat) : State :=
  match (s.head n).msa with
  | none => s
  | some (h, v, clk) =>
    let s := s.setHead n { s.head n with msa := none }
    if s.linkFits n (fldGet F.dhClkPixelKhz clk) then
      (((s.setReg .dhHLive n 0 h).setReg .dhVLive n 0 v).setReg .dhClkLive n 0 clk).setHead n {
        s.head n with
        fresh := true, msaLive := some (h, v, clk) }
    else
      let s := (s.setFld F.dhStatusCommitErr n 0 6).headBell n
      match (List.range 12).find? (fun t => s.flag F.trkCfgEn t && s.isTd t && s.flag F.trkTdCtrlDispEn t &&
          s.fld F.trkTdCtrlHead t == n) with
      | some t => s.tdSet t F.wtdStDispMsaRefused
      | none => s

/-- DH_VBLANK (R290 step 3). -/
def State.vblank (s : State) (n : Nat) : State :=
  let x := s.liveSet n
  let hd := s.head n
  if x.mode = 0 ∨ !hd.running ∨ !hd.windowDone ∨ hd.blanked ∨ s.tb < hd.frameStart + x.lines x.vactive then s
  else
    let s := s.setHead n { hd with blanked := true }
    let s := match hd.armed with
      | some y => s.goLive n y
      | none => s
    if (s.liveSet n).mode = 1 then s.takeMsa n else s

/-- DH_MODE_CHANGE (R291): a committed change of MODE to or from OFF takes effect at once. -/
def State.modeChange (s : State) (n : Nat) : State :=
  let x := s.liveSet n
  let y := s.shadowSet n
  if !s.flag F.dhCommitCommit n ∨ (x.mode = 0) = (y.mode = 0) then s
  else
    let s := s.setFld F.dhCommitCommit n 0 0
    let e := if y.mode = 0 then 0 else s.armedError n y
    if e ≠ 0 then s.refuseSet n e
    else
      let s := s.goLive n y
      if y.mode = 0 then
        (s.setHead n { s.head n with running := false, grid := {}, gridSet := none, msa := none, lines := [] }).retire
      else s.setHead n { s.head n with running := false, fresh := true, frameEnd := s.tb, aborted := false,
                                       grid := {}, gridSet := none }

/-! Sync events and underrun (R285, R286, R293). -/

/-- DH_TE_EDGE (R285, R286): an edge that has held its level for 1 µs; its time is that of its first transition. -/
def State.teEdge (s : State) (n : Nat) : State :=
  let x := s.liveSet n
  if x.mode = 0 ∨ x.source ≠ 1 then s
  else
    let hd := s.head n
    let s := if hd.gridSet.isSome then s.addSat F.dhStatusTeExtra n 0 1 255 else s
    s.setHead n { hd with gridSet := some (s.tb - 1000 + fldGet F.dhSyncTeDelay x.sync) }

/-- DH_UNDERRUN (R293): a pixel of the frame in progress falls due without its data. -/
def State.underrun (s : State) (n : Nat) : State :=
  let x := s.liveSet n
  let hd := s.head n
  if x.mode = 0 ∨ !hd.running ∨ hd.aborted ∨ x.vactive ≤ s.lineNow n then s
  else
    let s := s.setHead n { hd with aborted := true }
    let s := ((s.addFld F.dhUnderrunsCount n 0 1).setFld F.dhStatusUnderrun n 0 1).headBell n
    match (List.range 12).find? (fun t => s.flag F.trkCfgEn t && s.isTd t && s.flag F.trkTdCtrlDispEn t &&
        s.fld F.trkTdCtrlHead t == n) with
    | some t => if x.mode = 1 then s.tdSet t F.wtdStDispUnderrun else s
    | none => s

/-! Composition (R288). -/

/-- Bytes of a pixel in a stream's encoding (R298). -/
def encBytes (enc : Nat) : Nat := if enc = 1 then 4 else 3

/-- A component of `w` bits widened to 10 bits by repeating its high bits. -/
def widen (w v : Nat) : Nat := if w = 5 then v * 32 + v else if w = 6 then v * 16 + v / 4 else if w = 8 then v * 4 + v / 64 else v

/-- R, G, B in 10 bits and alpha as a fraction, of a pixel in a format; none for a format without alpha. -/
def pixelOf (f v : Nat) : (Nat × Nat × Nat) × Option (Nat × Nat) :=
  if f = 0 then ((widen 5 (v / 2048 % 32), widen 6 (v / 32 % 64), widen 5 (v % 32)), none)
  else if f = 4 then ((v / 2 ^ 20 % 1024, v / 2 ^ 10 % 1024, v % 1024), some (v / 2 ^ 30 % 4, 3))
  else ((widen 8 (v / 65536 % 256), widen 8 (v / 256 % 256), widen 8 (v % 256)),
    if f = 3 then some (v / 2 ^ 24 % 256, 255) else none)

/-- One component blended, rounded half up to 10 bits; a PREMULT sum above full scale is held there (assumption log 51). -/
def blend (mode pa src dst : Nat) (a : Option (Nat × Nat)) : Nat :=
  let (an, ad) := match a with
    | some (n, d) => (n * pa, d * 255)
    | none => (pa, 255)
  let (num, den) :=
    if mode = 0 then (src * pa + dst * (255 - pa), 255)
    else if mode = 1 then (src * an + dst * (ad - an), ad)
    else (src * pa * ad + dst * (ad - an) * 255, ad * 255)
  min 1023 ((2 * num + den) / (2 * den))

/-- The address of byte o of a surface (R294). -/
def State.surfAddr (s : State) (k o : Nat) : Nat :=
  s.fld F.canvasPoolBaseBase * 65536 + (unitGet [] s.canvas.pages k).getD (o / 65536) 0 * 65536 + o % 65536

/-- A pixel of a surface, its bytes as a number. -/
def State.surfPixel (s : State) (k x y : Nat) : Nat :=
  let b := formatBytes (s.fld F.canvasSurfFormat k)
  let o := y * (s.fld F.canvasSurfStride k * 256) + x * b
  leNat ((List.range b).map (fun i => s.byte (s.surfAddr k (o + i))))

/-- The composed output of head n at column x and row y, 10 bits a component, before truncation to BPC. -/
def State.composed (s : State) (n x y : Nat) : Nat × Nat × Nat :=
  let set := s.liveSet n
  let bg := fldGet F.dhCtrlBg set.ctrl
  set.layers.foldl (fun dst l =>
    let dx := signed 16 (fldGet F.dhLDstDstX l.2.2.1)
    let dy := signed 16 (fldGet F.dhLDstDstY l.2.2.1)
    let sc := fldGet F.dhLSizeScale l.2.1 + 1
    let ux := (x : Int) - dx
    let uy := (y : Int) - dy
    if fldGet F.dhLSrcEn l.1 = 0 ∨ ux < 0 ∨ uy < 0 ∨ (fldGet F.dhLSizeW l.2.1 + 1) * sc ≤ ux.toNat ∨
        (fldGet F.dhLSizeH l.2.1 + 1) * sc ≤ uy.toNat then dst
    else
      let k := fldGet F.dhLSrcSurface l.1
      let p := pixelOf (s.fld F.canvasSurfFormat k)
        (s.surfPixel k (fldGet F.dhLSrcX l.1 + ux.toNat / sc) (fldGet F.dhLSrcY l.1 + uy.toNat / sc))
      let m := fldGet F.dhLBlendMode l.2.2.2
      let pa := fldGet F.dhLBlendPlaneAlpha l.2.2.2
      (blend m pa p.1.1 dst.1 p.2, blend m pa p.1.2.1 dst.2.1 p.2, blend m pa p.1.2.2 dst.2.2 p.2))
    (bg / 2 ^ 20 % 1024, bg / 2 ^ 10 % 1024, bg % 1024)

/-- The pixel of encoding `enc` at index `i` of a PIXELS packet, components of BPC bits. -/
def streamPixel (enc bpc i : Nat) (d : List Byte) : Nat × Nat × Nat :=
  let cut := fun (v w : Nat) => if bpc ≤ w then v / 2 ^ (w - bpc) else v * 2 ^ (bpc - w)
  if enc = 1 then
    let v := leNat ((d.drop (4 * i)).take 4)
    (cut (v / 2 ^ 20 % 1024) 10, cut (v / 2 ^ 10 % 1024) 10, cut (v % 1024) 10)
  else
    let w := if enc = 2 then 6 else 8
    let c := fun (j : Nat) => cut ((d.getD (3 * i + j) 0).toNat % 2 ^ w) w
    (c 2, c 1, c 0)

/-- What head n's main link carries (a view, assumption log 61) for the active pixel at column x and line y of the frame in
progress, R, G, B in BPC bits: nothing while the head is OFF, its transmitter idle after UNPLUG (R282) or a training pattern
selected (R279); the background of an aborted frame (R293), and background colour 0 in SAFE (18 *Newel operations* step 4);
the composition (R288) or the host's line (R298). None also says that the host's pixel has not come. -/
def State.headPixel (s : State) (n x y : Nat) : Option (Nat × Nat × Nat) :=
  let set := s.liveSet n
  let hd := s.head n
  let bpc := bpcOf (s.fld F.dhLinkBpc n)
  let cut := fun (p : Nat × Nat × Nat) => (p.1 / 2 ^ (10 - bpc), p.2.1 / 2 ^ (10 - bpc), p.2.2 / 2 ^ (10 - bpc))
  let bg := fldGet F.dhCtrlBg set.ctrl
  if set.mode = 0 ∨ !hd.running ∨ hd.idle ∨ s.fld F.dhLinkPattern n ≠ 0 ∨ set.hactive ≤ x ∨ set.vactive ≤ y then none
  else if s.chip.safe.isSome then some (0, 0, 0)
  else if hd.aborted then some (cut (bg / 2 ^ 20 % 1024, bg / 2 ^ 10 % 1024, bg % 1024))
  else if set.mode = 2 then some (cut (s.composed n x y))
  else match hd.lines.find? (fun e => e.1 == y && decide (e.2.1 ≤ x ∧ x < e.2.1 + e.2.2.2.length / encBytes e.2.2.1)) with
    | some (_, x0, enc, d) => some (streamPixel enc bpc (x - x0) d)
    | none => none

/-! AUX and HPD (R281 to R283). -/

/-- DPCD addresses whose writes stay in the hub, and those whose reads it answers. -/
def dpcdKept (a : Nat) : Bool := decide (0x100 ≤ a ∧ a ≤ 0x11F)
def dpcdAnswered (a : Nat) : Bool := dpcdKept a || decide (0x202 ≤ a ∧ a ≤ 0x207)

/-- A kept DPCD byte; link status reports every lane the host configured as trained (assumption log 52). -/
def Head.dpcdByte (hd : Head) (a : Nat) : Byte :=
  let lanes := (unitGet 0 hd.dpcd 0x101).toNat % 32
  let l := fun (i v : Nat) => if i < lanes then v else 0
  if a = 0x202 then BitVec.ofNat 8 (l 0 0x07 + l 1 0x70)
  else if a = 0x203 then BitVec.ofNat 8 (l 2 0x07 + l 3 0x70)
  else if a = 0x204 then 1
  else if dpcdKept a then unitGet 0 hd.dpcd a else 0

/-- The result of an AUX request (2 ACK, 3 NACK, 4 DEFER, 5 TIMEOUT) goes to whoever made it. -/
def State.auxAnswer (s : State) (n : Nat) (from_ : AuxFrom) (result : Nat) (data : List Byte) : State :=
  match from_ with
  | .firmware =>
    let d := leNat ((data ++ List.replicate 16 0).take 16)
    if data = [] then s
    else (s.setReg .dhAuxData n 0 (BitVec.ofNat 64 d)).setReg .dhAuxData n 1 (BitVec.ofNat 64 (d / 2 ^ 64))
  | .host h => s.emit (.auxToHost h.val n result data)
  | .td t =>
    let s := (List.range data.length).foldl (fun s i =>
      let w := s.reg .wtdAuxData t.val (i / 2)
      let b := (data.getD i 0).toNat
      s.setReg .wtdAuxData t.val (i / 2)
        (BitVec.ofNat 64 (if i % 2 = 0 then w.toNat % 256 + b * 256 else w.toNat / 256 * 256 + b))) s
    let s := (s.setFld F.wtdAuxStatusResult t.val 0 result).setFld F.wtdAuxCmdGo t.val 0 0
    s.tdSet t.val F.wtdStAuxDone

/-- A transaction of the AUX controller ends (R281): RESULT, AUX_DONE and Bell 8, whoever asked for it. -/
def State.auxEnd (s : State) (n : Nat) (from_ : AuxFrom) (result : Nat) (data : List Byte) : State :=
  (((s.auxAnswer n from_ result data).setFld F.dhAuxStatusResult n 0 result).setFld F.dhEventsAuxDone n 0 1).headBell n

/-- Start an AUX transaction (R281, R283); the controller runs one at a time, and none while the head is OFF. A proxied
request that the hub answers itself does not reach the controller. -/
def State.auxStart (s : State) (n : Nat) (from_ : AuxFrom) (r : AuxReq) : State :=
  let hd := s.head n
  let native := decide (r.kind < 2)
  let proxied : Bool := match from_ with
    | .firmware => false
    | _ => true
  let owner : Bool := match from_ with
    | .firmware => true
    | .host h => s.fld F.dhPassLiveHost n == h.val && s.fld F.dhCtrlLiveMode n == 1
    | .td _ => true
  if !owner then s.auxAnswer n from_ 3 []
  else if s.fld F.dhCtrlLiveMode n = 0 ∨ hd.aux.isSome then s
  else if proxied ∧ native ∧ r.kind = 0 ∧ dpcdKept r.addr then
    (s.setHead n { hd with dpcd := putBytes hd.dpcd r.addr r.data }).auxAnswer n from_ 2 []
  else if proxied ∧ native ∧ r.kind = 1 ∧ dpcdAnswered r.addr then
    s.auxAnswer n from_ 2 ((List.range r.len).map (fun i => hd.dpcdByte (r.addr + i)))
  else
    let s := s.setHead n { hd with aux := some (from_, r) }
    let s := match from_ with
      | .td t => s.setFld F.wtdAuxStatusResult t.val 0 1
      | _ => s
    ((s.setFld F.dhAuxStatusResult n 0 1).arm .dhAux n 0 (us 400)).emit (.aux n r)

/-- HPD events (R282): 0 IRQ_HPD, 1 UNPLUG, 2 PLUG; forwarded to the owner in PASS mode (R283), and to a TD-212 host. -/
def State.hpdEvent (s : State) (n e : Nat) : State :=
  let f := if e = 0 then F.dhEventsIrqHpd else if e = 1 then F.dhEventsUnplug else F.dhEventsPlug
  let s := (s.setFld f n 0 1).headBell n
  if s.fld F.dhCtrlLiveMode n ≠ 1 then s
  else match (List.range 12).find? (fun t => s.flag F.trkCfgEn t && s.isTd t && s.flag F.trkTdCtrlDispEn t &&
      s.fld F.trkTdCtrlHead t == n) with
    | some t => s.tdSet t (if e = 0 then F.wtdStHpdIrqHpd else if e = 1 then F.wtdStHpdUnplug else F.wtdStHpdPlug)
    | none => s.emit (.hpdToHost (s.fld F.dhPassLiveHost n) n e)

/-- Lanes of unit u under a SPLIT (04 *Lane groupings*). -/
def unitLaneCount (split u : Nat) : Nat :=
  if split = 4 then 4
  else if split = 3 then 2
  else if split = 2 ∧ u = 2 then 2
  else if split = 1 ∧ u = 0 then 2 else 1

/-- A DP_TX unit's lane group and RATE field bound a head's link (R279). -/
def State.headUnit (s : State) (n : Nat) : Option (Nat × Nat) :=
  match s.unitQuad 3 n with
  | none => none
  | some q =>
    let v := s.reg .quadPersonality q
    match (enabledUnits v).find? (fun u => unitNum (unitField v u) == n) with
    | some u => some (unitLaneCount (fldGet F.quadPersonalitySplit v) u, unitRate (unitField v u))
    | none => none

/-- A write of DHn_LINK (R279). -/
def State.linkWrite (s : State) (n : Nat) (value mask : BitVec 64) : State :=
  let new := regWrite .dhLink mask value (s.reg .dhLink n)
  let ok := match s.headUnit n with
    | some (l, r) => decide (lanesOf (fldGet F.dhLinkLanes new) ≤ l) && decide (fldGet F.dhLinkRate new ≤ r)
    | none => true
  if s.fld F.dhCtrlLiveMode n ≠ 0 ∨ fldGet F.dhLinkLanes new = 3 ∨ !ok then s.setFld F.dhStatusCfgErr n 0 1
  else s.setReg .dhLink n 0 new

/-! Commands. -/

/-- DH_LINK_WRITE (R279). -/
def execDhLinkWrite (n : Fin 6) (value : BitVec 64) (s : State) : Host.Outcome State Fault Refusal :=
  .next (s.linkWrite n.val value (BitVec.allOnes 64))

/-- A write of DHn_AUX_CMD; GO starts the transaction with the bytes in DHn_AUX_DATA. -/
def State.auxCmdWrite (s : State) (n : Nat) (value mask : BitVec 64) : State :=
  let s := s.storeReg .dhAuxCmd n 0 value mask
  if wr F.dhAuxCmdGo (value &&& mask) = 1 then
    let kind := s.fld F.dhAuxCmdKind n
    let len := s.fld F.dhAuxCmdLen n + 1
    s.auxStart n .firmware {
      kind := kind, len := len, addr := s.fld F.dhAuxCmdAddr n,
      data := if kind % 2 = 0 then (leBytes 8 (s.reg .dhAuxData n 0).toNat ++ leBytes 8 (s.reg .dhAuxData n 1).toNat).take len else [] }
  else s

/-- Who asks for an AUX transaction: firmware by a write of DHn_AUX_CMD, or a host's request over MGMT. -/
def execDhAuxStart (n : Fin 6) (value : BitVec 64) (host : Option (Fin 6)) (data : List Byte) (s : State) :
    Host.Outcome State Fault Refusal :=
  match host with
  | none => .next (s.auxCmdWrite n.val value (BitVec.allOnes 64))
  | some h =>
    let len := wr F.dhAuxCmdLen value + 1
    .next (s.auxStart n.val (.host h)
      { kind := wr F.dhAuxCmdKind value, len := len, addr := wr F.dhAuxCmdAddr value, data := data.take len })

/-- DH_AUX_REPLY (R281). -/
def execDhAuxReply (n : Fin 6) (reply : AuxReply) (data : List Byte) (s : State) : Host.Outcome State Fault Refusal :=
  match (s.head n.val).aux with
  | none => .next s
  | some (f, r) =>
    let s := (s.setHead n.val { s.head n.val with aux := none }).disarm .dhAux n.val 0
    .next (match reply with
      | .ack => s.auxEnd n.val f 2 (if r.kind % 2 = 1 then data.take r.len else [])
      | .nack => s.auxEnd n.val f 3 []
      | .defer => s.auxEnd n.val f 4 [])

/-- DH_AUX_TIMEOUT (R281). -/
def execDhAuxTimeout (n : Fin 6) (s : State) : Host.Outcome State Fault Refusal :=
  match (s.head n.val).aux with
  | none => .next s
  | some (f, _) =>
    if s.due .dhAux n.val then
      .next (((s.setHead n.val { s.head n.val with aux := none }).disarm .dhAux n.val 0).auxEnd n.val f 5 [])
    else .next s

/-- IRQ_HPD (R282): a low pulse while the sink is present. -/
def execIrqHpd (n : Fin 6) (s : State) : Host.Outcome State Fault Refusal :=
  if s.flag F.dhEventsHpdNow n.val then .next (s.hpdEvent n.val 0) else .next s

/-- UNPLUG (R282): the transmitter enters electrical idle. -/
def execUnplug (n : Fin 6) (s : State) : Host.Outcome State Fault Refusal :=
  if s.flag F.dhEventsHpdNow n.val then
    .next (((s.setFld F.dhEventsHpdNow n.val 0 0).setHead n.val { s.head n.val with idle := true }).hpdEvent n.val 1)
  else .next s

/-- PLUG (R282). -/
def execPlug (n : Fin 6) (s : State) : Host.Outcome State Fault Refusal :=
  if s.flag F.dhEventsHpdNow n.val then .next s
  else .next (((s.setFld F.dhEventsHpdNow n.val 0 1).setHead n.val { s.head n.val with idle := false }).hpdEvent n.val 2)

/-- DH_TE_EDGE. -/
def execDhTeEdge (n : Fin 6) (s : State) : Host.Outcome State Fault Refusal := .next (s.teEdge n.val)

/-- DH_COMMIT_REQUEST (R290 step 1). -/
def execDhCommitRequest (n : Fin 6) (s : State) : Host.Outcome State Fault Refusal := .next (s.setFld F.dhCommitCommit n.val 0 1)

/-- DH_COMMIT_WINDOW. -/
def execDhCommitWindow (n : Fin 6) (s : State) : Host.Outcome State Fault Refusal := .next (s.commitWindow n.val)

/-- DH_VBLANK. -/
def execDhVblank (n : Fin 6) (s : State) : Host.Outcome State Fault Refusal := .next (s.vblank n.val)

/-- DH_MODE_CHANGE. -/
def execDhModeChange (n : Fin 6) (s : State) : Host.Outcome State Fault Refusal := .next (s.modeChange n.val)

/-- DH_UNDERRUN. -/
def execDhUnderrun (n : Fin 6) (s : State) : Host.Outcome State Fault Refusal := .next (s.underrun n.val)

end Sys2Proof.Machine
end

