-- ==== Sys2Proof/Machine/Canvas.lean ====
section
/-! DEFINITION. The Canvas: clients and their commands, surfaces and pages, streams, and the DRAM capacity
(spec/11_canvas_display.md R294 to R299, R470). -/

namespace Sys2Proof.Machine

/-! Packets at the CANVAS and DPX ports. -/

/-- The packet that port k of a Hall serves and that its endpoint has not taken. -/
def State.servedAt (s : State) (hall k : Nat) : Option Parcel :=
  s.parcels.find? (fun p => p.hall == hall && p.spot == .serving && !p.taken && p.queue.any (fun q => s.portOf q == 12 * hall + k))

/-- Does trunk n carry host h: the number it names (06 R159, 12 R301), or the trunk or pair of HOSTh_CFG? -/
def State.carriesHost (s : State) (n h : Nat) : Bool :=
  s.namesHost n == some h || (!s.isTd n && s.flag F.hostCfgEn h &&
    (s.fld F.hostCfgTrk h == n || s.mateOf (s.fld F.hostCfgTrk h) == some n))

/-- The client a CANVAS packet comes from: the one registered for its source trunk and TUNNEL_ID, or the Alcove its SUBSCRIBER
names (R297). -/
def State.clientOf (s : State) (p : Parcel) : Option Nat :=
  (List.range 256).find? (fun c =>
    let key := s.fld F.canvasClientKey c
    s.flag F.canvasClientValid c && (match p.trunk with
      | some n => !s.flag F.canvasClientAlcove c && key % 4096 == p.pkt.tunnelId && decide (key / 4096 < 6) &&
        s.carriesHost n (key / 4096)
      | none => s.flag F.canvasClientAlcove c && key == p.pkt.subscriber))

/-- The host behind a client. -/
def State.clientHost (s : State) (c : Nat) : Nat :=
  if s.flag F.canvasClientAlcove c then s.fld F.alcoveCfgHost (s.fld F.canvasClientKey c % 1024)
  else s.fld F.canvasClientKey c / 4096

/-- A Canvas command as it came: the payload without an end-to-end CRC. -/
structure CanvasCmd where
  hall : Nat
  pkt : Packet
  client : Nat
  op : Nat
  flags : Nat
  surface : Nat
  seq : Nat
  arg : Nat
  data : List Byte
  deriving DecidableEq, Repr

/-- The command in a packet. -/
def canvasCmd (hall client : Nat) (p : Packet) : CanvasCmd :=
  let d := p.payload.take (p.len - (if p.e2e then 4 else 0))
  { hall := hall, pkt := p, client := client, op := field d 0 1, flags := field d 1 2, surface := field d 2 4,
    seq := field d 4 8, arg := field d 8 16, data := d.drop 16 }

/-- A reply on the client's tunnel: OP | 0x80, the status in ARG (R297). It enters the Landing of the Hall whose CANVAS port
brought the command, as a packet of source 48 (assumption log 53). -/
def State.canvasReply (s : State) (hall : Nat) (p : Packet) (op seq surface status : Nat) : State :=
  let body := leBytes 1 (op ||| 0x80) ++ leBytes 1 0 ++ leBytes 2 surface ++ leBytes 4 seq ++ leBytes 8 status
  { s with waiting := s.waiting ++ [{
    hall := hall, src := 48,
    pkt := { type := 3, tunnelId := p.tunnelId, vc := p.vc, flow := p.flow, subscriber := p.subscriber, len := 16, payload := body } }] }

/-- Reply to a command: to every failure, and to success when REPLY is set. -/
def State.cmdReply (s : State) (c : CanvasCmd) (status surface : Nat) : State :=
  if status ≠ 0 ∨ c.flags % 2 = 1 then s.canvasReply c.hall c.pkt c.op c.seq surface status else s

/-- Does the header's shape hold: no reserved flag or surface bit, ARG within `top`, and the data of the length stated? -/
def CanvasCmd.shaped (c : CanvasCmd) (argMask n : Nat) : Bool :=
  decide (c.flags < 2) && decide (c.surface < 4096) && (c.arg &&& argMask == c.arg) && c.data.length == n

/-- The Canvas takes the command that a Hall's CANVAS port serves, when it is one of OP `op`: an unregistered client's packet is
discarded and counted, a malformed or unknown one answered INVALID. -/
def State.canvasTake (s : State) (hall op : Nat) (body : CanvasCmd → State → State) : State :=
  match s.servedAt hall 8 with
  | none => s
  | some p =>
    if !p.pkt.e2eOk then s.dropPacket p.id 6
    else if p.pkt.type = 2 then s
    else if p.pkt.type ≠ 3 then s.dropPacket p.id 2
    else
      let c := canvasCmd hall 0 p.pkt
      let bad := decide (c.op = 0 ∨ 8 < c.op) || decide (p.pkt.len < 16)
      match s.clientOf p with
      | none => (s.putParcel { p with taken := true }).addFld F.canvasUnknownCount 0 0 1
      | some k =>
        let c := { c with client := k }
        if bad then (s.putParcel { p with taken := true }).cmdReply c 1 c.surface
        else if c.op ≠ op then s
        else body c (s.putParcel { p with taken := true })

/-- Is the surface of a command LIVE and its client's? -/
def State.ownSurface (s : State) (c : CanvasCmd) (k : Nat) : Bool :=
  s.fld F.canvasSurfState k == 1 && s.fld F.canvasSurfClient k == c.client

/-! Surfaces (R294, R295). -/

/-- Pages in use. -/
def State.pagesUsed (s : State) : List Nat := s.canvas.pages.flatMap (fun e => e.2)

/-- Free pages of the pool. -/
def State.pagesFree (s : State) : List Nat :=
  let used := s.pagesUsed
  (List.range (min 262144 (s.fld F.canvasPoolPagesPages))).filter (fun p => !used.contains p)

/-- A page's address. -/
def State.pageAddr (s : State) (p : Nat) : Nat := s.fld F.canvasPoolBaseBase * 65536 + p * 65536

/-- Every byte of the data pages of a new surface is a free value: its contents are undefined (11 *Canvas commands*). -/
def State.blankPages (s : State) (pages : List Nat) : State :=
  let at_ := s.free
  let s := (List.range pages.length).foldl (fun (s : State) i =>
    s.writeBytes (s.pageAddr (pages.getD i 0)) ((List.range 65536).map (fun j => (Config.freeValue (at_ + i * 65536 + j)).setWidth 8))) s
  { s with free := at_ + pages.length * 65536 }

/-- CREATE: pages and a number are allocated (which ones is left open), and the map page written. -/
def State.canvasCreate (s : State) (c : CanvasCmd) : State :=
  let w := c.arg % 8192 + 1
  let h := c.arg / 2 ^ 16 % 8192 + 1
  let f := c.arg / 2 ^ 32 % 8
  if !c.shaped (0x1FFF + 0x1FFF * 2 ^ 16 + 7 * 2 ^ 32) 0 ∨ 4 < f then s.cmdReply c 1 c.surface
  else
    let stride := ceilDiv (w * formatBytes f) 256
    let n := ceilDiv (stride * 256 * h) 65536 + 1
    let nums := (List.range 4096).filter (fun k => s.fld F.canvasSurfState k == 0)
    if s.fld F.canvasClientPagesQuota c.client < s.fld F.canvasClientPagesUsed c.client + n then s.cmdReply c 3 c.surface
    else if s.pagesFree.length < n ∨ nums = [] then s.cmdReply c 4 c.surface
    else
      let x := s.pick nums
      let y := x.2.pickN n s.pagesFree
      let k := x.1
      let s := y.2
      let s : State := { s with canvas := { s.canvas with pages := unitSet [] s.canvas.pages k y.1 } }
      let map := y.1.getLastD 0
      let s := s.blankPages (y.1.take (n - 1))
      let s := s.writeBytes (s.pageAddr map) ((y.1.take (n - 1)).flatMap (fun p => leBytes 4 p))
      let s := s.setReg .canvasSurf k 0 0
      let s := (((((s.setFld F.canvasSurfState k 0 1).setFld F.canvasSurfFormat k 0 f).setFld F.canvasSurfClient k 0 c.client).setFld
        F.canvasSurfH k 0 (h - 1)).setFld F.canvasSurfW k 0 (w - 1)).setFld F.canvasSurfStride k 0 stride
      let s := ((s.setReg .canvasSurfMap k 0 0).setFld F.canvasSurfMapPages k 0 n).setFld F.canvasSurfMapMap k 0 map
      let s := s.setFld F.canvasClientPagesUsed c.client 0 (s.fld F.canvasClientPagesUsed c.client + n)
      s.cmdReply c 0 k

/-- FREE: free at once, or RETIRING while a set names the surface; its stream is unbound. -/
def State.canvasFree (s : State) (c : CanvasCmd) : State :=
  if !c.shaped 0 0 then s.cmdReply c 1 c.surface
  else if !s.ownSurface c c.surface then s.cmdReply c 2 c.surface
  else
    let s := { s with canvas := { s.canvas with ingests := s.canvas.ingests.filter (fun i => i.surface != c.surface) } }
    let s := if s.refsOf c.surface = 0 then s.surfFree c.surface else s.setFld F.canvasSurfState c.surface 0 2
    s.cmdReply c 0 c.surface

/-! Drawing (R297). -/

/-- A rectangle in ARG: X, Y, W, H. -/
def CanvasCmd.rect (c : CanvasCmd) : Nat × Nat × Nat × Nat :=
  (c.arg % 8192, c.arg / 2 ^ 16 % 8192, c.arg / 2 ^ 32 % 8192 + 1, c.arg / 2 ^ 48 % 8192 + 1)

/-- The bits of ARG a rectangle uses. -/
def rectMask : Nat := 0x1FFF + 0x1FFF * 2 ^ 16 + 0x1FFF * 2 ^ 32 + 0x1FFF * 2 ^ 48

/-- Does a rectangle lie within a surface? -/
def State.inSurface (s : State) (k x y w h : Nat) : Bool :=
  decide (x + w ≤ s.fld F.canvasSurfW k + 1) && decide (y + h ≤ s.fld F.canvasSurfH k + 1)

/-- Write bytes at a byte offset of a surface. -/
def State.surfWrite (s : State) (k o : Nat) : List Byte → State
  | [] => s
  | b :: t => State.surfWrite (s.setByte (s.surfAddr k o) b) k (o + 1) t

/-- The byte offset of a pixel. -/
def State.pixelOff (s : State) (k x y : Nat) : Nat :=
  y * (s.fld F.canvasSurfStride k * 256) + x * formatBytes (s.fld F.canvasSurfFormat k)

/-- Write rows of `w` pixels, packed. -/
def State.rectWrite (s : State) (k x y w h : Nat) (d : List Byte) : State :=
  let row := w * formatBytes (s.fld F.canvasSurfFormat k)
  (List.range h).foldl (fun s i => s.surfWrite k (s.pixelOff k x (y + i)) ((d.drop (i * row)).take row)) s

/-- Read rows of `w` pixels, packed. -/
def State.rectRead (s : State) (k x y w h : Nat) : List Byte :=
  let row := w * formatBytes (s.fld F.canvasSurfFormat k)
  (List.range h).flatMap (fun i => (List.range row).map (fun j => s.byte (s.surfAddr k (s.pixelOff k x (y + i) + j))))

/-- RECT. -/
def State.canvasRect (s : State) (c : CanvasCmd) : State :=
  let (x, y, w, h) := c.rect
  if !c.shaped rectMask c.data.length then s.cmdReply c 1 c.surface
  else if !s.ownSurface c c.surface then s.cmdReply c 2 c.surface
  else if c.data.length ≠ w * h * formatBytes (s.fld F.canvasSurfFormat c.surface) then s.cmdReply c 1 c.surface
  else if !s.inSurface c.surface x y w h then s.cmdReply c 6 c.surface
  else (s.rectWrite c.surface x y w h c.data).cmdReply c 0 c.surface

/-- FILL. -/
def State.canvasFill (s : State) (c : CanvasCmd) : State :=
  let (x, y, w, h) := c.rect
  if !c.shaped rectMask 4 then s.cmdReply c 1 c.surface
  else if !s.ownSurface c c.surface then s.cmdReply c 2 c.surface
  else if !s.inSurface c.surface x y w h then s.cmdReply c 6 c.surface
  else
    let px := c.data.take (formatBytes (s.fld F.canvasSurfFormat c.surface))
    (s.rectWrite c.surface x y w h ((List.range (w * h)).flatMap (fun _ => px))).cmdReply c 0 c.surface

/-- COPY: as through a temporary. -/
def State.canvasCopy (s : State) (c : CanvasCmd) : State :=
  let (x, y, w, h) := c.rect
  let v := leNat c.data
  let src := v % 4096
  let sx := v / 2 ^ 16 % 8192
  let sy := v / 2 ^ 32 % 8192
  if !c.shaped rectMask 8 ∨ (v &&& (0xFFF + 0x1FFF * 2 ^ 16 + 0x1FFF * 2 ^ 32)) ≠ v then s.cmdReply c 1 c.surface
  else if !s.ownSurface c c.surface ∨ !s.ownSurface c src then s.cmdReply c 2 c.surface
  else if s.fld F.canvasSurfFormat c.surface ≠ s.fld F.canvasSurfFormat src then s.cmdReply c 5 c.surface
  else if !s.inSurface c.surface x y w h ∨ !s.inSurface src sx sy w h then s.cmdReply c 6 c.surface
  else (s.rectWrite c.surface x y w h (s.rectRead src sx sy w h)).cmdReply c 0 c.surface

/-! Streams (R298). -/

/-- Can an encoding be stored in a format? -/
def encFits (enc f : Nat) : Bool :=
  if enc = 1 then f == 4 else (enc == 0 || enc == 2) && (f == 1 || f == 2)

/-- What is known of a stream. -/
def State.stream (s : State) (host tid : Nat) : Stream := unitGet {} s.canvas.streams (host * 4096 + tid)
def State.setStream (s : State) (host tid : Nat) (v : Stream) : State :=
  { s with canvas := { s.canvas with streams := unitSet {} s.canvas.streams (host * 4096 + tid) v } }

/-- INGEST: bind the stream, or with STOP end the binding (assumption logs 64 and 190). -/
def State.canvasIngest (s : State) (c : CanvasCmd) : State :=
  let tid := c.arg % 4096
  let host := s.clientHost c.client
  let st := s.stream host tid
  let f := s.fld F.canvasSurfFormat c.surface
  if !c.shaped 0x10FFF 0 then s.cmdReply c 1 c.surface
  else if !s.ownSurface c c.surface then s.cmdReply c 2 c.surface
  else
    let keep := s.canvas.ingests.filter (fun i => i.surface != c.surface && !(i.host == host && i.tid == tid))
    if c.arg / 65536 % 2 = 1 then
      ({ s with canvas := { s.canvas with ingests := keep } } : State).cmdReply c 0 c.surface
    else if f = 0 ∨ f = 3 ∨ st.enc.any (fun e => !encFits e f) then s.cmdReply c 5 c.surface
    else if st.width ≠ 0 ∧ (st.width ≠ s.fld F.canvasSurfW c.surface + 1 ∨ st.height ≠ s.fld F.canvasSurfH c.surface + 1) then
      s.cmdReply c 6 c.surface
    else
      ({ s with canvas := { s.canvas with ingests := keep ++ [{ surface := c.surface, host := host, tid := tid }] } } : State).cmdReply
        c 0 c.surface

/-- A pixel of an encoding in the bytes of a surface format: 8 bits into 8, 10 into 10 with alpha 3, 6 into 8 with the low bits
repeated (components in the order of the pixel formats; assumption log 54). -/
def convertPixel (enc f : Nat) (d : List Byte) : List Byte :=
  if enc = 1 then leBytes 4 (leNat d % 2 ^ 30 + 3 * 2 ^ 30)
  else
    let px := if enc = 2 then d.map (fun b => BitVec.ofNat 8 (b.toNat % 64 * 4 + b.toNat % 64 / 16)) else d
    px ++ (if f = 2 then [0] else [])

/-- Pixels of a stream cut into single ones and converted. -/
def convertPixels (enc f : Nat) : Nat → List Byte → List Byte
  | 0, _ => []
  | n + 1, d => convertPixel enc f (d.take (encBytes enc)) ++ convertPixels enc f n (d.drop (encBytes enc))

/-- Write a PIXELS packet into the surface its stream is bound to; pixels outside it, or of an encoding that does not fit, are
discarded. -/
def State.ingestPixels (s : State) (k enc x line : Nat) (d : List Byte) : State :=
  let f := s.fld F.canvasSurfFormat k
  let w := s.fld F.canvasSurfW k + 1
  let n := min (d.length / encBytes enc) (w - x)
  if !encFits enc f ∨ s.fld F.canvasSurfH k < line ∨ w ≤ x then s
  else s.surfWrite k (s.pixelOff k x line) (convertPixels enc f n d)

/-- A PASS head takes a packet of its stream. -/
def State.passPacket (s : State) (n kind enc frame x line : Nat) (d : List Byte) : State :=
  let hd := s.head n
  let set := s.liveSet n
  if kind = 0 then
    let m := (BitVec.ofNat 64 (field d 0 8), BitVec.ofNat 64 (field d 8 16), BitVec.ofNat 64 (field d 16 24))
    if m = (set.h, set.v, set.clk) then s.setHead n { hd with msa := none } else s.setHead n { hd with msa := some m }
  else if kind = 1 then
    let first := line = 0 ∧ hd.hostFrame ≠ some frame
    let hd := { hd with
      hostFrame := if line = 0 then some frame else hd.hostFrame,
      lines := ((hd.lines.filter (fun e => decide (line < e.1 + 4 ∧ e.1 < line + 4))) ++ [(line, x, enc, d)]) }
    s.setHead n (if first ∧ set.source = 2 then
      { hd with gridSet := some (s.tb + fldGet F.dhSyncTeDelay set.sync) } else hd)
  else if kind = 3 then s.emit (.sdp n d)
  else s

/-- DPST_PACKET (R298): the DPX port of a Hall hands a packet to the heads whose lanes sit in the Hall, the CANVAS port to the
surfaces its stream is bound to (01 R18). -/
def State.dpst (s : State) (hall k : Nat) : State :=
  match s.servedAt hall k with
  | none => s
  | some p =>
    if k = 8 ∧ p.pkt.type = 3 then s
    else if p.pkt.type ≠ 2 then s.dropPacket p.id 2
    else if !p.pkt.e2eOk then s.dropPacket p.id 6
    else
      let d := p.pkt.payload.take (p.pkt.len - (if p.pkt.e2e then 4 else 0))
      let frame := field d 0 2
      let enc := field d 2 3
      let kind := field d 3 4
      let x := field d 4 6
      let line := field d 6 8
      let body := d.drop 8
      if d.length < 8 ∨ (kind = 0 ∧ body.length ≠ 24) ∨ (kind = 3 ∧ 36 < body.length) then s.dropPacket p.id 2
      else
        let s := s.putParcel { p with taken := true }
        let tid := p.pkt.tunnelId
        ((List.range 6).filter (fun h => p.trunk.any (fun n => s.carriesHost n h))).foldl (fun s h =>
          let st := s.stream h tid
          let s := if kind = 0 then s.setStream h tid { st with
              width := field body 0 2, height := field body 8 10 }
            else if kind = 1 then s.setStream h tid { st with enc := some enc } else s
          let s := ((List.range 6).filter (fun n => k == 9 && (s.unitQuad 3 n).any (fun q => q / 3 == hall) &&
              s.fld F.dhCtrlLiveMode n == 1 && s.fld F.dhPassLiveHost n == h &&
              s.fld F.dhPassLiveTid n == tid)).foldl (fun s n => s.passPacket n kind enc frame x line body) s
          if kind = 1 ∧ k = 8 then
            (s.canvas.ingests.filter (fun i => i.host == h && i.tid == tid)).foldl (fun s i => s.ingestPixels i.surface enc x line body) s
          else s) s

/-! PRESENT and page operations. -/

/-- PRESENT: the surface goes to the head and layer that the reference firmware assigned to the slot, and COMMIT is set; the reply
waits for the first frame that shows it. -/
def State.canvasPresent (s : State) (c : CanvasCmd) (slot : Option (Fin 6 × Fin 8)) : State :=
  if !c.shaped 0xFF 0 then s.cmdReply c 1 c.surface
  else if !s.ownSurface c c.surface then s.cmdReply c 2 c.surface
  else match slot with
    | none => s.cmdReply c 7 c.surface
    | some (n, l) =>
      let s := (s.setFld F.dhLSrcSurface n.val l.val c.surface).setFld F.dhLSrcEn n.val l.val 1
      let s := s.setFld F.dhCommitCommit n.val 0 1
      s.setHead n.val { s.head n.val with
        presents := (s.head n.val).presents ++ [{ layer := l.val, surface := c.surface, hall := c.hall, pkt := c.pkt }] }

/-- The first frame of a set has started: PRESENTs whose surface it shows are answered. -/
def State.presentReplies (s : State) (n : Nat) : State :=
  let set := s.liveSet n
  let shown := fun (p : Present) => match set.layers[p.layer]? with
    | some l => fldGet F.dhLSrcEn l.1 == 1 && fldGet F.dhLSrcSurface l.1 == p.surface
    | none => false
  let done := (s.head n).presents.filter shown
  let s := s.setHead n { s.head n with presents := (s.head n).presents.filter (fun p => !shown p) }
  done.foldl (fun s p => s.cmdReply (canvasCmd p.hall 0 p.pkt) 0 p.surface) s

/-! Frames (R285 to R287). -/

/-- Frame `n` starts at `at_` with a lag behind its grid: its end, its counters, PRESENT replies due. -/
def State.startFrame (s : State) (n at_ : Nat) (g : Grid) (shorten : Nat) : State :=
  let x := s.liveSet n
  let s := s.addFld F.dhStatusFrame n 0 1
  let s := s.setHead n { s.head n with
    running := true, frameStart := at_, frameEnd := at_ + (x.period - shorten), grid := g, gridSet := none, fresh := false,
    windowDone := false, blanked := false, aborted := false }
  s.presentReplies n

/-- The lines of front porch that catching up removes: whole lines, leaving at least VFP_MIN (R287). -/
def HeadSet.shorten (x : HeadSet) (lag pct : Nat) : Nat :=
  let line := x.lines 1
  if line = 0 ∨ lag < line then 0
  else
    let want := min lag (x.period * pct / 100) * x.khz / (x.htotal * 1000000)
    x.lines (min want (fldGet F.dhVVfront x.v - fldGet F.dhSyncVfpMin x.sync))

/-- A TE or STREAM frame, whose grid time is `g`. -/
def State.syncedStart (s : State) (n at_ g : Nat) : State :=
  let x := s.liveSet n
  let lag := if at_ - g < x.lines 1 then 0 else at_ - g
  let rang := decide (4 * x.period < lag)
  let old := (s.head n).grid.rang
  let s := s.startFrame n at_ { on := true, nominal := g, next := g + x.period, lag := lag, rang := rang }
    (x.shorten lag (s.fld F.chipCatchupCanvas))
  if rang ∧ !old then s.ring 8 2 else s

/-- DH_FRAME_START (R285, R287): FREE on its grid, from the first frame of its timing; TE and STREAM at the grid time that was
set, after HOLD_MAX added lines where it lies beyond them (assumption log 191), or late. -/
def State.frameStart (s : State) (n : Nat) : State :=
  let x := s.liveSet n
  let hd := s.head n
  let ended := !hd.running || (decide (hd.frameEnd ≤ s.tb) && hd.blanked)
  if x.mode = 0 ∨ !ended then s
  else if x.source = 0 then
    let at_ := if !hd.running then s.tb else if hd.fresh then hd.frameEnd else hd.grid.next
    if s.tb < at_ then s
    else s.startFrame n at_ { on := true, nominal := at_ + x.period, next := at_ + x.period } 0
  else match hd.gridSet with
    | some g =>
      let at_ := if hd.running then
          max hd.frameEnd (min g (hd.frameEnd + x.lines (fldGet F.dhSyncHoldMax x.sync)))
        else max s.tb g
      if s.tb < at_ then s else s.syncedStart n at_ g
    | none => if hd.running then s else s.syncedStart n s.tb s.tb

/-- TE_MISS (R287): HOLD_MAX lines have been added and no grid time is set. -/
def State.teMiss (s : State) (n : Nat) : State :=
  let x := s.liveSet n
  let hd := s.head n
  let at_ := hd.frameEnd + x.lines (fldGet F.dhSyncHoldMax x.sync)
  if x.mode = 0 ∨ x.source = 0 ∨ !hd.running ∨ !hd.blanked ∨ hd.gridSet.isSome ∨ s.tb < at_ then s
  else
    (s.startFrame n at_ { on := true, nominal := hd.grid.nominal + x.period, next := hd.grid.nominal + 2 * x.period } 0).addSat
      F.dhStatusTeMiss n 0 1 255

/-- CANVAS_PAGE_OP with GO (R296). -/
def State.pageOp (s : State) (value mask : BitVec 64) : State :=
  let s := s.storeReg .canvasPageOp 0 0 value mask
  if wr F.canvasPageOpGo (value &&& mask) = 0 then s
  else
    let p := s.fld F.canvasPageOpPage
    let owner := s.canvas.pages.find? (fun e => e.2.contains p)
    match owner with
    | none => s.setFld F.canvasPageOpResult 0 0 3
    | some (k, _) =>
      if s.fld F.canvasSurfState k ≠ 2 then s.setFld F.canvasPageOpResult 0 0 3
      else if 16 ≤ s.canvas.held.length then s.setFld F.canvasPageOpResult 0 0 2
      else
        let s := { s with canvas := { s.canvas with held := s.canvas.held ++ [p] } }
        (s.setFld F.canvasPageOpResult 0 0 1).setFld F.canvasPageOpHeld 0 0 s.canvas.held.length

/-- A write of CANVAS_POOL_BASE or CANVAS_POOL_PAGES (R294). -/
def State.poolWrite (s : State) (r : RegName) (value mask : BitVec 64) : State :=
  let base := if r = .canvasPoolBase then fldGet F.canvasPoolBaseBase (regWrite r mask value (s.reg r)) else s.fld F.canvasPoolBaseBase
  let pages := if r = .canvasPoolPages then fldGet F.canvasPoolPagesPages (regWrite r mask value (s.reg r)) else s.fld F.canvasPoolPagesPages
  let lo := base * 65536
  if s.pagesUsed ≠ [] then s
  else if pages ≠ 0 ∧ (262144 < pages ∨ lo < 0x10_0000_0000 ∨
      0x10_0000_0000 + s.fld F.dramCfgCapacity * 2 ^ 28 < lo + pages * 65536) then s
  else s.storeReg r 0 0 value mask

/-- A write of DRAM_CFG (R470): CAPACITY at most DETECTED. -/
def State.capacityWrite (s : State) (value mask : BitVec 64) : State :=
  let new := regWrite .dramCfg mask value (s.reg .dramCfg)
  s.setReg .dramCfg 0 0 (fldPut F.dramCfgCapacity (min (s.fld F.dramCfgDetected) (fldGet F.dramCfgCapacity new)) new)

/-! Commands. -/

/-- DH_FRAME_START (R285, R287, R297). -/
def execDhFrameStart (n : Fin 6) (s : State) : Host.Outcome State Fault Refusal :=
  .next (s.frameStart n.val)

/-- TE_MISS (R287). -/
def execTeMiss (n : Fin 6) (s : State) : Host.Outcome State Fault Refusal :=
  .next (s.teMiss n.val)

/-- CANVAS_CREATE (R294, R297). -/
def execCanvasCreate (hall : Fin 4) (s : State) : Host.Outcome State Fault Refusal :=
  .next (s.canvasTake hall.val 1 fun c s => s.canvasCreate c)

/-- CANVAS_FREE (R295). -/
def execCanvasFree (hall : Fin 4) (s : State) : Host.Outcome State Fault Refusal :=
  .next (s.canvasTake hall.val 2 fun c s => s.canvasFree c)

/-- CANVAS_RECT (R297). -/
def execCanvasRect (hall : Fin 4) (s : State) : Host.Outcome State Fault Refusal :=
  .next (s.canvasTake hall.val 3 fun c s => s.canvasRect c)

/-- CANVAS_FILL (R297). -/
def execCanvasFill (hall : Fin 4) (s : State) : Host.Outcome State Fault Refusal :=
  .next (s.canvasTake hall.val 4 fun c s => s.canvasFill c)

/-- CANVAS_COPY (R297). -/
def execCanvasCopy (hall : Fin 4) (s : State) : Host.Outcome State Fault Refusal :=
  .next (s.canvasTake hall.val 5 fun c s => s.canvasCopy c)

/-- CANVAS_INGEST (R298). -/
def execCanvasIngest (hall : Fin 4) (s : State) : Host.Outcome State Fault Refusal :=
  .next (s.canvasTake hall.val 6 fun c s => s.canvasIngest c)

/-- CANVAS_FENCE (R297): every earlier write of the client is visible already, so the reply goes at once. -/
def execCanvasFence (hall : Fin 4) (s : State) : Host.Outcome State Fault Refusal :=
  .next (s.canvasTake hall.val 7 fun c s =>
    s.cmdReply c (if c.shaped 0 0 then 0 else 1) c.surface)

/-- CANVAS_PRESENT (R297): `slot` is the head and layer that the reference firmware has assigned to the command's slot. -/
def execCanvasPresent (hall : Fin 4) (slot : Option (Fin 6 × Fin 8)) (s : State) : Host.Outcome State Fault Refusal :=
  .next (s.canvasTake hall.val 8 fun c s => s.canvasPresent c slot)

/-- DPST_PACKET (R298): from the DPX port of a Hall, or from its CANVAS port. -/
def execDpstPacket (hall : Fin 4) (canvas : Bool) (s : State) : Host.Outcome State Fault Refusal :=
  .next (s.dpst hall.val (if canvas then 8 else 9))

/-- CANVAS_PAGE_OP (R296). -/
def execCanvasPageOp (value : BitVec 64) (s : State) : Host.Outcome State Fault Refusal :=
  .next (s.pageOp value (BitVec.allOnes 64))

/-- DRAM_CAPACITY_WRITE (R470); `trained` is what a DRAM training since the last such write has found, in units of 256 MiB
(assumption log 122). -/
def execDramCapacityWrite (trained : Option (Fin 65)) (value : BitVec 64) (s : State) : Host.Outcome State Fault Refusal :=
  let s := match trained with
    | some n => s.setFld F.dramCfgDetected 0 0 n.val
    | none => s
  .next (s.capacityWrite value (BitVec.allOnes 64))

end Sys2Proof.Machine
end

