-- ==== Sys2Proof/Machine/FlitBytes.lean ====
section
/-! DEFINITION. A flit as the 512 bytes of a block: header, link control words, CRC-32 and the Reed-Solomon code
(spec/05_birique_link.md R134 to R136; byte order by 00 R5). -/

namespace Sys2Proof.Machine

/-! The Reed-Solomon code RS(128,124) over GF(2^8), x^8 + x^4 + x^3 + x^2 + 1, roots α^0 to α^3 (R136). -/

/-- α times a field element. -/
def gfDouble (a : Nat) : Nat := if 128 ≤ a then (2 * a) ^^^ 0x11D else 2 * a

/-- A product, over the low `n` bits of the second factor. -/
def gfMulBits : Nat → Nat → Nat → Nat
  | 0, _, _ => 0
  | n + 1, a, b => gfDouble (gfMulBits n a (b / 2)) ^^^ (if b % 2 = 1 then a else 0)

/-- The product of two field elements. -/
def gfMul (a b : Nat) : Nat := gfMulBits 8 a b

/-- Powers; the inverse is the 254th. -/
def gfPow (a : Nat) : Nat → Nat
  | 0 => 1
  | n + 1 => gfMul (gfPow a n) a
def gfInv (a : Nat) : Nat := gfPow a 254

/-- The four parity symbols of data symbols, highest power first (assumption log 181). The generator is
x^4 + 15 x^3 + 54 x^2 + 120 x + 64. -/
def rsParity (l : List Nat) : List Nat :=
  let r := l.foldl (fun (p : Nat × Nat × Nat × Nat) b =>
    let f := b ^^^ p.1
    (p.2.1 ^^^ gfMul 15 f, p.2.2.1 ^^^ gfMul 54 f, p.2.2.2 ^^^ gfMul 120 f, gfMul 64 f)) (0, 0, 0, 0)
  [r.1, r.2.1, r.2.2.1, r.2.2.2]

/-- The value of a codeword's polynomial at x. -/
def rsEval (x : Nat) (l : List Nat) : Nat := l.foldl (fun a b => gfMul a x ^^^ b) 0

/-- The index in a codeword of 128 whose locator is `x`, none for one outside it. -/
def rsIndex (x : Nat) : Option Nat := ((List.range 128).find? (fun p => gfPow 2 p == x)).map (fun p => 127 - p)

/-- Add an error value at an index. -/
def rsAdd (l : List Nat) (i e : Nat) : List Nat := l.set i (l.getD i 0 ^^^ e)

/-- A codeword corrected, and how many symbols that took: up to two; none when it is uncorrectable. -/
def rsFix (l : List Nat) : Option (List Nat × Nat) :=
  let s0 := rsEval 1 l
  let s1 := rsEval 2 l
  let s2 := rsEval 4 l
  let s3 := rsEval 8 l
  let det := gfMul s1 s1 ^^^ gfMul s0 s2
  if s0 = 0 ∧ s1 = 0 ∧ s2 = 0 ∧ s3 = 0 then some (l, 0)
  else if det = 0 then
    if s0 ≠ 0 ∧ gfMul s1 s2 = gfMul s0 s3 then (rsIndex (gfMul s1 (gfInv s0))).map (fun i => (rsAdd l i s0, 1)) else none
  else
    let inv := gfInv det
    let a := gfMul (gfMul s1 s2 ^^^ gfMul s0 s3) inv
    let b := gfMul (gfMul s1 s3 ^^^ gfMul s2 s2) inv
    match (List.range 128).filter (fun p => let x := gfPow 2 p; gfMul x x ^^^ gfMul a x ^^^ b == 0) with
    | [p, q] =>
      let x := gfPow 2 p
      let y := gfPow 2 q
      let e := gfMul (s1 ^^^ gfMul s0 y) (gfInv (x ^^^ y))
      some (rsAdd (rsAdd l (127 - p) e) (127 - q) (s0 ^^^ e), 2)
    | _ => none

/-- Every fourth element of a list, from each of the first four. -/
def split4 : List Nat → List (List Nat)
  | a :: b :: c :: d :: t => (split4 t).zipWith (fun l x => x :: l) [a, b, c, d]
  | _ => [[], [], [], []]

/-- Four lists dealt in turn. -/
def merge4 : List Nat → List Nat → List Nat → List Nat → List Nat
  | a :: p, b :: q, c :: r, d :: t => a :: b :: c :: d :: merge4 p q r t
  | _, _, _, _ => []

/-- Bytes 0 to 495 of a block with their 16 parity bytes (*Flit, 512 bytes*, FEC). -/
def fecEncode (b : List Byte) : List Byte :=
  match (split4 (b.map (·.toNat))).map (fun l => l ++ rsParity l) with
  | [p, q, r, t] => (merge4 p q r t).map (BitVec.ofNat 8)
  | _ => []

/-- What the FEC makes of a received block: its bytes, codewords corrected with one and with two symbols, and
uncorrectable ones. -/
structure FecOut where
  bytes : List Byte
  fec1 : Nat
  fec2 : Nat
  fecU : Nat
  deriving DecidableEq, Repr

/-- Correct a received block. -/
def fecDecode (b : List Byte) : FecOut :=
  let ws := split4 (b.map (·.toNat))
  let fs := ws.map rsFix
  let n := fun k => (fs.filter (fun f => f.any (fun x => x.2 == k))).length
  { bytes := match ws.zipWith (fun w f => (f.map (·.1)).getD w) fs with
      | [p, q, r, t] => (merge4 p q r t).map (BitVec.ofNat 8)
      | _ => []
    fec1 := n 1, fec2 := n 2, fecU := (fs.filter (fun f => f.isNone)).length }

/-- The PAM4 levels of the symbols that two bytes differ in, as the second has them (04 R116, R132). -/
def levelsOf (a b : Byte) : List Nat :=
  ([6, 4, 2, 0].filter (fun i => (a.toNat / 2 ^ i) % 4 != (b.toNat / 2 ^ i) % 4)).map (fun i =>
    [0, 1, 3, 2].getD (b.toNat / 2 ^ i % 4) 0)

/-! Link control words (*Link control words*). -/

/-- A control word as its 64 bits. -/
def Ctl.word : Ctl → Nat
  | .ack q => 0x1 * 2 ^ 60 + q % 2 ^ 24
  | .nack q m => 0x2 * 2 ^ 60 + m % 2 ^ 16 * 2 ^ 24 + q % 2 ^ 24
  | .rnack l m => 0x3 * 2 ^ 60 + l % 64 * 2 ^ 40 + m % 2 ^ 16 * 2 ^ 16
  | .credit v m => 0x4 * 2 ^ 60 + v % 8 * 2 ^ 56 + m % 2 ^ 16
  | .echoReq t => 0x5 * 2 ^ 60 + t % 2 ^ 48
  | .echoRsp t => 0x6 * 2 ^ 60 + t % 2 ^ 48
  | .laneFail l c => 0x7 * 2 ^ 60 + l % 64 * 2 ^ 40 + c % 256 * 2 ^ 32
  | .resume r => 0x8 * 2 ^ 60 + r % 2 ^ 24
  | .width m t b => 0x9 * 2 ^ 60 + m % 256 * 2 ^ 48 + t % 256 * 2 ^ 24 + b % 2 ^ 24
  | .widthAck t => 0xA * 2 ^ 60 + t % 256 * 2 ^ 24
  | .reserved c => c % 16 * 2 ^ 60

/-- The word that 64 bits make; reserved bits inside a word are ignored. -/
def Ctl.ofWord (w : Nat) : Ctl :=
  let at_ := fun lo n => w / 2 ^ lo % 2 ^ n
  match at_ 60 4 with
  | 1 => .ack (at_ 0 24)
  | 2 => .nack (at_ 0 24) (at_ 24 16)
  | 3 => .rnack (at_ 40 6) (at_ 16 16)
  | 4 => .credit (at_ 56 3) (at_ 0 16)
  | 5 => .echoReq (at_ 0 48)
  | 6 => .echoRsp (at_ 0 48)
  | 7 => .laneFail (at_ 40 6) (at_ 32 8)
  | 8 => .resume (at_ 0 24)
  | 9 => .width (at_ 48 8) (at_ 24 8) (at_ 0 24)
  | 10 => .widthAck (at_ 24 8)
  | c => .reserved c

/-! The flit (*Flit, 512 bytes*, *Flit header*). -/

/-- The code of a TYPE, and the type of a code. -/
def FlitType.code : FlitType → Nat
  | .data => 0
  | .control => 1
  | .idleFill => 2
  | .landing => 3
def FlitType.ofCode : Nat → FlitType
  | 0 => .data
  | 1 => .control
  | 2 => .idleFill
  | _ => .landing

/-- The header of a flit. -/
def Flit.header (f : Flit) : Nat :=
  let bit := fun (b : Bool) => if b then 1 else 0
  f.seq % 2 ^ 24 * 2 ^ 40 + f.vc % 8 * 2 ^ 37 + f.type.code * 2 ^ 35 + f.len % 512 * 2 ^ 26 + f.pktOff % 512 * 2 ^ 17 +
    f.words.length % 8 * 2 ^ 14 + f.rcnt % 16 * 2 ^ 10 + bit f.rs * 2 ^ 9 + bit f.enc * 2 ^ 8 + f.kidx % 2 * 2 ^ 7

/-- Header and control words: what a GCM tag covers beside the data (R157). -/
def Flit.open_ (f : Flit) : List Byte := leBytes 8 f.header ++ f.words.flatMap (fun w => leBytes 8 w.word)

/-- The block of a flit whose data travels as `data`, with its tag, empty without security. -/
def Flit.block (f : Flit) (data tag : List Byte) : List Byte :=
  let p := f.open_ ++ data
  let b := p ++ List.replicate (492 - tag.length - p.length) 0 ++ tag
  fecEncode (b ++ leBytes 4 (crc32 b))

/-- Does the CRC of a corrected block match? -/
def blockCrcOk (b : List Byte) : Bool := crc32 (b.take 492) == leNat ((b.drop 492).take 4)

/-- The flit that a corrected block holds, its data as it travels. -/
def Flit.ofBytes (b : List Byte) : Flit :=
  let h := leNat (b.take 8)
  let at_ := fun lo n => h / 2 ^ lo % 2 ^ n
  let nlcw := at_ 14 3
  let len := at_ 26 9
  { seq := at_ 40 24, vc := at_ 37 3, type := FlitType.ofCode (at_ 35 2), pktOff := at_ 17 9, rcnt := at_ 10 4,
    rs := at_ 9 1 == 1, enc := at_ 8 1 == 1, kidx := at_ 7 1, reserved := at_ 0 7 != 0,
    words := (List.range nlcw).map (fun i => Ctl.ofWord (leNat ((b.drop (8 + 8 * i)).take 8))),
    len := len, data := ((b.take 492).drop (8 + 8 * nlcw)).take len }

/-- The GCM tag of a block. -/
def blockTag (b : List Byte) : List Byte := (b.drop 476).take 16

/-- The 96-bit IV of a flit (R157): lane, SESSION and the flits its lane has sent before it, most significant byte first
(assumption log 181). -/
def flitIv (lane session count : Nat) : List Byte :=
  (leBytes 12 (lane % 256 * 2 ^ 88 + session % 2 ^ 32 * 2 ^ 56 + count % 2 ^ 56)).reverse

end Sys2Proof.Machine
end

