-- ==== Sys2Proof/Machine/LinkTx.lean ====
section
/-! DEFINITION. What a lane sends in its next block slot, and what the sender does with acknowledgements and loss reports
(spec/05_birique_link.md R134, R138, R139, R143 to R146, R150, R152, R154, R157). -/

namespace Sys2Proof.Machine

/-! Control words of a flit. -/

/-- A word with the value it carries when it is sent. -/
def State.ctlNow (s : State) (n : Nat) : Ctl → Ctl
  | .ack _ => .ack ((s.rcvNext n + 2 ^ 24 - 1) % 2 ^ 24)
  | .credit v _ => .credit v (unitGet 0 (s.trk n).limit v)
  | .echoReq _ => .echoReq (s.tb % 2 ^ 48)
  | .resume _ => .resume (s.rcvNext n)
  | w => w

/-- The WIDTH of this end that has not been acknowledged (05 R138, 06 R166). -/
def Trunk.widthWord (t : Trunk) : Option Ctl :=
  match t.own with
  | some o => if o.acked then none else some (.width o.mask o.txn o.base)
  | none => match t.reply with
    | some r => some (.width r.mask r.txn r.base)
    | none => none

/-- Put a word that is not due itself into the list, in the order of 05 R138; `true` marks the words that are due. -/
def rankInsert (w : Ctl) : List (Ctl × Bool) → List (Ctl × Bool)
  | [] => [(w, false)]
  | x :: t => if w.rank < x.1.rank then (w, false) :: x :: t else x :: rankInsert w t

/-- The words a flit carries, at most `room`: those due in the order of R138; in a CONTROL flit RESUME, while this end says it (06
R164); the outstanding WIDTH, first in new data flits and CONTROL flits (`first`), in its order in a resend (06 R166). -/
def State.flitWords (s : State) (n : Nat) (first control : Bool) (room : Nat) : List (Ctl × Bool) :=
  let t := s.trk n
  let l := t.due.map (fun w => (w, true))
  let l := if control && t.resumeSay then rankInsert (.resume 0) l else l
  let l := match t.widthWord with
    | some w => if first then (w, false) :: l else rankInsert w l
    | none => l
  (l.take (min 4 room)).map (fun x => (s.ctlNow n x.1, x.2))

/-- The words of a new data flit, and of a CONTROL flit. -/
def State.newWords (s : State) (n : Nat) : List (Ctl × Bool) := s.flitWords n true false 4
def State.controlWords (s : State) (n : Nat) : List (Ctl × Bool) := s.flitWords n true true 4

/-- The words of a resend that leaves `room` bytes beside its data. -/
def State.resendWords (s : State) (n room : Nat) : List (Ctl × Bool) := s.flitWords n false false (room / 8)

/-- The 500 ns timer after an ACK (05 R141): it runs on for the flits held beyond RCV_NEXT, which that ACK does not cover. -/
def State.ackSent (s : State) (n : Nat) : State :=
  let t := s.trk n
  let s := s.setTrk n { t with sinceAck := 0 }
  match (t.store.filter (fun h => decide (s.tb < h.tbIn + 500))).map (fun h => h.tbIn + 500 - s.tb) with
  | [] => s.disarm .trkAck n 0
  | d :: l => s.arm .trkAck n 0 (l.foldl min d)

/-- What sending words does: those that were due are due no more; the last CREDIT word may complete a training. -/
def State.wordsSent (s : State) (n : Nat) (ws : List (Ctl × Bool)) : State :=
  let s := s.setTrk n { s.trk n with due := (s.trk n).due.drop (ws.filter (·.2)).length }
  let s := ws.foldl (fun (s : State) w => match w.1 with
    | .ack _ => s.ackSent n
    | .credit v lim => ((s.setFld F.trkVcCreditRxLimit n v lim).disarm .trkCredit n v).arm .trkCreditAll n v (us 10)
    | _ => s) s
  if (s.trk n).retrainDue && ws.any (fun w => match w.1 with
      | .widthAck _ => true
      | _ => false)
  then s.retrain n else s.tryUp n

/-! Filling a data flit from a VC (05 R154). -/

/-- What filling has gathered so far. -/
structure Fill where
  data : List Byte := []
  off : Nat := 511                -- PKT_OFF
  used : Nat := 0                 -- credits consumed
  done : List TxPacket := []      -- packets wholly in flits now
  queue : List TxPacket := []     -- what stays
  psn : UnitMap Nat := []           -- PSN counters, by context
  deriving DecidableEq, Repr

/-- Write a PSN into a packet's header. -/
def putPsn (b : List Byte) (psn : Nat) : List Byte := b.take 12 ++ leBytes 4 psn ++ b.drop 16

/-- Credits a packet or a continuation needs (05 R152, 06 R176). -/
def TxPacket.need (p : TxPacket) : Nat := if p.link then 0 else ceilDiv p.bytes.length 64

/-- Fill `room` bytes from a queue; a packet starts only with credit for all of it, and a continuation only at the start of a flit,
where PKT_OFF can mark its end (06 R176). `seq` is the flit's number. -/
def fillVc (vc seq : Nat) : List TxPacket → Nat → Nat → Fill → Fill
  | [], _, _, f => f
  | p :: t, room, avail, f =>
    if room = 0 ∨ (p.off = 0 ∧ avail < p.need) ∨ (p.off = 0 ∧ p.splice = true ∧ f.data ≠ []) then { f with queue := p :: t }
    else
      let fresh := p.off = 0
      let psn := match p.ctx with
        | some c => unitGet 0 f.psn c
        | none => 0
      let p := if fresh ∧ p.ctx.isSome then { p with bytes := putPsn p.bytes psn } else p
      let f := match p.ctx with
        | some c => if fresh then { f with psn := unitSet 0 f.psn c ((psn + 1) % 2 ^ 32) } else f
        | none => f
      let k := min room (p.bytes.length - p.off)
      let f := { f with
        off := if fresh ∧ !p.splice ∧ f.off = 511 then f.data.length else f.off
        data := f.data ++ (p.bytes.drop p.off).take k
        used := f.used + (if fresh then p.need else 0) }
      let p := { p with off := p.off + k, flits := p.flits ++ [(seq, k)] }
      let avail := if fresh then avail - p.need else avail
      if p.off < p.bytes.length then { f with queue := p :: t }
      else
        let f := { f with done := f.done ++ [p] }
        let ends := p.splice && (match t with
          | [] => true
          | q :: _ => decide (avail < q.need))
        if ends then
          let e := spliceEnd vc
          if e.bytes.length ≤ room - k then
            { f with
              off := if f.off = 511 then f.data.length else f.off
              data := f.data ++ e.bytes
              done := f.done ++ [{ e with off := e.bytes.length, flits := [(seq, e.bytes.length)] }]
              queue := t }
          else { f with queue := e :: t }
        else fillVc vc seq t (room - k) avail f

/-- Credits left to the sender on a VC. -/
def State.creditLeft (s : State) (n v : Nat) : Nat :=
  (s.fld F.trkVcCreditTxLimit n v + 2 ^ 16 - s.fld F.trkVcCreditTxUsed n v) % 2 ^ 16

/-- Can a VC give data now: a packet in progress, or one that may start? Before UP only link packets may. -/
def State.vcReady (s : State) (n v : Nat) : Bool :=
  match (s.trk n).q v with
  | [] => false
  | p :: _ => decide (0 < p.off) || (p.link || (s.trkState n == 2 && decide (p.need ≤ s.creditLeft n v)))

/-- The VC that fills the next new data flit: VC0, VC1, then VC2 to VC7 in round robin (05 R154). -/
def State.pickVc (s : State) (n : Nat) : Option Nat :=
  let rr := (s.trk n).rrVc
  let order := [0, 1] ++ (List.range 6).map (fun i => 2 + (rr - 2 + i) % 6)
  order.find? (fun v => s.vcReady n v)

/-! Sending one block. -/

/-- Bytes of the GCM tag. -/
def State.tagBytes (s : State) (n : Nat) : Nat := if s.flag F.trkLinkStatusSecOn n then 16 else 0

/-- The block of a flit on a lane: with security in force its data is encrypted and a tag ends it (05 R157). -/
def State.flitBlock (s : State) (n l : Nat) (f : Flit) : List Byte :=
  match (if f.enc then (s.sec n).tx else none) with
  | some k =>
    let c := gcmSeal (s.slot k).key (flitIv l (s.lane l).txSession (s.lane l).flitsTx) f.open_ f.data
    f.block c.1 c.2
  | none => f.block f.data []

/-- A flit goes out on a lane, with its control words. -/
def State.sendFlit (s : State) (n l : Nat) (f : Flit) (ws : List (Ctl × Bool)) : State :=
  let f := { f with
    words := ws.map (·.1)
    rcnt := unitGet 0 (s.trk n).rcnt l, enc := s.flag F.trkLinkStatusSecOn n, kidx := s.fld F.trkLinkStatusKidxTx n }
  let s := s.emit (.flit l (s.flitBlock n l f))
  let k := s.lane l
  (s.setLane l { k with sinceTx := k.sinceTx + 1, flitsTx := k.flitsTx + 1 }).wordsSent n ws

/-- The number a CONTROL or IDLE_FILL flit carries in SEQ (05 *Flit header*, 06 R475). -/
def State.fillerSeq (s : State) (n p : Nat) : Nat :=
  let t := s.trk n
  if (s.active n).testBit p then nextFor (s.active n) t.txBase p (s.txNext n)
  else match unitGet none t.txLeft p with
    | some x => x.seq
    | none => 0

/-- A resend on a lane (05 R139, R144). -/
def State.sendResend (s : State) (n l : Nat) (e : ReplayEntry) : State :=
  if 16 ≤ e.copies.length then s.trunkLost n 3
  else
    let t := s.trk n
    let rc := (unitGet 0 t.rcnt l + 1) % 16
    let log := ((rc, e.seq, e.copies.length) :: (unitGet [] t.resendLog l)).take 16
    let s := s.setTrk n { t with
      rcnt := unitSet 0 t.rcnt l rc, resendLog := unitSet [] t.resendLog l log,
      resends := t.resends.filter (fun r => r.1 != e.seq),
      replay := t.replay.map (fun x => if x.seq = e.seq then { x with copies := x.copies ++ [{ lane := l }] } else x) }
    let s := s.trkCount n 1 1
    let s := s.arm .trkBeat n 0 250
    s.sendFlit n l {
      seq := e.seq, vc := e.vc, type := .data, pktOff := e.pktOff, rcnt := 0, rs := true, enc := false,
      kidx := 0, words := [], len := e.data.length, data := e.data } (s.resendWords n (484 - e.data.length - s.tagBytes n))

/-- The trunk that keeps the PSN counters of trunk n's packets. -/
def State.psnHome (s : State) (n : Nat) : Nat :=
  match s.mateOf n with
  | some m => s.primary n m
  | none => n

/-- A new data flit from VC v on a lane (05 R139, R152). -/
def State.sendData (s : State) (n l v : Nat) : State :=
  let ws := s.newWords n
  let seq := s.txNext n
  let home := s.psnHome n
  let f := fillVc v seq ((s.trk n).q v) (484 - 8 * ws.length - s.tagBytes n) (s.creditLeft n v) { psn := (s.trk home).psnTx }
  let s := s.setTrk home { s.trk home with psnTx := f.psn }
  let t := s.trk n
  let empty := t.replay = []
  let e : ReplayEntry := { seq := seq, vc := v, pktOff := f.off, data := f.data, copies := [{ lane := l }] }
  let s := s.setTrk n { t.setQ v f.queue with
    sent := t.sent ++ f.done, replay := t.replay ++ [e], dealtNew := true,
    rrVc := if 2 ≤ v then 2 + (v - 2 + 1) % 6 else t.rrVc }
  let s := s.addFld F.trkVcCreditTxUsed n v f.used
  let s := (s.setFld F.trkTxSeqNext n 0 (seqNext seq)).trkCount n 0 1
  let s := if empty then s.retryTimer n else s
  let s := (f.done.filter (·.link)).foldl (fun s _ => s.frameLink (n / 6)) s
  let s := (s.syncTx n).arm .trkBeat n 0 250
  s.sendFlit n l {
    seq := seq, vc := v, type := .data, pktOff := f.off, rcnt := 0, rs := false, enc := false, kidx := 0,
    words := [], len := f.data.length, data := f.data } ws

/-- A CONTROL or IDLE_FILL flit on a lane. -/
def State.sendFiller (s : State) (n l : Nat) (ws : List (Ctl × Bool)) : State :=
  s.sendFlit n l {
    seq := s.fillerSeq n (s.lanePos n l), vc := 0, type := if ws = [] then .idleFill else .control,
    pktOff := 511, rcnt := 0, rs := false, enc := false, kidx := 0, words := [], len := 0, data := [] } ws

/-- May new data start on position p now? It stops while a removal waits for the transaction outstanding (05 R146), and once a
retrain is agreed (06 R167). -/
def State.newDataOk (s : State) (n p : Nat) : Bool :=
  let t := s.trk n
  (s.active n).testBit p && dealt (s.active n) t.txBase (s.txNext n) == some p && !t.retrainDue &&
    (t.widthFree || !s.mustRemove n) &&
    decide (t.replay.length < t.window) && (s.trkState n == 2 || (s.trkState n == 1 && t.training == .fromDown))

/-- The lowest active position whose lane carries: there control words go when no data is ready. -/
def State.ctlPos (s : State) (n : Nat) : Option Nat :=
  (maskPos (s.active n)).find? (fun p => s.laneOn (s.trkFirst n + p))

/-- One slot of lane l (FLIT_SLOT, 05 R139). A slot in which a marker is due, and a slot of a lane that carries nothing,
holds no flit. -/
def State.flitSlot (s : State) (l : Nat) : State :=
  match s.trkOf l with
  | none => s
  | some n =>
    if s.laneMode l ≠ 1 ∨ s.laneOn l = false ∨ 4096 ≤ (s.lane l).sinceTx ∨ s.trkState n = 0 then s
    else
      let t := s.trk n
      let p := s.lanePos n l
      let resend := if s.trkState n = 2 ∨ (s.trkState n = 1 ∧ t.training = .fromDown) then
          (t.replay.find? (fun e => t.resends.contains (e.seq, l)))
        else none
      match resend with
      | some e => s.sendResend n l e
      | none =>
        match (if s.newDataOk n p then s.pickVc n else none) with
        | some v => s.sendData n l v
        | none =>
          let waiting := (s.trkState n == 1 || (s.trkState n == 2 && !(s.active n).testBit p && (unitGet none t.txLeft p).isNone)) &&
            (s.lane l).peerReady
          let control := t.widthWord.isSome || (s.ctlPos n == some p && (t.due != [] || t.resumeSay))
          if control then s.sendFiller n l (s.controlWords n)
          else if waiting then s.sendFiller n l [(s.ctlNow n (.ack 0), false)]
          else s.sendFiller n l []

/-! Acknowledgements and loss reports at the sender (05 R143). -/

/-- An ACK (ACK_RECEIVE). -/
def State.ackReceive (s : State) (n a : Nat) : State :=
  let t := s.trk n
  if seqLt a (s.txNext n) = false ∧ a ≠ (s.txNext n + 2 ^ 24 - 1) % 2 ^ 24 then s.trkCount n 9 1
  else
    let keep := t.replay.filter (fun e => seqLt a e.seq)
    if keep.length = t.replay.length then s
    else
      let s := s.setTrk n { t with
        replay := keep, expiries := 0, resends := t.resends.filter (fun r => keep.any (fun e => e.seq == r.1)),
        sent := t.sent.filter (fun p => p.flits.any (fun f => keep.any (fun e => e.seq == f.1))) }
      (s.retryTimer n).syncTx n

/-- A report of the loss of a copy of a flit (NACK_RECEIVE, RNACK_RECEIVE). -/
def State.lossReport (s : State) (n seq copy : Nat) : State :=
  let t := s.trk n
  match t.replay.find? (fun e => e.seq == seq) with
  | none => s
  | some e =>
    match e.copies[copy]? with
    | none => s
    | some c =>
      if c.acted then s
      else
        let count := unitGet 0 e.nacks c.lane + 1
        let e' := { e with
          copies := e.copies.set copy { c with acted := true }, nacks := unitSet 0 e.nacks c.lane count }
        let s := s.setTrk n { t with replay := t.replay.map (fun x => if x.seq = seq then e' else x) }
        let s := (s.addSat F.trkPosNacks n (s.lanePos n c.lane) 1 255).trkCount n 7 1
        let s := s.retryTimer n
        let s := if copy + 1 = e.copies.length then s.requestResend n [seq] else s
        if count = 8 then s.laneMarkBad n c.lane else s

/-- A NACK word: NACK_SEQ and those the bitmap adds. -/
def State.nackReceive (s : State) (n seq bitmap : Nat) : State :=
  (seq :: (List.range 16).filterMap (fun i => if bitmap.testBit i then some ((seq + 1 + i) % 2 ^ 24) else none)).foldl
    (fun s q => s.lossReport n q 0) s

/-- An RNACK word: the resends of one of this end's lanes by RCNT. -/
def State.rnackReceive (s : State) (n l mask : Nat) : State :=
  (List.range 16).foldl (fun (s : State) i =>
    if mask.testBit i then
      match (unitGet [] (s.trk n).resendLog l).find? (fun e => e.1 == i) with
      | some (_, seq, copy) => s.lossReport n seq copy
      | none => s
    else s) s

/-- A CREDIT word (CREDIT_RECEIVE, 05 R153). -/
def State.creditReceive (s : State) (n v lim : Nat) : State :=
  let d := (lim + 2 ^ 16 - s.fld F.trkVcCreditTxLimit n v) % 2 ^ 16
  if 1 ≤ d ∧ d ≤ 32767 then
    let t := s.trk n
    let s := if unitGet 0 t.peerFirst v = 0 then s.setTrk n { t with peerFirst := unitSet 0 t.peerFirst v lim } else s
    s.setFld F.trkVcCreditTxLimit n v lim
  else s

/-- An ECHO_RSP word (ECHO_RSP_RECEIVE, 06 R162 step 2, R164). -/
def State.echoReceive (s : State) (n stamp : Nat) : State :=
  let t := s.trk n
  if t.echoesLeft = 0 ∨ (s.trkState n ≠ 1 ∧ s.trkState n ≠ 2) then s
  else
    let rtt := max t.rttMax ((s.tb % 2 ^ 48 + 2 ^ 48 - stamp) % 2 ^ 48)
    let s := s.setTrk n { t with echoesLeft := t.echoesLeft - 1, rttMax := rtt }
    if t.echoesLeft = 1 then (s.setFld F.trkLinkStatusRtt n 0 (min 0xFFFF rtt)).tryUp n else s

/-- One control word (05 R137); `ws` are all the words of its flit. -/
def State.ctlReceive (s : State) (n : Nat) (ws : List Ctl) : Ctl → State
  | .ack a => s.ackReceive n a
  | .nack q b => s.nackReceive n q b
  | .rnack l m => s.rnackReceive n l m
  | .credit v lim => s.creditReceive n v lim
  | .echoReq st => s.addDue n (.echoRsp st)
  | .echoRsp st => s.echoReceive n st
  | .laneFail l _ => s.laneFailReceive n l
  | .resume r => s.resumeReceive n r
  | .width m t b => s.widthReceive n m t b (ws.contains (.widthAck t))
  | .widthAck t => s.widthAckReceive n t
  | .reserved _ => s.trkCount n 9 1

end Sys2Proof.Machine
end

