-- ==== Sys2Proof/Machine/LinkRx.lean ====
section
/-! DEFINITION. What a lane's receiver does with a flit (spec/05_birique_link.md R135 to R142, R147, R158) and with the
packets its data holds (spec/06_trunks_and_failover.md R160, R174, R176). -/

namespace Sys2Proof.Machine

/-! Acknowledgements and loss reports due (05 R140 to R142). -/

/-- An ACK becomes due. -/
def State.ackDue (s : State) (n : Nat) : State := s.addDue n (.ack 0)

/-- Is a first copy still missing: neither accepted nor below RCV_NEXT? -/
def State.missing (s : State) (n seq : Nat) : Bool :=
  !seqLt seq (s.rcvNext n) && !(s.trk n).store.any (fun h => h.seq == seq)

/-- Report the loss of a copy: its word becomes due, `NACK_TX` counts it, and the report is kept for repetition while the copy is
missing (05 R140, R142). -/
def State.reportLoss (s : State) (n : Nat) (r : LossReport) : State :=
  let keep := r.resend || s.missing n r.seq
  let s := (s.addDue n (if r.resend then .rnack r.lane (2 ^ r.rcnt) else .nack r.seq 0)).trkCount n 6 1
  if keep then s.setTrk n { s.trk n with losses := (s.trk n).losses ++ [{ r with at_ := s.tb }] } else s

/-- The position a number of the partner's flits is dealt to: the newest list from its BASE on, older ones below (06 R166). -/
def Trunk.rxDealt (t : Trunk) (seq : Nat) : Option Nat :=
  match t.rxLists.find? (fun x => !seqLt seq x.2) with
  | some x => dealt x.1 x.2 seq
  | none => none

/-- The first copies lost on position p when a flit with this number reveals them: the numbers dealt to p from E(p) on that come
before it. E(p) is held as the least number that may come next. -/
def Trunk.lostFirst (t : Trunk) (p seq : Nat) : List Nat :=
  let e := unitGet 0 t.expect p
  if seqLt e seq then
    ((List.range (min (seqDist e seq) 4096)).map (fun i => (e + i) % 2 ^ 24)).filter (fun x => t.rxDealt x == some p)
  else []

/-- Report the resends from RCNT `from_` up to but not including `to_` of lane l as lost. -/
def State.lostResends (s : State) (n l from_ to_ : Nat) : State :=
  (List.range ((to_ + 16 - from_) % 16)).foldl (fun s i =>
    s.reportLoss n { resend := true, seq := (s.trk n).highSeen, lane := s.fld F.laneStatusPartnerLane l % 64, rcnt := (from_ + i) % 16 }) s

/-! Packets from flit data. -/

/-- `a` is before `b` among packet sequence numbers (06 R174). -/
def psnLt (a b : Nat) : Bool := decide (a ≠ b) && decide ((b + 2 ^ 32 - a) % 2 ^ 32 < 2 ^ 31)

/-- Put a packet into a list that is in order of PSN above `from_`, behind its equals. -/
def psnInsert (from_ : Nat) (p : Parcel) : List Parcel → List Parcel
  | [] => [p]
  | q :: t =>
    if (p.pkt.psn + 2 ^ 32 - from_) % 2 ^ 32 < (q.pkt.psn + 2 ^ 32 - from_) % 2 ^ 32 then p :: q :: t
    else q :: psnInsert from_ p t

/-- Packets held at a member for a context of its pair, lowest PSN above `from_` first. -/
def State.psnWaiting (s : State) (n c from_ : Nat) : List Parcel :=
  (s.parcels.filter (fun p => p.spot == .psnHeld n c)).foldl (fun l p => psnInsert from_ p l) []

/-- The expected PSN of a context whose receive state lives with trunk n, and writing it. -/
def State.psnNext (s : State) (n c : Nat) : Option Nat := unitGet none (s.trk n).psnRx c
def State.setPsnNext (s : State) (n c : Nat) (v : Option Nat) : State :=
  s.setTrk n { s.trk n with psnRx := unitSet none (s.trk n).psnRx c v }

/-- Release held packets of a context in PSN order while they follow on. -/
def State.psnRelease (s : State) (n c : Nat) : Nat → State
  | 0 => s
  | k + 1 =>
    match s.psnNext n c with
    | none => s
    | some e =>
      match s.parcels.find? (fun p => p.spot == .psnHeld n c && p.pkt.psn == e) with
      | none => s
      | some p => ((s.putParcel { p with spot := .arrived }).setPsnNext n c (some ((e + 1) % 2 ^ 32))).psnRelease n c k

/-- After a change of a context's state: what follows on is released, and the gap timer runs only while packets wait. -/
def State.psnGo (s : State) (n c : Nat) : State :=
  let s := s.psnRelease n c s.parcels.length
  if (s.psnWaiting n c 0).isEmpty then s.disarm .psnGap n c
  else s.armOnce .psnGap n c (us (s.fld F.trkPairHold n))

/-- Trunk n fetches the receive state of a context from its mate m, with the packets held for it; the gap they wait for is as old as
before, and n's HOLD bounds it from now on (06 R174). -/
def State.psnFetch (s : State) (n m c : Nat) : State :=
  match s.psnNext m c with
  | none => s
  | some e =>
    let s := (s.setPsnNext m c none).setPsnNext n c (some e)
    let s := (s.parcels.filter (fun p => p.spot == .psnHeld m c)).foldl (fun s p => s.putParcel { p with spot := .psnHeld n c }) s
    match s.deadline .psnGap m c with
    | none => s
    | some d => (s.disarm .psnGap m c).arm .psnGap n c (d + us (s.fld F.trkPairHold n) - us (s.fld F.trkPairHold m) - s.tb)

/-- A packet over a pair that has arrived on member n, m its mate (PAIR_PACKET_RECEIVE, 06 R174): it goes on, is a duplicate, or is
held. `id` is its number. -/
def State.pairPacket (s : State) (n m id : Nat) : State :=
  match s.parcel id with
  | none => s
  | some p =>
    let c := p.pkt.context
    let s := s.psnFetch n m c
    let next := some ((p.pkt.psn + 1) % 2 ^ 32)
    match s.psnNext n c with
    | none => (s.setPsnNext n c next).psnGo n c
    | some e =>
      if p.pkt.psn = e then ((s.setPsnNext n c next).disarm .psnGap n c).psnGo n c
      else if psnLt p.pkt.psn e then
        let r := s.leaveLanding p
        let h := r.2.hall p.hall
        ((r.2.setHall p.hall { h with frameDropped := h.frameDropped + 1 }).dropParcel id).addFld F.trkPairCntCount n 0 1
      else (s.putParcel { p with spot := .psnHeld n c }).armOnce .psnGap n c (us (s.fld F.trkPairHold n))

/-- A packet whole in a trunk's VC buffer; `credits` is what it holds there. -/
def State.landPacket (s : State) (n v : Nat) (p : Packet) (credits : Nat) : State :=
  let r := s.pickN credits (s.freeSegs n v)
  let s := r.2.frameIn (n / 6)
  let s := s.addFld F.trkVcCreditRxHeld n v credits
  let id := s.nextParcel
  let s := s.addParcel {
    id := 0, pkt := p, src := n, hall := n / 6, spot := .arrived, segs := r.1, vcBuf := some (n, v), credits := credits,
    tbAccept := s.tb }
  let s := s.writeSegs (n / 6) r.1 p.toBytes
  match s.mateOf n with
  | some m => if p.payload.length = p.len then s.pairPacket n m id else s
  | none => s

/-- A RESYNC of contexts (06 R174): each becomes UNKNOWN, and what either member holds for it goes on in PSN order. -/
def State.resync (s : State) (n : Nat) (mask : BitVec 256) : State :=
  match s.mateOf n with
  | none => s
  | some m =>
    (List.range 256).foldl (fun s c =>
      if mask.getLsbD c then
        [n, m].foldl (fun s k =>
          let s := (s.psnWaiting k c ((s.psnNext k c).getD 0)).foldl (fun (s : State) p => s.putParcel { p with spot := .arrived }) s
          (s.setPsnNext k c none).disarm .psnGap k c) s
      else s) s

/-- A straddler's continuation has ended on the survivor n (STRADDLER_COMPLETE, 06 R176): the leading bytes its mate left
and the bytes still missing make the packet, or the straddler is dropped. -/
def State.straddlerEnd (s : State) (n v : Nat) : State :=
  let t := s.trk n
  match unitGet none t.contRx v with
  | none => s
  | some c =>
    let s := s.setTrk n { t with contRx := unitSet none t.contRx v none }
    match s.mateOf n with
    | none => s
    | some m =>
      let lead := unitGet [] (s.trk m).strad v
      let s := s.setTrk m { s.trk m with strad := unitSet [] (s.trk m).strad v [] }
      let miss := (Packet.ofBytes lead).size - lead.length
      let credits := ceilDiv c.length 64
      if lead.length < 4 ∨ c.length < miss then
        let h := s.hall (n / 6)
        let s := s.setHall (n / 6) { h with frameIn := h.frameIn + 1, frameDropped := h.frameDropped + 1 }
        (s.addFld F.trkPairCntCount n 3 1).grant n v credits
      else s.landPacket n v (Packet.ofBytes (lead ++ c.drop (c.length - miss))) credits

/-- A link packet (06 R160): consumed by the link unit. -/
def State.linkPacketIn (s : State) (n v : Nat) (b : List Byte) : State :=
  let s := s.frameLink (n / 6)
  let pay := b.drop 16
  match (pay.getD 0 0).toNat with
  | 1 =>
    let r := s.openValue
    r.2.paramReceive n (paramOf pay) r.1
  | 2 => s.straddlerEnd n v
  | 3 => s.resync n (BitVec.ofNat 256 (leNat ((pay.drop 8).take 32)))
  | _ => s.trkCount n 9 1

/-- A packet's bytes are whole. -/
def State.packetIn (s : State) (n v : Nat) (b : List Byte) : State :=
  let p := Packet.ofBytes b
  if p.type = 0 ∧ p.tunnelId = 0xFFF then s.linkPacketIn n v b
  else if p.type = 0 ∧ p.tunnelId = 0xFFE then s.secTunnelIn n (b.drop 16)
  else s.landPacket n v p p.credits

/-- Bytes that do not make a packet: one malformed packet, which acceptance drops for its length (05 R142). -/
def State.malformed (s : State) (n v : Nat) (b : List Byte) : State :=
  if b = [] then s
  else
    let p := Packet.ofBytes b
    let p := { p with len := if p.payload.length = p.len ∨ b.length < 16 then 2 ^ 14 - 1 else p.len }
    let r := s.pickN (ceilDiv b.length 64) (s.freeSegs n v)
    let s := r.2.frameIn (n / 6)
    let k := ceilDiv b.length 64
    ((s.addFld F.trkVcCreditRxHeld n v k).addParcel {
      id := 0, pkt := p, src := n, hall := n / 6, spot := .arrived, segs := r.1, vcBuf := some (n, v), credits := k,
      tbAccept := s.tb }).writeSegs (n / 6) r.1 b

/-- Split a byte stream into whole packets and what is left. -/
def splitPackets : Nat → List Byte → List (List Byte) × List Byte
  | 0, b => ([], b)
  | k + 1, b =>
    if b.length < 16 then ([], b)
    else
      let size := (Packet.ofBytes (b.take 16)).size
      if b.length < size then ([], b)
      else
        let r := splitPackets k (b.drop size)
        (b.take size :: r.1, r.2)

/-- Where the first packet header of a flit's data starts, given what the VC still holds of a packet; 511 when none does. -/
def firstStart (held data : List Byte) : Nat :=
  if held = [] then (if data = [] then 511 else 0)
  else
    let all := held ++ data
    if all.length < 16 then 511
    else
      let need := (Packet.ofBytes (all.take 16)).size - held.length
      if need < data.length then need else 511

/-- The data of a flit in sequence: the byte stream of its VC (05 R142, 06 R176). -/
def State.extract (s : State) (n : Nat) (f : HeldFlit) : State :=
  let t := s.trk n
  let held := unitGet [] t.vcRx f.vc
  let cont := unitGet none t.contRx f.vc
  let leads := held = [] ∧ f.pktOff ≠ 0 ∧ (s.mateOf n).isSome = true
  let run := fun (s : State) (b : List Byte) =>
    let r := splitPackets (b.length / 16 + 1) b
    let s := s.setTrk n { s.trk n with vcRx := unitSet [] (s.trk n).vcRx f.vc r.2 }
    r.1.foldl (fun s p => s.packetIn n f.vc p) s
  if cont.isSome ∨ leads then
    let s := match s.mateOf n with
      | some m =>
        if s.trkState m = 2 then
          let r := (s.trunkLost m 1).openValue
          r.2.setFld F.trkLinkStatusLostCause m 0 r.1.toNat
        else s
      | none => s
    let k := if f.pktOff = 511 then f.data.length else f.pktOff
    let s := s.setTrk n { s.trk n with contRx := unitSet none (s.trk n).contRx f.vc (some (cont.getD [] ++ f.data.take k)) }
    if f.pktOff = 511 then s else run (s.straddlerEnd n f.vc) (f.data.drop k)
  else if firstStart held f.data = f.pktOff then run s (held ++ f.data)
  else
    let s := s.trkCount n 9 1
    let s := s.setTrk n { s.trk n with vcRx := unitSet [] (s.trk n).vcRx f.vc [] }
    let k := if f.pktOff = 511 then f.data.length else f.pktOff
    run (s.malformed n f.vc (held ++ f.data.take k)) (f.data.drop k)

/-- RCV_NEXT moves over every flit held in sequence, oldest first. -/
def State.advance (s : State) (n : Nat) : Nat → State
  | 0 => s
  | k + 1 =>
    let r := s.rcvNext n
    match (s.trk n).store.find? (fun h => h.seq == r) with
    | none => s
    | some f =>
      let t := s.trk n
      let seen := t.losses.any (fun x => !x.resend && x.seq == r)
      let s := s.setTrk n { t with
        store := t.store.filter (fun h => h.seq != r),
        losses := t.losses.filter (fun x => if x.resend then !seqLt x.seq (seqNext r) else x.seq != r) }
      let s := s.setFld F.trkRxSeqRcvNext n 0 (seqNext r)
      let s := s.setFld F.trkRxSeqHeld n 0 (s.trk n).store.length
      let s := if seen then s.ackDue n else s
      (s.extract n f).advance n k

/-- Place a data flit (05 R140). -/
def State.place (s : State) (n : Nat) (f : Flit) : State :=
  let t := s.trk n
  if seqLt f.seq (s.rcvNext n) || t.store.any (fun h => h.seq == f.seq) then (s.trkCount n 4 1).ackDue n
  else
    let s := (s.wakeOn 3).setTrk n { t with
      store := t.store ++ [{ seq := f.seq, vc := f.vc, pktOff := f.pktOff, data := f.data, tbIn := s.tb }], sinceAck := t.sinceAck + 1 }
    let s := (s.trkCount n 2 1).setFld F.trkRxSeqHeld n 0 (s.trk n).store.length
    let s := if t.sinceAck + 1 = 16 then s.ackDue n else s.armOnce .trkAck n 0 500
    s.advance n (t.store.length + 1)

/-! One flit. -/

/-- Is a flit that passes FEC and CRC valid (05 R135)? Before PARAM has fixed the VCs there are two at least (assumption log
176). -/
def State.flitValid (s : State) (n : Nat) (f : Flit) : Bool :=
  let words := f.words.length
  !f.reserved && f.type != .landing && decide (words ≤ 4) &&
  decide (8 * words + f.len + (if f.enc then 16 else 0) ≤ 484) && f.data.length == f.len &&
  (f.pktOff == 511 || decide (f.pktOff < f.len)) && (!f.rs || f.type == .data) &&
  (match f.type with
    | .data => decide (1 ≤ f.len) && decide (f.vc < max 2 (s.fld F.trkLinkStatusNvcNow n))
    | .control => f.len == 0 && decide (1 ≤ words)
    | .idleFill => f.len == 0 && words == 0
    | .landing => false)

/-- What the receiver of lane l makes of a block: FEC and CRC (05 R136), the flit, and the security check of R158, which decrypts
the data. -/
def State.rxFlit (s : State) (n l : Nat) (block : List Byte) : RxFlit :=
  let d := fecDecode block
  let f := Flit.ofBytes d.bytes
  let on := s.flag F.trkLinkStatusSecOn n
  let plain := match (if on && f.enc then (s.sec n).rx f.kidx else none) with
    | some k => gcmOpen (s.slot k).key (flitIv (s.fld F.laneStatusPartnerLane l) (s.lane l).rxSession (s.lane l).flitsRx)
        f.open_ f.data (blockTag d.bytes)
    | none => none
  { flit := { f with data := plain.getD f.data }
    fec1 := d.fec1, fec2 := d.fec2, fecU := d.fecU
    lvl := (List.zipWith levelsOf block d.bytes).flatten
    crcOk := blockCrcOk d.bytes
    secOk := f.enc == on && (!on || plain.isSome) }

/-- A failed flit on lane l (FLIT_FAIL, 05 R136, R140). -/
def State.flitFail (s : State) (n l : Nat) : State :=
  let p := s.lanePos n l
  let s := (s.addSat F.trkPosRun n p 1 255).trkCount n 3 1
  if s.fld F.trkPosRun n p = 8 then s.laneWithdraw l 3 else s

/-- A flit that fails the security check: counted, signalled on Bell 10, and the 65th within 1 ms ends the trunk (05 R158). -/
def State.authFail (s : State) (n l : Nat) : State :=
  let times := (s.tb :: (s.trk n).authTimes).take 65
  let s := s.setTrk n { s.trk n with authTimes := times }
  let s := ((s.trkCount n 10 1).setFld F.trkLinkStatusAuthEvt n 0 1).ring 10 (40 + n)
  (if times.length = 65 ∧ s.tb ≤ times.getLastD 0 + ms 1 then s.trunkLost n 5 else s).flitFail n l

/-- The partner's initial active list: the position of this flit, from `base` (06 R162 step 3, R164). -/
def State.firstList (s : State) (n p base : Nat) : State :=
  s.setTrk n { s.trk n with rxLists := [(2 ^ p, base)], rxLeft := [], expect := unitSet 0 [] p base }

/-- Does the third or fifth row of *Receiver actions* apply to a new-data or filler flit on position p (05 R140, 06 R168,
R475): p is active, or has left the list and the flit's number is one the old list dealt to it, or that its fillers carry? -/
def Trunk.rowApplies (t : Trunk) (p : Nat) (f : Flit) : Bool :=
  t.rxMask.testBit p || (match unitGet none t.rxLeft p with
    | none => false
    | some x => f.seq == x || (t.rxDealt f.seq == some p && !seqLt f.seq (unitGet 0 t.expect p)))

/-- The row of *Receiver actions* for a good flit on position p of lane l: losses revealed, then the flit is placed. Resends
are placed by their number alone; a lane that waits to join takes none (06 R168). -/
def State.receiverRow (s : State) (n l p : Nat) (f : Flit) : State :=
  let t := s.trk n
  let c := unitGet 0 t.cnt l
  let s := if f.type = .data ∧ seqLt t.highSeen f.seq = true then s.setTrk n { t with highSeen := f.seq } else s
  let setC := fun (s : State) => s.setTrk n { s.trk n with cnt := unitSet 0 (s.trk n).cnt l f.rcnt }
  if f.rs then
    if t.rxLists = [] || t.rxMask.testBit p || (unitGet none t.rxLeft p).isSome then
      (setC (s.lostResends n l ((c + 1) % 16) f.rcnt)).place n f
    else s
  else if t.rowApplies p f then
    let s := (t.lostFirst p f.seq).foldl (fun (s : State) x => s.reportLoss n { resend := false, seq := x }) s
    let s := s.setTrk n { s.trk n with
      expect := unitSet 0 (s.trk n).expect p (if f.type = .data then seqNext f.seq else f.seq) }
    let s := setC (s.lostResends n l ((c + 1) % 16) ((f.rcnt + 1) % 16))
    if f.type = .data then s.place n f else s
  else s

/-- A lane receives a flit (FLIT_RECEIVE, 05 R140). -/
def State.flitReceive (s : State) (n l : Nat) (rx : RxFlit) : State :=
  if s.laneMode l ≠ 1 ∨ s.fld F.laneStatusState l ≠ 2 then s
  else
    let k := s.lane l
    let s := s.setLane l { k with flitsRx := k.flitsRx + 1, sinceRx := k.sinceRx + 1 }
    let s := (s.laneFec l rx.fec1 rx.fec2 rx.fecU (rx.fecU != 0)).laneLvl l rx.lvl
    if (s.trk n).withdrawn.contains l ∨ (s.trkState n ≠ 1 ∧ s.trkState n ≠ 2) then s
    else if rx.fecU ≠ 0 ∨ rx.crcOk = false then s.flitFail n l
    else if s.flitValid n rx.flit = false then (s.trkCount n 9 1).flitFail n l
    else if rx.secOk = false then s.authFail n l
    else
      let f := rx.flit
      let p := s.lanePos n l
      let s := if f.enc then s.rekeyFlit n f.kidx else s
      let s := s.setFld F.trkPosRun n p 0
      let s := if f.type ≠ .idleFill ∧ s.trkState n = 2 then s.arm .trkSilence n 0 750 else s
      let up := f.type == .data || f.words.any (fun w => match w with
        | .credit .. => true
        | _ => false)
      let s := f.words.foldl (fun s w => s.ctlReceive n f.words w) s
      let s := if up && s.trkState n == 2 then s.setTrk n { s.trk n with resumeSay := false } else s
      if s.trkState n ≠ 1 ∧ s.trkState n ≠ 2 then s
      else
        let t := s.trk n
        let isParam := f.type == .data && t.training == .resume && f.seq == 0 && f.vc == 0 && f.pktOff == 0 &&
          (let b := Packet.ofBytes f.data
           b.type == 0 && b.tunnelId == 0xFFF && b.payload.getD 0 0 == 1)
        if isParam then s.linkPacketIn n 0 (f.data.take (Packet.ofBytes f.data).size)
        else if f.type = .data ∧ seqLt f.seq (s.rcvNext n) = false ∧ t.rxWindow ≤ seqDist (s.rcvNext n) f.seq then
          s.trkCount n 9 1
        else
          let first := f.type == .data && t.rxLists == [] && (if t.training == .fromDown then f.seq == 0 else !f.rs)
          let s := if first then s.firstList n p f.seq else s
          s.receiverRow n l p f

end Sys2Proof.Machine
end

