-- ==== Sys2Proof/Machine/Lanes.lean ====
section
/-! DEFINITION. The commands of quads and lanes (spec/04_lanes.md R107 to R132). -/

namespace Sys2Proof.Machine

/-! Quads (04 R107 to R110). -/

/-- Write `QUADq_PERSONALITY` (04 R107, R108): refused with the first error found, otherwise applied; the PLLs relock. -/
def State.personalityWrite (s : State) (q : Nat) (v : BitVec 64) : State :=
  match s.personalityError q v with
  | some (code, info) => s.quadRefuse q code info
  | none =>
    let s := s.storeReg .quadPersonality q 0 v
    let s := ((s.setFld F.quadStatusReady q 0 0).setFld F.quadStatusALock q 0 0).setFld F.quadStatusBLock q 0 0
    let s := if s.fld F.quadPersonalityMode q = 0 then (quadLanes q).foldl (fun s l => s.laneOff l) s else s
    s.pllUpdate q

/-- QUAD_PERSONALITY_WRITE (04 R107). -/
def execQuadPersonalityWrite (q : Fin 12) (value : BitVec 64) (s : State) : Host.Outcome State Fault Refusal :=
  .next (s.personalityWrite q.val value)

/-- The PLLs of a quad have relocked (QUAD_READY, 04 R108): lanes enabled meanwhile start. They cannot while REFCLK is
absent. -/
def State.quadReady (s : State) (q : Nat) : State :=
  if s.flag F.quadStatusReady q || !(s.quad q).refPresent then s
  else
    let on := if s.fld F.quadPersonalityMode q = 0 then 0 else 1
    let s := s.setFld F.quadStatusReady q 0 1
    let s := (s.setFld F.quadStatusALock q 0 on).setFld F.quadStatusBLock q 0 (if s.fld F.quadPersonalityMode q = 2 then 0 else on)
    (quadLanes q).foldl (fun s l => if (s.lane l).enWaiting then s.laneStart l else s) s

/-- QUAD_READY (04 R108). -/
def execQuadReady (q : Fin 12) (s : State) : Host.Outcome State Fault Refusal := .next (s.quadReady q.val)

/-- The quads of a Hall. -/
def hallQuads (h : Nat) : List Nat := (List.range 3).map (fun k => 3 * h + k)

/-- REFCLK of a Hall is absent (04 R110). -/
def State.refLoss (s : State) (h : Nat) : State :=
  (hallQuads h).foldl (fun s q =>
    let looped := s.flag F.quadPllBLoop q && s.fld F.quadPersonalityMode q == 1
    let s := s.setQuad q { s.quad q with refPresent := false }
    let s := (s.setFld F.quadStatusAHold q 0 1).setFld F.quadStatusRefLoss q 0 1
    let s := if looped then s else s.setFld F.quadStatusBHold q 0 1
    s.ring 8 (32 + q)) s

/-- REFCLK of a Hall has returned (04 R110): each PLL relocks with no phase step. -/
def State.refReturn (s : State) (h : Nat) : State :=
  (hallQuads h).foldl (fun s q =>
    let looped := s.flag F.quadPllBLoop q && s.fld F.quadPersonalityMode q == 1
    let s := s.setQuad q { s.quad q with refPresent := true }
    let s := s.setFld F.quadStatusAHold q 0 0
    if looped then s else s.setFld F.quadStatusBHold q 0 0) s

/-- REFCLK_LOSS (04 R110); a REFCLK that is absent already is lost no second time. -/
def execRefclkLoss (h : Fin 4) (s : State) : Host.Outcome State Fault Refusal :=
  if (s.quad (3 * h.val)).refPresent then .next (s.refLoss h.val) else .next s

/-- REFCLK_RETURN (04 R110). -/
def execRefclkReturn (h : Fin 4) (s : State) : Host.Outcome State Fault Refusal :=
  if (s.quad (3 * h.val)).refPresent then .next s else .next (s.refReturn h.val)

/-! Enabling lanes (04 R108, R131; 05 R147). -/

/-- `EN` goes from 0 to 1. -/
def State.laneEnable (s : State) (l : Nat) : State :=
  if s.flag F.laneCtrlEn l then s
  else (((s.setFld F.laneCtrlEn l 0 1).laneClr l).setFld F.lanePrbsSat l 0 0).laneStart l

/-- `EN` goes from 1 to 0: idle without a marker, and withdrawn from a trunk that is UP. -/
def State.laneDisable (s : State) (l : Nat) : State :=
  if s.flag F.laneCtrlEn l then ((s.setFld F.laneCtrlEn l 0 0).laneOff l).laneWithdraw l 4 else s

/-- LANE_ENABLE (04 R131). -/
def execLaneEnable (n : Fin 48) (s : State) : Host.Outcome State Fault Refusal := .next (s.laneEnable n.val)

/-- LANE_DISABLE (05 R147, 04 R125). -/
def execLaneDisable (n : Fin 48) (s : State) : Host.Outcome State Fault Refusal := .next (s.laneDisable n.val)

/-- Write `LANEn_TXEQ` (04 R122). With OVERRIDE = 0 in BIRIQUE and PCIE_RC the far end sets the coefficients, and a write changes
OVERRIDE alone (assumption log 178). -/
def State.txeqWrite (s : State) (l : Nat) (v : BitVec 64) : State :=
  if !txeqOk v then s.quadRefuse (l / 4) 9 (l % 4)
  else if wr F.laneTxeqOverride v = 1 ∨ (s.laneMode l ≠ 1 ∧ s.laneMode l ≠ 4) then s.storeReg .laneTxeq l 0 v
  else s.setFld F.laneTxeqOverride l 0 0

/-- The coefficients that PCI Express sets on a lane (04 R122), unless `OVERRIDE` stands or they break the limits. -/
def State.pcieEq (s : State) (l : Nat) (e : PcieEq) : State :=
  let v := s.reg .laneTxeq l
  let v := fldPut F.laneTxeqCPre1 e.pre1.toNat (fldPut F.laneTxeqCMain e.main.toNat (fldPut F.laneTxeqCPost1 e.post1.toNat v))
  let v := fldPut F.laneTxeqCPre2 0 (fldPut F.laneTxeqCPost2 0 v)
  if s.flag F.laneTxeqOverride l || !txeqOk v then s else s.setReg .laneTxeq l 0 v

/-- LANE_TXEQ_WRITE (04 R122). -/
def execLaneTxeqWrite (n : Fin 48) (value : BitVec 64) (s : State) : Host.Outcome State Fault Refusal :=
  .next (s.txeqWrite n.val value)

/-! Landing markers (04 R117 to R119, R122, R125). -/

/-- Does lane l transmit with spreading: a MASTER past the parameter check whose PLL spreads, or a looped lane whose PLL B
copies a master that spreads (04 R111, R112; 06 R162 step 4)? -/
def State.spreads (s : State) (l : Nat) : Bool :=
  let q := l / 4
  if s.flag F.laneStatusLooped l then
    !s.flag F.quadStatusBHold q && (match (s.quad q).follow with
      | some k => (s.lane k).peerSpread
      | none => false)
  else
    match s.trkOf l with
    | some n => s.fld F.trkCfgRole n == 0 && ((s.trk n).param.isSome || (s.trk n).training != .fromDown) &&
        s.laneSsc l != 0
    | none => false

/-- The marker lane l sends now (04 R118); LANE_ID names trunk 0 on a lane of no enabled trunk (assumption log 175). -/
def State.markerOf (s : State) (l : Nat) (training idle : Bool) (tap : Nat) (up : Bool) : Marker :=
  let k := s.lane l
  { crcOk := true, flitCount := k.flitsTx, session := k.txSession, lane := l, trunk := (s.trkOf l).getD 0,
    txeqLimit := k.txeqLimit, txeqAck := k.txeqAck, txeqUp := up, txeqTap := tap, spread := s.spreads l,
    precodeOn := s.flag F.laneStatusPreTx l, precodeReq := k.reqPrecode, rxReady := k.rxReady, training := training,
    idleNext := idle }

/-- Send a marker: the request for precoding takes effect with it, and so does loop timing (06 R162 step 4); the count of 4,096
starts afresh. -/
def State.sendMarker (s : State) (l : Nat) (training idle : Bool) (tap : Nat) (up : Bool) : State :=
  let s := s.setFld F.laneStatusPreTx l 0 (if (s.lane l).precodeNext then 1 else 0)
  let s := if (s.lane l).pllselDue then
      ((s.setFld F.laneCtrlPllsel l 0 1).setLane l { s.lane l with pllselDue := false }).pllUpdate (l / 4)
    else s
  let s := s.emit (.marker l (s.markerOf l training idle tap up))
  s.setLane l { s.lane l with txeqLimit := false, txeqAck := false, sinceTx := 0 }

/-- Announced idle (04 R125): a marker with IDLE_NEXT, then electrical idle. -/
def State.idleEntry (s : State) (l : Nat) : State :=
  let s := s.sendMarker l false true 0 false
  s.setLane l { s.lane l with txIdle := true, idleSince := s.tb, idleAnnounced := true, idlePending := false }

/-- Has a receiver with this first DFE tap to ask for precoding (04 R117)? NRZ lanes never precode. -/
def State.wantPrecode (s : State) (l : Nat) (dfe : BitVec 8) : Bool :=
  s.fld F.laneCtrlRate l != 2 && (match s.fld F.laneCtrlPrecode l with
    | 0 => decide (40 < dfe.toInt.natAbs)
    | 1 => true
    | _ => false)

/-- The receiver of a lane has adapted, with its first DFE tap; under `FREEZE` the tap is the one held (04 R117, R123, R126). -/
def State.adapted (s : State) (l : Nat) (dfe : BitVec 8) : State :=
  let tap := if s.flag F.laneRxeqFreeze l then BitVec.ofNat 8 (s.dfe1Now l 0) else dfe
  s.setLane l { s.lane l with rxReady := true, reqPrecode := s.wantPrecode l tap }

/-- A refresh ends at this end, which has adapted and seen RX_READY (04 R126): its marker with TRAINING = 0, then flits. An idle
request that has waited for it follows at once (R127). -/
def State.refreshDone (s : State) (l tap : Nat) (up : Bool) : State :=
  let wait := (s.lane l).idlePending
  let s := (s.sendMarker l false false tap up).disarm .laneRefresh l 0
  let s := ((s.setLane l { s.lane l with rxIdle := false }).laneState l 2).idleCheck l
  if wait then s.idleEntry l else s

/-- LANDING_MARKER_SEND (04 R118): the marker after 4,096 flits, or of a training or refresh sequence. `tap` and `up` are the
step this end's receiver asks for, `ready` the first DFE tap when its adaptation has ended. In a refresh the end that has
adapted and has seen RX_READY sends TRAINING = 0 and is ACTIVE (R126). -/
def State.markerSend (s : State) (l tap : Nat) (up : Bool) (ready : Option (BitVec 8)) : State :=
  let st := s.fld F.laneStatusState l
  if s.laneMode l ≠ 1 ∨ (s.lane l).txIdle = true then s
  else
    let s := match ready with
      | some d => if st = 1 ∨ st = 5 then s.adapted l d else s
      | none => s
    let k := s.lane l
    if st = 5 ∧ k.rxReady = true ∧ k.peerReady = true then s.refreshDone l tap up
    else if st = 1 ∨ st = 5 then s.sendMarker l true false tap up
    else if s.laneOn l then s.sendMarker l false false tap up
    else s

/-- LANDING_MARKER_SEND (04 R118). -/
def execLandingMarkerSend (n : Fin 48) (tap : Fin 6) (up : Bool) (ready : Option (BitVec 8)) (s : State) :
    Host.Outcome State Fault Refusal :=
  .next (s.markerSend n.val tap.val up ready)

/-- A lane goes to TRAINING because alignment, count or session failed: the trunk is told, then the lane trains. -/
def State.laneRetrain (s : State) (l : Nat) : State :=
  ((s.setFld F.laneStatusAligned l 0 0).laneWithdraw l 2).laneTrain l

/-- The alignment a matched window gives (LANE_ALIGNED, 04 R119); a LOOP end in training then leaves idle (06 R162). -/
def State.markerAlign (s : State) (l blocks : Nat) : State :=
  let k := s.lane l
  let s := s.setFld F.laneStatusLos l 0 0
  let s := if s.flag F.laneStatusAligned l then s
    else if k.matchSeen ∧ blocks = 4097 then
      let s := s.setFld F.laneStatusAligned l 0 1
      if s.fld F.laneStatusState l = 1 then s.setLane l { s.lane l with txIdle := false } else s
    else s
  let s := s.pllUpdate (l / 4)
  let s := s.setLane l { s.lane l with matchSeen := true, sinceRx := 0 }
  match s.trkOf l with
  | some n => s.setTrk n { s.trk n with leftIdle := true }
  | none => s

/-- The fields of a marker whose CRC passes (04 R117, R119, R122, R125, R126, R128). A marker of a refresh that the partner
starts has RX_READY = 0; one with RX_READY = 1 outside a refresh is late from the refresh just ended (assumption log 180). -/
def State.markerFields (s : State) (l : Nat) (m : Marker) : State :=
  let k := s.lane l
  let st := s.fld F.laneStatusState l
  if st ≠ 1 ∧ ((k.rxSessionKnown = true ∧ m.session ≠ k.rxSession) ∨ m.flitCount ≠ k.flitsRx) then
    s.laneRetrain l
  else
    let pam4 := if st = 1 then s.fld F.laneCtrlRate l != 2 else s.fld F.laneStatusRateNow l != 2
    let s := s.setLane l { k with
      rxSession := m.session, rxSessionKnown := true, peerSpread := m.spread, peerReady := k.peerReady || m.rxReady,
      precodeNext := if m.training then m.precodeReq && pam4 else k.precodeNext, crcFailTb := none }
    let s := (s.setFld F.laneStatusPartnerLane l 0 (128 + m.lane % 64)).setFld F.laneStatusPreRx l 0 (if m.precodeOn then 1 else 0)
    let s := if m.txeqTap = 0 then s else s.txeqStep l m.txeqTap m.txeqUp
    if m.training then
      if st = 1 ∨ st = 5 ∨ m.rxReady = true then s else ((s.laneRefresh l).disarm .laneExit l 0).idleCheck l
    else
      let s := if st = 3 ∨ st = 4 then
          let s := (s.setLane l { s.lane l with rxIdle := false }).disarm .laneExit l 0
          (s.laneState l 2).idleCheck l
        else if st = 5 ∧ (s.lane l).rxReady = true ∧ (s.lane l).peerReady = true then s.refreshDone l 0 false
        else s
      if m.idleNext ∧ s.fld F.laneStatusState l = 2 then
        (((s.setLane l { s.lane l with rxIdle := true, stored := true }).laneState l 3).rxIdled l).idleCheck l
      else s

/-- A receiver matches a marker `blocks` blocks after the previous match (LANDING_MARKER_RECEIVE, 04 R119). -/
def State.markerReceive (s : State) (l : Nat) (m : Marker) (blocks : Nat) : State :=
  let st := s.fld F.laneStatusState l
  if s.laneMode l ≠ 1 ∨ st < 1 ∨ 5 < st ∨ 2 ≤ s.fld F.pwrStatusState then s
  else
    let s := s.markerAlign l blocks
    if m.crcOk then s.markerFields l m else s.setLane l { s.lane l with crcFailTb := some s.tb }

/-- LANDING_MARKER_RECEIVE (04 R119). -/
def execLandingMarkerReceive (n : Fin 48) (m : Marker) (blocks : Nat) (s : State) : Host.Outcome State Fault Refusal :=
  .next (s.markerReceive n.val m blocks)

/-- MARKER_LOSS_ALIGN (04 R119): three consecutive scheduled markers are missing. -/
def execMarkerLossAlign (n : Fin 48) (s : State) : Host.Outcome State Fault Refusal :=
  if s.laneMode n.val = 1 ∧ s.flag F.laneStatusAligned n.val = true ∧ s.fld F.laneStatusState n.val = 2 then
    .next (s.laneRetrain n.val)
  else .next s

/-- LANE_LOS (04 R124, R129): no signal for 64 ns. A loss within 20 ns after a marker whose CRC failed is taken as announced
idle; any other sets LOS and is reported to the trunk. DP_TX lanes only transmit (R120). -/
def execLaneLos (n : Fin 48) (s : State) : Host.Outcome State Fault Refusal :=
  let st := s.fld F.laneStatusState n.val
  if s.laneMode n.val = 3 ∨ st = 3 then .next s
  else if s.laneMode n.val = 1 ∧ (match (s.lane n.val).crcFailTb with
      | some t => decide (s.tb ≤ t + 84)
      | none => false) = true then
    .next ((((s.setLane n.val { s.lane n.val with rxIdle := true, stored := true, crcFailTb := none }).laneState n.val 3).rxIdled
      n.val).idleCheck n.val)
  else .next (((s.setFld F.laneStatusLos n.val 0 1).laneWithdraw n.val 1).pllUpdate (n.val / 4))

/-! Electrical idle (04 R125 to R128). -/

/-- Firmware asks for announced idle (04 R125): at once on a lane that carries flits, at its end during a refresh; a request
during TRAINING or TEST has no effect (assumption log 173). -/
def State.idleRequest (s : State) (l : Nat) : State :=
  if s.laneMode l = 1 ∧ s.laneOn l = true then s.idleEntry l
  else if s.laneMode l = 1 ∧ s.fld F.laneStatusState l = 5 then s.setLane l { s.lane l with idlePending := true }
  else s

/-- Firmware asks for the exit (04 R126): a fast exit after no more than 10 ms of idle, otherwise a refresh. -/
def State.idleRelease (s : State) (l : Nat) : State :=
  let k := s.lane l
  if s.laneMode l ≠ 1 ∨ k.txIdle = false ∨ k.idleAnnounced = false then s
  else if s.tb ≤ k.idleSince + ms 10 then
    let s := (s.emit (.burst l)).setLane l { k with txIdle := false, idleAnnounced := false }
    s.sendMarker l false false 0 false
  else (s.laneRefresh l).idleCheck l

/-- LANE_IDLE_ENTRY (04 R125, R127): on request of the trunk or of `IDLE`; during an exit it waits for the exit's marker. -/
def execLaneIdleEntry (n : Fin 48) (s : State) : Host.Outcome State Fault Refusal := .next (s.idleRequest n.val)

/-- LANE_IDLE_EXIT (04 R126): a fast exit after no more than 10 ms of idle, otherwise a refresh. -/
def execLaneIdleExit (n : Fin 48) (s : State) : Host.Outcome State Fault Refusal := .next (s.idleRelease n.val)

/-- LANE_SIGNAL_DETECT (04 R126, *Fast exit*): a receiver in IDLE sees the exit burst. -/
def execLaneSignalDetect (n : Fin 48) (s : State) : Host.Outcome State Fault Refusal :=
  let on := (s.trkOf n.val).isSome
  if 2 ≤ s.fld F.pwrStatusState then .next (if on then s.wakeOn 3 else s)
  else if s.laneMode n.val = 1 ∧ s.fld F.laneStatusState n.val = 3 then .next ((s.laneState n.val 4).arm .laneExit n.val 0 (us 1))
  else .next s

/-- FAST_EXIT_FAIL (04 R128): 1 us after signal detect there is no valid marker. -/
def execFastExitFail (n : Fin 48) (s : State) : Host.Outcome State Fault Refusal :=
  let st := s.fld F.laneStatusState n.val
  if s.due .laneExit n.val ∧ (st = 3 ∨ st = 4) then .next (((s.laneRefresh n.val).disarm .laneExit n.val 0).idleCheck n.val)
  else .next s

/-- LANE_REFRESH_TIMEOUT (04 R126): a full retrain follows. -/
def execLaneRefreshTimeout (n : Fin 48) (s : State) : Host.Outcome State Fault Refusal :=
  if s.due .laneRefresh n.val ∧ s.fld F.laneStatusState n.val = 5 then .next (s.laneRetrain n.val) else .next s

/-- A background training has failed: the next attempt follows 1 ms later, up to eight (06 R169). -/
def State.badLaneAgain (s : State) (l : Nat) : State :=
  match s.trkOf l with
  | some n =>
    let k := unitGet 0 (s.trk n).retrains (s.lanePos n l)
    if 0 < k ∧ k < 8 ∧ s.trkState n = 2 then s.arm .badLane l 0 (ms 1) else s
  | none => s

/-- LANE_TRAIN_TIMEOUT (04 R126): 2 ms without an end; FAILED, and Bell 8. -/
def execLaneTrainTimeout (n : Fin 48) (s : State) : Host.Outcome State Fault Refusal :=
  if s.due .laneTrain n.val ∧ s.fld F.laneStatusState n.val = 1 then
    .next (((s.disarm .laneTrain n.val 0).laneState n.val 6).badLaneAgain n.val)
  else .next s

/-- What a trunk keeps per lane starts afresh when the lane has trained (05 *Flit header* RCNT, R140, R146, R147). -/
def State.laneFresh (s : State) (n l : Nat) : State :=
  let p := s.lanePos n l
  let t := s.trk n
  let s := s.setTrk n { t with
    rcnt := unitSet 0 t.rcnt l 0, resendLog := unitSet [] t.resendLog l [], cnt := unitSet 0 t.cnt l 0,
    withdrawn := t.withdrawn.filter (· != l), retrains := unitSet 0 t.retrains p 0, cut := maskDel t.cut p,
    txLeft := unitSet none t.txLeft p none, rxLeft := unitSet none t.rxLeft p none }
  let s := s.setBad n (maskDel (s.badMask n) p)
  ((s.setFld F.trkPosRun n p 0).setFld F.trkPosNacks n p 0).disarm .badLane l 0

/-- A lane has trained (LANE_TRAINED, 06 R162 step 2, 04 R121). A TD212 lane aligns under 04 R120 instead. -/
def State.laneTrained (s : State) (l rate : Nat) (inverted : Bool) (eq : Option PcieEq) : State :=
  if s.fld F.laneStatusState l ≠ 1 ∨ s.laneMode l = 2 then s
  else
    let s := s.disarm .laneTrain l 0
    if s.laneMode l = 3 then s.laneState l 2
    else
    let s := (s.setFld F.laneStatusAligned l 0 1).setFld F.laneStatusLos l 0 0
    if s.laneMode l = 4 then
      let s := s.setLane l { s.lane l with speed := rate }
      (match eq with
        | some e => s.pcieEq l e
        | none => s).laneState l 2
    else if s.laneMode l ≠ 1 then s.laneState l 2
    else
      let rate := max (min rate 2) (s.fld F.laneCtrlRate l)
      let s := (s.setFld F.laneStatusRateNow l 0 rate).setFld F.laneCtrlRxInv l 0 (if inverted then 1 else 0)
      let s := if rate = 2 then (s.setFld F.laneStatusPreRx l 0 0).setFld F.laneStatusPreTx l 0 0 else s
      let s := s.setLane l { s.lane l with
        txIdle := false, flitsTx := 0, flitsRx := 0, sinceTx := 0, sinceRx := 0, rxReady := true, peerReady := true,
        precodeNext := (s.lane l).precodeNext && rate != 2 }
      let s := s.laneState l 2
      match s.trkOf l with
      | some n => (s.laneFresh n l).laneCarry n l
      | none => s

/-- LANE_TRAINED (06 R162): what the training settled on, and whether the marker correlation was negative. -/
def execLaneTrained (n : Fin 48) (found : LaneFound) (inverted : Bool) (s : State) : Host.Outcome State Fault Refusal :=
  .next (s.laneTrained n.val found.rate.val inverted found.eq)

/-! Patterns and counters (04 R130 to R132). -/

/-- Does lane l belong to a trunk that has trained, Birique or TD-212, or to an enabled unit? -/
def State.laneInUse (s : State) (l : Nat) : Bool :=
  (match s.trkOf l with
    | some n => if s.isTd n then s.fld F.trkTdStatusState n == 3 else s.trkState n == 2
    | none => false) || (s.laneUnit l).isSome

/-- Write the pattern fields: PRBS generator, checker and loopback (04 R130). Leaving TEST, a lane with `EN` trains. A lane that
is not enabled, or whose quad is not ready, enters TEST as any other (assumption log 174). -/
def State.prbsWrite (s : State) (l : Nat) (gen chk : Bool) (pattern lpbk : Nat) : State :=
  let any := gen || chk || lpbk != 0
  if 6 < pattern ∨ 2 < lpbk then s.quadRefuse (l / 4) 9 (l % 4)
  else if any && s.laneInUse l then s.quadRefuse (l / 4) 8 (l % 4)
  else
    let s := (s.setFld F.lanePrbsGenEn l 0 (if gen then 1 else 0)).setFld F.lanePrbsChkEn l 0 (if chk then 1 else 0)
    let s := (s.setFld F.lanePrbsPattern l 0 pattern).setFld F.laneCtrlLpbk l 0 lpbk
    let s := if chk then s else s.setFld F.lanePrbsChkLock l 0 0
    if any then
      let s := (s.setLane l { s.lane l with txIdle := false, rxIdle := false }).disarm .laneTrain l 0
      ((s.disarm .laneRefresh l 0).disarm .laneExit l 0).laneState l 7
    else if s.fld F.laneStatusState l = 7 then (if s.flag F.laneCtrlEn l then s.laneStart l else s.laneOff l)
    else s

/-- LANE_PRBS_CTRL (04 R130). -/
def execLanePrbsCtrl (n : Fin 48) (gen chk : Bool) (pattern : Fin 16) (lpbk : Fin 4) (s : State) :
    Host.Outcome State Fault Refusal :=
  .next (s.prbsWrite n.val gen chk pattern.val lpbk.val)

/-- Does the checker of a lane run: `CHK_EN` in TEST; DP_TX lanes have none? -/
def State.checking (s : State) (l : Nat) : Bool :=
  s.fld F.laneStatusState l == 7 && s.flag F.lanePrbsChkEn l && s.laneMode l != 3

/-- Bits compared by a locked checker, of which `errs` in error, and the levels of wrong symbols (04 R131, R132): ERRCNT,
BITCNT and LVLERR stop together when BITCNT is full. -/
def State.prbsCount (s : State) (l bits errs : Nat) (levels : List Nat) : State :=
  if !s.checking l || !s.flag F.lanePrbsChkLock l || s.flag F.lanePrbsSat l then s
  else
    let s := if s.fld F.lanePrbsPattern l = 6 then s.laneLvl l levels else s
    let s := (s.addSat F.laneCntCount l 0 errs cnt48).addSat F.laneCntCount l 1 bits cnt48
    if s.fld F.laneCntCount l 1 = cnt48 then s.setFld F.lanePrbsSat l 0 1 else s

/-- PRBS_CHK_LOCK (04 R130). -/
def execPrbsChkLock (n : Fin 48) (s : State) : Host.Outcome State Fault Refusal :=
  if s.checking n.val then .next (s.setFld F.lanePrbsChkLock n.val 0 1) else .next s

/-- PRBS_CHK_LOSS (04 R130). `bits` and `wrong` are what the checker compared since its counters were last brought up to
date. -/
def execPrbsChkLoss (n : Fin 48) (bits : Nat) (wrong : PrbsErrs) (s : State) : Host.Outcome State Fault Refusal :=
  if s.checking n.val && s.flag F.lanePrbsChkLock n.val then
    .next (((s.prbsCount n.val bits wrong.errs wrong.levels).setFld F.lanePrbsChkLock n.val 0 0).addSat F.lanePrbsLossCnt n.val 0 1 255)
  else .next s

/-- Copy every counter of a lane (04 R131). -/
def State.laneSnap (s : State) (l : Nat) : State :=
  (List.range 10).foldl (fun s i => s.setReg .laneSnap l i (s.reg .laneCnt l i)) s

/-- LANE_COUNTER_SNAP (04 R131). -/
def execLaneCounterSnap (n : Fin 48) (s : State) : Host.Outcome State Fault Refusal := .next (s.laneSnap n.val)

/-- Zero the counters, LOSS_CNT and SAT (04 R131). -/
def State.laneClrAll (s : State) (l : Nat) : State :=
  ((s.laneClr l).setFld F.lanePrbsLossCnt l 0 0).setFld F.lanePrbsSat l 0 0

/-- LANE_COUNTER_CLR (04 R131). -/
def execLaneCounterClr (n : Fin 48) (s : State) : Host.Outcome State Fault Refusal := .next (s.laneClrAll n.val)

/-- LANE_SNR_UPDATE (04 R132): in ACTIVE and TEST. `bits`, `errs` and `levels` are what a locked checker compared since its
counters were last brought up to date. -/
def execLaneSnrUpdate (n : Fin 48) (snr : Fin 256) (bits errs : Nat) (levels : List Nat) (s : State) :
    Host.Outcome State Fault Refusal :=
  if s.fld F.laneStatusState n.val = 2 ∨ s.fld F.laneStatusState n.val = 7 then
    .next ((s.setFld F.laneStatusSnr n.val 0 snr.val).prbsCount n.val bits errs levels)
  else .next s

end Sys2Proof.Machine
end

