-- ==== Sys2Proof/Machine/Trunks.lean ====
section
/-! DEFINITION. The commands of Birique trunks: flits, timers, training, width changes and pairs
(spec/05_birique_link.md, spec/06_trunks_and_failover.md). TRUNK_ENABLE and TRUNK_DISABLE, which serve TD-212 trunks too,
are in TrunkCtl. -/

namespace Sys2Proof.Machine

/-! Flits and link timers (05). -/

/-- FLIT_SLOT (05 R139). -/
def execFlitSlot (n : Fin 48) (s : State) : Host.Outcome State Fault Refusal := .next (s.flitSlot n.val)

/-- FLIT_RECEIVE (05 R134 to R140): the 512 bytes of a block on lane n. -/
def execFlitReceive (n : Fin 48) (block : List Byte) (s : State) : Host.Outcome State Fault Refusal :=
  .next (match s.trkOf n.val with
    | none => s
    | some k => s.flitReceive k n.val (s.rxFlit k n.val block))

/-- ACK_TIMER (05 R141): 500 ns after a flit that no ACK covers. -/
def execAckTimer (n : Fin 24) (s : State) : Host.Outcome State Fault Refusal :=
  if s.due .trkAck n.val then .next ((s.disarm .trkAck n.val 0).ackDue n.val) else .next s

/-- Is a reported copy still missing (05 R142)? -/
def State.stillMissing (s : State) (n : Nat) (r : LossReport) : Bool :=
  if r.resend then !seqLt r.seq (s.rcvNext n) else s.missing n r.seq

/-- Report again every copy whose last report is a retry interval old (05 R142). -/
def State.lossRepeat (s : State) (n : Nat) : State :=
  if s.trkState n ≠ 2 then s
  else
    let again := (s.trk n).losses.filter (fun r => s.stillMissing n r && decide (r.at_ + s.retryNs n ≤ s.tb))
    let s := again.foldl (fun (s : State) r =>
      (s.addDue n (if r.resend then .rnack r.lane (2 ^ r.rcnt) else .nack r.seq 0)).trkCount n 6 1) s
    s.setTrk n { s.trk n with losses := (s.trk n).losses.map (fun r => if again.contains r then { r with at_ := s.tb } else r) }

/-- LOSS_REPORT_REPEAT (05 R142). -/
def execLossReportRepeat (n : Fin 24) (s : State) : Host.Outcome State Fault Refusal := .next (s.lossRepeat n.val)

/-- The retry timer has expired (05 R145): the oldest unacknowledged flit is resent; the sixteenth expiry in a row ends the
trunk. -/
def State.retryExpire (s : State) (n : Nat) : State :=
  let k := (s.trk n).expiries + 1
  let s := (s.trkCount n 8 1).setTrk n { (s.trkCount n 8 1).trk n with expiries := k }
  if 16 ≤ k ∧ s.trkState n = 2 then s.trunkLost n 4
  else
    let s := match (s.trk n).replay with
      | [] => s
      | e :: _ => s.requestResend n [e.seq]
    s.retryTimer n

/-- RETRY_TIMER_EXPIRE (05 R145). -/
def execRetryTimerExpire (n : Fin 24) (s : State) : Host.Outcome State Fault Refusal :=
  if s.due .trkRetry n.val then .next (s.retryExpire n.val) else .next s

/-- CREDIT_ADVERTISE_TIMER (05 R153): 500 ns after an advance, or 10 us after the last CREDIT word. -/
def execCreditAdvertiseTimer (n : Fin 24) (vc : Fin 8) (s : State) : Host.Outcome State Fault Refusal :=
  if s.due .trkCredit n.val vc.val || s.due .trkCreditAll n.val vc.val then
    let s := s.addDue n.val (.credit vc.val (unitGet 0 (s.trk n.val).limit vc.val))
    .next ((s.disarm .trkCredit n.val vc.val).arm .trkCreditAll n.val vc.val (us 10))
  else .next s

/-- HEARTBEAT (05 R155): 250 ns without a DATA flit; silent while every lane rests in announced idle. -/
def execHeartbeat (n : Fin 24) (s : State) : Host.Outcome State Fault Refusal :=
  if s.due .trkBeat n.val then
    let s := s.arm .trkBeat n.val 0 250
    if s.trkState n.val = 2 ∧ (s.trkLanes n.val).any (fun l => !(s.lane l).txIdle) = true then .next (s.ackDue n.val)
    else .next s
  else .next s

/-- TRUNK_HEARTBEAT_LOSS (05 R156): 750 ns without a DATA or CONTROL flit while some lane is outside announced idle. -/
def execTrunkHeartbeatLoss (n : Fin 24) (s : State) : Host.Outcome State Fault Refusal :=
  if s.due .trkSilence n.val then
    if (s.trkLanes n.val).any (fun l => !(s.lane l).rxIdle) then .next (s.trunkLost n.val 1)
    else .next (s.arm .trkSilence n.val 0 750)
  else .next s

/-- FLUSH (05 R156, 06 R163): only in DOWN and LOST; a trunk that was to resume trains from DOWN instead, with a nonce the
hub draws. -/
def State.trunkFlush (s : State) (n : Nat) : State :=
  if s.trkState n = 0 ∨ s.trkState n = 3 then
    let lost := s.trkState n = 3
    let s := s.flushTrunk n true
    if lost ∧ s.flag F.trkCfgEn n = true then
      let r := s.openValue
      r.2.trainDown n r.1
    else s
  else s

/-- TRUNK_FLUSH (05 R156). -/
def execTrunkFlush (n : Fin 24) (s : State) : Host.Outcome State Fault Refusal := .next (s.trunkFlush n.val)

/-- Zero the link counters; a stall that lasts is counted from now on. -/
def State.trunkClr (s : State) (n : Nat) : State :=
  let s := s.setTrk n { s.trk n with stallSince := (s.trk n).stallSince.map (fun _ => s.tb) }
  (List.range 13).foldl (fun s i => s.setReg .trkCnt n i 0) s

/-- TRUNK_LINK_COUNTER_CLR (05 *TRKn_LINK_CTRL*, CLR). -/
def execTrunkLinkCounterClr (n : Fin 24) (s : State) : Host.Outcome State Fault Refusal := .next (s.trunkClr n.val)

/-- Bytes of a `TRKn_VC_CFG` value, each stored as at least 8. -/
def vcCfgStored (v : BitVec 64) : BitVec 64 :=
  BitVec.ofNat 64 (((List.range 8).map (fun k => max 8 (v.toNat / 2 ^ (8 * k) % 256) * 2 ^ (8 * k))).sum)

/-- Write `TRKn_VC_CFG` (05 R151): refused above 896 KiB in the Hall. -/
def State.vcCfgWrite (s : State) (n : Nat) (v : BitVec 64) : State :=
  let s' := s.setReg .trkVcCfg n 0 (vcCfgStored v)
  let bytes := ((hallTrunks (n / 6)).map (fun k =>
    if s.flag F.trkCfgEn k && s.isTd k then 2 * 16320 else s'.trkConfigured k * 256)).sum
  if 896 * 1024 < bytes then s.setFld F.trkLinkStatusCfgErr n 0 1 else s'

/-- TRK_VC_CFG_WRITE (05 R151). -/
def execTrkVcCfgWrite (n : Fin 24) (value : BitVec 64) (s : State) : Host.Outcome State Fault Refusal :=
  .next (s.vcCfgWrite n.val value)

/-! Training (06 R159 to R164). -/

/-- Write TARGET (06 R159): the lanes it names that are held out train again, with a fresh count of attempts. -/
def State.targetWrite (s : State) (n target : Nat) : State :=
  let s := s.setFld F.trkCfgTarget n 0 target
  (List.range (s.trkWidthCfg n)).foldl (fun s p =>
    let l := s.trkFirst n + p
    if target.testBit p && ((s.badMask n).testBit p || (s.trk n).withdrawn.contains l) && s.trkState n == 2 then
      (s.setTrk n { s.trk n with retrains := unitSet 0 (s.trk n).retrains p 0 }).arm .badLane l 0 0
    else s) s

/-- TRUNK_TARGET_WRITE (06 R159). -/
def execTrunkTargetWrite (n : Fin 24) (target : Fin 256) (s : State) : Host.Outcome State Fault Refusal :=
  .next (s.targetWrite n.val target.val)

/-- PARAM_RECEIVE (06 R162, R163): `nonce` is what this end draws if both ends drew the same one, or if it trains afresh. -/
def execParamReceive (n : Fin 24) (p : Param) (nonce : BitVec 64) (s : State) : Host.Outcome State Fault Refusal :=
  .next (s.paramReceive n.val p nonce)

/-- TRUNK_TRAIN_TIMEOUT (06 R163): SECURITY while the key exchange is awaited, ROLE when neither end left idle. -/
def execTrunkTrainTimeout (n : Fin 24) (s : State) : Host.Outcome State Fault Refusal :=
  if s.due .trkTrain n.val ∧ s.trkState n.val = 1 then
    let t := s.trk n.val
    let quiet := s.fld F.trkCfgRole n.val = 1 ∧ t.leftIdle = false ∧ (s.trkLanes n.val).all (fun l => (s.lane l).txIdle) = true
    .next (s.trainFail n.val (if t.secWait then 4 else if quiet then 2 else 1))
  else .next s

/-- TRUNK_TRAIN_RETRY (06 R163, R164): 1 ms after a failure. `nonce` is what the hub draws for a training from DOWN. -/
def execTrunkTrainRetry (n : Fin 24) (nonce : BitVec 64) (s : State) : Host.Outcome State Fault Refusal :=
  if s.due .trkTrainRetry n.val then
    let s := s.disarm .trkTrainRetry n.val 0
    if s.flag F.trkCfgEn n.val = false then .next s
    else if s.trkState n.val = 0 then .next (s.trainDown n.val nonce)
    else if s.trkState n.val = 3 then .next (s.trainResume n.val)
    else .next s
  else .next s

/-! Width changes (06 R165 to R171, R477). -/

/-- Is position p's lane ready to join (06 R168)? -/
def State.canJoin (s : State) (n p : Nat) : Bool :=
  let l := s.trkFirst n + p
  (s.fld F.trkCfgTarget n).testBit p && (s.fld F.trkWidthLimit n).testBit p && !(s.badMask n).testBit p &&
    !(s.trk n).withdrawn.contains l && s.fld F.laneStatusState l == 2 && s.laneOn l && (s.lane l).peerReady

/-- The list this end wants now (06 R168, R477): joined positions added, those TARGET no longer names dropped while in good
health; never empty. -/
def State.wantedList (s : State) (n : Nat) : Nat :=
  let act := s.active n
  let want := ((List.range 8).filter (fun p =>
    if act.testBit p then (s.fld F.trkCfgTarget n).testBit p || (s.badMask n).testBit p ||
      (s.trk n).withdrawn.contains (s.trkFirst n + p)
    else s.canJoin n p)).foldl maskAdd 0
  if want ≠ 0 then want
  else match (maskPos act).head? with
    | some p => 2 ^ p
    | none => 0

/-- WIDTH_PROPOSE (06 R165, R168, R477): the hub proposes the list it wants when no transaction stands in the way. -/
def execWidthPropose (n : Fin 24) (s : State) : Host.Outcome State Fault Refusal :=
  let t := s.trk n.val
  let want := s.wantedList n.val
  if s.trkState n.val = 2 ∧ t.widthFree = true ∧ want ≠ s.active n.val then .next (s.widthStart n.val want) else .next s

/-- WIDTH_ABANDON (06 R167): 100 us without an acknowledgement; the trunk retrains. -/
def execWidthAbandon (n : Fin 24) (s : State) : Host.Outcome State Fault Refusal :=
  if s.due .trkWidth n.val ∧ (s.trk n.val).own.any (fun o => !o.acked) = true then .next (s.trainResume n.val) else .next s

/-- TRUNK_RETRAIN_REQUEST (06 R167): a WIDTH with NEW_MASK 0, once the transaction outstanding is complete (R165). -/
def execTrunkRetrainRequest (n : Fin 24) (s : State) : Host.Outcome State Fault Refusal :=
  .next (s.retrainAsk n.val)

/-- Has this end's direction of a lane that left the list in good health drained (06 R170)? -/
def State.drainedNow (s : State) (n l : Nat) : Bool :=
  let t := s.trk n
  (unitGet none t.txLeft (s.lanePos n l)).any (·.done) && s.trkState n == 2 &&
    !t.replay.any (fun e => (e.copies.getLast?.map (·.lane)) == some l)

/-- LANE_DRAIN_IDLE (06 R170). -/
def execLaneDrainIdle (n : Fin 48) (s : State) : Host.Outcome State Fault Refusal :=
  match s.trkOf n.val with
  | some k =>
    if s.drainedNow k n.val then
      let s := s.idleEntry n.val
      .next (s.setTrk k { s.trk k with txLeft := unitSet none (s.trk k).txLeft (s.lanePos k n.val) none })
    else .next s
  | none => .next s

/-- BAD_LANE_RETRAIN (06 R169): a removed lane trains in the background, up to eight attempts. -/
def execBadLaneRetrain (n : Fin 48) (s : State) : Host.Outcome State Fault Refusal :=
  match s.trkOf n.val with
  | some k =>
    let p := s.lanePos k n.val
    let tries := unitGet 0 (s.trk k).retrains p
    if s.due .badLane n.val ∧ s.trkState k = 2 ∧ tries < 8 ∧ s.flag F.laneCtrlEn n.val = true then
      let s := (s.disarm .badLane n.val 0).setTrk k { s.trk k with retrains := unitSet 0 (s.trk k).retrains p (tries + 1) }
      .next (s.laneStart n.val)
    else .next s
  | none => .next s

/-! Pairs (06 R174 to R178). -/

/-- FAILOVER_TRANSFER_DONE (06 R175): the last packet of the lost member n has crossed to its mate; n's link state is
discarded and counted, and it trains from DOWN. -/
def State.transferDone (s : State) (n : Nat) : State :=
  match s.mateOf n with
  | some m =>
    if (s.trk n).held = true ∧ s.trkState n = 3 ∧ (s.trk m).covering = true then s.startAfresh n else s
  | none => s

/-- FAILOVER_TRANSFER_DONE (06 R175). -/
def execFailoverTransferDone (n : Fin 24) (s : State) : Host.Outcome State Fault Refusal := .next (s.transferDone n.val)

/-- SPLICE_END_RECEIVE (06 R176). -/
def execSpliceEndReceive (n : Fin 24) (vc : Fin 8) (s : State) : Host.Outcome State Fault Refusal :=
  .next ((s.frameLink (n.val / 6)).straddlerEnd n.val vc.val)

/-- RESYNC_RECEIVE (06 R174). -/
def execResyncReceive (n : Fin 24) (mask : BitVec 256) (s : State) : Host.Outcome State Fault Refusal :=
  .next ((s.frameLink (n.val / 6)).resync n.val mask)

/-- The gap of a context is given up at the member that holds its receive state (06 R174): the lowest held PSN is expected,
`PSN_GAP` counts, Bell 8 rings. -/
def State.gapExpire (s : State) (n c : Nat) : State :=
  let s := s.disarm .psnGap n c
  match s.psnWaiting n c ((s.psnNext n c).getD 0) with
  | [] => s
  | p :: _ =>
    (((s.setPsnNext n c (some p.pkt.psn)).addFld F.trkPairCntCount n 1 1).ring 8 (96 + n)).psnGo n c

/-- PSN_GAP_HOLD_EXPIRE (06 R174): `n` is the member that holds the context's receive state. -/
def execPsnGapHoldExpire (n : Fin 24) (context : Fin 256) (s : State) : Host.Outcome State Fault Refusal :=
  if s.due .psnGap n.val context.val then .next (s.gapExpire n.val context.val) else .next s

end Sys2Proof.Machine
end

