-- ==== Sys2Proof/Machine/Td.lean ====
section
/-! DEFINITION. TD-212 trunks: link-up, frames, go-back-N, credits, traffic, the legacy register window and the status
beacon (spec/12_td212_personality.md). The frame operands of the receive commands are the 128 bytes received. -/

namespace Sys2Proof.Machine

/-! Link-up (R304). -/

/-- Step 1: the shim enables the trunk's lanes. -/
def State.tdStart (s : State) (n : Nat) : State :=
  if !s.mayTrain n then s
  else
    let s := (s.tdQuiet n).tdClear n
    let s := s.setTd n { s.td n with aligned := [], inUse := [] }
    let s := (s.setFld F.trkTdStatusState n 0 1).setFld F.trkTdStatusLanesUp n 0 0
    (s.trkLanes n).foldl (fun s l => if s.flag F.laneCtrlEn l then s.laneStart l else s.laneEnable l) s

/-- A lane of a TD-212 trunk has aligned; the first starts the 1 ms of step 2. -/
def State.tdAligned (s : State) (n l : Nat) : State :=
  let t := s.td n
  if s.fld F.trkTdStatusState n ≠ 1 ∨ t.aligned.contains l = true then s
  else (s.setTd n { t with aligned := t.aligned ++ [l] }).armOnce .tdWidth n 0 (ms 1)

/-- TD212_COMMA_ALIGN (04 R120): the receiver is aligned; the transmitter leaves idle with idle sets (12 R304). -/
def execTd212CommaAlign (n : Fin 48) (s : State) : Host.Outcome State Fault Refusal :=
  if s.laneMode n.val = 2 ∧ s.fld F.laneStatusState n.val = 1 then
    let s := ((s.setFld F.laneStatusAligned n.val 0 1).setFld F.laneStatusLos n.val 0 0).laneState n.val 2
    let s := s.setLane n.val { s.lane n.val with txIdle := false }
    .next (match s.trkOf n.val with
      | some k => s.tdAligned k n.val
      | none => s)
  else .next s

/-- TD212_ALIGN_LOSS (04 R120, 12 R322): the lane trains again. -/
def execTd212AlignLoss (n : Fin 48) (s : State) : Host.Outcome State Fault Refusal :=
  if s.laneMode n.val = 2 ∧ s.flag F.laneStatusAligned n.val = true ∧ s.fld F.laneStatusState n.val = 2
  then .next (s.laneRetrain n.val) else .next s

/-- The LIMIT of the hub for a VC: 255 at first. -/
def TdUnit.limitOut (t : TdUnit) (v : Nat) : Nat := (255 + unitGet 0 t.granted v) % 256

/-- Send an INIT frame. -/
def State.tdSendInit (s : State) (n : Nat) : State :=
  s.emit (.tdFrame n (tdFrame 5 0 0 0 255 255 ((s.td n).inUse.length - 1) []))

/-- Step 3: INIT frames every 1 us, and at most 10 ms for the host's. -/
def State.tdInitGo (s : State) (n : Nat) : State :=
  let s := s.setFld F.trkTdStatusState n 0 2
  let s := (s.arm .tdTimeout n 0 (ms 10)).arm .tdInit n 0 (us 1)
  (s.setFld F.trkTdStatusLanesUp n 0 (s.td n).inUse.length).tdSendInit n

/-- TD_WIDTH_DECIDE (R304 step 2): 2 lanes if both of a 2-lane trunk have aligned, otherwise the one that aligned first. -/
def execTdWidthDecide (n : Fin 12) (s : State) : Host.Outcome State Fault Refusal :=
  let t := s.td n.val
  if s.due .tdWidth n.val ∧ s.fld F.trkTdStatusState n.val = 1 then
    .next (((s.disarm .tdWidth n.val 0).setTd n.val { t with inUse := t.aligned.take (s.trkWidthCfg n.val) }).tdInitGo n.val)
  else .next s

/-- TD_INIT_SEND (R304 step 3). -/
def execTdInitSend (n : Fin 12) (s : State) : Host.Outcome State Fault Refusal :=
  if s.due .tdInit n.val ∧ s.fld F.trkTdStatusState n.val = 2 then .next ((s.arm .tdInit n.val 0 (us 1)).tdSendInit n.val)
  else .next s

/-- TD_INIT_TIMEOUT (R304). -/
def execTdInitTimeout (n : Fin 12) (s : State) : Host.Outcome State Fault Refusal :=
  if s.due .tdTimeout n.val ∧ s.fld F.trkTdStatusState n.val = 2 then .next (s.tdDown n.val 1 (ms 1)) else .next s

/-- TD_LINKUP_RETRY (R304, R322). -/
def execTdLinkupRetry (n : Fin 12) (s : State) : Host.Outcome State Fault Refusal :=
  if s.due .tdLinkup n.val ∧ s.tdOn n.val = true then .next ((s.disarm .tdLinkup n.val 0).tdStart n.val) else .next s

/-- All status and counter registers of the window read 0 after a link-up (R319). -/
def State.tdStatusClear (s : State) (n : Nat) : State :=
  [RegName.wtdStLink, .wtdStPcie, .wtdStDisp, .wtdStHpd, .wtdStAux, .wtdCntCrc, .wtdCntReplay, .wtdCntOos].foldl
    (fun s r => s.setReg r n 0 0) s

/-- CRED0 and CRED1 of the status register follow. -/
def State.tdCredits (s : State) (n : Nat) : State :=
  let t := s.td n
  let left := fun v => (unitGet 0 t.limit v + 256 - unitGet 0 t.used v) % 256
  (s.setFld F.trkTdStatusCred0 n 0 (left 0)).setFld F.trkTdStatusCred1 n 0 (left 1)

/-- Step 4: UP at a width, with the host's limits. -/
def State.tdUp (s : State) (n width c0 c1 : Nat) : State :=
  let s := (s.tdQuiet n).tdClear n
  let t := s.td n
  let use_ := t.inUse.take width
  let s := s.setTd n { t with
    inUse := use_, initLeft := 3, limit := unitSet 0 (unitSet 0 [] 0 c0) 1 c1, first := unitSet 0 (unitSet 0 [] 0 c0) 1 c1 }
  let s := { s with parcels := s.parcels.map (fun (p : Parcel) => match p.vcBuf with
    | some (k, _) => if k = n then { p with vcBuf := none } else p
    | none => p) }
  let s := [0, 1].foldl (fun s v => State.setFld { s with claims := unitSet [] s.claims (8 * n + v) [] } F.trkVcCreditRxHeld n v 0) s
  let s := (s.claimCells n 0).2
  let s := (s.claimCells n 1).2
  let s := (s.setFld F.trkTdStatusState n 0 3).setFld F.trkTdStatusLanesUp n 0 use_.length
  let s := (s.setFld F.trkTdStatusRxExpect n 0 0).setFld F.trkTdStatusTxNext n 0 0
  let s := (s.setFld F.wtdLinkWidth n 0 (use_.length - 1)).tdStatusClear n
  ((s.tdCredits n).arm .tdCreditAll n 0 (us 10)).tdBeaconCheck n

/-! The legacy register window (R317 to R319). -/

/-- The register at an even offset of the window, and its index. -/
def tdWindow (o : Nat) : Option (RegName × Nat) :=
  match o with
  | 0x000 => some (.wtdVendor, 0)
  | 0x002 => some (.wtdDevice, 0)
  | 0x004 => some (.wtdRev, 0)
  | 0x006 => some (.wtdLink, 0)
  | 0x008 => some (.wtdCtrl, 0)
  | 0x00A => some (.wtdImask, 0)
  | 0x00C => some (.wtdScratch, 0)
  | 0x010 => some (.wtdStLink, 0)
  | 0x012 => some (.wtdStPcie, 0)
  | 0x014 => some (.wtdStDisp, 0)
  | 0x016 => some (.wtdStHpd, 0)
  | 0x018 => some (.wtdStAux, 0)
  | 0x01A => some (.wtdCntCrc, 0)
  | 0x01C => some (.wtdCntReplay, 0)
  | 0x01E => some (.wtdCntOos, 0)
  | 0x020 => some (.wtdAuxCmd, 0)
  | 0x022 => some (.wtdAuxAddr, 0)
  | 0x024 => some (.wtdAuxStatus, 0)
  | o => if 0x030 ≤ o ∧ o < 0x040 ∧ o % 2 = 0 then some (.wtdAuxData, (o - 0x030) / 2) else none

/-- Does a read clear the register? -/
def tdClears : RegName → Bool
  | .wtdStLink => true
  | .wtdStPcie => true
  | .wtdStDisp => true
  | .wtdStHpd => true
  | .wtdStAux => true
  | .wtdCntCrc => true
  | .wtdCntReplay => true
  | .wtdCntOos => true
  | _ => false

/-- The value of the register at an even offset; reserved offsets read 0. VENDOR, DEVICE and REV are the image's. -/
def State.tdWindowReg (s : State) (n o : Nat) : Nat :=
  match tdWindow o with
  | some (.wtdVendor, _) => (Config.tdIdentity 0).toNat
  | some (.wtdDevice, _) => (Config.tdIdentity 1).toNat
  | some (.wtdRev, _) => (Config.tdIdentity 2).toNat
  | some (r, j) => (s.reg r n j).toNat % 2 ^ 16
  | none => 0

/-- One byte of the window: bits [15:8] at the even address. -/
def State.tdWindowByte (s : State) (n a : Nat) : Byte :=
  let v := s.tdWindowReg n (a / 2 * 2)
  BitVec.ofNat 8 (if a % 2 = 0 then v / 256 else v)

/-- First byte and size of a request of 1, 2 or 4 bytes, naturally aligned; none for any other. -/
def tdAccess (t : Tlp) : Option (Nat × Nat) :=
  let b := t.addr % 4096
  if t.dws ≠ 1 then none
  else match t.be % 16 with
    | 1 => some (b, 1)
    | 2 => some (b + 1, 1)
    | 4 => some (b + 2, 1)
    | 8 => some (b + 3, 1)
    | 3 => some (b, 2)
    | 12 => some (b + 2, 2)
    | 15 => some (b, 4)
    | _ => none

/-- The shim answers a request of its host. -/
def State.tdAnswer (s : State) (n : Nat) (c : Tlp) : State :=
  s.setTd n { s.td n with txQ := (s.td n).txQ ++ [{ id := 0, vc := 0, bytes := c.bytes }] }

/-- A read of the window (R317): every RC register whose bytes it touches is cleared whole. -/
def State.tdRead (s : State) (n : Nat) (t : Tlp) : State :=
  let id := s.cfgGet (s.fld F.trkTdCtrlHost n) 11 .primaryBus * 256
  match tdAccess t with
  | none => (s.tdAnswer n (t.answer cplCa t.addr [] 4 false id)).tdSet n F.wtdStPcieCa
  | some (a, size) =>
    let base := t.addr % 4096
    let data := (List.range 4).map (fun i => if a ≤ base + i ∧ base + i < a + size then s.tdWindowByte n (base + i) else 0)
    let s := s.tdAnswer n (t.answer 0 (t.addr + (a - base)) data size false id)
    let s := (((List.range size).map (fun i => (a + i) / 2 * 2)).eraseDups).foldl (fun s o =>
      match tdWindow o with
      | some (r, j) => if tdClears r then s.setReg r n j 0 else s
      | none => s) s
    s.tdBeaconCheck n

/-- TD_WINDOW_READ (R317): a memory read of the host that falls in BAR0. -/
def execTdWindowRead (n : Fin 12) (t : Tlp) (s : State) : Host.Outcome State Fault Refusal :=
  if s.fld F.trkTdStatusState n.val = 3 ∧ t.op = .memRd then .next (s.tdRead n.val t) else .next s

/-- A write of one byte: RW registers only, and that byte only. GO stays 1 until its transaction ends. -/
def State.tdWriteByte (s : State) (n a : Nat) (b : Byte) : State :=
  match tdWindow (a / 2 * 2) with
  | none => s
  | some (r, j) =>
    if tdClears r then s
    else
      let go := s.flag F.wtdAuxCmdGo n
      let hi := a % 2 = 0
      let s := s.storeReg r n j (BitVec.ofNat 64 (if hi then b.toNat * 256 else b.toNat)) (if hi then 0xFF00 else 0xFF)
      if r = .wtdAuxCmd ∧ go = true then s.setFld F.wtdAuxCmdGo n 0 1 else s

/-- A write of the window (R317); one that is not 1, 2 or 4 bytes, naturally aligned, changes nothing. -/
def State.tdWrite (s : State) (n : Nat) (t : Tlp) : State :=
  match tdAccess t with
  | none => s
  | some (a, size) =>
    let off := a - t.addr % 4096
    ((List.range size).foldl (fun s i => s.tdWriteByte n (a + i) (t.data.getD (off + i) 0)) s).tdBeaconCheck n

/-- TD_WINDOW_WRITE (R317). -/
def execTdWindowWrite (n : Fin 12) (t : Tlp) (s : State) : Host.Outcome State Fault Refusal :=
  if s.fld F.trkTdStatusState n.val = 3 ∧ t.op = .memWr then .next (s.tdWrite n.val t) else .next s

/-! Received frames (R305 to R308, R311, R312). -/

/-- A frame fails (R305). -/
def State.tdFrameFail (s : State) (n : Nat) : State :=
  if s.fld F.trkTdStatusState n < 2 then s
  else
    let s := (s.addFld F.trkTdCntCount n 3 1).addSat F.wtdCntCrcCount n 0 1 0xFFFF
    s.tdSet n F.wtdStLinkCrcErr

/-- TD_FRAME_FAIL (R305): `ended` says that K29.7 stood in its place. -/
def execTdFrameFail (n : Fin 12) (frame : List Byte) (ended : Bool) (s : State) : Host.Outcome State Fault Refusal :=
  if tdFails frame ended then .next (s.tdFrameFail n.val) else .next s

/-- A good INIT frame (R304): it brings the link UP, fails it, or shows that the host has reset its link. -/
def State.tdInit (s : State) (n : Nat) (f : List Byte) : State :=
  let st := s.fld F.trkTdStatusState n
  if st = 3 then
    let s := (s.tdDown n 6 0).disarm .tdLinkup n 0
    (s.setTd n { s.td n with inUse := (s.td n).aligned.take (s.trkWidthCfg n) }).tdInitGo n
  else if st = 2 then
    if tdByte f 3 ≠ 255 ∨ tdByte f 4 ≠ 255 then s.tdDown n 2 (ms 1)
    else s.tdUp n (min (s.td n).inUse.length (tdByte f 5 + 1)) (tdByte f 3) (tdByte f 4)
  else s

/-- TD_INIT_RECEIVE (R304). -/
def execTdInitReceive (n : Fin 12) (frame : List Byte) (s : State) : Host.Outcome State Fault Refusal :=
  if tdFails frame true = false ∧ tdKind frame = 5 then .next (s.tdInit n.val frame) else .next s

/-- A packet of the stream goes into the trunk's Landing as a tunnel packet (R313, R314). `l` is L, which fixes its credits. -/
def State.tdLand (s : State) (n v l : Nat) (pkt : Packet) : State :=
  let k := ceilDiv (2 + l) 64
  let r := s.pickN k (s.freeSegs n v)
  let s := (r.2.frameIn (n / 6)).addFld F.trkVcCreditRxHeld n v k
  let pkt := { pkt with hops := s.fld F.hallBufCtrlHopsInit (n / 6) }
  (s.addParcel {
    id := 0, pkt := pkt, src := n, hall := n / 6, spot := .arrived,
    segs := r.1, vcBuf := some (n, v), credits := k, tbAccept := s.tb }).writeSegs (n / 6) r.1 pkt.toBytes

/-- Length of the TLP, prefixes with it, that bytes announce; none for a format that is no TLP. -/
def tlpLength (l : List Byte) : Option Nat :=
  let b := (tlpPrefixes (l.length / 4) l).2
  let x := fun i => (b.getD i 0).toNat
  if b.length < 12 ∨ 128 ≤ x 0 then none
  else
    let dws := if x 2 % 4 * 256 + x 3 = 0 then 1024 else x 2 % 4 * 256 + x 3
    some (l.length - b.length + (if x 0 / 32 % 2 = 1 then 16 else 12) + (if x 0 / 64 % 2 = 1 then 4 * dws else 0) + (if x 2 / 128 = 1 then 4 else 0))

/-- Data bytes a TLP carries. -/
def tlpData (l : List Byte) : Nat :=
  let b := (tlpPrefixes (l.length / 4) l).2
  let x := fun i => (b.getD i 0).toNat
  if x 0 / 64 % 2 = 1 then 4 * (if x 2 % 4 * 256 + x 3 = 0 then 1024 else x 2 % 4 * 256 + x 3) else 0

/-- Does a memory request fall in the function's BAR0, its Memory Space Enable set (R316)? -/
def State.tdInWindow (s : State) (n : Nat) (t : Tlp) : Bool :=
  let h := s.fld F.trkTdCtrlHost n
  (t.op == .memRd || t.op == .memWr) && (s.cfgGet h 11 (.other 1)).testBit 1 &&
  t.addr / 4096 == s.cfgGet h 11 (.other 4) / 4096

/-- A VC0 packet (R313): a memory request in the window is answered from it (R317; assumption log 192); any other TLP goes to
the root port. Over 128 data bytes it is malformed, and while the host or the trunk allows no VC0 traffic a request completes
with Unsupported Request. -/
def State.tdVc0 (s : State) (n : Nat) (b : List Byte) : State :=
  let k := ceilDiv (2 + b.length) 64
  let tlp := Tlp.ofBytes b
  let kind := match tlp with
    | some t => t.kind
    | none => 1
  if 128 < tlpData b then (s.tdGrant n 0 k).tdSet n F.wtdStPcieMalformed
  else if tlp.any (fun t => s.tdInWindow n t) then
    (match tlp with
    | some t => if t.op = .memWr then (s.tdGrant n 0 k).tdWrite n t else (s.tdGrant n 0 k).tdRead n t
    | none => s)
  else if s.flag F.wtdCtrlPcieEn n && s.flag F.trkTdCtrlPcieEn n then
    let t := s.td n
    let body := bridgePrefix t.pseq kind 0x3FF (s.fld F.trkTdCtrlPrt n) ++ b
    let s := s.setTd n { t with pseq := if kind = 0 then (t.pseq + 1) % 2 ^ 32 else t.pseq }
    s.tdLand n 0 b.length { type := 1, tunnelId := 1, vc := if kind = 1 then 3 else 2, len := body.length, payload := body }
  else
    let s := s.tdGrant n 0 k
    match tlp with
    | none => s
    | some t =>
      if kind ≠ 1 then s
      else
        let c := t.answer cplUr t.addr [] 4 false (s.cfgGet (s.fld F.trkTdCtrlHost n) 11 .primaryBus * 256)
        (s.tdAnswer n c).tdSet n F.wtdStPcieUr

/-- May an MSA of this trunk be forwarded: R280 with LANES 2 and 5.4 Gb/s on two lanes, 2.7 Gb/s on one? -/
def tdMsaOk (lanes : Nat) (b : List Byte) : Bool :=
  clockFits (fldGet F.dhClkPixelKhz (BitVec.ofNat 64 (field b 24 32))) (if field b 2 3 = 2 then 6 else 8) 2
    (if lanes = 2 then 5400 else 2700)

/-- A VC1 packet (R314). -/
def State.tdVc1 (s : State) (n : Nat) (b : List Byte) : State :=
  let k := ceilDiv (2 + b.length) 64
  if !(s.flag F.wtdCtrlDispEn n && s.flag F.trkTdCtrlDispEn n) then s.tdGrant n 1 k
  else if field b 2 3 ≠ 0 ∧ field b 2 3 ≠ 2 then (s.tdGrant n 1 k).tdSet n F.wtdStDispStreamErr
  else if field b 3 4 = 0 ∧ !tdMsaOk (s.fld F.trkTdStatusLanesUp n) b then (s.tdGrant n 1 k).tdSet n F.wtdStDispMsaRefused
  else s.tdLand n 1 b.length { type := 2, tunnelId := 2, vc := 1, len := b.length, payload := b }

/-- Take whole TD packets from the stream of a VC; a bad one takes the trunk to DOWN (R311). -/
def State.tdPackets (s : State) (n v : Nat) : Nat → State
  | 0 => s
  | fuel + 1 =>
    let b := unitGet [] (s.td n).rx v
    if b.length < 2 then s
    else
      let l := beNat (b.take 2)
      if l = 0 ∨ 2048 < l then s.tdDown n 5 0
      else if b.length < 2 + l then s
      else
        let p := (b.drop 2).take l
        let s := s.setTd n { s.td n with rx := unitSet [] (s.td n).rx v (b.drop (2 + l)) }
        if (v = 0 ∧ tlpLength p ≠ some l) ∨ (v = 1 ∧ l < 8) then s.tdDown n 5 0
        else (if v = 0 then s.tdVc0 n p else s.tdVc1 n p).tdPackets n v fuel

/-- A good DATA frame (R306, R307). -/
def State.tdData (s : State) (n : Nat) (f : List Byte) : State :=
  let e := s.fld F.trkTdStatusRxExpect n
  let d := (tdByte f 1 + 256 - e) % 256
  let t := s.td n
  let oos := fun (s : State) => (s.addFld F.trkTdCntCount n 4 1).addSat F.wtdCntOosCount n 0 1 0xFFFF
  if s.fld F.trkTdStatusState n ≠ 3 then s
  else if d = 0 then
    let v := tdByte f 0 / 8 % 2
    let k := t.sinceAck + 1
    let s := (s.wakeOn 3).setTd n { t with
      nakSent := false, nakDue := false, sinceAck := k, ackDue := t.ackDue || decide (32 ≤ k),
      rx := unitSet [] t.rx v (unitGet [] t.rx v ++ (f.drop 6).take (tdByte f 2)) }
    let s := (s.setFld F.trkTdStatusRxExpect n 0 (e + 1)).addFld F.trkTdCntCount n 2 1
    let s := (s.disarm .tdNak n 0).armOnce .tdAck n 0 (us 2)
    s.tdPackets n v (unitGet [] (s.td n).rx v).length
  else if d ≤ 31 then
    let s := oos s
    if t.nakSent then s else s.setTd n { t with nakSent := true, nakDue := true }
  else if 224 ≤ d then (s.addFld F.trkTdCntCount n 5 1).setTd n { t with ackDue := true }
  else oos s

/-- TD_DATA_RECEIVE (R306). -/
def execTdDataReceive (n : Fin 12) (frame : List Byte) (s : State) : Host.Outcome State Fault Refusal :=
  if tdFails frame true = false ∧ tdKind frame = 1 then .next (s.tdData n.val frame) else .next s

/-- Free every unacknowledged frame below a number; the retry timer restarts when one is freed, and rests with none left. -/
def State.tdFree (s : State) (n : Nat) (keep : List TdOut) : State :=
  let t := s.td n
  if keep.length = t.unacked.length then s
  else
    let s := s.setTd n { t with
      unacked := keep, expiries := 0, resend := t.resend.filter (fun q => keep.any (fun x => x.seq == q)) }
    let s := s.setFld F.trkTdStatusTxUnack n 0 keep.length
    if keep = [] then s.disarm .tdRetry n 0 else s.arm .tdRetry n 0 (s.fld F.trkTdCtrlRetry n * 100)

/-- A good ACK frame (R308). -/
def State.tdAck (s : State) (n a : Nat) : State :=
  let t := s.td n
  if s.fld F.trkTdStatusState n ≠ 3 then s
  else if a = s.fld F.trkTdStatusTxNext n then s.tdFree n []
  else if t.unacked.any (fun x => x.seq == a) then s.tdFree n (t.unacked.dropWhile (fun x => x.seq != a))
  else s

/-- TD_ACK_RECEIVE (R308). -/
def execTdAckReceive (n : Fin 12) (frame : List Byte) (s : State) : Host.Outcome State Fault Refusal :=
  if tdFails frame true = false ∧ tdKind frame = 2 then .next (s.tdAck n.val (tdByte frame 2)) else .next s

/-- A good NAK frame (R308): frames below it are free, all from it on are resent in order. -/
def State.tdNak (s : State) (n a : Nat) : State :=
  let t := s.td n
  if s.fld F.trkTdStatusState n ≠ 3 ∨ !t.unacked.any (fun x => x.seq == a) then s
  else
    let s := s.tdFree n (t.unacked.dropWhile (fun x => x.seq != a))
    let s := s.setTd n { s.td n with resend := (s.td n).unacked.map (·.seq) }
    (s.addFld F.trkTdCntCount n 7 1).tdSet n F.wtdStLinkNakRx

/-- TD_NAK_RECEIVE (R308). -/
def execTdNakReceive (n : Fin 12) (frame : List Byte) (s : State) : Host.Outcome State Fault Refusal :=
  if tdFails frame true = false ∧ tdKind frame = 3 then .next (s.tdNak n.val (tdByte frame 2)) else .next s

/-- A good CREDIT frame (R312): any other LIMIT is newer. -/
def State.tdCredit (s : State) (n : Nat) (f : List Byte) : State :=
  let t := s.td n
  if s.fld F.trkTdStatusState n ≠ 3 then s
  else (s.setTd n { t with limit := unitSet 0 (unitSet 0 t.limit 0 (tdByte f 3)) 1 (tdByte f 4) }).tdCredits n

/-- TD_CREDIT_RECEIVE (R312). -/
def execTdCreditReceive (n : Fin 12) (frame : List Byte) (s : State) : Host.Outcome State Fault Refusal :=
  if tdFails frame true = false ∧ tdKind frame = 4 then .next (s.tdCredit n.val frame) else .next s

/-! Timers. -/

/-- TD_NAK_REPEAT (R306). -/
def execTdNakRepeat (n : Fin 12) (s : State) : Host.Outcome State Fault Refusal :=
  if s.due .tdNak n.val then .next ((s.disarm .tdNak n.val 0).setTd n.val { s.td n.val with nakDue := true }) else .next s

/-- TD_ACK_TIMER (R307). -/
def execTdAckTimer (n : Fin 12) (s : State) : Host.Outcome State Fault Refusal :=
  if s.due .tdAck n.val then .next ((s.disarm .tdAck n.val 0).setTd n.val { s.td n.val with ackDue := true }) else .next s

/-- TD_RETRY_EXPIRE (R309). -/
def execTdRetryExpire (n : Fin 12) (s : State) : Host.Outcome State Fault Refusal :=
  if s.due .tdRetry n.val then
    let t := s.td n.val
    let s := s.addFld F.trkTdCntCount n.val 8 1
    if 8 ≤ t.expiries + 1 then .next (s.tdDown n.val 3 0)
    else
      let s := s.setTd n.val { t with expiries := t.expiries + 1, resend := t.unacked.map (·.seq) }
      .next (s.arm .tdRetry n.val 0 (s.fld F.trkTdCtrlRetry n.val * 100))
  else .next s

/-- TD_CREDIT_TIMER (R312): 2 us after an advance, or 10 us after the last CREDIT frame. -/
def execTdCreditTimer (n : Fin 12) (s : State) : Host.Outcome State Fault Refusal :=
  if s.due .tdCredit n.val || s.due .tdCreditAll n.val then
    let s := (s.disarm .tdCredit n.val 0).arm .tdCreditAll n.val 0 (us 10)
    .next (s.setTd n.val { s.td n.val with creditDue := true })
  else .next s

/-! The transmitter (R309 to R312, R315). -/

/-- The stream bytes of a packet: its length, then its bytes. -/
def TdPacket.stream (p : TdPacket) : List Byte := beBytes 2 p.bytes.length ++ p.bytes

/-- Credits a packet needs (R312). -/
def TdPacket.need (p : TdPacket) : Nat := ceilDiv (2 + p.bytes.length) 64

/-- Credits left on a VC. -/
def TdUnit.left (t : TdUnit) (v : Nat) : Nat := (unitGet 0 t.limit v + 256 - unitGet 0 t.used v) % 256

/-- Begin the next packet of a VC, if none is under way and credits allow. -/
def TdUnit.begin (t : TdUnit) (v : Nat) : TdUnit :=
  if unitGet [] t.tx v ≠ [] then t
  else match t.txQ.find? (fun p => p.vc == v) with
    | none => { t with txId := unitSet 0 t.txId v 0 }
    | some p =>
      if p.need ≤ t.left v then
        { t with tx := unitSet [] t.tx v p.stream, txId := unitSet 0 t.txId v p.id, txQ := t.txQ.erase p,
                 used := unitSet 0 t.used v ((unitGet 0 t.used v + p.need) % 256) }
      else { t with txId := unitSet 0 t.txId v 0 }

/-- Fill up to `room` bytes of a DATA frame from a VC. -/
def TdUnit.fill (v : Nat) : Nat → Nat → TdUnit → List Byte → TdUnit × List Byte
  | 0, _, t, d => (t, d)
  | fuel + 1, room, t, d =>
    let t := t.begin v
    let b := unitGet [] t.tx v
    if room = 0 ∨ b = [] then (t, d)
    else TdUnit.fill v fuel (room - min room b.length) { t with tx := unitSet [] t.tx v (b.drop room) } (d ++ b.take room)

/-- Has a VC bytes that may go now? -/
def TdUnit.ready (t : TdUnit) (v : Nat) : Bool := unitGet [] (t.begin v).tx v != []

/-- The VC of the next slot of the cycle VC1, VC0, VC1, VC0, VC1; the other when it has nothing or no credit (R315). -/
def TdUnit.nextVc (t : TdUnit) : Option Nat :=
  let v := if t.cycle % 2 = 0 then 1 else 0
  if t.ready v then some v else if t.ready (1 - v) then some (1 - v) else none

/-- New DATA: at most 32 frames unacknowledged. -/
def State.tdSendData (s : State) (n : Nat) : State :=
  let t := s.td n
  match (if 32 ≤ t.unacked.length then none else t.nextVc) with
  | none => s
  | some v =>
    let x := TdUnit.fill v 120 120 t []
    let seq := s.fld F.trkTdStatusTxNext n
    let first := t.unacked = []
    let s := s.setTd n { x.1 with
      unacked := t.unacked ++ [{ seq := seq, vc := v, data := x.2 }], cycle := (t.cycle + 1) % 5 }
    let s := (s.setFld F.trkTdStatusTxNext n 0 (seq + 1)).setFld F.trkTdStatusTxUnack n 0 (t.unacked.length + 1)
    let s := (s.addFld F.trkTdCntCount n 0 1).tdCredits n
    let s := if first then s.arm .tdRetry n 0 (s.fld F.trkTdCtrlRetry n * 100) else s
    s.emit (.tdFrame n (tdFrame 1 v seq x.2.length 0 0 0 x.2))

/-- CREDIT_STALL (`TD_ST_LINK`): a packet has waited 10 us for credit. -/
def State.tdStallCheck (s : State) (n : Nat) : State :=
  let t := s.td n
  let waits := t.txQ.any (fun p => unitGet [] t.tx p.vc == [] && decide (t.left p.vc < p.need))
  match waits, t.stall with
  | false, _ => s.setTd n { t with stall := none }
  | true, none => s.setTd n { t with stall := some s.tb }
  | true, some b => if b + us 10 ≤ s.tb then s.tdSet n F.wtdStLinkCreditStall else s

/-- One transmit slot of a trunk that is UP (R310): the INIT frames that open it, then NAK, ACK, CREDIT, resends, new DATA. -/
def State.tdSlot (s : State) (n : Nat) : State :=
  if s.fld F.trkTdStatusState n ≠ 3 then s
  else
    let s := s.tdStallCheck n
    let t := s.td n
    let e := s.fld F.trkTdStatusRxExpect n
    if 0 < t.initLeft then (s.setTd n { t with initLeft := t.initLeft - 1 }).tdSendInit n
    else if t.nakDue then
      let s := (s.setTd n { t with nakDue := false }).arm .tdNak n 0 (us 2)
      (s.addFld F.trkTdCntCount n 6 1).emit (.tdFrame n (tdFrame 3 0 0 e 0 0 0 []))
    else if t.ackDue then
      let s := (s.setTd n { t with ackDue := false, sinceAck := 0 }).disarm .tdAck n 0
      s.emit (.tdFrame n (tdFrame 2 0 0 e 0 0 0 []))
    else if t.creditDue then
      let s := (s.setTd n { t with creditDue := false, sent := t.granted }).disarm .tdCredit n 0
      (s.arm .tdCreditAll n 0 (us 10)).emit (.tdFrame n (tdFrame 4 0 0 0 (t.limitOut 0) (t.limitOut 1) 0 []))
    else
      match t.resend with
      | q :: rest =>
        let s := s.setTd n { t with resend := rest }
        (match t.unacked.find? (fun x => x.seq == q) with
        | none => s
        | some x =>
          let s := (s.addFld F.trkTdCntCount n 1 1).addSat F.wtdCntReplayCount n 0 1 0xFFFF
          (s.tdSet n F.wtdStLinkReplay).emit (.tdFrame n (tdFrame 1 x.vc x.seq x.data.length 0 0 0 x.data)))
      | [] => s.tdSendData n

/-- TD_FRAME_SLOT (R310). -/
def execTdFrameSlot (n : Fin 12) (s : State) : Host.Outcome State Fault Refusal := .next (s.tdSlot n.val)

/-! AUX and the beacon (R319, R320). -/

/-- `td212.wzi` carries out the transaction that GO asks for (R319), once its head's controller is free. -/
def State.tdAux (s : State) (n : Nat) : State :=
  let h := s.fld F.trkTdCtrlHead n
  if !s.flag F.wtdAuxCmdGo n || (match (s.head h).aux with
      | some (.td k, _) => k.val == n
      | _ => false) then s
  else
    let kind := s.fld F.wtdAuxCmdKind n
    let len := s.fld F.wtdAuxCmdLen n + 1
    let data := (List.range 16).map (fun i => s.tdWindowByte n (0x030 + i))
    if lt : n < 12 then
      s.auxStart h (.td ⟨n, lt⟩) {
        kind := kind, len := len, addr := s.fld F.wtdAuxCmdAddrHi n * 2 ^ 16 + s.fld F.wtdAuxAddrAddrLo n,
        data := if kind % 2 = 0 then data.take len else [] }
    else s

/-- TD_AUX_GO (R319). -/
def execTdAuxGo (n : Fin 12) (s : State) : Host.Outcome State Fault Refusal := .next (s.tdAux n.val)

/-- TD_BEACON (R320): the MSI again, every 125 us while status stays pending. -/
def execTdBeacon (n : Fin 12) (s : State) : Host.Outcome State Fault Refusal :=
  let g := unitGet {} s.beacons n.val
  if s.chipRuns ∧ g.on ∧ g.next ≤ s.tb then
    .next { s.tdMsi n.val with beacons := unitSet {} s.beacons n.val (g.start s.tb (us 125) 25) }
  else .next s

end Sys2Proof.Machine
end

