-- ==== Sys2Proof/Machine/TrunkCtl.lean ====
section
/-! DEFINITION. Enabling and disabling a trunk, Birique or TD-212 (spec/06_trunks_and_failover.md R159;
spec/01_architecture.md R35; spec/12_td212_personality.md R300, R301). -/

namespace Sys2Proof.Machine

/-- Is a lane set valid for trunk n under a TRKn_CFG value (01 R35, 12 R300)? -/
def State.laneSetOk (s : State) (n : Nat) (v : BitVec 64) : Bool :=
  let first := wr F.trkCfgFirst v
  let width := 2 ^ wr F.trkCfgLanes v
  let q := first / 4
  let mode := s.fld F.quadPersonalityMode q
  let last := first + width - 1
  let shape := if width = 8 then decide (first % 4 = 0) && s.fld F.quadPersonalityMode (q + 1) == 1 else decide (last / 4 = q)
  let td := decide (q < 6) && decide (width ≤ 2) && (width == 1 || first % 2 == 0)
  let others := (List.range 24).filter (fun k => k != n && s.flag F.trkCfgEn k)
  decide (first / 12 = n / 6) && decide (last / 12 = n / 6) && shape && (mode == 1 || (mode == 2 && td)) &&
    !others.any (fun k => (s.trkLanes k).any (fun l => decide (first ≤ l ∧ l ≤ last)))

/-- Does a TRKn_CFG value keep the host limit (R159, 12 R301)? -/
def State.hostOk (s : State) (n : Nat) (v : BitVec 64) : Bool :=
  let others := (List.range 24).filter (fun k => k != n && s.flag F.trkCfgEn k)
  if s.fld F.quadPersonalityMode (wr F.trkCfgFirst v / 4) = 2 then
    let h := s.fld F.trkTdCtrlHost n
    decide (h < 6) && !others.any (fun k => s.namesHost k == some h) && !s.flag F.hostCfgEn h
  else if wr F.trkCfgCascade v = 1 then true
  else
    let h := wr F.trkCfgHost v
    decide (h < 6) && decide ((others.filter (fun k => s.namesHost k == some h)).length < 2) &&
      !others.any (fun k => s.isTd k && s.namesHost k == some h)

/-- Does the Landing of the Hall hold the reservation of TD-212 trunk n beside the others (12 R301, 05 R151)? -/
def State.tdLandingOk (s : State) (n : Nat) : Bool :=
  decide (((hallTrunks (n / 6)).map (fun k =>
    if k = n ∨ s.tdOn k = true then 2 * 16320 else s.trkConfigured k * 256)).sum ≤ 896 * 1024)

/-- Other enabled TD-212 trunks. -/
def State.tdCount (s : State) (n : Nat) : Nat := ((List.range 12).filter (fun k => k != n && s.tdOn k)).length

/-- A refused write: CFG_BAD and Bell 8. -/
def State.cfgBad (s : State) (n : Nat) : State := (s.setFld F.trkTrainCfgBad n 0 1).ring 8 (96 + n)

/-- A write of TRKn_CFG that sets EN (R159). `nonce` is what a training from DOWN draws. -/
def State.trunkEnable (s : State) (n : Nat) (v : BitVec 64) (nonce : Word) : State :=
  let q := wr F.trkCfgFirst v / 4
  let td := s.fld F.quadPersonalityMode q = 2
  if !s.laneSetOk n v || !s.hostOk n v then s.cfgBad n
  else if td ∧ 6 ≤ s.tdCount n then (s.quadRefuse q 7 n).cfgBad n
  else if td ∧ s.tdLandingOk n = false then s.cfgBad n
  else
    let s := s.storeReg .trkCfg n 0 v
    if td then
      let s := (List.range 10).foldl (fun s i => s.setReg .trkTdCnt n i 0) s
      let s := (s.setReg .trkTdStatus n 0 0).setTd n { pseq := (s.hostSt (s.fld F.trkTdCtrlHost n)).rxPosted }
      s.tdStart n
    else s.trainDown n nonce

/-- Clearing EN (R159): DOWN, the lanes idle without a marker, the link state discarded as FLUSH does. -/
def State.trunkDisable (s : State) (n : Nat) : State :=
  if !s.flag F.trkCfgEn n then s
  else if s.isTd n then
    let s := (s.trkLanes n).foldl (fun s l => s.txOff l) ((s.tdQuiet n).tdClear n)
    let s := ((s.setFld F.trkTdStatusState n 0 0).setFld F.trkTdStatusLanesUp n 0 0).setTd n {}
    let s : State := { s with beacons := unitSet {} s.beacons n {} }
    s.setFld F.trkCfgEn n 0 0
  else
    let s := ((s.flushTrunk n true).secDrop n).trkQuiet n
    let s := (s.trkLanes n).foldl (fun s l => s.txOff l) s
    let s := s.setFld F.trkLinkStatusState n 0 0
    let s := ((s.setActive n 0).setFld F.trkCfgEn n 0 0).loopFree n
    (s.dropClaims n).setTrk n { s.trk n with training := .none, held := false, hold := [], param := none, paired := none }

/-- A write of TRKn_CFG (R159): whole while EN = 0; while EN = 1 only EN may be cleared, and TARGET written. -/
def State.trkCfgWrite (s : State) (n : Nat) (v : BitVec 64) (nonce : Word) : State :=
  if s.flag F.trkCfgEn n then
    if wr F.trkCfgEn v = 0 then (s.trunkDisable n).setFld F.trkCfgTarget n 0 (wr F.trkCfgTarget v)
    else if s.isTd n then s.setFld F.trkCfgTarget n 0 (wr F.trkCfgTarget v) else s.targetWrite n (wr F.trkCfgTarget v)
  else if wr F.trkCfgEn v = 1 then s.trunkEnable n v nonce
  else s.storeReg .trkCfg n 0 v

/-- TRUNK_ENABLE (R159): `value` is what is written to TRKn_CFG, its EN taken as 1. -/
def execTrunkEnable (n : Fin 24) (value : BitVec 64) (nonce : BitVec 64) (s : State) : Host.Outcome State Fault Refusal :=
  .next (s.trkCfgWrite n.val (fldPut F.trkCfgEn 1 value) nonce)

/-- TRUNK_DISABLE (R159). -/
def execTrunkDisable (n : Fin 24) (s : State) : Host.Outcome State Fault Refusal := .next (s.trunkDisable n.val)

end Sys2Proof.Machine
end

