-- ==== Sys2Proof/Machine/UsbOps.lean ====
section
/-! DEFINITION. The USB 2.0 complex: ports, power, hub instances and requests (spec/13_usb_complex.md R325 to R342). -/

namespace Sys2Proof.Machine

def State.up (s : State) (h : Nat) : UpPort := unitGet {} s.usb.ups h
def State.setUp (s : State) (h : Nat) (v : UpPort) : State :=
  let u := s.usb
  { s with usb := { u with ups := unitSet {} u.ups h v } }
def State.dn (s : State) (k : Nat) : DnPort := unitGet {} s.usb.dns k
def State.setDn (s : State) (k : Nat) (v : DnPort) : State :=
  let u := s.usb
  { s with usb := { u with dns := unitSet {} u.dns k v } }
def State.setAudio (s : State) (v : Audio) : State :=
  let u := s.usb
  { s with usb := { u with audio := v } }

/-- Port p of the hub instance of host h. -/
def State.hubPort (s : State) (h p : Nat) : HubPort := unitGet {} (s.up h).ports p
def State.setHubPort (s : State) (h p : Nat) (v : HubPort) : State :=
  s.setUp h { s.up h with ports := unitSet {} (s.up h).ports p v }

/-- Bell 8, USB complex. -/
def State.usbBell (s : State) : State := s.ring 8 130

/-- An answer to host h. -/
def State.usbSay (s : State) (h : Nat) (a : UsbAnswer) : State := s.emit (.usb h a)

/-- STATE of UPh. -/
def State.upState (s : State) (h : Nat) : Nat := s.fld F.upStatusState h

/-- Is a hub instance configured, in suspend too? -/
def State.hubConfigured (s : State) (h : Nat) : Bool :=
  s.upState h == 3 || (s.upState h == 4 && (s.up h).before == 3)

/-- The owner field of DNk in USB_ASSIGN. -/
def State.assigned (s : State) (k : Nat) : Nat := (s.reg .usbAssign).toNat / 2 ^ (4 * k) % 16

/-- The host shown the port; 7 none or gap. -/
def State.dnOwner (s : State) (k : Nat) : Nat := s.fld F.dnStatusOwner k

/-! Power and connection (R326, R331). -/

/-- Is DNk_PWREN high (R331; assumption log 198)? -/
def State.dnPower (s : State) (k : Nat) : Bool :=
  let o := s.dnOwner k
  s.flag F.dnCtrlPwrEn k && !(s.dn k).tripped && !(s.dn k).cycle &&
  (if o < 6 then (s.hubPort o (k + 1)).power && s.hubConfigured o else s.flag F.dnCtrlIdlePwr k)

/-- A hub port no longer shows its device; `change` sets C_PORT_CONNECTION. -/
def HubPort.gone (p : HubPort) (change : Bool) : HubPort :=
  { p with connected := false, enabled := false, suspended := false, resetting := false, low := false, high := false,
           cConnection := p.cConnection || (change && p.connected) }

/-- Show on a hub port whether a device is there. -/
def HubPort.shows (p : HubPort) (there low : Bool) : HubPort :=
  if p.connected && !there then p.gone p.power
  else if !p.connected && there then { p with connected := true, cConnection := true, low := low }
  else p

/-- Bring DNk_PWREN, what its owner's hub shows and SPEED up to date; a port that is not at high speed shows the speed of its
device's pull-up (R328). -/
def State.dnRefresh (s : State) (k : Nat) : State :=
  let on := s.dnPower k
  let d := (s.dn k).device
  let s := s.setFld F.dnStatusVbusOn k 0 (if on then 1 else 0)
  let o := s.dnOwner k
  let p := (s.hubPort o (k + 1)).shows (on && d.isSome) (d == some 1)
  if 6 ≤ o then s.setFld F.dnStatusSpeed k 0 (d.getD 0)
  else (s.setHubPort o (k + 1) p).setFld F.dnStatusSpeed k 0 (if p.high then 3 else d.getD 0)

/-- Port 9 of host h shows the embedded device while it is powered and in no gap (R326, R335). -/
def State.nineRefresh (s : State) (h : Nat) : State :=
  let p := s.hubPort h 9
  s.setHubPort h 9 (p.shows (p.power && s.hubConfigured h && (s.deadline .usbGap (8 + h) 0).isNone) false)

/-- Every port of a host. -/
def State.hubRefresh (s : State) (h : Nat) : State :=
  ((List.range 8).foldl (fun s k => if s.dnOwner k = h then s.dnRefresh k else s) s).nineRefresh h

/-- A write of DNk_STATUS: OC clears; on a port shown to no host, where no owner can power it again, so does the trip (R330, R331). -/
def State.dnStatusWrite (s : State) (k : Nat) (v mask : Word) : State :=
  let s := s.storeReg .dnStatus k 0 v mask
  let d := s.dn k
  let s := s.setDn k { d with tripped := d.tripped && (decide (s.dnOwner k < 6) || s.flag F.dnStatusOc k) }
  s.dnRefresh k

/-! Audio streams (R335, R338, R343). -/

/-- Stop both streams and flush their FIFOs. -/
def State.audioStop (s : State) : State :=
  let s := (s.setFld F.usbAudioStatusPlaying 0 0 0).setFld F.usbAudioStatusCapturing 0 0 0
  s.setAudio { s.usb.audio with play := [], capture := [] }

/-- Restart the discipline window and the feedback count. -/
def State.audioWindow (s : State) : State := s.setAudio { s.usb.audio with window := none, phases := [] }

/-- Does host h own the audio function? -/
def State.ownsAudio (s : State) (h : Nat) : Bool := s.fld F.usbAudioOwner == h

/-! Hub instances (R325, R332, R336, R339). -/

/-- A vendor transfer that is PENDING is abandoned. -/
def State.mgmtAbandon (s : State) (h : Nat) : State :=
  ((s.setFld F.upMgmtCtrlPending h 0 0).disarm .usbMgmt h 0).setUp h { s.up h with mgmtEnd := none }

/-- The embedded device of host h returns to its default state: a transfer of it is abandoned, its streams stop. -/
def State.embeddedReset (s : State) (h : Nat) : State :=
  let s := s.mgmtAbandon h
  let s := s.setUp h { s.up h with devAddr := 0, devConfig := false }
  if s.ownsAudio h then s.audioStop.audioWindow else s

/-- The hub instance of host h returns to its default state (R336). -/
def State.hubReset (s : State) (h : Nat) : State :=
  let s := (s.embeddedReset h).setUp h {}
  let s := ((s.setFld F.upStatusAddress h 0 0).setFld F.upStatusRwakeEn h 0 0).setFld F.upStatusHs h 0 0
  ((List.range 8).foldl (fun s k =>
    if s.dnOwner k = h then ((s.disarm .usbReset k 0).setFld F.dnStatusSuspended k 0 0).setDn k { s.dn k with tt := [] }
    else s) s).hubRefresh h

/-- Does the attach source of UPh report attachment (R325)? `pin` is the level of UPh_VBUS. -/
def State.attachSource (s : State) (h : Nat) (pin : Bool) : Bool :=
  if s.flag F.upCtrlAttachSrc h then pin
  else
    let t := s.fld F.upCtrlTc h
    decide (t < 12) && (s.fld F.tcStatusAttach t == 2 || s.fld F.tcStatusAttach t == 3) && s.fld F.tcCtrlDataRole t == 0

/-- The pull-up of UPh is connected. -/
def State.upAttach (s : State) (h : Nat) : State :=
  if s.upState h ≠ 0 then s else ((s.setFld F.upStatusState h 0 1).hubReset h).usbBell

/-- The pull-up of UPh is removed. -/
def State.upDetach (s : State) (h : Nat) : State :=
  if s.upState h = 0 then s else ((s.setFld F.upStatusState h 0 0).hubReset h).usbBell

/-- A bus reset (R332, R336): `chirps` is how many alternating chirp states the host drove in time. -/
def State.busReset (s : State) (h chirps : Nat) : State :=
  if s.upState h = 0 then s
  else
    let s := (s.setFld F.upStatusState h 0 1).addSat F.upStatusResets h 0 1 0xFFFF
    let s := s.hubReset h
    (s.setFld F.upStatusHs h 0 (if s.flag F.upCtrlHsEn h ∧ 6 ≤ chirps then 1 else 0)).usbBell

/-! Requests (R326, R334). -/

/-- Fields of a setup packet. -/
def setupByte (w : BitVec 64) (i : Nat) : Nat := w.toNat / 2 ^ (8 * i) % 256
def setupValue (w : BitVec 64) : Nat := w.toNat / 2 ^ 16 % 65536
def setupIndex (w : BitVec 64) : Nat := w.toNat / 2 ^ 32 % 65536
def setupLength (w : BitVec 64) : Nat := w.toNat / 2 ^ 48 % 65536

/-- wPortStatus and wPortChange (USB 2.0 tables 11-21 and 11-22). -/
def HubPort.words (p : HubPort) : List Byte :=
  let f := fun (b : Bool) (i : Nat) => if b then 2 ^ i else 0
  leBytes 2 (f p.connected 0 + f p.enabled 1 + f p.suspended 2 + f p.overCurrent 3 + f p.resetting 4 + f p.power 8 + f p.low 9 +
    f p.high 10) ++
  leBytes 2 (f p.cConnection 0 + f p.cEnable 1 + f p.cSuspend 2 + f p.cOverCurrent 3 + f p.cReset 4)

/-- Has a port a change bit set? -/
def HubPort.changed (p : HubPort) : Bool := p.cConnection || p.cEnable || p.cSuspend || p.cOverCurrent || p.cReset

/-! Descriptors (*Hub presented on each upstream port*, R334; layouts of USB 2.0 section 9.6 and Audio Device Class 2.0,
PRESUMED: assumption log 197). -/

/-- A device descriptor of class `c` and protocol `p`; identity values come from image `who`. -/
def deviceDescriptor (who : Nat) (c sub p : Byte) : List Byte :=
  [18, 1, 0x00, 0x02, c, sub, p, 64] ++ (List.range 9).map (Config.usbId who) ++ [1]

/-- A configuration descriptor before its interfaces `body`. -/
def configDescriptor (who interfaces : Nat) (attributes : Byte) (body : List Byte) : List Byte :=
  [9, 2] ++ leBytes 2 (9 + body.length) ++ [BitVec.ofNat 8 interfaces, 1, Config.usbId who 9, attributes, 0] ++ body

/-- An interface descriptor. -/
def interfaceDescriptor (number alt endpoints : Nat) (c sub p str : Byte) : List Byte :=
  [9, 4, BitVec.ofNat 8 number, BitVec.ofNat 8 alt, BitVec.ofNat 8 endpoints, c, sub, p, str]

/-- An endpoint descriptor. -/
def endpointDescriptor (address attributes : Byte) (size interval : Nat) : List Byte :=
  [7, 5, address, attributes] ++ leBytes 2 size ++ [BitVec.ofNat 8 interval]

/-- The hub's status-change endpoint: two bytes for nine ports. -/
def statusEndpoint (hs : Bool) : List Byte := endpointDescriptor 0x81 0x03 2 (if hs then 12 else 255)

/-- The hub's configuration: self-powered, remote wakeup, 0 mA; at high speed alternate setting 1 is the one with a translator
for each port. -/
def hubConfiguration (hs : Bool) : List Byte :=
  configDescriptor 0 1 0xE0
    (if hs then interfaceDescriptor 0 0 1 9 0 1 0 ++ statusEndpoint hs ++ interfaceDescriptor 0 1 1 9 0 2 0 ++ statusEndpoint hs
     else interfaceDescriptor 0 0 1 9 0 0 0 ++ statusEndpoint hs)

/-- Samples of the largest packet of the audio function (*Audio packet sizes*): `fast` is 96 kHz. -/
def audioSamples (hs fast : Bool) : Nat := if hs then (if fast then 13 else 7) else (if fast then 97 else 49)

/-- Bytes of the largest playback packet, of two channels in 4-byte subslots. -/
def playbackMax (hs fast : Bool) : Nat := 8 * audioSamples hs fast

/-- Bytes of the largest capture packet, of one channel. -/
def captureMax (hs fast : Bool) : Nat := 4 * audioSamples hs fast

/-- Interfaces 1 to 3 of the embedded device (R334); the largest packets are those of 96 kHz, which one alternate setting
carries too. -/
def audioInterfaces (hs : Bool) : List Byte :=
  [8, 11, 1, 3, 1, 0, 0x20, 0] ++ interfaceDescriptor 1 0 0 1 1 0x20 0 ++ Config.audioClass 0 ++
  interfaceDescriptor 2 0 0 1 2 0x20 0 ++ interfaceDescriptor 2 1 2 1 2 0x20 0 ++ Config.audioClass 1 ++
  endpointDescriptor 0x01 0x05 (playbackMax hs true) 1 ++ Config.audioClass 2 ++
  endpointDescriptor 0x81 0x11 (if hs then 4 else 3) (if hs then 4 else 1) ++
  interfaceDescriptor 3 0 0 1 2 0x20 0 ++ interfaceDescriptor 3 1 1 1 2 0x20 0 ++ Config.audioClass 3 ++
  endpointDescriptor 0x82 0x05 (captureMax hs true) 1 ++ Config.audioClass 4

/-- The configuration of the embedded device: interface 0, and the audio function for its owner (R334). -/
def embeddedConfiguration (hs owner : Bool) : List Byte :=
  configDescriptor 1 (if owner then 4 else 1) 0xC0
    (interfaceDescriptor 0 0 0 0xFF 0 0 0 ++ (if owner then audioInterfaces hs else []))

/-- A standard descriptor by type and index: the ones the spec describes, else the image. -/
def State.hubDescriptorOf (s : State) (h t i : Nat) : List Byte :=
  match t, i with
  | 1, 0 => deviceDescriptor 0 9 0 2
  | 2, 0 => hubConfiguration (s.flag F.upStatusHs h)
  | _, _ => Config.usbImage 0 t i

/-- A standard descriptor of the embedded device. -/
def State.embeddedDescriptorOf (s : State) (h t i : Nat) : List Byte :=
  match t, i with
  | 1, 0 => deviceDescriptor 1 0xEF 2 1
  | 2, 0 => embeddedConfiguration (s.flag F.upStatusHs h) (s.ownsAudio h)
  | _, _ => Config.usbImage (if s.ownsAudio h then 2 else 1) t i

/-- The hub descriptor: 9 ports, wHubCharacteristics 0x000D, bPwrOn2PwrGood 10, port 9 non-removable. -/
def hubDescriptor : List Byte := [11, 0x29, 9, 0x0D, 0x00, 10, 0, 0x00, 0x02, 0xFF, 0xFF]

/-- SetPortFeature on port p of host h's hub; none for a feature the hub does not take. -/
def State.portSet (s : State) (h p f : Nat) : Option State :=
  let x := s.hubPort h p
  let mine := decide (p ≤ 8) && s.dnOwner (p - 1) == h
  match f with
  | 8 =>
    let s := s.setHubPort h p { x with power := true }
    if p = 9 then some (s.nineRefresh h)
    else if mine then
      let d := s.dn (p - 1)
      some ((s.setDn (p - 1) { d with tripped := d.tripped && d.ocLow }).dnRefresh (p - 1))
    else some s
  | 4 =>
    if !x.connected then some s
    else if p = 9 then
      some ((s.embeddedReset h).setHubPort h 9 { x with
        enabled := true, suspended := false, cReset := true, high := s.flag F.upStatusHs h })
    else some ((s.setHubPort h p { x with resetting := true, enabled := false, suspended := false }).arm .usbReset (p - 1) 0 (ms 15))
  | 2 =>
    if !x.enabled then some s
    else
      let s := s.setHubPort h p { x with suspended := true }
      some (if mine then s.setFld F.dnStatusSuspended (p - 1) 0 1 else s)
  | 21 => some s
  | _ => none

/-- ClearPortFeature. -/
def State.portClear (s : State) (h p f : Nat) : Option State :=
  let x := s.hubPort h p
  let mine := decide (p ≤ 8) && s.dnOwner (p - 1) == h
  match f with
  | 1 => some (s.setHubPort h p { x with enabled := false })
  | 2 =>
    let s := if x.suspended then s.setHubPort h p { x with suspended := false, cSuspend := true } else s
    some (if mine then s.setFld F.dnStatusSuspended (p - 1) 0 0 else s)
  | 8 =>
    let s := s.setHubPort h p (({ x with power := false }).gone false)
    if p = 9 then some (s.embeddedReset h)
    else if mine then some ((s.disarm .usbReset (p - 1) 0).dnRefresh (p - 1))
    else some s
  | 16 => some (s.setHubPort h p { x with cConnection := false })
  | 17 => some (s.setHubPort h p { x with cEnable := false })
  | 18 => some (s.setHubPort h p { x with cSuspend := false })
  | 19 => some (s.setHubPort h p { x with cOverCurrent := false })
  | 20 => some (s.setHubPort h p { x with cReset := false })
  | _ => none

/-- An answer with a state: data cut at wLength. -/
def usbData (s : State) (w : BitVec 64) (d : List Byte) : Option (State × List Byte) := some (s, d.take (setupLength w))

/-- An answer with a descriptor; one that is not there is a STALL. -/
def usbImageData (s : State) (w : BitVec 64) (d : List Byte) : Option (State × List Byte) :=
  if d = [] then none else usbData s w d

/-- A hub-class request (USB 2.0 section 11.24.2); none is a STALL. -/
def State.hubClass (s : State) (h : Nat) (w : BitVec 64) : Option (State × List Byte) :=
  let p := setupIndex w % 256
  let port := decide (1 ≤ p ∧ p ≤ 9)
  let done := fun (x : Option State) => x.map (fun s => (s, ([] : List Byte)))
  match setupByte w 0, setupByte w 1 with
  | 0xA0, 6 => if setupValue w / 256 = 0x29 then usbData s w hubDescriptor else none
  | 0xA0, 0 => usbData s w [0, 0, 0, 0]
  | 0x20, 1 => if setupValue w ≤ 1 then some (s, []) else none
  | 0x20, 3 => if setupValue w ≤ 1 then some (s, []) else none
  | 0xA3, 0 => if port then usbData s w (s.hubPort h p).words else none
  | 0x23, 3 => if port then done (s.portSet h p (setupValue w)) else none
  | 0x23, 1 => if port then done (s.portClear h p (setupValue w)) else none
  | 0x23, 8 =>
    let e := setupValue w / 16 % 128 * 16 + setupValue w % 16
    let d := s.dn (p - 1)
    if port ∧ p ≤ 8 then some (s.setDn (p - 1) { d with tt := d.tt.filter (fun x => x.endpoint != e) }, []) else none
  | 0x23, 9 => if port ∧ p ≤ 8 then some (s.setDn (p - 1) { s.dn (p - 1) with tt := [] }, []) else none
  | 0xA3, 10 =>
    let r := s.openValue
    if port then usbData r.2 w (leBytes 8 r.1.toNat) else none
  | 0x23, 11 => if port then some (s, []) else none
  | _, _ => none

/-- A standard request to the hub (USB 2.0 section 9.4). -/
def State.hubStandard (s : State) (h : Nat) (w : BitVec 64) : Option (State × List Byte) :=
  let v := setupValue w
  let u := s.up h
  match setupByte w 0, setupByte w 1 with
  | 0x00, 5 =>
    some ((s.setFld F.upStatusAddress h 0 (v % 128)).setFld F.upStatusState h 0 (if v % 128 = 0 then 1 else 2), [])
  | 0x00, 9 =>
    if s.upState h = 1 ∨ 1 < v then none
    else if v = 1 then some ((s.setFld F.upStatusState h 0 3).hubRefresh h, [])
    else some (((s.setFld F.upStatusState h 0 2).setUp h { u with ports := [] }).hubRefresh h, [])
  | 0x80, 8 => usbData s w [if s.upState h = 3 then 1 else 0]
  | 0x80, 0 => usbData s w [BitVec.ofNat 8 (1 + 2 * s.fld F.upStatusRwakeEn h), 0]
  | 0x81, 0 => usbData s w [0, 0]
  | 0x82, 0 => usbData s w [0, 0]
  | 0x00, 1 => if v = 1 then some (s.setFld F.upStatusRwakeEn h 0 0, []) else none
  | 0x00, 3 => if v = 1 then some (s.setFld F.upStatusRwakeEn h 0 1, []) else if v = 2 then some (s, []) else none
  | 0x02, 1 => if v = 0 then some (s, []) else none
  | 0x02, 3 => if v = 0 then some (s, []) else none
  | 0x80, 6 => usbImageData s w (s.hubDescriptorOf h (v / 256) (v % 256))
  | 0x81, 10 => usbData s w [BitVec.ofNat 8 u.alt]
  | 0x01, 11 => if v ≤ 1 ∧ s.upState h = 3 then some (s.setUp h { u with alt := v }, []) else none
  | _, _ => none

/-- SET_INTERFACE of the embedded device (R334): alternate setting 1 of interfaces 2 and 3 starts a stream. -/
def State.setInterface (s : State) (h i alt : Nat) : Option State :=
  let a := s.usb.audio
  if alt = 0 ∧ i = 0 then some s
  else if !s.ownsAudio h then none
  else match i, alt with
    | 1, 0 => some s
    | 2, 0 => some ((s.setFld F.usbAudioStatusPlaying 0 0 0).setAudio { a with play := [] })
    | 2, 1 => some (s.setFld F.usbAudioStatusPlaying 0 0 1)
    | 3, 0 => some ((s.setFld F.usbAudioStatusCapturing 0 0 0).setAudio { a with capture := [] })
    | 3, 1 => some (s.setFld F.usbAudioStatusCapturing 0 0 1)
    | _, _ => none

/-- The sampling frequency. -/
def State.sampleRate (s : State) : Nat := if s.flag F.usbAudioStatusRate then 96000 else 48000

/-- A standard or audio-class request to the embedded device (R334, R338). -/
def State.embeddedRequest (s : State) (h : Nat) (w : BitVec 64) : Option (State × List Byte) :=
  let v := setupValue w
  let i := setupIndex w % 256
  let u := s.up h
  match setupByte w 0, setupByte w 1 with
  | 0x00, 5 => some (s.setUp h { u with devAddr := v % 128 }, [])
  | 0x00, 9 =>
    if u.devAddr = 0 ∨ 1 < v then none
    else
      let s := s.setUp h { u with devConfig := v == 1 }
      some (if v = 0 ∧ s.ownsAudio h = true then s.audioStop else s, [])
  | 0x80, 8 => usbData s w [if u.devConfig then 1 else 0]
  | 0x80, 0 => usbData s w [1, 0]
  | 0x81, 0 => usbData s w [0, 0]
  | 0x82, 0 => usbData s w [0, 0]
  | 0x80, 6 => usbImageData s w (s.embeddedDescriptorOf h (v / 256) (v % 256))
  | 0x81, 10 => usbData s w [if (i = 2 ∧ s.flag F.usbAudioStatusPlaying = true) ∨ (i = 3 ∧ s.flag F.usbAudioStatusCapturing = true)
      then 1 else 0]
  | 0x01, 11 => if u.devConfig then (s.setInterface h i v).map (fun s => (s, [])) else none
  | 0xA1, 1 =>
    if !s.ownsAudio h then none
    else if v / 256 = 1 then usbData s w (leBytes 4 s.sampleRate) else if v / 256 = 2 then usbData s w [1] else none
  | 0xA1, 2 =>
    if s.ownsAudio h ∧ v / 256 = 1 then
      usbData s w (leBytes 2 2 ++ ([48000, 96000].flatMap (fun f => leBytes 4 f ++ leBytes 4 f ++ leBytes 4 0)))
    else none
  | _, _ => none

/-- A request answered in hardware; `dev` says that it is to the device on port 9 (R326, R334, R339). -/
def State.hubRequest (s : State) (h : Nat) (dev : Bool) (w : BitVec 64) : State :=
  if s.upState h = 0 ∨ s.upState h = 4 ∨ (dev = true ∧ (s.hubPort h 9).enabled = false) then s
  else
    let s := if dev then s.mgmtAbandon h else s
    let r := if dev then s.embeddedRequest h w
      else if setupByte w 0 / 32 % 4 = 0 then s.hubStandard h w
      else if s.upState h = 3 then s.hubClass h w
      else none
    match r with
    | some (s, d) => s.usbSay h (.data d)
    | none => s.usbSay h .stall

end Sys2Proof.Machine
end

