-- ==== Sys2Proof/Machine/Usb.lean ====
section
/-! DEFINITION. The commands of the USB 2.0 complex (spec/13_usb_complex.md). -/

namespace Sys2Proof.Machine

/-! Upstream ports. -/

/-- USB_UP_ATTACH (R325): `pin` is the level of UPh_VBUS. -/
def execUsbUpAttach (host : Fin 6) (pin : Bool) (s : State) : Host.Outcome State Fault Refusal :=
  if s.flag F.usbCtrlEn && s.flag F.upCtrlEn host.val && s.attachSource host.val pin then .next ((s.wakeOn 1).upAttach host.val) else .next s

/-- USB_UP_DETACH (R325): the attach source reports detachment, or the hub's data role has become DFP. -/
def execUsbUpDetach (host : Fin 6) (s : State) : Host.Outcome State Fault Refusal := .next (s.upDetach host.val)

/-- USB_BUS_RESET (R332, R336). -/
def execUsbBusReset (host : Fin 6) (chirps : Nat) (s : State) : Host.Outcome State Fault Refusal :=
  .next (s.busReset host.val chirps)

/-- USB_HUB_REQUEST (R326, R334). -/
def execUsbHubRequest (host : Fin 6) (dev : Bool) (setup : BitVec 64) (s : State) : Host.Outcome State Fault Refusal :=
  .next (s.hubRequest host.val dev setup)

/-! Downstream ports. -/

/-- The reset of a downstream port ends (R333): `chirp` says that the device drove chirp K for 2.5 us or longer. -/
def State.portResetEnd (s : State) (k : Nat) (chirp : Bool) : State :=
  let s := s.disarm .usbReset k 0
  let o := s.dnOwner k
  if 6 ≤ o then s
  else
    let p := s.hubPort o (k + 1)
    if !p.resetting then s
    else
      let hs := chirp && s.flag F.upStatusHs o && (s.dn k).device == some 2
      let s := s.setHubPort o (k + 1) { p with resetting := false, enabled := p.connected, high := hs, cReset := true }
      let s := s.setFld F.dnStatusSuspended k 0 0
      if hs then s.setFld F.dnStatusSpeed k 0 3 else s.setFld F.dnStatusSpeed k 0 ((s.dn k).device.getD 0)

/-- USB_DN_PORT_RESET (R333): the 15 ms that the owner's request started are over. -/
def execUsbDnPortReset (k : Fin 8) (chirp : Bool) (s : State) : Host.Outcome State Fault Refusal :=
  if s.due .usbReset k.val then .next (s.portResetEnd k.val chirp) else .next s

/-- Has the owner of downstream port k enabled remote wake (R342)? -/
def State.ownerWakes (s : State) (k : Nat) : Bool := decide (s.dnOwner k < 6) && s.flag F.upStatusRwakeEn (s.dnOwner k)

/-- A device connects to a downstream port (`low` by its pull-up), or leaves it. -/
def State.dnConnect (s : State) (k : Nat) (device : Option Bool) : State :=
  let d := device.map (fun low => if low then 1 else 2)
  if d = (s.dn k).device then s
  else
    let s := if s.ownerWakes k then s.wakeOn 1 else s
    let s := s.setDn k { s.dn k with device := none, tt := [] }
    let s := (s.disarm .usbReset k 0).dnRefresh k
    let s := s.setDn k { s.dn k with device := d }
    let s := s.setFld F.dnStatusConnected k 0 (if d.isSome then 1 else 0)
    (s.dnRefresh k).usbBell

/-- USB_DN_CONNECT_CHANGE (R326). -/
def execUsbDnConnectChange (k : Fin 8) (device : Option Bool) (s : State) : Host.Outcome State Fault Refusal :=
  .next (s.dnConnect k.val device)

/-- One field of USB_ASSIGN changes (R328): the old owner sees the port empty, with no remote wake of it left (R329), the port
stops and its gap runs. -/
def State.reassign (s : State) (k : Nat) : State :=
  let o := s.dnOwner k
  let s := if o < 6 then
      let u := s.up o
      (s.setUp o { u with waking := if u.waking = some k then none else u.waking }).setHubPort o (k + 1)
        ((s.hubPort o (k + 1)).gone true)
    else s
  let s := (s.disarm .usbReset k 0).setDn k { s.dn k with tt := [] }
  let s := (s.setFld F.dnStatusOwner k 0 7).setFld F.dnStatusSuspended k 0 1
  (s.dnRefresh k).arm .usbGap k 0 (ms (s.fld F.usbCtrlReassignGap))

/-- A write of USB_ASSIGN; fields of 6 to 0xE are stored as 0xF. -/
def State.assignWrite (s : State) (v : BitVec 64) : State :=
  let old := (List.range 8).map s.assigned
  let s := s.storeReg .usbAssign 0 0 v
  (List.range 8).foldl (fun s k => if s.assigned k = old.getD k 15 then s else s.reassign k) s

/-- USB_ASSIGN_WRITE (R328). -/
def execUsbAssignWrite (value : BitVec 64) (s : State) : Host.Outcome State Fault Refusal := .next (s.assignWrite value)

/-- The end of a gap (R328 step 3, R335). -/
def State.gapEnd (s : State) : GapPort → State
  | .dn k =>
    let s := s.disarm .usbGap k.val 0
    let o := s.assigned k.val
    (s.setFld F.dnStatusOwner k.val 0 (if o < 6 then o else 7)).dnRefresh k.val
  | .nine h => (s.disarm .usbGap (8 + h.val) 0).nineRefresh h.val

/-- The timer of a port's gap. -/
def GapPort.timer : GapPort → Nat
  | .dn k => k.val
  | .nine h => 8 + h.val

/-- USB_REASSIGN_GAP_END (R328, R335). -/
def execUsbReassignGapEnd (port : GapPort) (s : State) : Host.Outcome State Fault Refusal :=
  if s.due .usbGap port.timer then .next (s.gapEnd port) else .next s

/-- DNk_OC_N has been low for OC_DEBOUNCE (`low`), or has gone high again (R330). -/
def State.overCurrent (s : State) (k : Nat) (low : Bool) : State :=
  let o := s.dnOwner k
  let d := s.dn k
  let s := s.setDn k { d with ocLow := low, tripped := low || d.tripped }
  if low && d.ocLow then s
  else if low then
    let s := (s.setFld F.dnStatusOc k 0 1).addSat F.dnStatusOcCount k 0 1 0xFFFF
    let s := if o < 6 then
        let p := s.hubPort o (k + 1)
        s.setHubPort o (k + 1) (({ p with overCurrent := true, cOverCurrent := true, power := false }).gone false)
      else s
    (s.dnRefresh k).usbBell
  else if o < 6 then
    let p := s.hubPort o (k + 1)
    s.setHubPort o (k + 1) { p with overCurrent := false, cOverCurrent := p.cOverCurrent || p.overCurrent }
  else s

/-- USB_DN_OVERCURRENT (R330). -/
def execUsbDnOvercurrent (k : Fin 8) (low : Bool) (s : State) : Host.Outcome State Fault Refusal :=
  .next (s.overCurrent k.val low)

/-- CYCLE takes VBUS off for 500 ms (R331). -/
def State.dnCycle (s : State) (k : Nat) : State :=
  ((s.setDn k { s.dn k with cycle := true }).dnRefresh k).arm .usbCycle k 0 (ms 500)

/-- USB_DN_CYCLE (R331). -/
def execUsbDnCycle (k : Fin 8) (s : State) : Host.Outcome State Fault Refusal := .next (s.dnCycle k.val)

/-- USB_DN_CYCLE_END (R331). -/
def execUsbDnCycleEnd (k : Fin 8) (s : State) : Host.Outcome State Fault Refusal :=
  if s.due .usbCycle k.val then
    .next (((s.disarm .usbCycle k.val 0).setDn k.val { s.dn k.val with cycle := false }).dnRefresh k.val)
  else .next s

/-! Transactions (R327, R337). -/

/-- Does traffic of host h reach the device on DNk? -/
def State.dnReached (s : State) (h k : Nat) : Bool :=
  let p := s.hubPort h (k + 1)
  s.dnOwner k == h && p.enabled && !p.suspended && s.dnPower k

/-- Where the data of UPh's vendor transfers lie. -/
def mgmtBuf (h : Nat) : Nat := 0x0400_1000 + 0x100 * h

/-- A transaction of host h. -/
def State.usbTxn (s : State) (h : Nat) : UsbTxn → State
  | .packet k d =>
    if s.dnReached h k.val && (!s.flag F.upStatusHs h || (s.hubPort h (k.val + 1)).high) then s.emit (.usbDown k.val d) else s
  | .startSplit k e periodic d =>
    let x := s.dn k.val
    if !s.flag F.upStatusHs h then s
    else if !s.dnReached h k.val then (if periodic then s else s.usbSay h .ack)
    else if periodic then s.setDn k.val { x with tt := x.tt ++ [{ endpoint := e, periodic := true, data := d }] }
    else if 2 ≤ (x.tt.filter (fun t => !t.periodic)).length then s.usbSay h .nak
    else (s.setDn k.val { x with tt := x.tt ++ [{ endpoint := e, periodic := false, data := d }] }).usbSay h .ack
  | .completeSplit k e =>
    let x := s.dn k.val
    if !s.flag F.upStatusHs h then s
    else if !s.dnReached h k.val then s.usbSay h .stall
    else match x.tt.find? (fun t => t.endpoint == e) with
      | none => s.usbSay h .stall
      | some t =>
        (match t.result with
        | none => s.usbSay h .nyet
        | some d => (s.setDn k.val { x with tt := x.tt.erase t }).usbSay h (.data d))
  | .splitDone k e d =>
    let x := s.dn k.val
    s.setDn k.val { x with tt := x.tt.map (fun t => if t.endpoint = e then { t with result := some d } else t) }
  | .statusChange =>
    if s.upState h ≠ 3 then s
    else
      let m := ((List.range 10).map (fun p => if 1 ≤ p ∧ (s.hubPort h p).changed = true then 2 ^ p else 0)).sum
      if m = 0 then s.usbSay h .nak else s.usbSay h (.data (leBytes 2 m))
  | .mgmtOut d =>
    if s.flag F.upMgmtCtrlPending h && !(s.up h).mgmtIn then
      let n := s.fld F.upMgmtCtrlLen h
      let d := d.take (256 - n)
      ((s.writeBytes (mgmtBuf h + n) d).setFld F.upMgmtCtrlLen h 0 (n + d.length)).usbSay h .ack
    else s
  | .mgmtStage =>
    let u := s.up h
    if s.flag F.upMgmtCtrlPending h then s.usbSay h .nak
    else match u.mgmtEnd with
      | none => s
      | some .stall => (s.setUp h { u with mgmtEnd := none }).usbSay h .stall
      | some .ack =>
        (s.setUp h { u with mgmtEnd := none }).usbSay h
          (.data (if u.mgmtIn then (s.bytes (mgmtBuf h) (min 256 (s.fld F.upMgmtCtrlLen h))).take (setupLength (s.reg .upMgmtSetup h))
            else []))

/-- USB_HOST_TRANSACTION (R327, R337, R338). -/
def execUsbHostTransaction (host : Fin 6) (txn : UsbTxn) (s : State) : Host.Outcome State Fault Refusal :=
  if s.upState host.val = 0 ∨ s.upState host.val = 4 then .next s else .next (s.usbTxn host.val txn)

/-! Vendor requests (R338, R339). -/

/-- A vendor request to interface 0. -/
def State.vendorSetup (s : State) (h : Nat) (w : BitVec 64) : State :=
  if s.upState h = 0 ∨ s.upState h = 4 ∨ (s.hubPort h 9).enabled = false then s
  else
    let s := s.mgmtAbandon h
    if 256 < setupLength w then s.usbSay h .stall
    else
      let s := (s.setReg .upMgmtSetup h 0 w).addFld F.upMgmtCtrlXfer h 0 1
      let s := (s.setFld F.upMgmtCtrlPending h 0 1).setFld F.upMgmtCtrlLen h 0 0
      let s := s.setUp h { s.up h with mgmtIn := decide (128 ≤ setupByte w 0) }
      (s.arm .usbMgmt h 0 (ms (10 * s.fld F.upCtrlMgmtLimit h))).usbBell

/-- USB_VENDOR_SETUP (R338). -/
def execUsbVendorSetup (host : Fin 6) (setup : BitVec 64) (s : State) : Host.Outcome State Fault Refusal :=
  .next (s.vendorSetup host.val setup)

/-- UPh_MGMT_DONE for transfer `x`: it ends the transfer, or is STALE. -/
def State.mgmtDone (s : State) (h x : Nat) (e : MgmtEnd) : State :=
  if s.flag F.upMgmtCtrlPending h && s.fld F.upMgmtCtrlXfer h == x then
    ((s.setFld F.upMgmtCtrlPending h 0 0).disarm .usbMgmt h 0).setUp h { s.up h with mgmtEnd := some e }
  else s.setFld F.upMgmtCtrlStale h 0 1

/-- USB_MGMT_DONE_ACK (R338, R339). -/
def execUsbMgmtDoneAck (host : Fin 6) (xfer : Fin 256) (s : State) : Host.Outcome State Fault Refusal :=
  .next (s.mgmtDone host.val xfer.val .ack)

/-- USB_MGMT_DONE_STALL (R338, R339). -/
def execUsbMgmtDoneStall (host : Fin 6) (xfer : Fin 256) (s : State) : Host.Outcome State Fault Refusal :=
  .next (s.mgmtDone host.val xfer.val .stall)

/-- USB_MGMT_LATE (R338 step 4). -/
def execUsbMgmtLate (host : Fin 6) (s : State) : Host.Outcome State Fault Refusal :=
  if s.due .usbMgmt host.val ∧ s.flag F.upMgmtCtrlPending host.val = true then
    .next ((s.mgmtDone host.val (s.fld F.upMgmtCtrlXfer host.val) .stall).setFld F.upMgmtCtrlLate host.val 0 1)
  else .next s

/-! Suspend and resume (R340, R341). -/

/-- UPh suspends: so do the devices behind it. -/
def State.upSuspend (s : State) (h : Nat) : State :=
  let st := s.upState h
  if st = 0 ∨ st = 4 then s
  else
    let s := (s.setUp h { s.up h with before := st }).setFld F.upStatusState h 0 4
    let s := if s.ownsAudio h then s.audioWindow else s
    (List.range 8).foldl (fun s k => if s.dnOwner k = h then s.setFld F.dnStatusSuspended k 0 1 else s) s

/-- USB_SUSPEND (R340). -/
def execUsbSuspend (host : Fin 6) (s : State) : Host.Outcome State Fault Refusal := .next (s.upSuspend host.val)

/-- A resume K of a device (R329, R340): it starts a remote wake, or resumes a port suspended on its own. -/
def State.remoteWake (s : State) (k : Nat) : State :=
  let o := s.dnOwner k
  if 6 ≤ o then s
  else
    let s := if s.ownerWakes k then s.wakeOn 1 else s
    let p := s.hubPort o (k + 1)
    if s.upState o = 4 then
      if s.flag F.upStatusRwakeEn o ∧ p.connected ∧ !p.suspended ∧ (s.up o).waking = none then
        ((s.setUp o { s.up o with waking := some k }).emit (.usbResume false k)).emit (.usbResume true o)
      else s
    else if p.suspended then
      ((s.setHubPort o (k + 1) { p with suspended := false, cSuspend := true }).setFld F.dnStatusSuspended k 0 0).emit (.usbResume false k)
    else s

/-- USB_REMOTE_WAKE (R340). -/
def execUsbRemoteWake (k : Fin 8) (s : State) : Host.Outcome State Fault Refusal := .next (s.remoteWake k.val)

/-- The host's resume ends (R341): every port suspended with the hub is resumed; the waking port shows C_PORT_SUSPEND. -/
def State.hostResume (s : State) (h : Nat) : State :=
  if s.upState h ≠ 4 then s
  else
    let u := s.up h
    let s := ((s.wakeOn 1).setFld F.upStatusState h 0 u.before).setUp h { u with waking := none }
    let s := match u.waking with
      | some k => s.setHubPort h (k + 1) { s.hubPort h (k + 1) with cSuspend := true }
      | none => s
    (List.range 8).foldl (fun s k =>
      if s.dnOwner k = h ∧ !(s.hubPort h (k + 1)).suspended then
        (s.setFld F.dnStatusSuspended k 0 0).emit (.usbResume false k) else s) s

/-- USB_HOST_RESUME (R341). -/
def execUsbHostResume (host : Fin 6) (s : State) : Host.Outcome State Fault Refusal := .next (s.hostResume host.val)

/-! The audio function (R335, R338, R343 to R345). -/

/-- Write USB_AUDIO.OWNER; port 9 of the old and of the new owner disconnects for a gap (R335). -/
def State.audioOwner (s : State) (owner : Nat) : State :=
  let old := s.fld F.usbAudioOwner
  let new := if owner = 6 then 7 else owner
  if new = old then s
  else
    let s := s.audioStop.audioWindow
    let s := s.setFld F.usbAudioOwner 0 0 new
    [old, new].foldl (fun s h =>
      if h < 6 then
        let s := (s.embeddedReset h).setHubPort h 9 ((s.hubPort h 9).gone true)
        s.arm .usbGap (8 + h) 0 (ms (s.fld F.usbCtrlReassignGap))
      else s) s

/-- USB_AUDIO_OWNER_CHANGE (R335). -/
def execUsbAudioOwnerChange (owner : Fin 8) (s : State) : Host.Outcome State Fault Refusal := .next (s.audioOwner owner.val)

/-- The trim in force, in 0.1 ppm. -/
def State.trim (s : State) : Int := signed 16 (s.fld F.usbAudioStatusTrim)

/-- Bring the synthesiser's phase up to date: TB ns times fs times (1 + trim). -/
def State.phaseNow (s : State) : State :=
  let a := s.usb.audio
  s.setAudio { a with
    phase := a.phase + (s.tb - a.phaseTb) * s.sampleRate * (10000000 + s.trim).toNat, phaseTb := s.tb }

/-- SET_CUR of the sampling frequency (R338, R345); its SETUP abandons a vendor transfer (R339). -/
def State.audioRate (s : State) (h freq : Nat) : State :=
  if s.upState h = 0 ∨ s.upState h = 4 ∨ (s.hubPort h 9).enabled = false then s
  else
    let s := s.mgmtAbandon h
    if !s.ownsAudio h || (freq != 48000 && freq != 96000) then s.usbSay h .stall
    else
      let streams := s.flag F.usbAudioStatusPlaying || s.flag F.usbAudioStatusCapturing
      let s := s.phaseNow.setFld F.usbAudioStatusRate 0 0 (if freq = 96000 then 1 else 0)
      let s := if streams then s.audioStop else s
      s.audioWindow.usbSay h (.data [])

/-- USB_AUDIO_SET_RATE (R338). -/
def execUsbAudioSetRate (host : Fin 6) (freq : Nat) (s : State) : Host.Outcome State Fault Refusal :=
  .next (s.audioRate host.val freq)

/-- The feedback value (R345): sample periods of the last 1,024 intervals, in units of 1/64 or, at full speed, 1/16. -/
def State.feedback (s : State) (h : Nat) : State :=
  let a := s.usb.audio
  let unit := if s.flag F.upStatusHs h then 64 else 16
  match a.phases[1024]? with
  | some p => s.setFld F.usbAudioStatusFb 0 0 (((a.phase - p) * unit * 2 + 10 ^ 16) / (2 * 10 ^ 16))
  | none => s

/-- A discipline window of 1,024 intervals closes (R344): the trim moves by at most 10 steps of 0.1 ppm. -/
def State.disciplineEnd (s : State) (t0 nominal : Nat) : State :=
  let diff : Int := ((s.tb - t0 : Nat) : Int) - nominal
  if 500 * nominal < diff.natAbs * 1000000 then s
  else
    let num : Int := -diff * 10000000 - s.trim * nominal
    let step : Int := (min 10 (num.natAbs / nominal) : Nat)
    let trim := if num < 0 then s.trim - step else s.trim + step
    let off := (-diff * 10000000 - trim * nominal).natAbs
    (s.setFld F.usbAudioStatusTrim 0 0 (BitVec.ofInt 16 trim).toNat).setFld F.usbAudioStatusLocked 0 0
      (if off ≤ 2 * nominal then 1 else 0)

/-- An SOF of host h (R344, R345); `missing` says that the one before it did not come. -/
def State.sof (s : State) (h : Nat) (missing : Bool) : State :=
  let st := s.upState h
  if st = 0 ∨ st = 4 ∨ s.ownsAudio h = false then s
  else
    let s := s.phaseNow
    let a := s.usb.audio
    let s := s.setAudio { a with phases := if missing then [a.phase] else (a.phase :: a.phases).take 1025 }
    let s := s.feedback h
    let a := s.usb.audio
    if !s.flag F.usbAudioDiscipline then s.setAudio { a with window := none }
    else match (if missing then none else a.window) with
      | none => s.setAudio { a with window := some (s.tb, 0) }
      | some (t0, c) =>
        if c + 1 < 1024 then s.setAudio { a with window := some (t0, c + 1) }
        else (s.disciplineEnd t0 (if s.flag F.upStatusHs h then ms 128 else ms 1024)).setAudio { a with window := some (s.tb, 0) }

/-- USB_SOF (R344). -/
def execUsbSof (host : Fin 6) (missing : Bool) (s : State) : Host.Outcome State Fault Refusal :=
  .next (s.sof host.val missing)

/-- Samples a FIFO of 4 ms holds. -/
def State.fifoSize (s : State) : Nat := s.sampleRate / 250

/-- A 24-bit sample in a 4-byte subslot: the top three bytes. -/
def subslot (b : List Byte) : BitVec 24 := BitVec.ofNat 24 (leNat (b.drop 1))

/-- The stereo samples of a playback packet. -/
def playSamples : Nat → List Byte → List (BitVec 24 × BitVec 24)
  | 0, _ => []
  | n + 1, b => if b.length < 8 then [] else (subslot (b.take 4), subslot ((b.drop 4).take 4)) :: playSamples n (b.drop 8)

/-- An isochronous packet of the owner of the audio function (R337, R343, R345). -/
def State.audioPacket (s : State) (h : Nat) (p : AudioPkt) : State :=
  let a := s.usb.audio
  let hs := s.flag F.upStatusHs h
  if s.upState h = 0 ∨ s.upState h = 4 ∨ s.ownsAudio h = false then s
  else match p with
    | .playback d =>
      if s.flag F.usbAudioStatusPlaying && decide (d.length ≤ playbackMax hs (s.flag F.usbAudioStatusRate)) then s.setAudio { a with play := (a.play ++ playSamples d.length d).take s.fifoSize } else s
    | .capture =>
      if s.flag F.usbAudioStatusCapturing then
        let n := audioSamples hs (s.flag F.usbAudioStatusRate)
        (s.setAudio { a with capture := a.capture.drop n }).usbSay h
          (.data ((a.capture.take n).flatMap (fun x => 0 :: leBytes 3 x.toNat)))
      else s
    | .feedback =>
      if s.flag F.usbAudioStatusPlaying then s.usbSay h (.data (leBytes (if hs then 4 else 3) (s.fld F.usbAudioStatusFb))) else s

/-- USB_AUDIO_PACKET (R343). -/
def execUsbAudioPacket (host : Fin 6) (packet : AudioPkt) (s : State) : Host.Outcome State Fault Refusal :=
  .next (s.audioPacket host.val packet)

/-- The slots of a frame that carries a sample: two in I2S mode, eight in TDM mode. -/
def codecSlots (tdm : Bool) (slot : Nat) (x : BitVec 24 × BitVec 24) : List (BitVec 32) :=
  let w := fun (v : BitVec 24) => BitVec.ofNat 32 (v.toNat * 256)
  if tdm then (List.range 8).map (fun i => if i = slot then w x.1 else if i = slot + 1 then w x.2 else 0) else [w x.1, w x.2]

/-- A frame of the codec (R343); `sdi` is what AUD_SDI carried, by slot. -/
def State.codecFrame (s : State) (sdi : List (BitVec 32)) : State :=
  if !s.flag F.usbAudioMclkEn then s
  else
    let a := s.usb.audio
    let tdm := s.flag F.usbAudioFormat
    let x := a.play.headD (0, 0)
    let s := if a.play = [] then s.addFld F.usbUnderrunCount 0 0 1 else s
    let s := s.emit (.codec (codecSlots tdm (s.fld F.usbAudioOutSlot) x))
    let y := BitVec.ofNat 24 ((sdi.getD (if tdm then s.fld F.usbAudioInSlot else 0) 0).toNat / 256)
    let full := decide (s.fifoSize ≤ a.capture.length)
    let s := if full then s.addFld F.usbOverrunCount 0 0 1 else s
    s.setAudio { a with play := a.play.drop 1, capture := (if full then a.capture.drop 1 else a.capture) ++ [y] }

/-- AUDIO_CODEC_FRAME (R343). -/
def execAudioCodecFrame (sdi : List (BitVec 32)) (s : State) : Host.Outcome State Fault Refusal := .next (s.codecFrame sdi)

/-- A write of USB_AUDIO: fields but OWNER as their codes state; with DISCIPLINE = 0 the trim is TRIM_SET (R344). -/
def State.audioWrite (s : State) (v mask : BitVec 64) : State :=
  let owner := if wr F.usbAudioOwner mask = 7 then wr F.usbAudioOwner v else s.fld F.usbAudioOwner
  let s := s.audioOwner owner
  let s := s.phaseNow.storeReg .usbAudio 0 0 v (mask &&& ~~~ fldMask F.usbAudioOwner)
  if s.flag F.usbAudioDiscipline then s
  else (s.setFld F.usbAudioStatusTrim 0 0 (s.fld F.usbAudioTrimSet)).setAudio { s.usb.audio with window := none }

/-- Is every enabled upstream port suspended or detached (R342)? -/
def State.usbQuiet (s : State) : Bool :=
  (List.range 6).all (fun h => !s.flag F.upCtrlEn h || s.upState h == 0 || s.upState h == 4)

end Sys2Proof.Machine
end

