-- ==== Sys2Proof/Machine/Power.lean ====
section
/-! DEFINITION. Power paths, the POWER budget and the Newel's scan (spec/14_power_delivery.md, R350, R357 to R369). -/

namespace Sys2Proof.Machine

/-- A path; 12 is PPIN. -/
def State.path (s : State) (p : Nat) : PowerPath := unitGet {} s.power.paths p

/-- Write a path. -/
def State.setPath (s : State) (p : Nat) (v : PowerPath) : State :=
  let w := s.power
  { s with power := { w with paths := unitSet {} w.paths p v } }

/-- STATE of a path (*Power-path states*). -/
def State.ppState (s : State) (p : Nat) : Nat := s.fld F.ppStatusState p

/-- RESULT of `pwr.pp`: PPp_STATUS [31:0]. -/
def State.ppResult (s : State) (p : Nat) : Nat := (s.reg .ppStatus p).toNat % 2 ^ 32

/-- End every pwr.pp ON of a path that waits. -/
def State.ppFinish (s : State) (p status : Nat) : State :=
  s.completeWhere (fun k => match k with
    | .pwrPp q c => q == p && c == 1
    | _ => false) status (s.ppResult p)

/-- An event of a path rings Bell 9. -/
def State.ppBell (s : State) (p : Nat) : State := s.ring 9 (32 + p)

/-! The budget (R357, R359). -/

/-- A source path's allotment returns to the reserve. -/
def State.allotReturn (s : State) (p : Nat) : State :=
  if p < 12 then
    let a := s.fld F.powerAllotMw 0 p
    (s.setFld F.powerAllotMw 0 p 0).addFld F.powerReserveMw 0 0 a
  else s

/-- The sum of the allotments. -/
def State.allotted (s : State) : Nat := ((List.range 13).map (fun i => s.fld F.powerAllotMw 0 i)).sum

/-- A write of POWER_TOTAL (R357). -/
def State.powerTotal (s : State) (v : Nat) : State :=
  if v < s.allotted then s.setFld F.powerStatusCfgErr 0 0 1
  else (s.setFld F.powerTotalMw 0 0 v).setFld F.powerReserveMw 0 0 (v - s.allotted)

/-- POWER_TOTAL_WRITE (R357). -/
def execPowerTotalWrite (value : BitVec 32) (s : State) : Host.Outcome State Fault Refusal :=
  .next (s.powerTotal value.toNat)

/-- PWR_BUDGET (R357). -/
def execPwrBudget (x : Issue) (ra rb : Fin 32) (tag : Fin 16) (s : State) : Host.Outcome State Fault Refusal :=
  .next (s.wzOp x .power true tag.val [ra.val, rb.val] noChk fun s =>
    let i := s.wzG x ra.val
    let w := s.wzG x rb.val
    let a := s.fld F.powerAllotMw 0 i
    if 12 < i then (4, 0, s)
    else if w ≤ a then (0, 0, (s.setFld F.powerAllotMw 0 i w).addFld F.powerReserveMw 0 0 (a - w))
    else if s.fld F.powerReserveMw < w - a then (5, 0, s)
    else (0, 0, (s.setFld F.powerAllotMw 0 i w).setFld F.powerReserveMw 0 0 (s.fld F.powerReserveMw - (w - a))))

/-! Opening and tripping (R360, R364, R366). -/

/-- Drive DISCH, with its 650 ms limit; PPIN has no DISCHARGE resistor. -/
def State.discharge (s : State) (p : Nat) : State :=
  if p < 12 then
    ((s.setFld F.ppStatusDisch p 0 1).setPath p { s.path p with vlow := none }).arm .ppDischarge p 0 (ms 650)
  else s

/-- Stop the timers of an attempt, drive GATE and PRECHG low and clear PG. -/
def State.ppRelease (s : State) (p : Nat) : State :=
  let s := ((((s.disarm .ppFault p 0).disarm .ppPrecharge p 0).disarm .ppGate p 0).disarm .ppHold p 0)
  ((s.setFld F.ppStatusGate p 0 0).setFld F.ppStatusPrechg p 0 0).setFld F.ppStatusPg p 0 0

/-- Is the path driven: PRECHARGE, GATE_RISE or ON? -/
def State.driven (s : State) (p : Nat) : Bool := decide (1 ≤ s.ppState p ∧ s.ppState p ≤ 3)

/-- Open a path for one of the causes 8 to 12: its command is cleared; a driven path goes to OFF; a cool-down and a latch
go on (R368). -/
def State.ppOpen (s : State) (p cause : Nat) (disch : Bool) : State :=
  let s := s.setFld F.ppStatusCmdOn p 0 0
  if s.driven p then
    let s := ((s.ppRelease p).setFld F.ppStatusState p 0 0).setFld F.ppStatusCause p 0 cause
    (if disch then s.discharge p else s).ppFinish p 1
  else if disch && s.ppState p == 0 then s.discharge p
  else s

/-- A trip (R364, R366): cause 6 latches the path as DAMAGED; causes 1 to 5 cool down, or latch after five attempts. -/
def State.ppTrip (s : State) (p cause : Nat) : State :=
  if !s.driven p then s
  else
    let s := (((s.wakeOn 6).ppRelease p).discharge p).setFld F.ppStatusTripEvt p 0 1
    let s := (s.setFld F.ppStatusCause p 0 cause).addSat F.ppStatusTrips p 0 1 255
    let s := s.setPath p { s.path p with tripped := true, tripCause := cause }
    let s :=
      if cause = 6 then (s.setFld F.ppStatusState p 0 5).setFld F.ppStatusDamaged p 0 1
      else if s.fld F.ppStatusAttempts p = 5 then (s.setFld F.ppStatusState p 0 5).setFld F.ppStatusLockout p 0 1
      else (s.setFld F.ppStatusState p 0 4).arm .ppCool p 0 (ms (10 * s.fld F.ppCfgCooldown p))
    (s.ppFinish p 1).ppBell p

/-- Begin R361. -/
def State.ppBegin (s : State) (p : Nat) : State :=
  let s := ((s.setFld F.ppStatusState p 0 1).setFld F.ppStatusPrechg p 0 1).setFld F.ppStatusCmdOn p 0 1
  s.arm .ppPrecharge p 0 (ms (s.fld F.ppCfgPrechgMax p))

/-- Enter GATE_RISE. -/
def State.ppGateRise (s : State) (p : Nat) : State :=
  ((s.disarm .ppPrecharge p 0).setFld F.ppStatusState p 0 2 |>.setFld F.ppStatusGate p 0 1).arm .ppGate p 0
    (100000 * s.fld F.ppCfgTgate p)

/-! pwr.pp (R360, R361, R366). -/

/-- Is an ON refused (R350, R358, R360)? -/
def State.ppRefused (s : State) (p : Nat) : Bool :=
  s.ppState p == 5 || s.reg .newelPplim0 0 p == 0 ||
  (decide (p < 12) && (s.fld F.powerAllotMw 0 p == 0 || decide (s.fld F.newelPplim0Vmax 0 p * 10 < s.fld F.ppCfgVin p)))

/-- ON for a path that is not refused, in OFF: an ON after a trip counts as an attempt, but for one after PFAIL. -/
def State.ppOn (s : State) (p : Nat) : State :=
  if s.ppState p = 0 then
    let counts := (s.path p).tripped && s.fld F.ppStatusCause p != 8
    (if counts then s.addSat F.ppStatusAttempts p 0 1 5 else s).ppBegin p
  else s.setFld F.ppStatusCmdOn p 0 1

/-- CLEAR: LOCKOUT and ATTEMPTS; a latched path that is not DAMAGED goes to OFF. -/
def State.ppClear (s : State) (p : Nat) : State :=
  let s := (s.setFld F.ppStatusLockout p 0 0).setFld F.ppStatusAttempts p 0 0
  let s := s.setPath p { s.path p with tripped := false }
  if s.ppState p = 5 then (s.setFld F.ppStatusState p 0 0).setFld F.ppStatusCmdOn p 0 0 else s

/-- The effect of `pwr.pp ra, rb, t`; rb[3:0] is the command (*pwr.pp commands*). -/
def State.pwrPp (s : State) (x : Issue) (ra rb : Fin 32) (tag : Fin 16) : State :=
  s.wzIssue x { group := .power, priv := true, tag := some tag.val, srcs := [ra.val, rb.val] } noChk fun s =>
    let t := x.thread.val
    let p := s.wzG x ra.val
    let cmd := s.wzG x rb.val % 16
    let s := s.setThr x.core.val t (s.thr x.core.val t).next
    let s := s.otAlloc x.core.val t tag.val (.pwrPp p cmd)
    let fin := fun (s : State) (status : Nat) => s.otComplete x.core.val t tag.val status (s.ppResult p)
    if 12 < p then s.otComplete x.core.val t tag.val 4 0
    else match cmd with
      | 0 => fin (s.ppOpen p 12 false) 0
      | 1 =>
        if s.ppRefused p then fin s 4
        else if s.ppState p = 4 then fin s 3
        else
          let s := s.ppOn p
          if s.flag F.ppStatusPg p then fin s 0 else s
      | 2 => fin (s.ppOpen p 12 true) 0
      | 3 => if s.flag F.ppStatusDamaged p then fin s 4 else fin (s.ppClear p) 0
      | _ => fin s 4

/-- PP_CMD_OFF (R360): pwr.pp whose rb[3:0] is 0; another code has the effect *pwr.pp commands* gives it. -/
def execPpCmdOff (x : Issue) (ra rb : Fin 32) (tag : Fin 16) (s : State) : Host.Outcome State Fault Refusal :=
  .next (s.pwrPp x ra rb tag)

/-- PP_CMD_ON (R361): pwr.pp whose rb[3:0] is 1. -/
def execPpCmdOn (x : Issue) (ra rb : Fin 32) (tag : Fin 16) (s : State) : Host.Outcome State Fault Refusal :=
  .next (s.pwrPp x ra rb tag)

/-- PP_CMD_DISCHARGE (R360): pwr.pp whose rb[3:0] is 2. -/
def execPpCmdDischarge (x : Issue) (ra rb : Fin 32) (tag : Fin 16) (s : State) : Host.Outcome State Fault Refusal :=
  .next (s.pwrPp x ra rb tag)

/-- PP_CMD_CLEAR (R366): pwr.pp whose rb[3:0] is 3. -/
def execPpCmdClear (x : Issue) (ra rb : Fin 32) (tag : Fin 16) (s : State) : Host.Outcome State Fault Refusal :=
  .next (s.pwrPp x ra rb tag)

/-- PWR_ADC (R360): `aux` is what a fresh conversion of a board input gives. -/
def execPwrAdc (x : Issue) (ra : Fin 32) (tag : Fin 16) (aux : Fin 4096) (s : State) : Host.Outcome State Fault Refusal :=
  .next (s.wzOp x .power true tag.val [ra.val] noChk fun s =>
    let c := s.wzG x ra.val
    if 63 < c then (4, 0, s) else if c ≤ 52 then (0, unitGet 0 s.power.adc c, s) else (0, aux.val, s))

/-! The scan (R360 to R367). -/

/-- The latest code of a channel. -/
def State.adcCode (s : State) (c : Nat) : Nat := unitGet 0 s.power.adc c

/-- Current of a path in 0.01 mA, and its output in 0.1 mV. -/
def State.ppCurrent (s : State) (p : Nat) : Nat := s.adcCode (4 * p) * s.fld F.newelPplim1Iscale 0 p
def State.ppOutput (s : State) (p : Nat) : Nat := s.adcCode (4 * p + 1) * s.fld F.newelPplim1Vscale 0 p

/-- The reference in 0.1 mV: VIN, or for PPIN the measured input (R361). -/
def State.ppReference (s : State) (p : Nat) : Nat :=
  if p < 12 then s.fld F.ppCfgVin p * 10 else s.adcCode 52 * s.fld F.newelPplim1Vscale 0 p

/-- Does the output lie within 5 % of the reference? -/
def State.ppNear (s : State) (p : Nat) : Bool :=
  decide (20 * (max (s.ppOutput p) (s.ppReference p) - min (s.ppOutput p) (s.ppReference p)) ≤ s.ppReference p)

/-- Is the measured temperature beyond TMAX_CODE, in the direction NTC gives? -/
def State.ppHot (s : State) (p : Nat) : Bool :=
  let c := s.adcCode (4 * p + 3)
  let m := s.fld F.newelPplim0TmaxCode 0 p
  if s.flag F.newelPplim0Ntc 0 p then decide (c < m) else decide (m < c)

/-- One pole of the thermal model: target minus pole, times 10 us over the time constant. A time constant of 0 leaves the
new value open where the pole would move (assumption log 90). -/
def State.pole (s : State) (t target : Rat) (steps : Nat) : Rat × State :=
  if t = target then (t, s)
  else if steps = 0 then
    let (v, s) := s.openValue
    ((v.toInt : Rat), s)
  else (t + (target - t) / (steps : Rat), s)

/-- The thermal model of a path (R365); MODEL_C shows it in whole °C, 0 to 255. -/
def State.ppModel (s : State) (p : Nat) : State :=
  let a := s.path p
  let i : Rat := (s.ppCurrent p : Rat) / 100000
  let rds : Rat := (s.fld F.newelPplim1Rds 0 p : Rat) / 1000 * (1 + ((s.fld F.newelPplim1Tref 0 p : Rat) + a.t1 + a.t2 - 25) / 250)
  let w := i * i * rds
  let (t1, s) := s.pole a.t1 (w * ((s.fld F.newelPplim1Rth1 0 p : Rat) / 4)) (500 * s.fld F.newelPplim1Tau1 0 p)
  let (t2, s) := s.pole a.t2 (w * ((s.fld F.newelPplim1Rth2 0 p : Rat) * 4)) (10000 * s.fld F.newelPplim1Tau2 0 p)
  let m : Rat := (s.fld F.newelPplim1Tref 0 p : Rat) + t1 + t2
  (s.setPath p { s.path p with t1 := t1, t2 := t2, model := m }).setFld F.ppStatusModelC p 0 (min 255 m.floor.toNat)

/-- What a scan remembers of a path, and PPp_MEAS. -/
def State.ppMeasure (s : State) (p : Nat) : State :=
  let a := s.path p
  let keep := fun (c : Bool) (o : Option Nat) => if c then some (o.getD s.tb) else none
  let s := s.setPath p { a with
    below := keep (decide (s.ppCurrent p < s.fld F.newelPplim0Imax 0 p * 100)) a.below
    ovSince := keep (decide (s.fld F.newelPplim0Vmax 0 p * 100 < s.ppOutput p)) a.ovSince
    hot := if s.ppHot p then min 2 (a.hot + 1) else 0
    vlow := keep (decide (s.ppOutput p < 8000)) a.vlow }
  (((s.setFld F.ppMeasIMa p 0 (min 65535 (s.ppCurrent p / 100))).setFld F.ppMeasVoutMv p 0
    (min 65535 (s.ppOutput p / 10))).setFld F.ppMeasTempCode p 0 (s.adcCode (4 * p + 3))).setFld F.ppMeasGateCode p 0
    (s.adcCode (4 * p + 2))

/-- Has something held for `ns`? -/
def State.held (s : State) (since : Option Nat) (ns : Nat) : Bool :=
  match since with
  | some t => decide (t + ns ≤ s.tb)
  | none => false

/-- The fault timer of a driven path (R364): it starts above IMAX, and stops once the current has stayed below for 100 us. -/
def State.ppFaultTimer (s : State) (p : Nat) : State :=
  if !s.driven p then s
  else if decide (s.fld F.newelPplim0Imax 0 p * 100 < s.ppCurrent p) then
    s.armOnce .ppFault p 0 (us (s.fld F.ppCfgFaultT p))
  else if s.held (s.path p).below (us 100) then s.disarm .ppFault p 0
  else s

/-- The cause a scan finds: the lowest code (R364). -/
def State.ppCauseFound (s : State) (p : Nat) : Option Nat :=
  let a := s.path p
  if s.held a.ovSince (us 20) then some 3
  else if a.hot = 2 then some 4
  else if (s.fld F.newelPplim0TmaxC 0 p : Rat) < a.model then some 5
  else none

/-- PG of a path in ON (R363, R367): a PG that comes completes the waiting ON; one that goes ends its 60 s. -/
def State.ppGood (s : State) (p : Nat) : State :=
  if s.ppState p ≠ 3 then s
  else
    let good := s.ppNear p && s.held (s.path p).below (us 100) && (s.deadline .ppFault p 0).isNone
    let was := s.flag F.ppStatusPg p
    if good && !was then (((s.setFld F.ppStatusPg p 0 1).arm .ppHold p 0 (ms 60000)).ppFinish p 0).ppBell p
    else if !good && was then ((s.setFld F.ppStatusPg p 0 0).disarm .ppHold p 0).ppBell p
    else s

/-- One path under a scan: measure, model, fault timer, trips, then its state moves on. -/
def State.ppScan (s : State) (p : Nat) : State :=
  let s := ((s.ppMeasure p).ppModel p).ppFaultTimer p
  match (if s.driven p then s.ppCauseFound p else none) with
  | some c => s.ppTrip p c
  | none =>
    let s :=
      if s.ppState p = 1 then (if s.ppNear p then s.ppGateRise p else s)
      else if s.ppState p = 2 then
        (if s.fld F.ppCfg2GateOk p ≤ s.adcCode (4 * p + 2) then
          ((s.disarm .ppGate p 0).setFld F.ppStatusState p 0 3).setFld F.ppStatusPrechg p 0 0 else s)
      else s
    s.ppGood p

/-- NEWEL_ADC_SCAN (R360): `codes` are what channels 0 to 52 convert to. -/
def execNewelAdcScan (codes : List Nat) (s : State) : Host.Outcome State Fault Refusal :=
  let w := s.power
  let adc := (List.range 53).foldl (fun u c => unitSet 0 u c (codes.getD c 0 % 4096)) w.adc
  .next ((List.range 13).foldl (fun s p => s.ppScan p) { s with power := { w with adc := adc } })

/-- PP_SHORT (R364). -/
def execPpShort (p : Fin 13) (s : State) : Host.Outcome State Fault Refusal := .next (s.ppTrip p.val 2)

/-- PP_FAULT_TIMER (R364). -/
def execPpFaultTimer (p : Fin 13) (s : State) : Host.Outcome State Fault Refusal :=
  if s.due .ppFault p.val then .next (s.ppTrip p.val 1) else .next s

/-- PP_PRECHARGE_TIMEOUT (R361). -/
def execPpPrechargeTimeout (p : Fin 13) (s : State) : Host.Outcome State Fault Refusal :=
  if s.due .ppPrecharge p.val && s.ppState p.val == 1 then
    .next (((s.setFld F.ppStatusPrechgTo p.val 0 1).ppGateRise p.val).ppBell p.val)
  else .next s

/-- PP_GATE_TIMEOUT (R362). -/
def execPpGateTimeout (p : Fin 13) (s : State) : Host.Outcome State Fault Refusal :=
  if s.due .ppGate p.val && s.ppState p.val == 2 then .next (s.ppTrip p.val 6) else .next s

/-- PP_DISCHARGE_DONE (R364): VBUS has been below 0.8 V for 1 ms. -/
def execPpDischargeDone (p : Fin 13) (s : State) : Host.Outcome State Fault Refusal :=
  if s.flag F.ppStatusDisch p.val && s.held (s.path p.val).vlow (ms 1) then
    .next ((s.setFld F.ppStatusDisch p.val 0 0).disarm .ppDischarge p.val 0)
  else .next s

/-- PP_DISCHARGE_FAIL (R364): 650 ms have passed. -/
def execPpDischargeFail (p : Fin 13) (s : State) : Host.Outcome State Fault Refusal :=
  if s.flag F.ppStatusDisch p.val && s.due .ppDischarge p.val then
    .next ((((s.setFld F.ppStatusDisch p.val 0 0).disarm .ppDischarge p.val 0).setFld F.ppStatusCause p.val 0 7).ppBell p.val)
  else .next s

/-- Does a cool-down still wait for the temperature of its trip (R366)? -/
def State.ppWarm (s : State) (p : Nat) : Bool :=
  let a := s.path p
  (a.tripCause == 4 || a.tripCause == 5) &&
    (s.ppHot p || decide ((s.fld F.newelPplim0TmaxC 0 p : Rat) < a.model + 10))

/-- PP_COOLDOWN_END (R366). -/
def execPpCooldownEnd (p : Fin 13) (s : State) : Host.Outcome State Fault Refusal :=
  if s.ppState p.val == 4 && s.due .ppCool p.val && !s.ppWarm p.val then
    let s := s.disarm .ppCool p.val 0
    if s.flag F.ppStatusCmdOn p.val then .next ((s.addSat F.ppStatusAttempts p.val 0 1 5).ppBegin p.val)
    else .next (s.setFld F.ppStatusState p.val 0 0)
  else .next s

/-- PP_ATTEMPTS_RESET (R366): PG has held for 60 s without a break. -/
def execPpAttemptsReset (p : Fin 13) (s : State) : Host.Outcome State Fault Refusal :=
  if s.due .ppHold p.val && s.flag F.ppStatusPg p.val then
    .next (((s.disarm .ppHold p.val 0).setFld F.ppStatusAttempts p.val 0 0).setPath p.val
      { s.path p.val with tripped := false })
  else .next s

end Sys2Proof.Machine
end

