-- ==== Sys2Proof/Machine/Pd.lean ====
section
/-! DEFINITION. Type-C units and the Power Delivery protocol layer (spec/14_power_delivery.md, R346 to R356, R369). The
message layouts that the hub looks into are those of USB Power Delivery Revision 3.1 (assumption log 91). -/

namespace Sys2Proof.Machine

/-- A Type-C unit. -/
def State.tc (s : State) (n : Nat) : TcUnit := unitGet {} s.power.tcs n

/-- Write a Type-C unit. -/
def State.setTc (s : State) (n : Nat) (v : TcUnit) : State :=
  let w := s.power
  { s with power := { w with tcs := unitSet {} w.tcs n v } }

/-- An event of a unit rings Bell 9. -/
def State.tcBell (s : State) (n : Nat) : State := s.ring 9 (16 + n)

/-! Messages. -/

/-- Fields of a message header: type, MessageID, number of data objects, extended. -/
def PdMsg.header (m : PdMsg) : Nat := leNat (m.data.take 2)
def PdMsg.type (m : PdMsg) : Nat := m.header % 32
def PdMsg.id (m : PdMsg) : Nat := m.header / 512 % 8
def PdMsg.objects (m : PdMsg) : Nat := m.header / 4096 % 8
def PdMsg.extended (m : PdMsg) : Bool := decide (32768 ≤ m.header)

/-- A control, data or extended message of a type. -/
def PdMsg.control (m : PdMsg) (t : Nat) : Bool := !m.extended && m.objects == 0 && m.type == t
def PdMsg.dataMsg (m : PdMsg) (t : Nat) : Bool := !m.extended && m.objects != 0 && m.type == t
def PdMsg.extMsg (m : PdMsg) (t : Nat) : Bool := m.extended && m.type == t

/-- GoodCRC, Request or EPR_Request, and EPR_KeepAlive. -/
def PdMsg.goodCrc (m : PdMsg) : Bool := m.control 1
def PdMsg.request (m : PdMsg) : Bool := m.dataMsg 2 || m.dataMsg 9
def PdMsg.eprKeepAlive (m : PdMsg) : Bool := m.extMsg 0x10 && (m.data.getD 4 0).toNat == 3

/-- The message with the MessageID the protocol layer assigns. -/
def PdMsg.withId (m : PdMsg) (id : Nat) : PdMsg :=
  { m with data := leBytes 2 (m.header - m.id * 512 + id % 8 * 512) ++ m.data.drop 2 }

/-- The power data objects of a Source_Capabilities or EPR_Source_Capabilities message. A chunk after the first starts
inside an object where 26 bytes a chunk divide one; the parts are not judged (assumption log 91). -/
def PdMsg.pdos (m : PdMsg) : List Nat :=
  let body := if m.extended then m.data.drop (4 + (leNat ((m.data.drop 2).take 2) / 2048 % 16 % 2) * 2) else m.data.drop 2
  (List.range (body.length / 4)).map (fun i => leNat ((body.drop (4 * i)).take 4))

/-- The highest voltage (mV) and current (mA) a PDO offers. -/
def pdoOffer (o : Nat) : Nat × Nat :=
  let f := fun lo n => o / 2 ^ lo % 2 ^ n
  let per := fun (p v : Nat) => if v = 0 then 0 else p / v
  match f 30 2 with
  | 0 => (f 10 10 * 50, f 0 10 * 10)
  | 1 => (f 20 10 * 50, per (f 0 10 * 5000) (f 10 10))
  | 2 => (f 20 10 * 50, f 0 10 * 10)
  | _ =>
    match f 28 2 with
    | 0 => (f 17 8 * 100, f 0 7 * 50)
    | 1 => (f 17 9 * 100, min 5000 (per (f 0 8 * 10000) (f 8 8)))
    | _ => (0, 0)

/-- Does a message offer more than the limits of path p (R350)? -/
def State.offersTooMuch (s : State) (p : Nat) (m : PdMsg) : Bool :=
  (m.dataMsg 1 || m.extMsg 0x11) && m.pdos.any (fun o =>
    decide (s.fld F.newelPplim0Vmax 0 p * 10 < (pdoOffer o).1 ∨ s.fld F.newelPplim0Imax 0 p < (pdoOffer o).2))

/-! Transmission (R347). -/

/-- MessageID counters return to their start: a reset or Soft_Reset, or a detach. -/
def State.tcIds (s : State) (n : Nat) : State := s.setTc n { s.tc n with txId := [], rxId := [] }

/-- Begin the transmission at the head of the queue. -/
def State.tcSend (s : State) (n : Nat) : State :=
  let u := s.tc n
  match u.tx with
  | [] => s
  | x :: rest =>
    if x.started then s
    else
      let m := x.msg.withId (unitGet 0 u.txId x.msg.sop)
      ((s.setTc n { u with tx := { x with msg := m, started := true } :: rest }).emit (.pd (.send n m))).arm .pdRetry n 0 (ms 1)

/-- The next transmission begins unless it waits for SinkTxNG to stand 16 ms. -/
def State.tcNext (s : State) (n : Nat) : State :=
  if (s.deadline .pdAms n 0).isSome then s else s.tcSend n

/-- A transmission ends: the Porter's operation completes, or the keep-alive's failure shows (R352). -/
def State.txDone (s : State) (n : Nat) (x : PdTx) (status : Nat) : State :=
  match x.op with
  | some (t, tag) => s.otComplete 9 t tag status 0
  | none => if status = 0 then s else (s.setFld F.tcStatusKaTxFail n 0 1).tcBell n

/-- The transmission at the head ends with a status: its MessageID counter moves on, and the next one begins. -/
def State.txEnd (s : State) (n status : Nat) : State :=
  let u := s.tc n
  match u.tx with
  | [] => s
  | x :: rest =>
    let id := unitGet 0 u.txId x.msg.sop
    (((s.disarm .pdRetry n 0).setTc n { u with tx := rest, txId := unitSet 0 u.txId x.msg.sop ((id + 1) % 8) }).txDone n x
      status).tcNext n

/-- Every transmission of a unit ends with a status, without being sent. -/
def State.txDrop (s : State) (n status : Nat) : State :=
  let q := (s.tc n).tx
  let s := ((s.disarm .pdRetry n 0).disarm .pdAms n 0).setTc n { s.tc n with tx := [] }
  q.foldl (fun (s : State) x => s.txDone n x status) s

/-- Signal Hard Reset: the protocol layer starts anew, the contract is gone. -/
def State.hardReset (s : State) (n : Nat) : State :=
  let s := (s.txDrop n 1).tcIds n
  ((s.setTc n { s.tc n with contract := .none }).setFld F.tcStatusHardResetTx n 0 1).emit (.pd (.send n ⟨3, []⟩))

/-- A contract message on SOP, sent or received, moves the negotiation on (assumption log 92). -/
def State.contractStep (s : State) (n : Nat) (m : PdMsg) : State :=
  let u := s.tc n
  if m.sop ≠ 0 then s
  else if m.dataMsg 1 then s.setTc n { u with caps := m.pdos }
  else if m.request then
    let pos := leNat ((m.data.drop 2).take 4) / 2 ^ 28
    s.setTc n { u with
      contract := .requested, fixed := m.dataMsg 2 && pos != 0 && (u.caps[pos - 1]?).any (fun o => o / 2 ^ 30 == 0) }
  else if m.control 3 ∧ u.contract = .requested then s.setTc n { u with contract := .accepted }
  else if m.control 6 ∧ u.contract = .accepted then s.setTc n { u with contract := .explicit }
  else s

/-- Is the unit a source? -/
def State.tcSource (s : State) (n : Nat) : Bool := s.flag F.tcCtrlPowerRole n

/-- Does the unit communicate: enabled, and TC0 only once the Porter has written TC0_CTRL (19 R436; assumption log 199)? -/
def State.tcTalks (s : State) (n : Nat) : Bool := s.flag F.tcCtrlEn n && (n != 0 || (s.tc n).taken)

/-- A PD message record: SOP, FLAGS, LEN and MESSAGE; none where its fields are not allowed (*PD message record*). -/
def pdRecord (b : List Byte) : Option (PdMsg × Bool) :=
  let sop := (b.getD 0 0).toNat
  let flags := (b.getD 1 0).toNat
  let len := leNat ((b.drop 2).take 2)
  if 4 < sop ∨ 1 < flags ∨ (if 3 ≤ sop then len ≠ 0 else len < 2 ∨ 264 < len) then none
  else some (⟨sop, (b.drop 8).take len⟩, flags == 1)

/-- A requested transmission (R347, R350). -/
def State.pdtx (s : State) (n thread tag : Nat) (b : List Byte) : State :=
  let fin := fun (s : State) (status : Nat) => s.otComplete 9 thread tag status 0
  if 11 < n then fin s 4
  else match pdRecord b with
    | none => fin s 4
    | some (m, ams) =>
      if s.offersTooMuch n m then fin s 4
      else if !s.tcTalks n then fin s 1
      else if m.sop = 3 then fin (s.hardReset n) 0
      else if m.sop = 4 then fin (((s.txDrop n 1).tcIds n).emit (.pd (.send n m))) 0
      else if ams && !s.tcSource n && !s.flag F.tcStatusSinkTxOk n then fin s 3
      else
        let s := s.setTc n { s.tc n with tx := (s.tc n).tx ++ [{ msg := m, op := some (thread, tag) }] }
        if ams && s.tcSource n then (s.setTc n { s.tc n with ng := true }).arm .pdAms n 0 (ms 16) else s.tcNext n

/-- PWR_PDTX (R347). -/
def execPwrPdtx (x : Issue) (ra rb : Fin 32) (tag : Fin 16) (s : State) : Host.Outcome State Fault Refusal :=
  .next (s.wzIssue x { group := .power, priv := true, tag := some tag.val, srcs := [ra.val, rb.val] }
    (wzBuf x ra.val 272 false) fun s =>
      let c := x.core.val
      let t := x.thread.val
      let n := s.wzG x rb.val
      let b := s.localBytes c (s.wzG x ra.val) 272
      let s := s.setThr c t (s.thr c t).next
      (s.otAlloc c t tag.val (.pdtx n)).pdtx n t tag.val b)

/-- PD_AMS_START_DELAY (R347). -/
def execPdAmsStartDelay (tc : Fin 12) (s : State) : Host.Outcome State Fault Refusal :=
  if s.due .pdAms tc.val then .next ((s.disarm .pdAms tc.val 0).tcSend tc.val) else .next s

/-- PD_TX_RETRY (R347): after 1.0 ms without GoodCRC, twice; then ERROR. -/
def execPdTxRetry (tc : Fin 12) (s : State) : Host.Outcome State Fault Refusal :=
  let n := tc.val
  let u := s.tc n
  match u.tx with
  | [] => .next s
  | x :: rest =>
    if !s.due .pdRetry n || !x.started then .next s
    else if x.retries < 2 then
      .next (((s.setTc n { u with tx := { x with retries := x.retries + 1 } :: rest }).emit (.pd (.send n x.msg))).arm
        .pdRetry n 0 (ms 1))
    else .next (s.txEnd n 1)

/-! Reception (R347, R351). -/

/-- GoodCRC for the transmission at the head. -/
def State.rxGoodCrc (s : State) (n : Nat) (m : PdMsg) : State :=
  match (s.tc n).tx with
  | [] => s
  | x :: _ =>
    if x.started && x.msg.sop == m.sop && x.msg.id == m.id then (s.contractStep n x.msg).txEnd n 0 else s

/-- Requested transmissions that have not started are not sent. -/
def State.txOvertaken (s : State) (n : Nat) : State :=
  let q := (s.tc n).tx
  let late := q.filter (fun x => !x.started && x.op.isSome)
  if late = [] then s
  else
    let s := (s.disarm .pdAms n 0).setTc n { s.tc n with tx := q.filter (fun x => x.started || x.op.isNone) }
    (late.foldl (fun (s : State) x => s.txDone n x 3) s).tcNext n

/-- The keep-alive timer restarts (R351). -/
def State.kaRestart (s : State) (n : Nat) : State :=
  let l := s.fld F.tcCtrlKaLimit n
  if l = 0 then s else s.arm .pdKa n 0 (ms l)

/-- A message that passed its CRC and found room: GoodCRC; a duplicate is discarded, another is accepted. -/
def State.rxAccept (s : State) (n : Nat) (m : PdMsg) : State :=
  let s := (s.wakeOn 6).emit (.pd (.goodCrc n m.sop m.id))
  let s := if m.control 13 then s.tcIds n else s
  if unitGet none (s.tc n).rxId m.sop = some m.id then s
  else
    let u := s.tc n
    let s := s.setTc n { u with rxId := unitSet none u.rxId m.sop (some m.id), rx := u.rx ++ [(m, s.tb % 2 ^ 32)] }
    let s := (s.setFld F.tcStatusRxCount n 0 (s.tc n).rx.length).contractStep n m
    let s := if m.request || m.eprKeepAlive then s.kaRestart n else s
    (s.txOvertaken n).tcBell n

/-- PD_MESSAGE_RECEIVE (R347): `msg` is the message without its CRC, at most 264 bytes. In DEEP a unit only detects attachment
(17 R396). -/
def execPdMessageReceive (tc : Fin 12) (sop : Fin 3) (msg : List Byte) (s : State) : Host.Outcome State Fault Refusal :=
  let n := tc.val
  let m : PdMsg := ⟨sop.val, msg⟩
  if !s.tcTalks n || s.chipDeep || msg.length < 2 || decide (264 < msg.length) then .next s
  else if m.goodCrc then .next (s.rxGoodCrc n m)
  else if 8 ≤ (s.tc n).rx.length then .next (s.addFld F.tcRxFullCount n 0 1)
  else .next (s.rxAccept n m)

/-- The record that pwr.pdrx writes. -/
def pdRecordOf (e : PdMsg × Nat) : List Byte :=
  let m := e.1
  BitVec.ofNat 8 m.sop :: 0 :: leBytes 2 m.data.length ++ leBytes 4 e.2 ++ m.data ++
    (List.range (264 - m.data.length)).map (fun _ => 0)

/-- PWR_PDRX (R347). -/
def execPwrPdrx (x : Issue) (ra rb : Fin 32) (tag : Fin 16) (s : State) : Host.Outcome State Fault Refusal :=
  .next (s.wzOp x .power true tag.val [ra.val, rb.val] (wzBuf x ra.val 272 true) fun s =>
    let n := s.wzG x rb.val
    if 11 < n then (4, 0, s)
    else match (s.tc n).rx with
      | [] => (6, 0, s)
      | e :: rest =>
        let s := s.setLocal x.core.val (s.wzG x ra.val) (pdRecordOf e)
        (0, 0, (s.setTc n { s.tc n with rx := rest }).setFld F.tcStatusRxCount n 0 rest.length))

/-- A port's path opens with discharge and its allotment returns (R348, R351, R353). -/
def State.portOpen (s : State) (n cause : Nat) : State := (s.ppOpen n cause true).allotReturn n

/-- PD_KEEPALIVE_EXPIRE (R351). -/
def execPdKeepaliveExpire (tc : Fin 12) (s : State) : Host.Outcome State Fault Refusal :=
  let n := tc.val
  if s.due .pdKa n then
    let s := (((s.wakeOn 6).disarm .pdKa n 0).hardReset n).setFld F.tcStatusKaExpired n 0 1
    .next ((s.portOpen n 11).tcBell n)
  else .next s

/-- PD_KEEPALIVE_SEND (R352, R67, R68): a record the format does not allow sends nothing. -/
def execPdKeepaliveSend (tc : Fin 12) (s : State) : Host.Outcome State Fault Refusal :=
  let n := tc.val
  let g := (s.tc n).ka
  if !g.on || decide (s.tb < g.next) || !s.flag F.tcCtrlEn n then .next s
  else
    let g' := g.start s.tb (ms (s.fld F.tcCtrlKaTxPeriod n)) (s.fld F.chipCatchupPd)
    let s := s.setTc n { s.tc n with ka := g' }
    let s := if g'.rang && !g.rang then s.ring 9 2 else s
    match pdRecord (s.bytes (0x0300_0100 + 0x1000 * n) 272) with
    | none => .next s
    | some (m, _) =>
      if m.sop = 3 then .next (s.hardReset n)
      else if m.sop = 4 then .next (((s.txDrop n 1).tcIds n).emit (.pd (.send n m)))
      else .next ((s.setTc n { s.tc n with tx := (s.tc n).tx ++ [{ msg := m, op := none }] }).tcNext n)

/-- PD_HARD_RESET_RECEIVE (R353); not in DEEP, where a unit only detects attachment (17 R396). -/
def execPdHardResetReceive (tc : Fin 12) (s : State) : Host.Outcome State Fault Refusal :=
  let n := tc.val
  if !s.tcTalks n || s.chipDeep then .next s
  else
    let s := (((s.wakeOn 6).txDrop n 1).tcIds n).setFld F.tcStatusHardResetRx n 0 1
    let s := s.setTc n { s.tc n with contract := .none }
    .next ((if s.tcSource n then s.portOpen n 11 else s).tcBell n)

/-- PD_FRS_RECEIVE (R355): from the hub's source partner. -/
def execPdFrsReceive (tc : Fin 12) (s : State) : Host.Outcome State Fault Refusal :=
  if !s.chipDeep && s.flag F.tcCtrlFrsRxEn tc.val && !s.tcSource tc.val && s.fld F.tcStatusAttach tc.val != 0 then
    .next ((s.setFld F.tcStatusFrsRx tc.val 0 1).tcBell tc.val)
  else .next s

/-! Attach, detach, VCONN (R346, R348, R356). -/

/-- May CC_MODE come to an ATTACH state? Codes 1 and 3 to 5 of ATTACH belong to a sink or a DRP, 1, 2, 4 and 5 to a source
or a DRP; TRY states to a DRP alone. -/
def attachOk (mode a : Nat) : Bool :=
  match mode with
  | 1 => a == 1 || a == 3
  | 2 => a == 1 || a == 2
  | 3 => decide (1 ≤ a)
  | _ => false

/-- VCONN is sourced on an attached unit that asks for it. -/
def State.vconnRefresh (s : State) (n : Nat) : State :=
  let a := s.fld F.tcStatusAttach n
  s.setFld F.tcStatusVconnOn n 0 (if s.flag F.tcCtrlVconnEn n && (a == 2 || a == 3) then 1 else 0)

/-- TC_ATTACH (R346): `attach` is the ATTACH state reached, `cc` what the partner shows (PARTNER_CC), `orient` the CC line. A
unit that is attached already takes the new CC state. -/
def execTcAttach (tc : Fin 12) (attach : Fin 6) (cc : Fin 4) (orient : Bool) (s : State) : Host.Outcome State Fault Refusal :=
  let n := tc.val
  if !s.flag F.tcCtrlEn n || !attachOk (s.fld F.tcCtrlCcMode n) attach.val then .next s
  else
    let was := s.fld F.tcStatusAttach n
    let s := (s.wakeOn 2).setFld F.tcStatusAttach n 0 attach.val
    let s := (s.setFld F.tcStatusPartnerCc n 0 cc.val).setFld F.tcStatusOrient n 0 (if orient then 1 else 0)
    let s := s.setFld F.tcStatusSinkTxOk n 0 (if attach.val = 3 ∧ cc.val = 3 then 1 else 0)
    let fresh := (attach.val == 2 || attach.val == 3) && was != 2 && was != 3
    let s := if fresh then
        (s.setTc n { s.tc n with roles := (s.fld F.tcCtrlPowerRole n, s.fld F.tcCtrlDataRole n) }).vconnRefresh n
      else s
    .next (s.tcBell n)

/-- TC_DETACH (R348, R356). -/
def execTcDetach (tc : Fin 12) (s : State) : Host.Outcome State Fault Refusal :=
  let n := tc.val
  if s.fld F.tcStatusAttach n = 0 then .next s
  else
    let s := if s.tcSource n then
        let s := s.portOpen n 10
        (s.setFld F.tcCtrlPowerRole n 0 (s.tc n).roles.1).setFld F.tcCtrlDataRole n 0 (s.tc n).roles.2
      else s
    let s := ((s.txDrop n 1).tcIds n).disarm .pdKa n 0
    let s := s.setTc n { s.tc n with contract := .none, ng := false }
    let s := ((s.setFld F.tcStatusAttach n 0 0).setFld F.tcStatusPartnerCc n 0 0).setFld F.tcStatusSinkTxOk n 0 0
    .next ((s.vconnRefresh n).tcBell n)

/-- VCONN_OVERCURRENT (R346): VCONN at its limit of 400 mA is switched off. -/
def execVconnOvercurrent (tc : Fin 12) (s : State) : Host.Outcome State Fault Refusal :=
  if s.flag F.tcStatusVconnOn tc.val then
    .next (((s.setFld F.tcStatusVconnOn tc.val 0 0).setFld F.tcStatusVconnOc tc.val 0 1).tcBell tc.val)
  else .next s

/-- A write of TCn_CTRL: the schedule and the keep-alive timer follow their fields (R351, R352); a unit that is disabled
ends what it does. -/
def State.tcCtrlWrite (s : State) (n : Nat) (v mask : BitVec 64) : State :=
  let lim := s.fld F.tcCtrlKaLimit n
  let vc := s.flag F.tcCtrlVconnEn n
  let s := s.storeReg .tcCtrl n 0 v mask
  let s := s.setTc n { s.tc n with taken := true }
  let p := s.fld F.tcCtrlKaTxPeriod n
  let g := (s.tc n).ka
  let s := if p = 0 then s.setTc n { s.tc n with ka := {} }
    else if g.on then s
    else s.setTc n { s.tc n with ka := Grid.fresh (s.tb + ms p) }
  let s := if s.fld F.tcCtrlKaLimit n = 0 then s.disarm .pdKa n 0
    else if s.fld F.tcCtrlKaLimit n ≠ lim then s.kaRestart n else s
  let s := if wr F.tcCtrlRpLevel mask ≠ 0 then s.setTc n { s.tc n with ng := false } else s
  let s := if s.flag F.tcCtrlVconnEn n = vc then s else s.vconnRefresh n
  if s.flag F.tcCtrlEn n then s
  else ((s.txDrop n 1).disarm .pdKa n 0).setFld F.tcStatusAttach n 0 0 |>.vconnRefresh n

/-! PFAIL_N and the safe state (R355, R369, R371). -/

/-- PFAIL_ACCEPT (R369): every source path opens without discharge; armed ports send Fast Role Swap. -/
def execPfailAccept (s : State) : Host.Outcome State Fault Refusal :=
  let s := (List.range 12).foldl (fun (s : State) n => (s.ppOpen n 8 false).allotReturn n) (s.wakeOn 6)
  let s := (List.range 12).foldl (fun (s : State) n =>
    if s.flag F.tcCtrlFrsArm n then ((s.setFld F.tcStatusFrsTx n 0 1).tcBell n).emit (.pd (.frs n)) else s) s
  .next (s.ring 9 45)

/-- The Newel's operations on entry to SAFE (R371): Hard Reset on every port with an explicit contract, every path open, every
allotment in the reserve. -/
def State.powerSafe (s : State) : State :=
  let s := (List.range 12).foldl (fun (s : State) n => if (s.tc n).contract = .explicit then s.hardReset n else s) s
  let s := (List.range 13).foldl (fun (s : State) p => s.ppOpen p 9 true) s
  (List.range 13).foldl (fun (s : State) i =>
    let a := s.fld F.powerAllotMw 0 i
    (s.setFld F.powerAllotMw 0 i 0).addFld F.powerReserveMw 0 0 a) s

end Sys2Proof.Machine
end

