-- ==== Sys2Proof/Machine/Warden.lean ====
section
/-! DEFINITION. The Warden: its instructions, its mailbox commands, link keys and fuses (spec/15_security.md,
spec/03_waizefy_isa.md R99, R100). The functions of the cryptographic standards are the opaque ones of Config
(assumption log 14). -/

namespace Sys2Proof.Machine

/-- Write the Warden. -/
def State.setWarden (s : State) (w : Warden) : State := { s with warden := w }

/-! Attributes (*Key attribute word*). -/

def attrField (a : Word) (lo n : Nat) : Nat := a.toNat / 2 ^ lo % 2 ^ n
def attrKind (a : Word) : Nat := attrField a 18 3
def attrBind (a : Word) : Nat := attrField a 10 2
def attrUse (a : Word) (i : Nat) : Bool := a.getLsbD i

/-- May a slot be written with these attributes? -/
def attrOk (a : Word) : Bool :=
  decide (attrKind a ≤ 4 ∧ attrBind a ≤ 2 ∧ attrField a 24 40 = 0 ∧ attrField a 14 2 = 0 ∧ attrField a 6 4 = 0)

/-- An attribute word with the ORIGIN the hardware sets: 0 GENERATED, 1 DERIVED, 2 UNWRAPPED, 3 AGREED. -/
def attrOrigin (a : Word) (o : Nat) : Word := slotPut 23 21 o a

/-- Bytes of a key of a KIND. -/
def kindBytes (k : Nat) : Nat :=
  match k with
  | 0 => 32
  | 1 => 48
  | 2 => 64
  | 3 => 64
  | _ => 48

/-- Attributes of `ecc.ecdh`'s output: SYM384, DERIVE only, WARDEN, AGREED (R375). -/
def ecdhAttr : Word := BitVec.ofNat 64 (2 ^ 18 + 8 + 3 * 2 ^ 21)

/-- Attributes of a LINK key of Hall h (R383). -/
def linkAttr (h : Nat) : Word := BitVec.ofNat 64 (3 * 2 ^ 18 + 2 ^ 10 + h * 2 ^ 12 + 3 + 2 ^ 21)

/-- Free bytes (assumption log 2). -/
def State.freeBytes (s : State) : Nat → List Byte × State
  | 0 => ([], s)
  | n + 1 =>
    let r := State.freeBytes s n
    let v := r.2.openValue
    (r.1 ++ [v.1.setWidth 8], v.2)

/-! Derivation (R377). -/

/-- Bits L of a KIND. -/
def kindBits (k : Nat) : Nat :=
  match k with
  | 0 => 256
  | 1 => 384
  | 2 => 512
  | 3 => 512
  | _ => 448

/-- SP 800-108 counter mode. -/
def kdfCounter (ki label ctx : List Byte) (bits : Nat) : List Byte :=
  ((List.range (ceilDiv bits 384)).flatMap (fun i =>
    hmac384 ki (beBytes 4 (i + 1) ++ label ++ [0] ++ ctx ++ beBytes 4 bits))).take (bits / 8)

/-- HKDF-Expand: the first `n` blocks, each made from the one before. -/
def hkdfBlocks (prk info : List Byte) : Nat → Nat → List Byte → List Byte
  | 0, _, _ => []
  | n + 1, i, last =>
    let t := hmac384 prk (last ++ info ++ [BitVec.ofNat 8 i])
    t ++ hkdfBlocks prk info n (i + 1) t

/-- HKDF-Expand. -/
def hkdfExpand (prk info : List Byte) (bits : Nat) : List Byte :=
  (hkdfBlocks prk info (ceilDiv bits 384) 1 []).take (bits / 8)

/-- Output of a derivation as the key of a KIND: a P-384 scalar is (output mod (n - 1)) + 1. -/
def derivedKey (kind : Nat) (out : List Byte) : List Byte :=
  if kind = 4 then beBytes 48 (leNat out.reverse % (p384N - 1) + 1) else out

/-! Operations (R100, R373, R386). -/

/-- Is the key store locked (R387)? -/
def State.storeLocked (s : State) : Bool := s.flag F.wdnStatusStoreLocked

/-- What a Warden instruction decides when it issues. -/
inductive WardenPlan where
  | fail (status : Nat)                               -- completes at once
  | run (op : WardenOp) (key : Option KeySlot)        -- completes by WARDEN_OP_COMPLETE; `key` enters op.slot as WRITING

/-- Issue a Warden instruction: `plan` looks at the state after the pc has moved on. -/
def State.wardenOp (s : State) (x : Issue) (priv : Bool) (tag group func : Nat) (srcs : List Nat) (chk : State → WzCheck)
    (plan : State → WardenPlan × State) : State :=
  s.wzIssue x { group := .crypto, priv := priv, tag := some tag, srcs := srcs } chk fun s =>
    let c := x.core.val
    let t := x.thread.val
    let s := s.setThr c t (s.thr c t).next
    let r := plan s
    let s := r.2
    match r.1 with
    | .fail st => s.otAtOnce c t tag st 0
    | .run op key =>
      let s := s.otAlloc c t tag (.warden group func (op.slot.getD 64) 0)
      let s := match op.slot, key with
        | some k, some v => (s.setSlot k v).setSlotState k 1
        | _, _ => s
      let w := s.warden
      s.setWarden { w with ops := w.ops ++ [{ op with tag := tag }] }

/-- The end of an operation: its outputs are written, its slot is LIVE, or BURNT when the write was interrupted. -/
def State.wardenEnd (s : State) (op : WardenOp) (burnt : Bool) : State :=
  let w := s.warden
  let s := s.setWarden { w with ops := w.ops.filter (fun o => o.tag != op.tag) }
  if burnt && op.slot.isSome then
    match op.slot with
    | some k => ((s.setSlot k {}).setSlotState k 4).otComplete 10 0 op.tag 1 0
    | none => s
  else
    let s := op.writes.foldl (fun (s : State) e => s.setLocal 10 e.1 e.2) s
    let s := match op.slot with
      | some k => s.setSlotState k 2
      | none => s
    let s := match op.slotTo with
      | some (k, st) => if st = 0 then s.eraseSlot k else s.setSlotState k st
      | none => s
    s.otComplete 10 0 op.tag op.status 0

/-- WARDEN_OP_COMPLETE (R100, R373); `burnt`: a poisoned token or a failed read-back interrupted the write of its slot. -/
def execWardenOpComplete (tag : Fin 16) (burnt : Bool) (s : State) : Host.Outcome State Fault Refusal :=
  match s.warden.ops.find? (fun o => o.tag == tag.val) with
  | some op => .next (s.wardenEnd op burnt)
  | none => .next s

/-- A zeroize (R386): every slot EMPTY, every operation in progress TAMPERED with its output cleared, every key of the link
units and the Canvas key port dropped; trunks with security in force enter LOST. -/
def State.zeroize (s : State) : State :=
  let ops := s.warden.ops
  let s := ops.foldl (fun (s : State) op =>
    (op.writes.foldl (fun (s : State) e => s.setLocal 10 e.1 (e.2.map (fun _ => 0))) s).otComplete 10 0 op.tag 7 0) s
  let w := s.warden
  let s := s.setWarden { w with ops := [], slots := [], canvasPort := [] }
  let s := (List.range 4).foldl (fun (s : State) i => s.setReg .wdnSlotstate 0 i 0) s
  let s := s.addSat F.wdnStatusZeroizes 0 0 1 0xFFFF
  (List.range 24).foldl (fun (s : State) n =>
    let on := (s.sec n).on
    let s := s.secDrop n
    if on then s.trunkLost n 5 else s) s

/-- KEY_ZERO (R386, R387). -/
def execKeyZero (x : Issue) (tag : Fin 16) (s : State) : Host.Outcome State Fault Refusal :=
  .next (s.wzIssue x { group := .crypto, priv := true, tag := some tag.val } noChk fun s =>
    let c := x.core.val
    let t := x.thread.val
    (s.setThr c t (s.thr c t).next).zeroize.otAtOnce c t tag.val 0 0)

/-! Keys (R373 to R378). -/

/-- May a slot be written: named in range and EMPTY? -/
def State.slotFree (s : State) (k : Nat) : Bool := decide (k < 64) && s.slotState k == 0

/-- May a LIVE slot be used by a Warden operation other than retire, installation or wrap: bound to the Warden, with the use? -/
def State.slotUse (s : State) (k use : Nat) : Bool :=
  decide (k < 64) && s.slotState k == 2 && attrBind (s.slot k).attr == 0 && attrUse (s.slot k).attr use

/-- KEY_GEN (R373, R375): what the DRBG draws is open; a P-384 scalar comes of it as in a derivation. `health` is false when
the entropy source fails its health test now. -/
def execKeyGen (x : Issue) (ra rb : Fin 32) (tag : Fin 16) (health : Bool) (s : State) : Host.Outcome State Fault Refusal :=
  .next (s.wardenOp x false tag.val 0x30 0 [ra.val, rb.val] noChk fun s =>
    let k := s.wzG x ra.val
    let a := BitVec.ofNat 64 (s.wzG x rb.val)
    if s.storeLocked then (.fail 7, s)
    else if !s.slotFree k || !attrOk a then (.fail 4, s)
    else if !health || s.warden.drbgFail then
      let w := s.warden
      (.fail 1, s.setWarden { w with drbgFail := true })
    else
      let r := s.freeBytes (kindBits (attrKind a) / 8)
      (.run { tag := tag.val, slot := some k } (some { attr := attrOrigin a 0, key := derivedKey (attrKind a) r.1 }), r.2))

/-- Part of a descriptor. -/
def part (b : List Byte) (lo n : Nat) : Nat := leNat ((b.drop lo).take n)

/-- The derivation a descriptor asks for: the output, none when it is refused; HKDF-Extract gives 48 bytes, and what a longer
key holds beyond them is open. -/
def State.derive (s : State) (d : List Byte) : Option (List Byte) × State :=
  let a := BitVec.ofNat 64 (part d 32 8)
  let kind := attrKind a
  let ctxLen := part d 28 4
  let ctx := s.localBytes 10 (part d 24 4) ctxLen
  let labLen := part d 20 4
  let lab := s.localBytes 10 (part d 16 4) labLen
  let mode := part d 1 1
  let p := part d 0 1
  let root := decide (128 ≤ p)
  let bad := !attrOk a || decide (256 < ctxLen ∨ 64 < labLen ∨ 2 < mode) || part d 40 24 != 0 || part d 2 14 != 0 ||
    p / 64 % 2 == 1 || !localIn 10 (part d 24 4) ctxLen || !localIn 10 (part d 16 4) labLen ||
    (if root then mode != 0 else !s.slotUse (p % 64) 3)
  if bad then (none, s)
  else
    let ki := if root then Config.fuseRoot else (s.slot (p % 64)).key
    let bits := kindBits kind
    match mode with
    | 0 => (some (derivedKey kind (kdfCounter ki lab ctx bits)), s)
    | 1 =>
      let r := s.freeBytes (bits / 8 - 48)
      (some (derivedKey kind ((hmac384 lab ki ++ r.1).take (bits / 8))), r.2)
    | _ => (some (derivedKey kind (hkdfExpand ki (lab ++ ctx) bits)), s)

/-- KEY_DERIVE (R377). -/
def execKeyDerive (x : Issue) (ra rb : Fin 32) (tag : Fin 16) (s : State) : Host.Outcome State Fault Refusal :=
  .next (s.wardenOp x false tag.val 0x30 1 [ra.val, rb.val] (wzBuf x rb.val 64 false) fun s =>
    let k := s.wzG x ra.val
    let d := s.localBytes 10 (s.wzG x rb.val) 64
    if s.storeLocked then (.fail 7, s)
    else if !s.slotFree k then (.fail 4, s)
    else
      let r := s.derive d
      match r.1 with
      | none => (.fail 4, s)
      | some key =>
        (.run { tag := tag.val, slot := some k }
          (some { attr := attrOrigin (BitVec.ofNat 64 (part d 32 8)) 1, key := key }), r.2))

/-- KEY_RETIRE (R374). -/
def execKeyRetire (x : Issue) (ra : Fin 32) (tag : Fin 16) (s : State) : Host.Outcome State Fault Refusal :=
  .next (s.wardenOp x false tag.val 0x30 2 [ra.val] noChk fun s =>
    let k := s.wzG x ra.val
    if s.storeLocked then (.fail 7, s)
    else if 64 ≤ k then (.fail 4, s)
    else if s.slotState k = 2 then (.run { tag := tag.val, slotTo := some (k, 3) } none, s)
    else if s.slotState k = 3 then
      if s.installed k then (.fail 3, s) else (.run { tag := tag.val, slotTo := some (k, 0) } none, s)
    else (.fail 4, s))

/-- May slot w wrap (use 0 ENCRYPT) or unwrap (use 1 DECRYPT) (R378)? -/
def State.wrapSlot (s : State) (w use : Nat) : Bool := s.slotUse w use && attrKind (s.slot w).attr == 0

/-- Is a blob's header that of a wrapped key? -/
def blobOk (b : List Byte) : Bool := part b 0 2 == 0x4B57 && part b 2 1 == 1

/-- The blob that wraps a slot under a wrapping slot: bytes 0 to 27 as firmware wrote them, then ATTR, IV, KEY and TAG. -/
def State.wrapBlob (s : State) (k w : Nat) (head iv : List Byte) : List Byte :=
  let v := s.slot k
  let aad := head.take 28 ++ leBytes 8 v.attr.toNat
  let c := gcmSeal (s.slot w).key iv aad (v.key ++ List.replicate (64 - v.key.length) 0)
  aad ++ iv ++ c.1 ++ c.2

/-- May a slot be wrapped: LIVE with EXPORT? -/
def State.exportable (s : State) (k : Nat) : Bool :=
  decide (k < 64) && s.slotState k == 2 && (s.slot k).attr.getLsbD 16

/-- KEY_WRAP (R378). -/
def execKeyWrap (x : Issue) (ra rb : Fin 32) (tag : Fin 16) (s : State) : Host.Outcome State Fault Refusal :=
  .next (s.wardenOp x false tag.val 0x30 3 [ra.val, rb.val] (wzBuf x rb.val 128 true) fun s =>
    let k := s.wzG x ra.val
    let a := s.wzG x rb.val
    let b := s.localBytes 10 a 28
    if s.storeLocked then (.fail 7, s)
    else if !s.exportable k || !blobOk b || !s.wrapSlot (part b 3 1) 0 then (.fail 4, s)
    else
      let r := s.freeBytes 12
      (.run { tag := tag.val, writes := [(a + 28, (s.wrapBlob k (part b 3 1) b r.1).drop 28)] } none, r.2))

/-- The slot a blob holds, when its tag verifies under the wrapping slot. -/
def State.unwrapBlob (s : State) (w : Nat) (b : List Byte) : Option KeySlot :=
  let a := BitVec.ofNat 64 (part b 28 8)
  match gcmOpen (s.slot w).key ((b.drop 36).take 12) (b.take 36) ((b.drop 48).take 64) ((b.drop 112).take 16) with
  | some p => some { attr := attrOrigin a 2, key := p.take (kindBytes (attrKind a)) }
  | none => none

/-- Why an unwrap into slot k fails, if it does before its tag is looked at. -/
def State.unwrapBad (s : State) (k : Nat) (b : List Byte) : Bool :=
  !s.slotFree k || !blobOk b || !s.wrapSlot (part b 3 1) 1 || !attrOk (BitVec.ofNat 64 (part b 28 8))

/-- KEY_UNWRAP (R378). -/
def execKeyUnwrap (x : Issue) (ra rb : Fin 32) (tag : Fin 16) (s : State) : Host.Outcome State Fault Refusal :=
  .next (s.wardenOp x false tag.val 0x30 4 [ra.val, rb.val] (wzBuf x rb.val 128 false) fun s =>
    let k := s.wzG x ra.val
    let b := s.localBytes 10 (s.wzG x rb.val) 128
    if s.storeLocked then (.fail 7, s)
    else if s.unwrapBad k b then (.fail 4, s)
    else match s.unwrapBlob (part b 3 1) b with
      | some v => (.run { tag := tag.val, slot := some k } (some v), s)
      | none => (.fail 1, s))

/-- KEY_PUB (R100): the public half of a pair, 97 bytes. -/
def execKeyPub (x : Issue) (ra rb : Fin 32) (tag : Fin 16) (s : State) : Host.Outcome State Fault Refusal :=
  .next (s.wardenOp x false tag.val 0x30 6 [ra.val, rb.val] (wzBuf x rb.val 97 true) fun s =>
    let k := s.wzG x ra.val
    if s.storeLocked then (.fail 7, s)
    else if 64 ≤ k then (.fail 4, s)
    else
      let v := s.slot k
      if s.slotState k = 2 ∧ attrKind v.attr = 4 ∧ attrBind v.attr = 0 then
        (.run { tag := tag.val, writes := [(s.wzG x rb.val, p384Public v.key)] } none, s)
      else (.fail 4, s))

/-! Crypto descriptors (03 *Crypto descriptor*). -/

/-- A crypto descriptor as read. -/
structure CryptoDesc where
  src : Nat
  srcLen : Nat
  slot : Nat
  outSlot : Nat
  far : Bool
  dst : Nat
  dstLen : Nat
  aadLen : Nat
  aad : Nat
  iv : Nat
  tagAt : Nat
  clean : Bool                    -- reserved bits are 0

/-- Read a descriptor; `ecdh`: bits [13:8] of SLOT are the output slot. -/
def cryptoDesc (b : List Byte) (ecdh : Bool) : CryptoDesc :=
  let w := part b 12 4
  { src := part b 0 8, srcLen := part b 8 4, slot := w % 64, outSlot := w / 2 ^ 8 % 64, far := w / 2 ^ 24 % 2 == 1,
    dst := part b 16 8, dstLen := part b 24 4, aadLen := part b 28 4, aad := part b 32 8, iv := part b 40 8,
    tagAt := part b 48 8,
    clean := part b 56 8 == 0 && w / 2 ^ 6 % 4 == 0 && w / 2 ^ 25 == 0 && w / 2 ^ 14 % 2 ^ 10 == 0 &&
      (ecdh || w / 2 ^ 8 % 64 == 0) }

/-- Does a descriptor's input lie where it may, with a length it may have? -/
def CryptoDesc.srcOk (d : CryptoDesc) (farAllowed : Bool) : Bool :=
  d.clean && (if d.far then farAllowed && decide (d.srcLen ≤ 2 ^ 28) else decide (d.srcLen ≤ 65536) && localIn 10 d.src d.srcLen)

/-- May `n` bytes be written at a local address? -/
def State.outOk (s : State) (a n : Nat) : Bool := (s.bufChk 10 a n true).isNone

/-- The input of a descriptor. -/
def State.cryptoSrc (s : State) (d : CryptoDesc) : List Byte :=
  if d.far then s.bytes d.src d.srcLen else s.localBytes 10 d.src d.srcLen

/-- A crypto instruction on the descriptor at [ra]. -/
def State.cryptoOp (s : State) (x : Issue) (ra : Fin 32) (tag : Fin 16) (group func : Nat) (ecdh : Bool)
    (plan : CryptoDesc → State → WardenPlan) : State :=
  s.wardenOp x false tag.val group func [ra.val] (wzBuf x ra.val 64 false) fun s =>
    (plan (cryptoDesc (s.localBytes 10 (s.wzG x ra.val) 64) ecdh) s, s)

/-- Are the parts of a GCM descriptor in place? -/
def State.gcmOk (s : State) (d : CryptoDesc) : Bool :=
  d.srcOk false && decide (d.srcLen ≤ d.dstLen ∧ d.aadLen ≤ 65536) && s.outOk d.dst d.srcLen && localIn 10 d.aad d.aadLen &&
    localIn 10 d.iv 12

/-- AES_GCME (R100, R375): DST takes the ciphertext, TAG the tag. -/
def execAesGcme (x : Issue) (ra : Fin 32) (tag : Fin 16) (s : State) : Host.Outcome State Fault Refusal :=
  .next (s.cryptoOp x ra tag 0x31 0 false fun d s =>
    if s.storeLocked then .fail 7
    else if !s.gcmOk d || !s.outOk d.tagAt 16 || !s.slotUse d.slot 0 || attrKind (s.slot d.slot).attr != 0 then .fail 4
    else
      let c := gcmSeal (s.slot d.slot).key (s.localBytes 10 d.iv 12) (s.localBytes 10 d.aad d.aadLen) (s.cryptoSrc d)
      .run { tag := tag.val, writes := [(d.dst, c.1), (d.tagAt, c.2)] } none)

/-- AES_GCMD (R100, R375): a LIVE or RETIRED slot; a tag that fails clears DST and completes ERROR. -/
def execAesGcmd (x : Issue) (ra : Fin 32) (tag : Fin 16) (s : State) : Host.Outcome State Fault Refusal :=
  .next (s.cryptoOp x ra tag 0x31 1 false fun d s =>
    let a := (s.slot d.slot).attr
    let use := (s.slotState d.slot == 2 || s.slotState d.slot == 3) && attrBind a == 0 && attrUse a 1 && attrKind a == 0
    if s.storeLocked then .fail 7
    else if !s.gcmOk d || !localIn 10 d.tagAt 16 || !use then .fail 4
    else match gcmOpen (s.slot d.slot).key (s.localBytes 10 d.iv 12) (s.localBytes 10 d.aad d.aadLen) (s.cryptoSrc d)
        (s.localBytes 10 d.tagAt 16) with
      | some p => .run { tag := tag.val, writes := [(d.dst, p)] } none
      | none => .run { tag := tag.val, status := 1, writes := [(d.dst, List.replicate d.srcLen 0)] } none)

/-- SHA_384 (R100, R387): also while the store is locked. -/
def execSha384 (x : Issue) (ra : Fin 32) (tag : Fin 16) (s : State) : Host.Outcome State Fault Refusal :=
  .next (s.cryptoOp x ra tag 0x32 0 false fun d s =>
    if !d.srcOk true || decide (d.dstLen < 48) || !s.outOk d.dst 48 then .fail 4
    else .run { tag := tag.val, writes := [(d.dst, sha384 (s.cryptoSrc d))] } none)

/-- SHA_HMAC (R100, R375): any SYM kind with MAC. -/
def execShaHmac (x : Issue) (ra : Fin 32) (tag : Fin 16) (s : State) : Host.Outcome State Fault Refusal :=
  .next (s.cryptoOp x ra tag 0x32 1 false fun d s =>
    if s.storeLocked then .fail 7
    else if !d.srcOk false || decide (d.dstLen < 48) || !s.outOk d.dst 48 || !s.slotUse d.slot 2 ||
        decide (2 < attrKind (s.slot d.slot).attr) then .fail 4
    else .run { tag := tag.val, writes := [(d.dst, hmac384 (s.slot d.slot).key (s.cryptoSrc d))] } none)

/-- ECC_SIGN (R100, R375): SRC holds the digest, TAG takes the 96-byte signature. -/
def execEccSign (x : Issue) (ra : Fin 32) (tag : Fin 16) (s : State) : Host.Outcome State Fault Refusal :=
  .next (s.wardenOp x false tag.val 0x33 0 [ra.val] (wzBuf x ra.val 64 false) fun s =>
    let d := cryptoDesc (s.localBytes 10 (s.wzG x ra.val) 64) false
    if s.storeLocked then (.fail 7, s)
    else if !d.srcOk false || !s.outOk d.tagAt 96 || !s.slotUse d.slot 4 || attrKind (s.slot d.slot).attr != 4 then (.fail 4, s)
    else
      let v := s.openValue
      (.run { tag := tag.val, writes := [(d.tagAt, ecdsaSign (s.slot d.slot).key (s.cryptoSrc d) v.1)] } none, v.2))

/-- ECC_VFY (R100, R387): the key is the 97 bytes of the additional data, else the public half of SLOT (assumption log 103). -/
def execEccVfy (x : Issue) (ra : Fin 32) (tag : Fin 16) (s : State) : Host.Outcome State Fault Refusal :=
  .next (s.cryptoOp x ra tag 0x33 1 false fun d s =>
    let mem := d.aadLen == 97
    if !mem && s.storeLocked then .fail 7
    else if !d.srcOk false || !localIn 10 d.tagAt 96 || (mem && !localIn 10 d.aad 97) ||
        (!mem && !(s.slotState d.slot == 2 && attrKind (s.slot d.slot).attr == 4 && attrBind (s.slot d.slot).attr == 0)) then
      .fail 4
    else
      let key := if mem then s.localBytes 10 d.aad 97 else p384Public (s.slot d.slot).key
      .run { tag := tag.val, status := if ecdsaVerify key (s.cryptoSrc d) (s.localBytes 10 d.tagAt 96) then 0 else 1 } none)

/-- ECC_ECDH (R375): TAG holds the peer's public key; the secret goes into the output slot. -/
def execEccEcdh (x : Issue) (ra : Fin 32) (tag : Fin 16) (s : State) : Host.Outcome State Fault Refusal :=
  .next (s.cryptoOp x ra tag 0x33 2 true fun d s =>
    if s.storeLocked then .fail 7
    else if !d.clean || d.far || !localIn 10 d.tagAt 97 || !s.slotUse d.slot 5 || attrKind (s.slot d.slot).attr != 4 ||
        !s.slotFree d.outSlot then .fail 4
    else match ecdh (s.slot d.slot).key (s.localBytes 10 d.tagAt 97) with
      | some z => .run { tag := tag.val, slot := some d.outSlot } (some { attr := ecdhAttr, key := z })
      | none => .fail 1)

/-- A reset of the Warden (R373): writes in progress leave their slots BURNT, the DRBG starts anew. -/
def State.wardenBurn (s : State) : State :=
  let s := s.warden.ops.foldl (fun (s : State) op => match op.slot with
    | some k => (s.setSlot k {}).setSlotState k 4
    | none => s) s
  let w := s.warden
  s.setWarden { w with ops := [], drbgFail := false }

/-! Installation (R384). -/

/-- Is an installation of slot k in trunk n refused? -/
def State.installBad (s : State) (n k dir : Nat) : Bool :=
  let a := (s.slot k).attr
  let st := s.slotState k
  attrKind a != 3 || attrBind a != 1 || attrField a 12 2 != n / 6 || dir == 0 ||
    (dir / 2 % 2 == 1 && st != 2) || (dir % 2 == 1 && st != 2 && st != 3)

/-- Install slot k as receive key, as send key, or both, of an index; keys in place may end a training (06 R162 step 5). -/
def State.secInstall (s : State) (n k idx dir : Nat) : State :=
  let u := s.sec n
  let u := if dir % 2 = 1 then u.setRx idx (some k) else u
  let u := if dir / 2 % 2 = 1 then { u with tx := some k } else u
  let s := s.setSec n u
  let s := if dir / 2 % 2 = 1 then s.setFld F.trkLinkStatusKidxTx n 0 idx else s
  if (s.sec n).on && (s.trk n).secWait then (s.setTrk n { s.trk n with secWait := false }).tryUp n else s

/-- Remove the keys of an index. -/
def State.secRemove (s : State) (n idx dir : Nat) : State :=
  let u := s.sec n
  let u := if dir % 2 = 1 then u.setRx idx none else u
  let u := if dir / 2 % 2 = 1 ∧ s.fld F.trkLinkStatusKidxTx n = idx then { u with tx := none } else u
  s.setSec n u

/-- A write of TRKn_SEC_KEY by core 10: its fields, and with GO the request they make. -/
def State.secKeyWrite (s : State) (n : Nat) (v : BitVec 64) : State :=
  let s := s.storeReg .trkSecKey n 0 v
  if wr F.trkSecKeyGo v = 0 then s
  else
    let dir := wr F.trkSecKeyDir v
    let idx := wr F.trkSecKeyKidx v
    let k := wr F.trkSecKeySlot v
    let fin := fun (s : State) (st : Nat) => s.setFld F.trkSecStatusResult n 0 st
    if wr F.trkSecKeyClear v = 1 then fin (s.secRemove n idx dir) 0
    else if s.storeLocked then fin s 7
    else if s.installBad n k dir then fin s 4
    else fin (s.secInstall n k idx dir) 0

/-- SEC_KEY_INSTALL (R384): TRKn_SEC_KEY written with GO = 1 and CLEAR = 0. -/
def execSecKeyInstall (n : Fin 24) (value : BitVec 64) (s : State) : Host.Outcome State Fault Refusal :=
  .next (s.secKeyWrite n.val (fldPut F.trkSecKeyClear 0 (fldPut F.trkSecKeyGo 1 value)))

/-- SEC_KEY_CLEAR (R384): TRKn_SEC_KEY written with GO = 1 and CLEAR = 1. -/
def execSecKeyClear (n : Fin 24) (value : BitVec 64) (s : State) : Host.Outcome State Fault Refusal :=
  .next (s.secKeyWrite n.val (fldPut F.trkSecKeyClear 1 (fldPut F.trkSecKeyGo 1 value)))

/-- SEC_TUNNEL_RECEIVE (R382). -/
def execSecTunnelReceive (n : Fin 24) (payload : List Byte) (s : State) : Host.Outcome State Fault Refusal :=
  .next (s.secTunnelIn n.val payload)

/-- SEC_EN of a trunk is cleared: its keys are dropped (R384). -/
def State.secEnClear (s : State) (n : Nat) : State :=
  let on := (s.sec n).on
  let s := s.secDrop n
  if on then s.trunkLost n 5 else s

/-! Messages between cores (03 R99). -/

/-- Is a core held in reset: an Usher by RESET, another core until its thread runs? -/
def State.coreReset (s : State) (c : Nat) : Bool :=
  if c < 8 then s.flag F.usherCtlReset c || (s.wzCore c).resetWait
  else (List.range (coreThreads c)).all (fun t => (s.thr c t).run == .stopped)

/-- Deliver 64 bytes to a core's receive ring or the Warden mailbox: the status of `stair.msg`. -/
def State.deliver (s : State) (src dst : Nat) (m : List Byte) : Nat × State :=
  if 10 < dst ∨ s.coreReset dst = true then (4, s)
  else
    let k := s.wzCore dst
    if 16 ≤ k.ring.length then (5, s)
    else
      let s := s.setCore dst { k with ring := k.ring ++ [m], ringFrom := k.ringFrom ++ [src] }
      let s := if dst = 10 then s.setFld F.wdnStatusMbxUsed 0 0 (s.wzCore 10).ring.length else s
      (0, s.ring dst 0)

/-- Take the oldest message of a core. -/
def State.takeMessage (s : State) (c : Nat) : Option (List Byte × State) :=
  let k := s.wzCore c
  match k.ring with
  | [] => none
  | m :: rest =>
    let s := s.setCore c { k with ring := rest, ringFrom := k.ringFrom.drop 1 }
    some (m, if c = 10 then s.setFld F.wdnStatusMbxUsed 0 0 rest.length else s)

/-! HRF Warden commands (R372, *HRF Warden commands*). -/

/-- The Warden's reply: what it answers leaves as an output; the message holds the tag in bytes 2 and 3, and the rest of it is
open (assumption log 101). -/
def State.wardenReply (s : State) (m : List Byte) (status : Nat) (data : List Byte) : State :=
  let core := part m 1 1
  let r := s.freeBytes 62
  let b := r.1.take 2 ++ (m.drop 2).take 2 ++ r.1.drop 2
  ((r.2.emit (.wardenReply core (part m 2 2) status data)).deliver 10 core b).2

/-- Carry out the mailbox's oldest message if it has an opcode and the Warden's thread runs. -/
def State.wardenCommand (s : State) (op : Nat) (body : List Byte → State → State) : State :=
  if s.coreReset 10 || (s.thr 10 0).run == .halted then s
  else match s.takeMessage 10 with
    | none => s
    | some (m, t) => if part m 0 1 = op then body m t else s

/-- WARDEN_INFO (R372): slot states, tamper cause, store lock. -/
def execWardenInfo (s : State) : Host.Outcome State Fault Refusal :=
  .next (s.wardenCommand 1 fun m s =>
    s.wardenReply m 0 ((List.range 4).flatMap (fun i => leBytes 8 (s.reg .wdnSlotstate 0 i).toNat) ++
      [BitVec.ofNat 8 (s.fld F.newelTamperCauseCause), if s.storeLocked then 1 else 0]))

/-- A packet of the security tunnel, sent by the Warden on VC0 (R382). -/
def State.secSend (s : State) (n : Nat) (payload : List Byte) : State :=
  let b := Packet.toBytes { type := 0, tunnelId := 0xFFE, vc := 0, len := payload.length, payload := payload }
  s.setTrk n ((s.trk n).setQ 0 ((s.trk n).q 0 ++ [{ bytes := b, link := true }]))

/-- Is this end of trunk n the requester, the timing MASTER? -/
def State.requester (s : State) (n : Nat) : Bool := s.fld F.trkCfgRole n == 0

/-- The LINK key of R383: the parent is the session's export master secret. -/
def State.linkKey (s : State) (n idx : Nat) (secret : List Byte) : KeySlot :=
  let own := leBytes 8 (s.reg .trkNonce n).toNat
  let peer := leBytes 8 (s.reg .trkPeerNonce n).toNat
  let ctx := (if s.requester n then own ++ peer else peer ++ own) ++ [BitVec.ofNat 8 idx]
  { attr := linkAttr (n / 6), key := kdfCounter secret (leBytes 12 0x4B4E494C204555514952_4942) ctx 512 }

/-- A key exchange on a trunk: the Warden empties the receive buffer, sends its messages, and when the exchange gives a
secret the LINK key enters the slot; `install` puts it into the link unit. -/
def State.keyExchange (s : State) (m : List Byte) (n k idx : Nat) (sends : List (List Byte)) (secret : Option (List Byte))
    (install : State → State) : State :=
  let s := s.setSec n { s.sec n with buf := none }
  let s := sends.foldl (fun (s : State) b => if b.length ≤ 1024 then s.secSend n b else s) s
  if s.storeLocked then s.wardenReply m 7 []
  else if !s.slotFree k then s.wardenReply m 4 []
  else match secret with
    | none => s.wardenReply m 1 []
    | some z => (install ((s.setSlot k (s.linkKey n idx z)).setSlotState k 2)).wardenReply m 0 []

/-- LINK_SETUP (R382, R383): `sends` are the messages the Warden sends, `secret` the export master secret the exchange gives
(none: it fails). Both keys of index 0 are installed. -/
def execLinkSetup (n : Fin 24) (slot : Fin 64) (sends : List (List Byte)) (secret : Option (List Byte)) (s : State) :
    Host.Outcome State Fault Refusal :=
  .next (s.wardenCommand 2 fun m s =>
    s.keyExchange m n.val slot.val 0 sends secret fun s => s.secInstall n.val slot.val 0 3)

/-- LINK_REKEY (R385): only on a trunk with security in force; the requester installs receive and send, the responder receive,
its send key following with the first flit under the new index. -/
def execLinkRekey (n : Fin 24) (slot : Fin 64) (sends : List (List Byte)) (secret : Option (List Byte)) (s : State) :
    Host.Outcome State Fault Refusal :=
  .next (s.wardenCommand 3 fun m s =>
    if !(s.sec n.val).on then s.wardenReply m 4 []
    else
      let idx := 1 - s.fld F.trkLinkStatusKidxTx n.val
      let old := (s.sec n.val).tx
      s.keyExchange m n.val slot.val idx sends secret fun s =>
        let s := s.secInstall n.val slot.val idx (if s.requester n.val then 3 else 1)
        s.setSec n.val { s.sec n.val with
          rekey := some { idx := idx, slot := slot.val, responder := !s.requester n.val, old := old } })

/-- LINK_CLEAR (R372): a trunk's keys are removed and their slots erased. -/
def execLinkClear (n : Fin 24) (s : State) : Host.Outcome State Fault Refusal :=
  .next (s.wardenCommand 4 fun m s =>
    if s.storeLocked then s.wardenReply m 7 []
    else
      let u := s.sec n.val
      let ks := ([u.tx, u.rx0, u.rx1].filterMap id).eraseDups
      let s := s.secEnClear n.val
      (ks.foldl (fun (s : State) k => s.eraseOld k) s).wardenReply m 0 [])

/-- SEAL (R379): the blob of a slot under the sealing key K1; `head` gives ID and GEN. -/
def execSeal (slot : Fin 64) (ident gen : BitVec 64) (s : State) : Host.Outcome State Fault Refusal :=
  .next (s.wardenCommand 5 fun m s =>
    if s.storeLocked then s.wardenReply m 7 []
    else if !s.exportable slot.val || !s.wrapSlot 1 0 then s.wardenReply m 4 []
    else
      let head := leBytes 2 0x4B57 ++ [1, 1] ++ leBytes 4 0 ++ leBytes 8 ident.toNat ++ leBytes 8 gen.toNat ++ leBytes 4 0
      let r := s.freeBytes 12
      r.2.wardenReply m 0 (r.2.wrapBlob slot.val 1 head r.1))

/-- UNSEAL (R379). -/
def execUnseal (slot : Fin 64) (blob : List Byte) (s : State) : Host.Outcome State Fault Refusal :=
  .next (s.wardenCommand 6 fun m s =>
    if s.storeLocked then s.wardenReply m 7 []
    else if blob.length ≠ 128 ∨ s.unwrapBad slot.val blob = true then s.wardenReply m 4 []
    else match s.unwrapBlob (part blob 3 1) blob with
      | some v => ((s.setSlot slot.val v).setSlotState slot.val 2).wardenReply m 0 []
      | none => s.wardenReply m 1 [])

/-- SIGN (R372): a 48-byte digest under the identity key K0. -/
def execSign (digest : List Byte) (s : State) : Host.Outcome State Fault Refusal :=
  .next (s.wardenCommand 7 fun m s =>
    if s.storeLocked then s.wardenReply m 7 []
    else if digest.length ≠ 48 ∨ s.slotUse 0 4 = false ∨ attrKind (s.slot 0).attr ≠ 4 then s.wardenReply m 4 []
    else
      let v := s.openValue
      v.2.wardenReply m 0 (ecdsaSign (s.slot 0).key digest v.1))

/-! Fuses (R380, R381). -/

/-- Bits of FUSE_SVN that read 1. -/
def State.svnCount (s : State) : Nat := ((List.range 64).filter (fun i => (s.reg .fuseSvn).getLsbD i)).length

/-- Blow the next bit: GO written by the Warden. -/
def State.svnBlow (s : State) : State :=
  if s.flag F.fuseSvnCtrlBusy then s else (s.setFld F.fuseSvnCtrlBusy 0 0 1).arm .fuseBlow 0 0 (ms 20)

/-- FUSE_SVN_BLOW (R380). -/
def execFuseSvnBlow (s : State) : Host.Outcome State Fault Refusal := .next s.svnBlow

/-- SVN_ADVANCE to a count (R381): refused above the lowest SVN of the images loaded at this boot. -/
def execSvnAdvance (count : Fin 65) (s : State) : Host.Outcome State Fault Refusal :=
  .next (s.wardenCommand 8 fun m s =>
    if s.warden.imageSvns.any (fun v => decide (v < count.val)) ∨ s.warden.imageSvns = [] then s.wardenReply m 4 []
    else if count.val ≤ s.svnCount then s.wardenReply m 0 []
    else
      let w := s.warden
      (s.setWarden { w with svnGoal := some (count.val, part m 1 1, part m 2 2) }).svnBlow)

/-- The lowest bit of FUSE_SVN that reads 0. -/
def State.svnNext (s : State) : Nat := ((List.range 64).find? (fun i => !(s.reg .fuseSvn).getLsbD i)).getD 63

/-- The end of a blow; `one`: the bit reads back as 1. An SVN_ADVANCE goes on with the next bit, or ends. -/
def State.blowDone (s : State) (one : Bool) : State :=
  if !s.flag F.fuseSvnCtrlBusy then s
  else
    let s := ((s.setFld F.fuseSvnCtrlBusy 0 0 0).disarm .fuseBlow 0 0).setFld F.fuseSvnCtrlFail 0 0 (if one then 0 else 1)
    let s := if one then s.setReg .fuseSvn 0 0 (s.reg .fuseSvn ||| (1#64 <<< s.svnNext)) else s
    match s.warden.svnGoal with
    | none => s
    | some (goal, core, tag) =>
      if one ∧ s.svnCount < goal then s.svnBlow
      else
        let w := s.warden
        (s.setWarden { w with svnGoal := none }).wardenReply ([0, BitVec.ofNat 8 core] ++ leBytes 2 tag) (if one then 0 else 1) []

/-- A blow is cut short (R381, R387): its bit is left reading 0 or 1. -/
def State.blowCut (s : State) : State :=
  if !s.flag F.fuseSvnCtrlBusy then s
  else
    let v := s.openValue
    let s := ((v.2.setFld F.fuseSvnCtrlBusy 0 0 0).disarm .fuseBlow 0 0)
    let s := if v.1.getLsbD 0 then s.setReg .fuseSvn 0 0 (s.reg .fuseSvn ||| (1#64 <<< s.svnNext)) else s
    let w := s.warden
    s.setWarden { w with svnGoal := none }

/-- FUSE_BLOW_DONE (R381). -/
def execFuseBlowDone (one : Bool) (s : State) : Host.Outcome State Fault Refusal := .next (s.blowDone one)

/-- ZEROIZE (R372): key.zero. -/
def execZeroize (s : State) : Host.Outcome State Fault Refusal :=
  .next (s.wardenCommand 9 fun m s => s.zeroize.wardenReply m 0 [])

/-! Tamper (R386, R387). -/

/-- What an alarm does at once inside the boundary: the zeroize, the lock, CAUSE, the Bells, and the Warden's thread held in
reset while its data memory is cleared. -/
def State.tamper (s : State) (sources : Nat) : State :=
  let s := s.zeroize
  let s := s.setFld F.newelTamperCauseCause 0 0 (s.fld F.newelTamperCauseCause ||| sources)
  let s := (s.addSat F.newelTamperCauseAlarms 0 0 1 0xFFFF).setFld F.wdnStatusTampered 0 0 1
  let s := s.setFld F.wdnStatusStoreLocked 0 0 1
  let s := s.blowCut
  let s := s.setThr 10 0 {}
  let s := (s.bellCoreReset 10).arm .wardenClear 0 0 (us 100)
  (s.ring 10 64).ring 8 149

/-- WARDEN_CLEAR_DONE (R386): the data memory, that is all but the code regions, is cleared and the thread starts at its entry. -/
def execWardenClearDone (s : State) : Host.Outcome State Fault Refusal :=
  match s.deadline .wardenClear with
  | none => .next s
  | some _ =>
    let s := s.disarm .wardenClear 0 0
    let lo := localBase 10
    let k := s.wzCore 10
    let kept := fun (a : Nat) => !decide (lo ≤ a ∧ a < lo + localSize 10) || k.code.any (fun r => decide (lo + r.1 ≤ a ∧ a < lo + r.1 + r.2))
    let s := { s with mem := s.mem.filter (fun e => kept e.1), poisoned := s.poisoned.filter kept }
    let s := (s.clearThreads 10).wardenBurn
    if k.code = [] then .next s else .next (s.startThreads 10 1 k.entry)

end Sys2Proof.Machine
end

