-- ==== Sys2Proof/Machine/Mon.lean ====
section
/-! DEFINITION. Monitor units, queue sampling and eye-margin scans (spec/18_monitors_and_errors.md R408 to R412,
spec/08_scheduling.md R232, spec/04_lanes.md R133). -/

namespace Sys2Proof.Machine

/-- A monitor's state off the registers. -/
def State.mon (s : State) (m : Nat) : MonSt := unitGet {} s.chip.mons m
def State.setMon (s : State) (m : Nat) (v : MonSt) : State := { s with chip := { s.chip with mons := unitSet {} s.chip.mons m v } }

/-- Is SELECT in the range of a quantity? -/
def monSelectOk (quantity select : Nat) : Bool :=
  match quantity with
  | 1 | 2 => true
  | 3 | 9 => decide (select ≤ 4)
  | 4 | 5 => decide (select < 48)
  | 6 => decide (select < 24)
  | 7 => decide (select ≤ 12)
  | 8 => decide (select ≤ 10)
  | _ => true

/-- Is a value a configuration that EN may start (R411)? -/
def State.monCfgOk (s : State) (m : Nat) (v : BitVec 64) : Bool :=
  decide (wr F.monCtrlQuantity v ≤ 9) && monSelectOk (wr F.monCtrlQuantity v) (wr F.monCtrlSelect v % 8192) &&
    (wr F.monCtrlMode v == 1 || s.fld F.monLinWidth m != 0)

/-- Quantities on a grid of PERIOD (R410). -/
def monPeriodic (quantity : Nat) : Bool := quantity == 3 || quantity == 4 || quantity == 6 || quantity == 7

/-- New data and resent copies of a trunk: a TD trunk counts frames and replays. -/
def State.retxCounts (s : State) (n : Nat) : Nat × Nat :=
  if s.isTd n then (s.fld F.trkTdCntCount n 0, s.fld F.trkTdCntCount n 1)
  else (s.fld F.trkCntCount n 0, s.fld F.trkCntCount n 1)

/-- A write to `MONm_CTRL` (R411, R412). SNAP and CLR act while EN is 1 as well (assumption log 109). -/
def State.monCtrlWrite (s : State) (m : Nat) (v mask : BitVec 64) : State :=
  let old := s.reg .monCtrl m
  let new := regWrite .monCtrl mask v old
  let w := v &&& mask
  let acts := fun (s : State) =>
    let s := if wr F.monCtrlSnap w = 1 then s.monSnap m else s
    if wr F.monCtrlClr w = 1 then s.monClear m else s
  if fldGet F.monCtrlEn old = 1 then
    let s := acts s
    if fldGet F.monCtrlEn new = 0 then s.setReg .monCtrl m 0 new else s
  else if fldGet F.monCtrlEn new = 0 then acts (s.setReg .monCtrl m 0 new)
  else if !s.monCfgOk m new then s.setFld F.monStatusCfgErr m 0 1
  else
    let s := (acts s).setReg .monCtrl m 0 new
    let s := s.monClear m
    let c := s.retxCounts (fldGet F.monCtrlSelect new)
    s.setMon m {
      grid := if monPeriodic (fldGet F.monCtrlQuantity new) then Grid.fresh s.tb else {}
      data := c.1, resend := c.2 }

/-- MON_CTRL_WRITE (R411). -/
def execMonCtrlWrite (m : Fin 64) (value : BitVec 64) (s : State) : Host.Outcome State Fault Refusal :=
  .next (s.monCtrlWrite m.val value (BitVec.allOnes 64))

/-- MON_SNAP (R412). -/
def execMonSnap (m : Fin 64) (s : State) : Host.Outcome State Fault Refusal := .next (s.monSnap m.val)

/-- MON_CLR (R412). -/
def execMonClr (m : Fin 64) (s : State) : Host.Outcome State Fault Refusal := .next (s.monClear m.val)

/-- The sample a period gives, none where it gives none (*Monitor quantities*). -/
def State.monValue (s : State) (m : Nat) : Option Nat :=
  let u := s.fld F.monCtrlSelect m
  match s.fld F.monCtrlQuantity m with
  | 3 => some (if u = 4 then s.fld F.svcRiserStatusCyclePs else s.fld F.hallRiserStatusCyclePs u)
  | 4 => if s.fld F.laneStatusState u = 2 ∨ s.fld F.laneStatusState u = 7 then some (s.fld F.laneStatusSnr u) else none
  | 6 =>
    let c := s.retxCounts u
    let d := s.mon m
    let news := if d.data ≤ c.1 then c.1 - d.data else c.1
    let again := if d.resend ≤ c.2 then c.2 - d.resend else c.2
    if news = 0 then none else some (again * 1000000 / news)
  | 7 => some (s.fld F.ppMeasIMa u)
  | _ => none

/-- MON_PERIOD_SAMPLE (R410): the monitor's instance starts, under the catch-up rule. -/
def execMonPeriodSample (m : Fin 64) (s : State) : Host.Outcome State Fault Refusal :=
  let m := m.val
  let d := s.mon m
  if !s.chipRuns ∨ !s.flag F.monCtrlEn m ∨ !d.grid.on ∨ s.tb < d.grid.next then .next s
  else
    let g := d.grid.start s.tb (us (s.fld F.monCtrlPeriod m)) (s.fld F.chipCatchupMon)
    let c := s.retxCounts (s.fld F.monCtrlSelect m)
    let v := s.monValue m
    let s := s.setMon m { grid := g, data := c.1, resend := c.2 }
    let s := if g.rang ∧ !d.grid.rang then s.ring 8 2 else s
    .next (match v with
      | some v => s.monSample m v
      | none => s)

/-- One queue of a pass (08 R232): depth and head-of-line delay, `HALLn_QSAMP_q`, and the monitors. -/
def State.queueSample (s : State) (h q : Nat) (delays depths : List Nat) : State :=
  let qc := h * 2048 + q
  let depth := s.depth qc 0
  let hol := match (unitGet [] s.leafQ qc).head? with
    | some id => match s.parcel id with
      | some p => s.tb - p.tbLink
      | none => 0
    | none => 0
  let s := (s.setFld F.hallQsampHolNs h q (min 0xFFFFFF hol)).setFld F.hallQsampDepth h q depth
  let s := if s.fld F.hallQsampPeak h q < depth then s.setFld F.hallQsampPeak h q depth else s
  let s := delays.foldl (fun (s : State) m => if s.fld F.monCtrlSelect m = qc then s.monSample m hol else s) s
  depths.foldl (fun (s : State) m => if s.fld F.monCtrlSelect m = qc then s.monSample m depth else s) s

/-- QUEUE_SAMPLE_PASS (08 R232). -/
def execQueueSamplePass (h : Fin 4) (s : State) : Host.Outcome State Fault Refusal :=
  let h := h.val
  let g := (s.hall h).sampleGrid
  if !s.chipRuns ∨ !s.flag F.hallSampleCtrlEn h ∨ !g.on ∨ s.tb < g.next then .next s
  else
    let g' := g.start s.tb (us (s.fld F.hallSampleCtrlPeriod h)) (s.fld F.chipCatchupMon)
    let s := s.setHall h { s.hall h with sampleGrid := g' }
    let s := if g'.rang ∧ !g.rang then s.ring 8 2 else s
    let delays := s.monsOf 1
    let depths := s.monsOf 2
    .next ((List.range 2048).foldl (fun (s : State) q => s.queueSample h q delays depths) s)

/-- CLR_PEAK (08 R232). -/
def State.clearPeaks (s : State) (h : Nat) : State :=
  (List.range 2048).foldl (fun (s : State) q => s.setFld F.hallQsampPeak h q 0) s

/-- A write to `HALLn_SAMPLE_CTRL`: setting EN, or a new PERIOD, starts a fresh grid; the grid of a changed PERIOD starts at
the next pass (08 R232). -/
def State.sampleCtrlWrite (s : State) (h : Nat) (v mask : BitVec 64) : State :=
  let old := s.reg .hallSampleCtrl h
  let new := regWrite .hallSampleCtrl mask v old
  let s := if wr F.hallSampleCtrlClrPeak (v &&& mask) = 1 then s.clearPeaks h else s
  let s := s.setReg .hallSampleCtrl h 0 new
  if fldGet F.hallSampleCtrlEn new = 0 then s.setHall h { s.hall h with sampleGrid := {} }
  else if fldGet F.hallSampleCtrlEn old = 0 then s.setHall h { s.hall h with sampleGrid := Grid.fresh s.tb }
  else if fldGet F.hallSampleCtrlPeriod new ≠ fldGet F.hallSampleCtrlPeriod old then
    s.setHall h { s.hall h with sampleGrid := Grid.fresh (s.hall h).sampleGrid.next }
  else s

/-- QSAMP_CLR_PEAK (08 R232). -/
def execQsampClrPeak (h : Fin 4) (s : State) : Host.Outcome State Fault Refusal := .next (s.clearPeaks h.val)

/-! Eye-margin scans (04 R133). -/

/-- Are the settings of a scan of lane l good? -/
def State.eyeOk (s : State) (l : Nat) (v : BitVec 64) : Bool :=
  let m := wr F.laneEyeCtrlMon v
  let start := signed 8 (wr F.laneEyeCtrlStartOff v)
  let last := start + ((wr F.laneEyeCtrlStep v * wr F.laneEyeCtrlPoints v : Nat) : Int)
  let inRange := if wr F.laneEyeCtrlAxis v = 0 then decide (-64 ≤ start) && decide (last ≤ 63)
    else decide (-127 ≤ start) && decide (last ≤ 127)
  s.fld F.monCtrlQuantity m == 5 && s.fld F.monCtrlSelect m == l && inRange && wr F.laneEyeCtrlEye v != 3 &&
    !(s.laneNrz l && wr F.laneEyeCtrlEye v != 0)

/-- START of a scan with the settings written. A lane in neither ACTIVE nor TEST ends the scan at once (assumption log 110). -/
def State.eyeStart (s : State) (l : Nat) (new : BitVec 64) : State :=
  if !s.eyeOk l new then s.quadRefuse (l / 4) 9 (l % 4)
  else
    let s := s.setReg .laneEyeCtrl l 0 new
    let s := (s.monClear (wr F.laneEyeCtrlMon new)).setFld F.laneEyeStatusPoint l 0 0
    let on := s.fld F.laneStatusState l = 2 ∨ s.fld F.laneStatusState l = 7
    s.setFld F.laneEyeStatusResult l 0 (if on then 1 else 3)

/-- A write of `LANEn_EYE_CTRL` (04 R107, R133): START is ignored while a scan runs, EYE = 3 is refused, ABORT acts last. -/
def State.eyeCtrlWrite (s : State) (l : Nat) (v mask : BitVec 64) : State :=
  let w := v &&& mask
  let new := regWrite .laneEyeCtrl mask v (s.reg .laneEyeCtrl l)
  let s := if wr F.laneEyeCtrlStart w = 1 ∧ s.fld F.laneEyeStatusResult l ≠ 1 then s.eyeStart l new
    else if wr F.laneEyeCtrlEye new = 3 then s.quadRefuse (l / 4) 9 (l % 4)
    else s.setReg .laneEyeCtrl l 0 new
  if wr F.laneEyeCtrlAbort w = 1 then s.eyeAbort l else s

/-- EYE_SCAN_START: `ctrl` is the value written, its START taken as 1. -/
def execEyeScanStart (lane : Fin 48) (ctrl : BitVec 64) (s : State) : Host.Outcome State Fault Refusal :=
  .next (s.eyeCtrlWrite lane.val (fldPut F.laneEyeCtrlStart 1 ctrl) (BitVec.allOnes 64))

/-- EYE_SCAN_POINT_DONE: the count of disagreements of the point in progress. -/
def execEyeScanPointDone (lane : Fin 48) (count : Nat) (s : State) : Host.Outcome State Fault Refusal :=
  let l := lane.val
  if s.fld F.laneEyeStatusResult l ≠ 1 then .next s
  else
    let m := s.fld F.laneEyeCtrlMon l
    let p := s.fld F.laneEyeStatusPoint l
    let s := if s.monWatches m 5 l then
        (s.monFold m count (p % 32)).setFld F.monBinCount m (p % 32) (min count (2 ^ 32 - 1)) else s
    .next (if p < s.fld F.laneEyeCtrlPoints l then s.setFld F.laneEyeStatusPoint l 0 (p + 1)
      else s.setFld F.laneEyeStatusResult l 0 2)

/-- EYE_SCAN_ABORT (R133): ABORT is written. -/
def execEyeScanAbort (lane : Fin 48) (s : State) : Host.Outcome State Fault Refusal := .next (s.eyeAbort lane.val)

end Sys2Proof.Machine
end

