-- ==== Sys2Proof/Machine/Faults.lean ====
section
/-! DEFINITION. Error records, fencing a Flight, quarantining a Hall, SAFE, the watchdog and the crash record
(spec/01_architecture.md R14 to R17; spec/18_monitors_and_errors.md R413 to R425). Scopes: Halls 0 to 3, 4 the chip
services. -/

namespace Sys2Proof.Machine

/-! Error records (R413). -/

/-- Where a scope's ring lies. -/
def ringBase (scope : Nat) : Nat :=
  if scope < 4 then 0x1_0000_0000 + scope * 0x1000_0000 + 0x2000 else 0x00_0700_8000

/-- Fields of a scope's ring control. -/
def State.ringWr (s : State) (scope : Nat) : Nat := if scope < 4 then s.fld F.hallErrRingWr scope else s.fld F.svcErrRingWr
def State.ringRd (s : State) (scope : Nat) : Nat := if scope < 4 then s.fld F.hallErrRingRd scope else s.fld F.svcErrRingRd

/-- Records written to a ring since chip reset. -/
def State.ringCount (s : State) (scope : Nat) : Nat := unitGet 0 s.chip.written scope

/-- What an error record says beside TB and SEQ. -/
structure ErrInfo where
  scope : Nat
  level : Nat                     -- 0 Tread, 1 Flight, 2 Hall, 3 chip
  action : Nat
  cls : Nat
  unit : Nat := 0xFFFF
  info : Nat := 0

/-- The 32 bytes of *Error record*; SEQ counts this record too (assumption log 112). -/
def errBytes (e : ErrInfo) (seq tb : Nat) : List Byte :=
  leBytes 6 0 ++ [BitVec.ofNat 8 e.scope, BitVec.ofNat 8 e.level, BitVec.ofNat 8 e.action, BitVec.ofNat 8 e.cls] ++
    leBytes 2 e.unit ++ leBytes 4 seq ++ leBytes 8 tb ++ leBytes 8 e.info

/-- The bytes the next record of a scope would have. -/
def State.errRecord (s : State) (e : ErrInfo) : List Byte := errBytes e (s.ringCount e.scope + 1) s.tb

/-- Write a record into its ring (R413): Bell 8 source 147 when the ring held no unread entry, OVERRUN when it was full. -/
def State.errLog (s : State) (e : ErrInfo) : State :=
  let wrOld := s.ringWr e.scope
  let unread := (wrOld + 65536 - s.ringRd e.scope) % 65536
  let k := s.ringCount e.scope
  let s := s.writeBytes (ringBase e.scope + 32 * (wrOld % 64)) (s.errRecord e)
  let s : State := { s with chip := { s.chip with written := unitSet 0 s.chip.written e.scope (k + 1) } }
  let s := if e.scope < 4 then s.addFld F.hallErrRingWr e.scope 0 1 else s.addFld F.svcErrRingWr 0 0 1
  let s := if unread < 64 then s
    else if e.scope < 4 then s.addSat F.hallErrRingOverrun e.scope 0 1 0xFFFF else s.addSat F.svcErrRingOverrun 0 0 1 0xFFFF
  if unread = 0 then s.ring 8 147 else s

/-- The latest `n` records of a ring, oldest first, with zero entries after them when it holds fewer. -/
def State.latestRecords (s : State) (scope n : Nat) : List Byte :=
  let have_ := min n (min 64 (s.ringCount scope))
  let first := s.ringWr scope + 65536 - have_
  (List.range n).flatMap (fun i =>
    if i < have_ then s.bytes (ringBase scope + 32 * ((first + i) % 64)) 32 else List.replicate 32 0)

/-! The crash record (R423 to R425). -/

/-- Where it lies. -/
def crashBase : Nat := 0x00_0000_8000

/-- `CHIP_HALL_CTL` as it reads: QUAR is 1 while a Hall is not in RUN. -/
def State.hallCtlRead (s : State) : BitVec 64 :=
  (List.range 4).foldl (fun w h => if s.hallState h = 0 then w else slotPut (8 * h + 3) (8 * h + 3) 1 w) (s.reg .chipHallCtl)

/-- Is a core held in reset? -/
def State.heldInReset (s : State) (c : Nat) : Bool := c < 8 && (s.flag F.usherCtlReset c || (s.wzCore c).resetWait)

/-- The entry of a thread (R425). -/
def State.crashPc (s : State) (c t : Nat) (done : Bool) : Nat :=
  if !done then 0xFFFF_FFFF_FFFF_FFFF
  else if s.heldInReset c || (s.thr c t).run == .stopped then 0xFFFF_FFFF_FFFF_FFFE
  else (s.thr c t).pc

/-- The thread program counters. Whether a core's scan finishes within 10 us is a free value (assumption log 113). -/
def State.crashPcs (s : State) : List Byte × State :=
  (List.range 11).foldl (fun (x : List Byte × State) c =>
    let r := x.2.openValue
    let d := r.1.getLsbD 0
    (x.1 ++ (List.range (coreThreads c)).flatMap (fun t => leBytes 8 (s.crashPc c t d)), r.2)) ([], s)

/-- A rail's entry: VNOW and CYCLE_PS. -/
def railEntry (vnow cycle : Nat) : List Byte := leBytes 1 vnow ++ [0] ++ leBytes 2 cycle ++ leBytes 4 0

/-- The record that a SAFE of class `cls` writes; `first` is the error record that entered it. -/
def State.crashBytes (s : State) (cls : Nat) (first pcs : List Byte) : List Byte :=
  [0x43, 0x52, 0x53, 0x48] ++ leBytes 1 1 ++ leBytes 1 cls ++ leBytes 2 0 ++ leBytes 8 s.chip.boots ++ leBytes 64 0 ++
  leBytes 8 s.tb ++ leBytes 8 0 ++ first ++ leBytes 8 (s.reg .newelTamperCause).toNat ++ leBytes 8 (s.reg .pwrStatus).toNat ++
  leBytes 4 s.hallCtlRead.toNat ++ (List.range 4).flatMap (fun h => leBytes 1 (s.reg .hallMode h).toNat) ++
  leBytes 8 (s.fld F.newelTempNow) ++
  (List.range 4).flatMap (fun h => railEntry (s.fld F.hallRiserStatusVnow h) (s.fld F.hallRiserStatusCyclePs h)) ++
  railEntry (s.fld F.svcRiserStatusVnow) (s.fld F.svcRiserStatusCyclePs) ++
  List.replicate 536 0 ++ pcs ++ s.latestRecords 4 16 ++ (List.range 4).flatMap (fun h => s.latestRecords h 8) ++
  List.replicate 1280 0

/-- Is a crash record kept (VALID)? -/
def State.crashValid (s : State) : Bool := s.byte (crashBase + 4) == 1

/-- Step 6 of SAFE, and what a later SAFE changes (R424). -/
def State.crashWrite (s : State) (cls : Nat) (first : List Byte) : State :=
  if s.crashValid then
    let s := s.setByte (crashBase + 6) (BitVec.ofNat 8 (min 255 ((s.byte (crashBase + 6)).toNat + 1)))
    (s.setByte (crashBase + 7) (BitVec.ofNat 8 cls)).setBytes (crashBase + 88) (leBytes 8 s.tb)
  else
    let x := s.crashPcs
    x.2.writeBytes crashBase (s.crashBytes cls first x.1)

/-! SAFE (R419 to R421). -/

/-- Put the lanes of a Hall into electrical idle without a marker (04 R125). -/
def State.idleHall (s : State) (h : Nat) : State :=
  (List.range 12).foldl (fun (s : State) i => s.txOff (12 * h + i)) s

/-- A chip fault enters SAFE: the steps of *Newel operations* in table order. Heads are blanked, and Stair ports closed, for as
long as `chip.safe` is some. `security`: a security fault. A second chip fault is recorded and starts nothing. -/
def State.chipFault (s : State) (cls unit info : Nat) (security : Bool) : State :=
  let e : ErrInfo := { scope := 4, level := 3, action := if s.chip.safe.isSome then 5 else 4, cls := cls, unit := unit, info := info }
  let rec_ := s.errRecord e
  let s := s.errLog e
  if s.chip.safe.isSome then s.crashWrite cls rec_
  else
    let s : State := { s with chip := { s.chip with safe := some s.tb } }
    let s := (s.setFld F.newelSafeInSafe 0 0 1).setFld F.newelSafeCause 0 0 cls
    let s := if security && cls != 13 then s.zeroize else s
    let s := s.powerSafe
    let s := (List.range 4).foldl (fun (s : State) h => s.idleHall h) s
    let s := s.crashWrite cls rec_
    let s := s.arm .safeHold 0 0 (if cls = 14 then 0 else ms (s.fld F.newelSafeHold))
    s.ring 8 147

/-! Quarantine (01 R16, R17; R417, R418). -/

/-- Quarantine bookkeeping of a Hall. -/
def State.hallCtl (s : State) (h : Nat) : HallCtl := unitGet {} s.chip.halls h
def State.setHallCtl (s : State) (h : Nat) (v : HallCtl) : State :=
  { s with chip := { s.chip with halls := unitSet {} s.chip.halls h v } }

/-- The packets of a trunk's link unit that are lost with the whole of it: begun or sent, and not acknowledged, and those that it
keeps for its mate. -/
def Trunk.lostIds (t : Trunk) : List Nat :=
  (((t.sent ++ t.vcQ.flatMap (fun e => e.2)).filter (fun p => p.flits != []) ++
    (t.hold.flatMap (fun e => e.2)).filter (fun p => p.ctx.isNone)).filter (fun p => p.id != 0)).map (fun p => p.id)

/-- Those that a lone trunk loses with its link state: wholly written to the replay buffer. One not wholly written is sent again
(05 R474). -/
def Trunk.sentIds (t : Trunk) : List Nat := (t.sent.filter (fun p => p.id != 0)).map (fun p => p.id)

/-- A pair member's state is lost with it (06 R177, 05 R476): the contexts it served restart at PSN 0 behind a RESYNC, and
packets not begun go to its mate. Answers the lost packets' numbers. -/
def State.loseContexts (s : State) (n : Nat) : List Nat × State :=
  let t := s.trk n
  let ids := t.lostIds
  match s.mateOf n with
  | none => (ids, s)
  | some m =>
    let lost := (List.range 256).filter (fun c => s.server n m c == n)
    let p := s.primary n m
    let s := s.setTrk p { s.trk p with psnTx := (s.trk p).psnTx.filter (fun e => !lost.contains e.1) }
    let mask : BitVec 256 := BitVec.ofNat 256 ((lost.map (fun c => 2 ^ c)).sum)
    let s := s.setTrk n { s.trk n with vcQ := [], sent := [], hold := [] }
    let s := s.setTrk m ((s.trk m).setQ 0 (insertAhead [resyncPacket mask] ((s.trk m).q 0)))
    let keep := fun v => (unitGet [] t.hold v).filter (fun p => p.ctx.isSome) ++ (t.q v).filter (fun p => !p.link && p.flits == [])
    (ids, (List.range 8).foldl (fun (s : State) v => match keep v with
      | [] => s
      | l => s.enqueue m v l (fun new old => old ++ new)) s)

/-- A trunk of a Hall that begins quarantine. A Birique trunk in UP is LOST, its mate taking over; which cause it records is
open (assumption log 114). -/
def State.trunkQuarantined (s : State) (n : Nat) : State :=
  if s.isTd n then
    if s.flag F.trkCfgEn n then
      let s := (s.tdQuiet n).tdClear n
      let s := s.setTd n { s.td n with txQ := [], aligned := [], inUse := [] }
      ((s.setFld F.trkTdStatusState n 0 0).setFld F.trkTdStatusLanesUp n 0 0).ring 8 (96 + n)
    else s
  else
    let x := s.loseContexts n
    let s := x.1.foldl (fun (s : State) id => s.dropPacket id 11) x.2
    let s := (s.setTrk n { s.trk n with psnRx := [], strad := [] }).flushTrunk n true
    let s := s.setTrk n { s.trk n with vcQ := [], sent := [], hold := [] }
    if s.trkState n = 2 then
      let r := s.pick [1, 2]
      r.2.trunkLost n r.1
    else if s.trkState n = 1 then (s.trkQuiet n).setFld F.trkLinkStatusState n 0 (if (s.trk n).training = .resume then 3 else 0)
    else s.trkQuiet n

/-- The packets that a quarantine of Hall h ends or steers: those of the Hall are lost; those of other Halls bound for it are
diverted, or dropped at the Stair (R16, 07 R197). -/
def State.quarantinePackets (s : State) (h : Nat) : State :=
  s.parcels.foldl (fun (s : State) p =>
    if p.hall = h then s.dropPacket p.id (if p.spot = Spot.epochHeld then 14 else 11)
    else match p.queue with
      | some q =>
        if q / 2048 = h ∧ (p.spot = Spot.asking ∨ p.spot = Spot.refusedOnce ∨ p.spot = Spot.granted ∨ p.spot = Spot.crossing) then
          match s.parcel p.id with
          | some p => s.divert p q
          | none => s
        else s
      | none => s) s

/-- A Hall-level fault (R417): recorded; a Hall in RUN is quarantined. `cls` is its class. -/
def State.hallFault (s : State) (h cls info : Nat) : State :=
  let acts := s.hallState h == 0 && s.chip.safe.isNone
  let s := s.errLog { scope := h, level := 2, action := if acts then 3 else 5, cls := cls, info := info }
  if !acts then s
  else
    let s := s.setHallState h 1
    let s := s.errLog { scope := h, level := 2, action := 3, cls := 8, info := cls }
    let s := s.setHallCtl h { since := s.tb }
    let s := (s.arm .quarIso h 0 (us 100)).arm .quarMax h 0 (ms 1)
    let s := (s.usherHaltSet (2 * h)).usherHaltSet (2 * h + 1)
    let s := s.quarantinePackets h
    let s := (s.setFld F.hallEpochStatusHeld h 0 0).disarm .epochHold h 0
    (hallTrunks h).foldl (fun (s : State) n => s.trunkQuarantined n) s

/-- Does the Hall's own quarantine logic act: ledger and arbiter, Stair ports, lane quads, quad synchronisers (R417)? -/
def State.quarLogicOk (s : State) (h : Nat) : Bool :=
  [0x09, 0x06, 0x00, 0x08].all (fun k => (List.range (flightCount h k)).all (fun i => s.flightRuns h k i))

/-- HALL_ISOLATION (R417, R420): the Newel closes the Stair ports and idles the lanes. -/
def execHallIsolation (h : Fin 4) (s : State) : Host.Outcome State Fault Refusal :=
  if s.hallState h.val = 1 ∧ s.due .quarIso h.val = true ∧ (s.hallCtl h.val).idle = false then
    .next (((s.idleHall h.val).setHallCtl h.val { s.hallCtl h.val with idle := true }).disarm .quarIso h.val 0)
  else .next s

/-- QUAR_DONE (R417): the Hall's own logic has idled the lanes, or isolation has; the Hall is QUARANTINED. -/
def execQuarDone (h : Fin 4) (s : State) : Host.Outcome State Fault Refusal :=
  let h := h.val
  let k := s.hallCtl h
  if s.hallState h = 1 ∧ (k.idle ∨ s.quarLogicOk h) then
    let s := (if k.idle then s else s.idleHall h).setHallState h 2
    let s := s.errLog { scope := h, level := 2, action := 0, cls := 9, info := s.tb - k.since }
    let s := s.setHallCtl h { k with idle := true }
    .next ((s.disarm .quarIso h 0).disarm .quarMax h 0)
  else .next s

/-- QUAR_TIMEOUT (01 R14): a chip fault. -/
def execQuarTimeout (h : Fin 4) (s : State) : Host.Outcome State Fault Refusal :=
  if s.hallState h.val = 1 ∧ s.due .quarMax h.val = true then
    .next ((s.disarm .quarMax h.val 0).chipFault 10 0xFFFF h.val false)
  else .next s

/-- HALL_QUAR_CMD (R417): INFO 0 for JTAG, 8 for the Docent. -/
def State.hallQuarCmd (s : State) (h : Nat) (jtag : Bool) : State := s.hallFault h 15 (if jtag then 0 else 8)

def execHallQuarCmd (h : Fin 4) (jtag : Bool) (s : State) : Host.Outcome State Fault Refusal := .next (s.hallQuarCmd h.val jtag)

/-- A trunk of a Hall trains from DOWN, whichever kind it is. -/
def State.trunkGo (s : State) (n : Nat) : State :=
  if !s.flag F.trkCfgEn n then s
  else if s.isTd n then s.tdStart n
  else
    let r := s.openValue
    r.2.trainDown n r.1

/-- STAIR_OPEN (R418, 01 R17): the Hall's lanes that wait, and its trunks with EN, start training. -/
def State.stairOpenCmd (s : State) (h : Nat) : State :=
  if s.hallState h = 2 ∧ (s.hallCtl h).resetDone then
    let s := (s.setHallState h 0).setHallCtl h {}
    let s := (List.range 12).foldl (fun s j => if (s.lane (12 * h + j)).enWaiting then s.laneStart (12 * h + j) else s) s
    (hallTrunks h).foldl (fun (s : State) n => s.trunkGo n) s
  else s.setFld F.chipHallCtlCmdErr 0 0 1

def execStairOpen (h : Fin 4) (s : State) : Host.Outcome State Fault Refusal := .next (s.stairOpenCmd h.val)

/-! Flights (R414 to R416). -/

/-- Bookkeeping of a Flight, by its key. -/
def flightKey (scope kind inst : Nat) : Nat := scope * 512 + kind * 16 + inst
def State.flight (s : State) (k : Nat) : FlightSt := unitGet {} s.chip.flights k
def State.setFlight (s : State) (k : Nat) (v : FlightSt) : State :=
  { s with chip := { s.chip with flights := unitSet {} s.chip.flights k v } }

/-- Write STATE, LAST_CLASS and TREAD_ERRS. -/
def State.setFlightState (s : State) (scope kind inst v : Nat) : State :=
  if scope < 4 then s.setFld F.hallFlightState scope (16 * kind + inst) v
  else s.setFld F.svcFlightState 0 (16 * (kind - 0x10) + inst) v
def State.setLastClass (s : State) (scope kind inst v : Nat) : State :=
  if scope < 4 then s.setFld F.hallFlightLastClass scope (16 * kind + inst) v
  else s.setFld F.svcFlightLastClass 0 (16 * (kind - 0x10) + inst) v
def State.addTreadErr (s : State) (scope kind inst : Nat) : State :=
  if scope < 4 then s.addSat F.hallFlightTreadErrs scope (16 * kind + inst) 1 0xFFFF
  else s.addSat F.svcFlightTreadErrs 0 (16 * (kind - 0x10) + inst) 1 0xFFFF
def State.clearTreadErrs (s : State) (scope kind inst : Nat) : State :=
  if scope < 4 then s.setFld F.hallFlightTreadErrs scope (16 * kind + inst) 0
  else s.setFld F.svcFlightTreadErrs 0 (16 * (kind - 0x10) + inst) 0

/-- Is a Flight there? -/
def flightIs (scope kind inst : Nat) : Bool := decide (inst < flightCount scope kind)

/-- Drop a packet that a fenced Flight discards. R415 names no code: a free value (assumption log 115). -/
def State.dropFenced (s : State) (id : Nat) : State :=
  let r := s.openValue
  r.2.dropPacket id (r.1.toNat % 15 + 1)

/-- A trunk whose link unit begins to fence (05 R476): LOST with cause FENCED, its link state discarded. -/
def State.trunkFenced (s : State) (n : Nat) : State :=
  let s := s.setTrk n { s.trk n with fenced := true }
  let x := if (s.mateOf n).isSome then s.loseContexts n else ((s.trk n).sentIds, s)
  let s := x.1.foldl (fun (s : State) id => s.dropFenced id) x.2
  let s := s.flushTrunk n true
  if s.trkState n = 2 then s.trunkLost n 7
  else
    let s := s.trkQuiet n
    if s.flag F.trkCfgEn n ∧ !s.isTd n then
      (((s.setFld F.trkLinkStatusState n 0 3).setFld F.trkLinkStatusLostCause n 0 7).setFld F.trkLinkStatusLostEvt n 0 1).ring
        8 (96 + n)
    else s

/-- A Flight fences (R415): FENCING, and its drain limit runs. -/
def State.fenceFlight (s : State) (scope kind inst cls : Nat) : State :=
  let limit := if scope < 4 then s.fld F.hallErrCtrlDrainLimit scope else s.fld F.svcErrCtrlDrainLimit
  let k := flightKey scope kind inst
  let s := s.setFlightState scope kind inst 1
  let s := (s.setFlight k { s.flight k with cause := cls }).arm .drain k 0 (us limit)
  if scope < 4 ∧ kind = 1 then s.trunkFenced (6 * scope + inst) else s

/-- Does containment at a higher level, or the Flight's own fence, leave a fault of a Flight nothing to start (R15, R416,
R417)? -/
def State.flightActs (s : State) (scope kind inst : Nat) : Bool :=
  s.chip.safe.isNone && (scope == 4 || s.hallState scope == 0) && s.flightRuns scope kind inst

/-- UNIT of a Flight. -/
def flightUnit (kind inst : Nat) : Nat := kind * 256 + inst

/-- A fault of a Flight that fences it. -/
def State.flightFault (s : State) (scope kind inst cls info : Nat) : State :=
  let acts := s.flightActs scope kind inst
  let s := s.errLog {
    scope := scope, level := 1, action := if acts then 2 else 5, cls := cls, unit := flightUnit kind inst, info := info }
  let s := s.setLastClass scope kind inst cls
  if acts then s.fenceFlight scope kind inst cls else s

/-- STUCK_TREAD (02 R41): `tread` is the Tread's index in its Flight. -/
def execStuckTread (scope : Fin 5) (kind : Fin 32) (inst : Fin 16) (tread : BitVec 16) (s : State) :
    Host.Outcome State Fault Refusal :=
  if !flightIs scope.val kind.val inst.val then .next s
  else
    let s := if scope.val < 4 then s.addSat F.hallWdogStuckCount scope.val 0 1 0xFFFF else s.addSat F.svcWdogStuckCount 0 0 1 0xFFFF
    .next (s.flightFault scope.val kind.val inst.val 3 tread.toNat)

/-- A poisoned token in a packet's cells (R414): a packet not yet accepted fails the Landing's check; a later one is discarded
at the next Flight boundary. -/
def State.poisonPacket (s : State) (id : Nat) : State :=
  match s.parcel id with
  | none => s
  | some p =>
    match p.spot with
    | .accepted => s.dropPacket id 4
    | .asking => s.dropPacket id 4
    | .refusedOnce => s.dropPacket id 4
    | .epochHeld => s.dropPacket id 4
    | .granted => s.dropPacket id 4
    | .crossing => s.dropPacket id 4
    | .linked => s.dropPacket id 4
    | _ => s.putParcel { p with poison := true }

/-- The Flight that owns a word of SRAM: scope, kind and instance. -/
def sramOwner (a : Nat) : Option (Nat × Nat × Nat) :=
  match hallCellAt a with
  | some (h, _) => some (h, 3, 0)
  | none => ((List.range 11).find? (fun c => decide (localBase c ≤ a ∧ a < localBase c + localSize c))).map (fun c =>
      if c < 8 then (c / 2, 5, c % 2) else (4, 0x10 + (c - 8), 0))

/-- A retained word of SRAM whose parity fails (17 R400): it is poisoned, with the packets whose cells it lies in, and the
Flight that owns it records POISON_READ. -/
def State.parityFail (s : State) (a : Nat) : State :=
  let w := a / 8 * 8
  match sramOwner w with
  | none => s
  | some (sc, kind, inst) =>
    let s : State := if s.poisoned.contains w then s else { s with poisoned := s.poisoned ++ [w] }
    let s := (s.errLog { scope := sc, level := 1, action := 1, cls := 5, unit := flightUnit kind inst, info := w }).setLastClass
      sc kind inst 5
    match hallCellAt w with
    | none => s
    | some (h, c) =>
      ((s.parcels.filter (fun p => (p.hall == h && (segCells p.segs).contains c) ||
        (p.cells.contains c && p.queue.any (fun q => q / 2048 == h)))).map (fun p => p.id)).foldl
        (fun (s : State) id => s.poisonPacket id) s

/-- A Flight counts an error (R13, R414) in `TREAD_ERRS` and in its window of 1 ms; the count in the window. -/
def State.countErr (s : State) (sc kind inst : Nat) : Nat × State :=
  let s := s.addTreadErr sc kind inst
  let key := flightKey sc kind inst
  let f := s.flight key
  let w := s.tb / ms 1
  let n := if f.window = w then f.errs + 1 else 1
  (n, s.setFlight key { f with window := w, errs := n })

/-- The window's count reaches FENCE_THRESH: the Flight fences (R414). -/
def State.errBurst (s : State) (sc kind inst n : Nat) : State :=
  let thresh := if sc < 4 then s.fld F.hallErrCtrlFenceThresh sc else s.fld F.svcErrCtrlFenceThresh
  if n = thresh then s.flightFault sc kind inst 4 n else s

/-- TREAD_ERROR (R414): `packet` is the number of the packet whose token it is, 0 for none. -/
def execTreadError (scope : Fin 5) (kind : Fin 32) (inst : Fin 16) (parity : Bool) (packet : Nat) (s : State) :
    Host.Outcome State Fault Refusal :=
  let sc := scope.val
  if !flightIs sc kind.val inst.val then .next s
  else
    let cls := if parity then 2 else 1
    let x := (s.setLastClass sc kind.val inst.val cls).countErr sc kind.val inst.val
    let s := if x.1 = 1 then x.2.errLog {
        scope := sc, level := 0, action := if x.2.flightActs sc kind.val inst.val then 1 else 5, cls := cls,
        unit := flightUnit kind.val inst.val, info := x.1 } else x.2
    .next ((s.poisonPacket packet).errBurst sc kind.val inst.val x.1)

/-! MAP_CLASSIFY (09 R233, R254). -/

/-- A MAP pipeline reads a poisoned word of table, program or graph memory while it classifies a packet (09 R254): the packet
is dropped with POISON, the Flight records the error and counts it. -/
def State.classifyPoisoned (s : State) (p : Parcel) (a : Nat) : State :=
  let h := p.hall
  let s := s.stampEpoch h
  let s := (s.putParcel { p with stamped := true, eHall := h, epoch := s.epochNow h }).dropPacket p.id 4
  let s := s.errLog {
    scope := h, level := 1, action := if s.flightActs h 2 p.pipe then 1 else 5, cls := 5, unit := flightUnit 2 p.pipe,
    info := a % 2 ^ 48 }
  let x := (s.setLastClass h 2 p.pipe 5).countErr h 2 p.pipe
  x.2.errBurst h 2 p.pipe x.1

/-- MAP_CLASSIFY (09 R233): the packet that a Hall's pipelines take next, in the pipeline it was dealt to; a
poisoned word that its classification reads ends it. -/
def execMapClassify (x : MapTake) (s : State) : Host.Outcome State Fault Refusal :=
  if !s.chipRuns then .next s
  else match s.nextToClassify x.hall.val with
  | none => .next s
  | some p =>
    if !s.hallRuns x.hall.val 2 p.pipe then .next s
    else match x.poison with
    | none => .next (s.classify p)
    | some a => .next (s.classifyPoisoned p a.toNat)

/-- The packets a fenced Flight of a Hall holds (R415): those its own work has taken. -/
def flightHolds (h kind inst : Nat) (p : Parcel) : Bool :=
  match kind with
  | 2 => p.hall == h && p.spot == .accepted && p.pipe == inst
  | 3 => p.inQueue (p.queue.getD 0) && p.queue.any (fun q => q / 2048 == h)
  | 5 => (match p.spot with
    | .popped u => u == 2 * h + inst
    | _ => false)
  | 6 => p.spot == .crossing && ((p.hall == h && p.queue.any (fun q => q / 2048 == inst)) ||
      (p.hall == inst && p.queue.any (fun q => q / 2048 == h)))
  | _ => false

/-- A fenced Flight discards what it holds; a core's operations still open end with its OT ledger conserved. -/
def State.flightDiscard (s : State) (scope kind inst : Nat) : State :=
  let s := if scope < 4 then
      (s.parcels.filter (fun p => flightHolds scope kind inst p)).foldl (fun (s : State) p => s.dropFenced p.id) s
    else s
  let core := if scope < 4 then (if kind = 5 then some (2 * scope + inst) else none)
    else if kind < 0x13 then some (8 + (kind - 0x10)) else none
  match core with
  | none => s
  | some c =>
    let k := s.wzCore c
    s.setCore c { k with completedOps := k.completedOps + (k.ot.filter (fun e => !e.done)).length, ot := k.ot.filter (fun e => e.done) }

/-- FLIGHT_FENCED (R415): the Flight holds nothing. A Flight fenced for STUCK_TREAD never comes here. -/
def execFlightFenced (scope : Fin 5) (kind : Fin 32) (inst : Fin 16) (s : State) : Host.Outcome State Fault Refusal :=
  let key := flightKey scope.val kind.val inst.val
  if s.flightState scope.val kind.val inst.val = 1 ∧ (s.flight key).cause ≠ 3 then
    .next (((s.flightDiscard scope.val kind.val inst.val).setFlightState scope.val kind.val inst.val 2).disarm .drain key 0)
  else .next s

/-- DRAIN_TIMEOUT (01 R14): a fault of the Hall, or of the chip for a services Flight. -/
def execDrainTimeout (scope : Fin 5) (kind : Fin 32) (inst : Fin 16) (s : State) : Host.Outcome State Fault Refusal :=
  let key := flightKey scope.val kind.val inst.val
  if s.due .drain key = true ∧ s.flightState scope.val kind.val inst.val = 1 then
    let s := s.disarm .drain key 0
    let u := flightUnit kind.val inst.val
    .next (if scope.val < 4 then s.hallFault scope.val 6 u else s.chipFault 6 0xFFFF u (kind.val == 0x12))
  else .next s

/-- CMD_ERR of a scope's `FLIGHT_CMD`. -/
def State.flightCmdErr (s : State) (scope : Nat) : State :=
  if scope < 4 then s.setFld F.hallFlightCmdCmdErr scope 0 1 else s.setFld F.svcFlightCmdCmdErr 0 0 1

/-- FENCE (R416). -/
def State.flightFence (s : State) (scope kind inst : Nat) (jtag : Bool) : State :=
  if flightIs scope kind inst && s.flightRuns scope kind inst then s.flightFault scope kind inst 15 (if jtag then 0 else 8)
  else s.flightCmdErr scope

/-- Cores issue again: waits whose end has come meanwhile end now. -/
def State.wakeCores (s : State) : State :=
  (List.range 11).foldl (fun (s : State) c =>
    ((List.range (coreThreads c)).foldl (fun (s : State) t => s.otWake c t) s).wakeBell c) s

/-- A Flight is in RUN again: a trunk's link unit may train (05 R476). -/
def State.flightBack (s : State) (scope kind inst : Nat) : State :=
  let s := ((s.setFlightState scope kind inst 0).setFlight (flightKey scope kind inst) {}).wakeCores
  if scope < 4 ∧ kind = 1 then
    let n := 6 * scope + inst
    let s := s.setTrk n { s.trk n with fenced := false }
    if s.flag F.trkCfgEn n ∧ !s.isTd n then s.trunkGo n else s
  else s

/-- UNFENCE (R416). -/
def State.flightUnfence (s : State) (scope kind inst : Nat) : State :=
  if flightIs scope kind inst && s.flightState scope kind inst == 2 && (s.flight (flightKey scope kind inst)).cause != 3 then
    s.flightBack scope kind inst
  else s.flightCmdErr scope

/-- RESET (R416, 19 R438). -/
def State.flightResetCmd (s : State) (scope kind inst : Nat) : State :=
  if flightIs scope kind inst && s.flightState scope kind inst == 2 then
    (s.setFlightState scope kind inst 3).arm .flightReset (flightKey scope kind inst) 0 (us 10)
  else s.flightCmdErr scope

def execFlightFence (scope : Fin 5) (kind : Fin 32) (inst : Fin 256) (jtag : Bool) (s : State) :
    Host.Outcome State Fault Refusal := .next (s.flightFence scope.val kind.val inst.val jtag)

def execFlightUnfence (scope : Fin 5) (kind : Fin 32) (inst : Fin 256) (s : State) : Host.Outcome State Fault Refusal :=
  .next (s.flightUnfence scope.val kind.val inst.val)

def execFlightReset (scope : Fin 5) (kind : Fin 32) (inst : Fin 256) (s : State) : Host.Outcome State Fault Refusal :=
  .next (s.flightResetCmd scope.val kind.val inst.val)

/-- FLIGHT_RESET_DONE (19 R438): within 10 us, with the poison marks of the Flight's SRAM gone. -/
def execFlightResetDone (scope : Fin 5) (kind : Fin 32) (inst : Fin 16) (s : State) : Host.Outcome State Fault Refusal :=
  if s.flightState scope.val kind.val inst.val = 3 then
    let s := (s.clearTreadErrs scope.val kind.val inst.val).disarm .flightReset (flightKey scope.val kind.val inst.val) 0
    let s : State := { s with poisoned := s.poisoned.filter (fun w => sramOwner w != some (scope.val, kind.val, inst.val)) }
    .next (s.flightBack scope.val kind.val inst.val)
  else .next s

/-- A write to `HALLn_FLIGHT_CMD` or `SVC_FLIGHT_CMD` through the bus. -/
def State.flightCmdWrite (s : State) (scope : Nat) (v mask : BitVec 64) (jtag : Bool) : State :=
  let w := v &&& mask
  let s := if scope < 4 then s.storeReg .hallFlightCmd scope 0 v mask else s.storeReg .svcFlightCmd 0 0 v mask
  let kind := wr F.hallFlightCmdKind w
  let inst := wr F.hallFlightCmdInstance w
  match wr F.hallFlightCmdOp w with
  | 1 => s.flightFence scope kind inst jtag
  | 2 => s.flightUnfence scope kind inst
  | 3 => s.flightResetCmd scope kind inst
  | _ => s

/-! Chip faults and the watchdog (R419 to R422). -/

/-- STAIR_FAULT (R419): `src` and `dst` are Stair nodes, Halls 0 to 3 and 4 the chip services. -/
def execStairFault (src dst : Fin 5) (s : State) : Host.Outcome State Fault Refusal :=
  .next (s.chipFault 11 0xFFFF (src.val + 256 * dst.val) false)

/-- SAFE_ENTER_CMD (R419). -/
def State.safeEnter (s : State) (jtag : Bool) : State := s.chipFault 15 0xFFFF (if jtag then 0 else 8) false

def execSafeEnterCmd (jtag : Bool) (s : State) : Host.Outcome State Fault Refusal := .next (s.safeEnter jtag)

/-- The watchdog starts a full period, unless it is off or paused (R422). -/
def State.wdogStart (s : State) : State :=
  if s.flag F.newelWdogArmed ∧ s.fld F.pwrStatusState = 0 ∧ !s.docentHeld then s.arm .wdog 0 0 (ms (s.fld F.newelWdogPeriod))
  else s.disarm .wdog 0 0

/-- A write whose KICK byte is `b` (R422). -/
def State.wdogKick (s : State) (b : Nat) : State :=
  if b = 0 then s
  else
    let live : Bool := match s.chip.kickAt with
      | some t => decide (s.tb ≤ t + ms 1)
      | none => false
    if live ∧ b = 0x5A then
      let s : State := { s with chip := { s.chip with kickAt := none, kicks := s.chip.kicks + 1 } }
      (s.setFld F.newelWdogArmed 0 0 1).wdogStart
    else if !live ∧ b = 0xA5 then { s with chip := { s.chip with kickAt := some s.tb } }
    else
      let s : State := { s with chip := { s.chip with kickAt := none } }
      s.addSat F.newelWdogBadKicks 0 0 1 0xFFFF

/-- WDOG_KICK (R422). -/
def execWdogKick (value : BitVec 8) (s : State) : Host.Outcome State Fault Refusal := .next (s.wdogKick value.toNat)

/-- WDOG_KICK_LAPSE (R422). -/
def execWdogKickLapse (s : State) : Host.Outcome State Fault Refusal :=
  match s.chip.kickAt with
  | some t => if t + ms 1 ≤ s.tb then .next { s with chip := { s.chip with kickAt := none } } else .next s
  | none => .next s

/-- WDOG_EXPIRE (R422): class WATCHDOG. -/
def execWdogExpire (s : State) : Host.Outcome State Fault Refusal :=
  if s.due .wdog then .next ((s.disarm .wdog 0 0).chipFault 14 0xFFFF s.chip.kicks false) else .next s

/-! Reading the crash record. -/

/-- CRASH_READ (R423): 32 bytes from an offset; bytes beyond the record are open. -/
def execCrashRead (offset : BitVec 16) (s : State) : Host.Outcome State Fault Refusal :=
  let o := offset.toNat
  let r := s.freeBytes 32
  .next (r.2.emit (.crash ((List.range 32).map (fun i =>
    if o + i < 4096 then s.byte (crashBase + o + i) else r.1.getD i 0))))

/-- CRASHRD (R423): JTAG reads the record. -/
def execCrashrd (s : State) : Host.Outcome State Fault Refusal := .next (s.emit (.crash (s.bytes crashBase 4096)))

/-- A write of 0 to byte 4 (R424): VALID and LATER are cleared. -/
def State.crashClear (s : State) : State := (s.setByte (crashBase + 4) 0).setByte (crashBase + 6) 0

/-- CRASH_CLEAR: only the Docent in supervisory mode and JTAG may write the record (01 R32). -/
def execCrashClear (master : Master) (s : State) : Host.Outcome State Fault Refusal :=
  match master with
  | .jtag => .next s.crashClear
  | .core c _ sup => .next (if c = 8 ∧ sup = true then s.crashClear else { s with reply := .decodeError })
  | _ => .next { s with reply := .decodeError }

/-- TEMP_UPDATE (21 R468). -/
def execTempUpdate (temp : BitVec 16) (s : State) : Host.Outcome State Fault Refusal :=
  let s := s.setFld F.newelTempNow 0 0 temp.toNat
  .next (if signed 16 (s.fld F.newelTempPeak) < signed 16 temp.toNat then s.setFld F.newelTempPeak 0 0 temp.toNat else s)

end Sys2Proof.Machine
end

