-- ==== Sys2Proof/Machine/PwrStates.lean ====
section
/-! DEFINITION. Power states: the request and its answers, entry, and leaving (spec/17_power_states.md). -/

namespace Sys2Proof.Machine

/-! Answers (R401, R404). -/

/-- What a unit answers. -/
inductive HwAnswer where
  | ack
  | delay (usec reason : Nat)
  | refuse (reason : Nat)
  deriving DecidableEq, Repr

/-- Hardware units by code (*Unit codes*). -/
def hwUnits : List Nat :=
  (List.range 12).map (0x10 + ·) ++ (List.range 24).map (0x20 + ·) ++ (List.range 4).map (0x40 + ·) ++ [0x48, 0x49] ++
  (List.range 6).map (0x50 + ·) ++ (List.range 8).map (0x58 + ·) ++ (List.range 8).map (0x60 + ·) ++ [0x68, 0x69, 0x6A] ++
  (List.range 12).map (0x70 + ·)

/-- The cores that answer: all but the Porter. -/
def pollCores : List Nat := [0, 1, 2, 3, 4, 5, 6, 7, 8, 10]

/-- Has a Hall packets on the Stair, or an eligible leaf queue outside the USHER port? -/
def State.hallBusy (s : State) (h : Nat) : Bool :=
  s.parcels.any (fun p => p.spot == .crossing && (p.hall == h || p.queue.any (fun q => q / 2048 == h))) ||
  (List.range 12).any (fun k => k != 10 && s.portActive (12 * h + k))

/-- Does a Type-C unit hold back DEEP and OFF: a source path not OFF, or an explicit contract other than an SPR fixed-supply
sink contract on TC0? -/
def State.tcHolds (s : State) (n : Nat) : Bool :=
  s.ppState n != 0 || ((s.tc n).contract == .explicit && !(n == 0 && !s.tcSource n && (s.tc n).fixed))

/-- *Hardware answers*. -/
def State.hwAnswer (s : State) (target u : Nat) : HwAnswer :=
  if 0x20 ≤ u ∧ u < 0x38 then
    let n := u - 0x20
    let t := s.trk n
    if t.replay ≠ [] then .delay 10 5
    else if s.trkState n = 1 ∨ t.own.isSome ∨ t.reply.isSome ∨ (s.port (n / 6 * 12 + n % 6)).foDue then .delay 100 0x0B
    else .ack
  else if 0x40 ≤ u ∧ u < 0x44 then
    if s.hallBusy (u - 0x40) then .delay 10 5
    else if 0 < s.fld F.hallEpochStatusHeld (u - 0x40) then .delay 10 0x0A
    else .ack
  else if u = 0x48 ∨ u = 0x49 then
    if 2 ≤ target ∧ (hallTrunks (u - 0x48)).any (fun n => s.tdOn n && decide (2 ≤ s.fld F.trkTdStatusState n)) then .refuse 0x0C
    else .ack
  else if 0x50 ≤ u ∧ u < 0x56 then if (s.liveSet (u - 0x50)).mode ≠ 0 then .refuse 4 else .ack
  else if 0x58 ≤ u ∧ u < 0x60 then if 2 ≤ target ∧ s.flag F.prtStatusLinkUp (u - 0x58) then .refuse 7 else .ack
  else if 0x60 ≤ u ∧ u < 0x68 then if 2 ≤ target ∧ s.flag F.ethCtrlEn (u - 0x60) then .refuse 8 else .ack
  else if u = 0x68 then if 2 ≤ target ∧ !s.usbQuiet then .refuse 0x0D else .ack
  else if u = 0x69 then if s.chip.sweep.isSome then .delay 20 9 else .ack
  else if u = 0x6A then
    if 2 ≤ target ∧ (s.flag F.svcRiserStatusAvsErr || (List.range 4).any (fun h => s.flag F.hallRiserStatusAvsErr h)) then
      .refuse 0x0E
    else .ack
  else if 0x70 ≤ u ∧ u < 0x7C then if 3 ≤ target ∧ s.tcHolds (u - 0x70) then .refuse 6 else .ack
  else .ack

/-- Does a core answer ACK without being asked: held in reset, or all its threads halted? -/
def State.coreQuiet (s : State) (c : Nat) : Bool :=
  s.coreReset c || (c < 8 && s.flag F.usherCtlHalt c) ||
  (List.range (coreThreads c)).all (fun t =>
    let th := s.thr c t
    th.jtag || th.run == .halted || th.run == .stopped)

/-! The request (R401 to R403). -/

/-- Write the entry under way. -/
def State.setEntry (s : State) (e : Option PwrEntry) : State := { s with chip := { s.chip with entry := e } }

/-- The latest answer of a unit: hardware units answered ACK unless they are listed. -/
def PwrEntry.answer (e : PwrEntry) (u : Nat) : PwrReply :=
  match unitGet .none e.answers u with
  | .none => if 0x10 ≤ u then .ack else .none
  | a => a

/-- Write an answer. -/
def State.putAnswer (s : State) (u : Nat) (a : PwrReply) : State :=
  match s.chip.entry with
  | none => s
  | some e => s.setEntry (some { e with answers := unitSet .none e.answers u a })

/-- A message of the hub to a core's ring, as if core 9 sent it; it waits while the ring is full. -/
def State.hubMessage (s : State) (c : Nat) (m : List Byte) : State :=
  let r := s.deliver 9 c m
  if r.1 = 5 then
    let s : State := { s with chip := { s.chip with unsent := s.chip.unsent ++ [(c, m)] } }
    s.armOnce .pwrMsg c 0 (us 10)
  else r.2

/-- The 64 bytes of a message: KIND, the target, SEQ, and 60 bytes that the spec leaves open. -/
def State.pwrMessage (s : State) (kind target seq : Nat) : List Byte × State :=
  let r := s.freeBytes 60
  ([BitVec.ofNat 8 kind, BitVec.ofNat 8 target] ++ leBytes 2 seq ++ r.1, r.2)

/-- The request goes to a core. -/
def State.askCore (s : State) (c target seq : Nat) : State :=
  if s.coreQuiet c then s.putAnswer c .ack
  else
    let m := s.pwrMessage 0xF0 target seq
    (((m.2.putAnswer c .none).hubMessage c m.1).disarm .pwrPoll c 0).arm .pwrAnswer c 0 (ms (s.fld F.pwrCfgAnswerMax))

/-- Stop what runs for an entry. -/
def State.entryQuiet (s : State) : State :=
  let s := (List.range 0x80).foldl (fun (s : State) u => s.disarm .pwrPoll u 0) s
  let s := (List.range 11).foldl (fun (s : State) c => (s.disarm .pwrAnswer c 0).disarm .pwrMsg c 0) s
  let s := s.disarm .pwrEntry 0 0
  { s with chip := { s.chip with unsent := [] } }

/-- The entry ends without the state (R402): `pwr.req` completes, and each core asked is told. -/
def State.entryEnd (s : State) (status result : Nat) : State :=
  match s.chip.entry with
  | none => s
  | some e =>
    let told := pollCores.filter (fun c => !s.coreQuiet c && !s.chip.unsent.any (fun x => x.1 == c))
    let s := (s.entryQuiet.setEntry none).setFld F.pwrStatusPoll 0 0 0
    let s := told.foldl (fun (s : State) c =>
      let m := s.pwrMessage 0xF1 e.target e.seq
      m.2.hubMessage c m.1) s
    s.otComplete 9 0 e.tag status result

/-- A refusal: the unit and its reason. -/
def State.entryRefuse (s : State) (unit reason : Nat) : State :=
  ((s.setFld F.pwrStatusLastUnit 0 0 unit).setFld F.pwrStatusLastReason 0 0 reason).entryEnd 4 (unit * 256 + reason)

/-- A hardware unit's answer is taken: ACK and DELAY are kept, a REFUSE is the reason it gives. -/
def State.takeHw (s : State) (target u : Nat) : Option Nat × State :=
  match s.hwAnswer target u with
  | .ack => (none, s.putAnswer u .ack)
  | .delay d r =>
    let since := match s.chip.entry with
      | some e => (match unitGet .none e.answers u with
        | .delay _ _ b => b
        | _ => s.tb)
      | none => s.tb
    (none, (s.putAnswer u (.delay (s.tb + us d) r since)).arm .pwrPoll u 0 (us d))
  | .refuse r => (some r, s)

/-- PWR_REQ (R401, R402). -/
def execPwrReq (x : Issue) (ra : Fin 32) (tag : Fin 16) (s : State) : Host.Outcome State Fault Refusal :=
  .next (s.wzIssue x { group := .power, priv := true, tag := some tag.val, srcs := [ra.val] } noChk fun s =>
    let t := x.thread.val
    let target := s.wzG x ra.val
    let s := s.setThr 9 t (s.thr 9 t).next
    if target = 0 ∨ 4 < target then
      ((s.setFld F.pwrStatusLastUnit 0 0 9).setFld F.pwrStatusLastReason 0 0 1).otAtOnce 9 t tag.val 4 0x0901
    else if s.chip.entry.isSome then s.otAtOnce 9 t tag.val 3 0
    else
      let seq := (s.chip.seq + 1) % 65536
      let s := s.otAlloc 9 t tag.val (.pwrReq target)
      let s : State := { s with chip := { s.chip with seq := seq, entry := some { tag := tag.val, target := target, seq := seq } } }
      let s := (s.setFld F.pwrStatusPoll 0 0 1).arm .pwrEntry 0 0 (ms (s.fld F.pwrCfgEntryMax))
      let s := pollCores.foldl (fun (s : State) c => s.askCore c target seq) s
      let y := hwUnits.foldl (fun (y : Option (Nat × Nat) × State) u =>
        let r := y.2.takeHw target u
        match y.1, r.1 with
        | none, some reason => (some (u, reason), r.2)
        | k, _ => (k, r.2)) (none, s)
      match y.1 with
      | some (u, reason) => y.2.entryRefuse u reason
      | none => y.2)

/-- A write to `PWR_ANSWERc` (R401): ignored unless SEQ is that of the request under way. -/
def State.answerWrite (s : State) (c : Nat) (v mask : BitVec 64) : State :=
  match s.chip.entry with
  | none => s
  | some e =>
    let new := regWrite .pwrAnswer mask v (s.reg .pwrAnswer 0 c)
    if fldGet F.pwrAnswerSeq new ≠ e.seq ∨ !pollCores.contains c then s
    else
      let s := (s.setReg .pwrAnswer 0 c new).disarm .pwrPoll c 0
      let reason := fldGet F.pwrAnswerReason new
      match fldGet F.pwrAnswerAnswer new with
      | 1 => (s.putAnswer c .ack).disarm .pwrAnswer c 0
      | 2 => s.entryRefuse c reason
      | 3 =>
        let d := us (max 1 (min 10000 (fldGet F.pwrAnswerDelay new)))
        let since := match unitGet .none e.answers c with
          | .delay _ _ b => b
          | _ => s.tb
        ((s.putAnswer c (.delay (s.tb + d) reason since)).disarm .pwrAnswer c 0).arm .pwrPoll c 0 d
      | _ => (s.putAnswer c .none).armOnce .pwrAnswer c 0 (ms (s.fld F.pwrCfgAnswerMax))

/-- PWR_ANSWER_WRITE (R401). -/
def execPwrAnswerWrite (c : Fin 11) (value : BitVec 64) (s : State) : Host.Outcome State Fault Refusal :=
  .next (s.answerWrite c.val value (BitVec.allOnes 64))

/-- PWR_POLL_DELAY (R401): a unit that answered DELAY is polled again. -/
def execPwrPollDelay (unit : Fin 128) (s : State) : Host.Outcome State Fault Refusal :=
  let u := unit.val
  match s.chip.entry with
  | none => .next s
  | some e =>
    if s.due .pwrPoll u = false then .next s
    else
      let s := s.disarm .pwrPoll u 0
      if u < 0x10 then .next (s.askCore u e.target e.seq)
      else
        let r := s.takeHw e.target u
        .next (match r.1 with
          | some reason => r.2.entryRefuse u reason
          | none => r.2)

/-- PWR_MSG_RETRY (R401): every 10 us while the core's ring is full. -/
def execPwrMsgRetry (c : Fin 11) (s : State) : Host.Outcome State Fault Refusal :=
  if s.due .pwrMsg c.val = false then .next s
  else match s.chip.unsent.find? (fun x => x.1 == c.val) with
    | none => .next (s.disarm .pwrMsg c.val 0)
    | some x =>
      let r := s.deliver 9 c.val x.2
      if r.1 = 5 then .next (s.arm .pwrMsg c.val 0 (us 10))
      else
        let rest := r.2.chip.unsent.erase x
        let s : State := { r.2 with chip := { r.2.chip with unsent := rest } }
        .next (if rest.any (fun y => y.1 == c.val) then s.arm .pwrMsg c.val 0 (us 10) else s.disarm .pwrMsg c.val 0)

/-- PWR_ANSWER_TIMEOUT (R401): NO_ANSWER. -/
def execPwrAnswerTimeout (c : Fin 11) (s : State) : Host.Outcome State Fault Refusal :=
  match s.chip.entry with
  | none => .next s
  | some e =>
    if s.due .pwrAnswer c.val ∧ e.answer c.val = .none then .next (s.entryRefuse c.val 3) else .next s

/-- The unit that has waited longest in DELAY, the lowest code among equals. -/
def PwrEntry.slowest (e : PwrEntry) : Option Nat :=
  (e.answers.foldl (fun (best : Option (Nat × Nat)) x => match x.2 with
    | .delay _ _ b => (match best with
      | some (_, c) => if b < c then some (x.1, b) else best
      | none => some (x.1, b))
    | _ => best) none).map (fun x => x.1)

/-- PWR_ENTRY_TIMEOUT (R402): with no unit in DELAY the spec names none, and the unit is open. -/
def execPwrEntryTimeout (s : State) : Host.Outcome State Fault Refusal :=
  match s.chip.entry with
  | none => .next s
  | some e =>
    if s.due .pwrEntry = false then .next s
    else match e.slowest with
      | some u => .next (s.entryRefuse u 2)
      | none =>
        let r := s.openValue
        .next (r.2.entryRefuse (r.1.toNat % 65536) 2)

/-! Entering (R396 to R400, R403, R407). -/

/-- A rail's ceiling (n 4: VDD_S): its code in `NEWEL_VCEIL`, within the range of R48 (assumption log 164). -/
def State.ceiling (s : State) (n : Nat) : Nat :=
  min 52 (match n with
    | 0 => s.fld F.newelVceilCeilH0
    | 1 => s.fld F.newelVceilCeilH1
    | 2 => s.fld F.newelVceilCeilH2
    | 3 => s.fld F.newelVceilCeilH3
    | _ => s.fld F.newelVceilCeilS)

/-- The code a rail was last commanded to. -/
def State.vnow (s : State) (n : Nat) : Nat := if n < 4 then s.fld F.hallRiserStatusVnow n else s.fld F.svcRiserStatusVnow

/-- AT_FLOOR and AT_CEIL of a rail follow its code and its ceiling; a rail in retention is at neither. -/
def State.railFlags (s : State) (n : Nat) (kept : Bool) : State :=
  let floor := if !kept && s.vnow n == 0 then 1 else 0
  let at_ := if !kept && s.vnow n == s.ceiling n then 1 else 0
  if n < 4 then (s.setFld F.hallRiserStatusAtFloor n 0 floor).setFld F.hallRiserStatusAtCeil n 0 at_
  else (s.setFld F.svcRiserStatusAtFloor 0 0 floor).setFld F.svcRiserStatusAtCeil 0 0 at_

/-- A Riser loop's rail takes a voltage code, clamped to its ceiling (02 R51). -/
def State.railTo (s : State) (n code : Nat) : State :=
  let code := min code (s.ceiling n)
  let s := s.emit (.avs n code)
  (if n < 4 then s.setFld F.hallRiserStatusVnow n 0 code else s.setFld F.svcRiserStatusVnow 0 0 code).railFlags n false

/-- Does a loop issue commands: no AVS_ERR (02 R52)? -/
def State.avsOk (s : State) (n : Nat) : Bool :=
  !(if n < 4 then s.flag F.hallRiserStatusAvsErr n else s.flag F.svcRiserStatusAvsErr)

/-- AVSBus has failed a loop (02 R52): AVS_ERR, and its Bell source. -/
def State.avsFail (s : State) (n : Nat) : State :=
  (if n < 4 then s.setFld F.hallRiserStatusAvsErr n 0 1 else s.setFld F.svcRiserStatusAvsErr 0 0 1).ring 8 (17 + n)

/-- A transaction on AVSBus: the rail takes the code when it is acknowledged; three in succession that are not set AVS_ERR
(02 R52). -/
def State.avsCommand (s : State) (n code : Nat) (ack : Bool) : State :=
  if ack then
    let s : State := { s with chip := { s.chip with noAck := unitSet 0 s.chip.noAck n 0 } }
    s.railTo n code
  else
    let k := unitGet 0 s.chip.noAck n + 1
    let s : State := { s with chip := { s.chip with noAck := unitSet 0 s.chip.noAck n (if 3 ≤ k then 0 else k) } }
    let s := s.emit (.avs n (min code (s.ceiling n)))
    if k < 3 then s else s.avsFail n

/-- A command outside an update is repeated until AVSBus acknowledges it or AVS_ERR is set; whether each try is acknowledged
is open (assumption log 165). -/
def State.avsTry : Nat → State → Nat → Nat → State
  | 0, s, _, _ => s
  | k + 1, s, n, code =>
    let r := s.openValue
    let ack := r.1.getLsbD 0
    let s := r.2.avsCommand n code ack
    if ack || !s.avsOk n then s else State.avsTry k s n code

/-- Command a rail outside an update; a loop with AVS_ERR issues nothing (02 R52). -/
def State.avsSend (s : State) (n code : Nat) : State := if s.avsOk n then State.avsTry 3 s n code else s

/-- Is a loop in DEMAND mode? -/
def State.demand (s : State) (n : Nat) : Bool :=
  !(if n < 4 then s.flag F.hallRiserCtrlMode n else s.flag F.svcRiserCtrlMode)

/-- The lanes on which the Birique trunks in UP carry flits. -/
def State.upLanes (s : State) : List Nat :=
  ((List.range 24).filter (fun n => s.flag F.trkCfgEn n && !s.isTd n && s.trkState n == 2)).flatMap
    (fun n => (s.trkLanes n).filter s.laneOn)

/-- They enter announced idle (04 R125), and the state remembers them. -/
def State.lanesIdle (s : State) : State :=
  let ls := s.upLanes
  let s := ls.foldl (fun (s : State) l => s.idleEntry l) s
  { s with chip := { s.chip with inState := s.chip.inState.map (fun i => { i with lanes := ls }) } }

/-- DEEP: keys without KEEP_DEEP are erased, and secure trunks go to DOWN (R398, 15 R376). -/
def State.deepKeys (s : State) : State :=
  let s := (List.range 24).foldl (fun (s : State) n =>
    let on := (s.sec n).on
    let s := s.secDrop n
    if on && !s.isTd n then
      let s := (s.trkQuiet n).flushTrunk n true
      let s := s.setFld F.trkLinkStatusState n 0 0
      (s.trkLanes n).foldl (fun (s : State) l => s.txOff l) s
    else s) s
  (List.range 64).foldl (fun (s : State) k =>
    if (s.slotState k = 1 ∨ s.slotState k = 2 ∨ s.slotState k = 3) ∧ !attrUse (s.slot k).attr 17 then s.eraseSlot k else s) s

/-- OFF (R407): every path opens, PPIN included, PP0 to PP11 discharge, the Type-C units let go, SYS_PWREN falls. -/
def State.turnOff (s : State) : State :=
  let s := (List.range 13).foldl (fun (s : State) p => s.ppOpen p 12 true) s
  let s := s.resetRegs (fun r => r.name == .tcCtrl || r.name == .tcStatus)
  let s : State := { s with power := { s.power with tcs := [] } }
  { s with chip := { s.chip with pwren := false } }

/-- The state is taken. -/
def State.enterState (s : State) (e : PwrEntry) : State :=
  let s := s.entryQuiet.setEntry none
  let s := ((s.setFld F.pwrStatusPoll 0 0 0).setFld F.pwrStatusCommit 0 0 0).setFld F.pwrStatusState 0 0 e.target
  let s : State := { s with chip := { s.chip with inState := some { tag := e.tag, since := s.tb } } }
  let s := s.disarm .wdog 0 0
  match e.target with
  | 1 =>
    let s := (List.range 5).foldl (fun (s : State) n => if s.demand n then s.avsSend n 0 else s) s
    if s.flag F.pwrCfgIdleLanes then s.lanesIdle else s
  | 2 => (List.range 5).foldl (fun (s : State) n => s.avsSend n 0) s.lanesIdle
  | 3 => (List.range 5).foldl (fun (s : State) n => (s.emit (.avsRetain n)).railFlags n true) s.deepKeys.lanesIdle
  | _ => s.turnOff

/-- PWR_COMMIT (R401): with every latest answer ACK, the answers are read once more; a hardware unit whose condition has
changed has withdrawn its ACK as a DELAY, of 10 us where the table gives none (assumption log 118). -/
def execPwrCommit (s : State) : Host.Outcome State Fault Refusal :=
  match s.chip.entry with
  | none => .next s
  | some e =>
    if (pollCores ++ hwUnits).any (fun u => e.answer u != .ack) then .next s
    else
      let changed := hwUnits.filter (fun u => s.hwAnswer e.target u != .ack)
      if changed = [] then .next (s.enterState e)
      else .next (changed.foldl (fun (s : State) u =>
        let r := match s.hwAnswer e.target u with
          | .delay d r => (d, r)
          | .refuse r => (10, r)
          | .ack => (10, 0)
        (s.putAnswer u (.delay (s.tb + us r.1) r.2 s.tb)).arm .pwrPoll u 0 (us r.1)) s)

/-! Leaving (R405, R406). -/

/-- Change every listed unit of a table. -/
def mapUnits {α : Type} (f : α → α) (t : UnitMap α) : UnitMap α := t.map (fun e => (e.1, f e.2))

/-- Every suspended task restarts on a fresh grid (02 R68). Keep-alive sends are suspended in DEEP only. -/
def State.freshGrids (s : State) (deep : Bool) : State :=
  let f := fun (g : Grid) => if g.on then Grid.fresh s.tb else g
  let s := { s with
    nodes := mapUnits (fun (n : SchedNode) => { n with grid := f n.grid }) s.nodes
    halls := mapUnits (fun (h : HallSw) => { h with
      sampleGrid := f h.sampleGrid, redGrid := mapUnits f h.redGrid, riserGrid := f h.riserGrid }) s.halls
    beacons := mapUnits f s.beacons }
  let c := s.chip
  let s := { s with chip := { c with
    mons := mapUnits (fun (m : MonSt) => { m with grid := f m.grid }) c.mons, svcRiser := f c.svcRiser } }
  let p := s.power
  if deep then { s with power := { p with tcs := mapUnits (fun (u : TcUnit) => { u with ka := f u.ka }) p.tcs } } else s

/-- Lanes that entered announced idle with the state IDLE leave it again, but for those that firmware asks to stay (04 R125,
R126). -/
def State.lanesBack (s : State) (lanes : List Nat) : State :=
  lanes.foldl (fun (s : State) l => if s.flag F.laneCtrlIdle l then s else s.idleRelease l) s

/-- Trunks that were in announced idle leave it by a refresh; trunks in DOWN or LOST try again (R398). -/
def State.trunksBack (s : State) : State :=
  (List.range 24).foldl (fun (s : State) n =>
    if !s.flag F.trkCfgEn n || s.isTd n then s
    else if s.trkState n = 2 then
      (s.trkLanes n).foldl (fun (s : State) l =>
        if (s.lane l).idleAnnounced || s.fld F.laneStatusState l == 3 then s.laneRefresh l else s) s
    else if s.trkState n = 3 then s.trainResume n
    else if s.trkState n = 0 then s.trunkGo n
    else s) s

/-- The sources that may wake from a state (*Wake sources*). -/
def wakeAllowed : Nat → Nat
  | 1 => 0xFD
  | 2 => 0xFF
  | 3 => 0x7F
  | _ => 0

/-- Steps 1 to 3 of *Wake table*, from DEEP (17 R400, R406; 21 R459): the Newel raises the rails from retention to floor, a rail
whose AVSBus fails raises a chip fault and stays, words whose parity fails are poisoned, and the core rails are judged by the
band of retention for another 100 us. -/
def State.leaveRetention (s : State) (avs : Option Nat) (parity : List Nat) : State :=
  let s := (List.range 5).foldl (fun (s : State) n =>
    if avs = some n then (s.avsFail n).chipFault 12 0xFFFF n false else s.railTo n 0) s
  let s : State := { s with chip := { s.chip with bandUntil := s.tb + us 100 } }
  parity.foldl (fun (s : State) a => s.parityFail a) s

/-- The chip returns to RUN. `elapsed` is the time in DEEP as the Newel measured it; `avs` is a rail (4: VDD_S) whose AVSBus
fails in steps 1 and 2; `parity` are words of SRAM whose parity fails in step 3. -/
def State.powerWake (s : State) (sources elapsed : Nat) (avs : Option Nat) (parity : List Nat) : State :=
  match s.chip.inState with
  | none => s
  | some i =>
    let st := s.fld F.pwrStatusState
    let passed := if st = 3 then elapsed else s.tb - i.since
    let timer := s.fld F.pwrTimerWakeAfter != 0 && decide (us (s.fld F.pwrTimerWakeAfter) ≤ passed)
    let fired := (sources ||| i.fired) &&& wakeAllowed st &&& (s.fld F.pwrWakeEnEn ||| 0x20) &&& (if timer then 0xFF else 0xEF)
    if fired = 0 then s
    else
      let s := s.setFld F.pwrStatusWakeCause 0 0 (s.fld F.pwrStatusWakeCause ||| fired)
      let s := if st = 3 then ({ s with tb := s.tb + elapsed }).setFld F.tbStatusDeepGap 0 0 1 else s
      let s := if st = 3 then s.leaveRetention avs parity else s
      let s := s.setFld F.pwrStatusState 0 0 0
      let s : State := { s with chip := { s.chip with inState := none } }
      let s := (List.range 5).foldl (fun (s : State) n =>
        if s.demand n || st = 1 then s
        else s.avsSend n (if n < 4 then s.fld F.hallRiserCtrlVset n else s.fld F.svcRiserCtrlVset)) s
      let s := (s.freshGrids (st == 3)).wdogStart
      let s := s.wakeCores
      let s := (s.otComplete 9 0 i.tag 0 (s.fld F.pwrStatusWakeCause)).ring 9 46
      if 2 ≤ st then s.trunksBack else s.lanesBack i.lanes

/-- PWR_WAKE (R405, R406): `sources` are the bits of *Wake sources* that fire beside those that have fired since entry. -/
def execPwrWake (sources : BitVec 8) (gap : DeepExit) (avs : Option (Fin 5)) (s : State) : Host.Outcome State Fault Refusal :=
  .next (s.powerWake sources.toNat gap.elapsed (avs.map (fun r => r.val)) gap.parity)

/-! Tamper (15 R386, *Tamper against other activity*). -/

/-- Is a supply outside the band by which the voltage source judges it (15 *Tamper sources*; 21 R459)? Rails 0 to 3 are VDD_H0
to VDD_H3, 4 VDD_S, 5 VDD_AON; `mv` is its voltage, held for 1 us. -/
def State.voltageBad (s : State) (rail mv : Nat) : Bool :=
  let band := if rail = 5 then (720, 880)
    else if s.fld F.pwrStatusState = 3 ∨ s.tb < s.chip.bandUntil then (400, 500) else (550, 950)
  decide (rail ≤ 5) && decide (mv < band.1 ∨ band.2 < mv)

/-- Is the die outside the range of the temperature source, -55 to 130 °C (15 *Tamper sources*; 21 R461, R468)? -/
def State.tempBad (s : State) : Bool :=
  let t := signed 16 (s.fld F.newelTempNow)
  decide (t < -880 ∨ 2080 < t)

/-- TAMPER_ALARM (15 R386, R387): the sources in alarm, but for the voltage source, which alarms by what the supplies measure
while POR_N is high (21 R463), and for the temperature source, which reads `NEWEL_TEMP`. An entry under way is abandoned, a
state is left, and a source with its SAFE bit enters SAFE. -/
def execTamperAlarm (alarm : Alarm) (gap : DeepExit) (s : State) : Host.Outcome State Fault Refusal :=
  let volt := if !s.chip.porLow && alarm.rails.any (fun r => s.voltageBad r.1 r.2) then 8 else 0
  let temp := if s.tempBad then 16 else 0
  let a := ((alarm.sources.toNat &&& 0x27) ||| volt ||| temp) &&& s.fld F.newelTamperCtrlEn
  if a = 0 ∨ s.fld F.pwrStatusState = 4 then .next s
  else if s.chip.porLow then .next (s.tamper a)
  else
    let s := s.tamper a
    let s := if s.chip.entry.isSome then
        (s.entryEnd 7 0).setFld F.pwrStatusWakeCause 0 0 0x20 else s
    let s := if a &&& s.fld F.newelTamperCtrlSafe = 0 then s
      else s.chipFault 13 0xFFFF (s.fld F.newelTamperCauseCause) true
    .next (s.powerWake 0x20 gap.elapsed none gap.parity)

end Sys2Proof.Machine
end

