-- ==== Sys2Proof/Machine/Fabric.lean ====
section
/-! DEFINITION. The timebase, the Riser loops and the conservation ledgers (spec/02_self_timed_fabric.md R44 to R53, R62 to
R66, R472, R473). -/

namespace Sys2Proof.Machine

/-! The timebase (R45). -/

/-- TB_HOLDOVER (R45): REFCLK0 is lost. -/
def execTbHoldover (s : State) : Host.Outcome State Fault Refusal :=
  if s.flag F.tbStatusHoldover then .next s
  else .next (((s.setFld F.tbStatusHoldover 0 0 1).setFld F.tbStatusLocked 0 0 0).ring 8 16)

/-- TB_RELOCK (R45): the PLL has locked to REFCLK0. -/
def execTbRelock (s : State) : Host.Outcome State Fault Refusal :=
  .next ((s.setFld F.tbStatusHoldover 0 0 0).setFld F.tbStatusLocked 0 0 1)

/-! Riser loops (R48 to R52). Loop n 4 is VDD_S. -/

/-- A loop's grid. -/
def State.riserGrid (s : State) (n : Nat) : Grid := if n < 4 then (s.hall n).riserGrid else s.chip.svcRiser
def State.setRiserGrid (s : State) (n : Nat) (g : Grid) : State :=
  if n < 4 then s.setHall n { s.hall n with riserGrid := g } else { s with chip := { s.chip with svcRiser := g } }

/-- The relative error of R49: `load` as a fraction of full, the mean Tread cycle in ps, the headroom in %. -/
def riserErr (load : Rat) (cycle headroom : Nat) : Rat :=
  let demand := 950 / max load (1 / 4)
  let target := demand / (1 + (headroom : Rat) / 100)
  ((cycle : Rat) - target) / target

/-- The code R49 moves to, before the clamp at the ceiling. -/
def riserMove (v : Nat) (err : Rat) : Nat :=
  if 0 < err then v + min 10 (err * 20).ceil.toNat else if err < -(1 / 20) then v - 1 else v

/-- Write MODE and VSET (R50, R51, R53): a rail in FIXED mode goes to VSET; DEMAND starts a grid. -/
def State.riserCtrlWrite (s : State) (n : Nat) (v mask : BitVec 64) : State :=
  let was := s.demand n
  let s := if n < 4 then s.storeReg .hallRiserCtrl n 0 v mask else s.storeReg .svcRiserCtrl 0 0 v mask
  if s.demand n then (if was then s else s.setRiserGrid n (Grid.fresh s.tb))
  else
    let s := s.setRiserGrid n {}
    s.avsSend n (if n < 4 then s.fld F.hallRiserCtrlVset n else s.fld F.svcRiserCtrlVset)

/-- RISER_UPDATE (R48, R49): `load` in the last interval, `cycle` as the handshake-rate sensor measures it in ps, and whether
AVSBus acknowledges. -/
def execRiserUpdate (rail : Fin 5) (load : Rat) (cycle : BitVec 16) (ack : Bool) (s : State) : Host.Outcome State Fault Refusal :=
  let n := rail.val
  let g := s.riserGrid n
  if !s.chipRuns ∨ !s.demand n ∨ !g.on ∨ s.tb < g.next then .next s
  else
    let g' := g.start s.tb (us 20) (s.fld F.chipCatchupRiser)
    let s := s.setRiserGrid n g'
    let s := if g'.rang ∧ !g.rang then s.ring 8 2 else s
    let s := if n < 4 then s.setFld F.hallRiserStatusCyclePs n 0 cycle.toNat else s.setFld F.svcRiserStatusCyclePs 0 0 cycle.toNat
    let err := riserErr load cycle.toNat (if n < 4 then s.fld F.hallRiserCtrlHeadroom n else s.fld F.svcRiserCtrlHeadroom)
    let top := s.ceiling n
    let v := s.vnow n
    let s := if v = top ∧ 0 < err then
        (if n < 4 then s.setFld F.hallRiserStatusShort n 0 1 else s.setFld F.svcRiserStatusShort 0 0 1).ring 8 (17 + n)
      else s
    .next (if s.avsOk n then s.avsCommand n (min top (riserMove v err)) ack else s)

/-! Ledger terms (R62, R473). -/

/-- Queue-buffer cells that hold packets or are withheld for firmware. -/
def State.cellsQueued (s : State) (h : Nat) : Nat :=
  (s.cellsUsed h).length + ((s.hall h).fwHeld.filter (fun c => s.fwFrom h ≤ c)).length

/-- CELL: free, Landing, queued, in transit, total. -/
def State.cellTerms (s : State) (h : Nat) : List Nat :=
  let l := (s.landingUsed h).length
  let q := s.cellsQueued h
  let t := s.transit h
  [24576 - l - q - t, l, q, t, 24576]

/-- CREDIT of a trunk and VC: granted, held by the sender, returned. Held, advertised-but-unused plus occupying the VC
buffer, is the whole buffer: what was granted before anything was returned. Of a TD-212 trunk that is 255 (12 R312) for
the hub's buffer, the host's first LIMIT for its own; of a Birique trunk the buffer's cells, and the partner's first LIMIT
(assumption log 121). LIMIT counts mod 2^16, or mod 256, so `returned` does. -/
def State.creditTerms (s : State) (n v : Nat) (sends : Bool) : List Nat :=
  let r : Nat × Nat :=
    if s.tdOn n then
      let t := s.td n
      if sends then (unitGet 0 t.first v, (unitGet 0 t.limit v + 256 - unitGet 0 t.first v % 256) % 256)
      else (255, unitGet 0 t.granted v)
    else if sends then
      let held := unitGet 0 (s.trk n).peerFirst v
      (held, (s.fld F.trkVcCreditTxLimit n v + 65536 - held % 65536) % 65536)
    else
      let held := 4 * (s.claim n v).length
      (held, (unitGet 0 (s.trk n).limit v + 65536 - held % 65536) % 65536)
  [r.1 + r.2, r.1, r.2]

/-- A token term in whole bytes, as the 64-bit two's complement in which a bucket below zero reads. Buckets are kept in
1/1,024 byte (assumption log 167): issued, spent and discarded are rounded down, and the bucket is what the equation leaves,
so that it holds of the terms as read. -/
def tokenTerms (issued spent discarded : Int) : List Nat :=
  let i := issued / 1024
  let p := spent / 1024
  let d := discarded / 1024
  [i, i - p - d, p, d].map (fun (x : Int) => (x % 2 ^ 64).toNat)

/-- TOKEN of a scheduler node: issued, in bucket, spent, discarded, in whole bytes (assumption log 167). -/
def State.nodeTerms (s : State) (id : Nat) : List Nat :=
  let n := s.nodeNow id
  tokenTerms n.issued n.spent n.discarded

/-- TOKEN of a meter. -/
def State.meterTerms (s : State) (h m : Nat) : List Nat :=
  let t := unitGet {} s.meters (h * 16384 + m)
  tokenTerms t.issued t.spent t.discarded

/-- POWER: allotted, reserve, total. -/
def State.powerTerms (s : State) : List Nat := [s.allotted, s.fld F.powerReserveMw, s.fld F.powerTotalMw]

/-- FRAME: in, out, dropped, resident. -/
def State.frameTerms (s : State) (h : Nat) : List Nat :=
  [(s.hall h).frameIn, (s.hall h).frameOut, (s.hall h).frameDropped, s.resident h]

/-- OT of a core: issued, completed, in flight. -/
def State.otTerms (s : State) (c : Nat) : List Nat :=
  let k := s.wzCore c
  [k.issuedOps, k.completedOps, (k.ot.filter (fun e => !e.done)).length]

/-- PAGE: free, surface-owned, scan-out-referenced, total. A RETIRING surface's pages are scan-out-referenced (11 R295). -/
def State.pageTerms (s : State) : List Nat :=
  let of := fun (st : Nat) => ((s.canvas.pages.filter (fun e => s.fld F.canvasSurfState e.1 == st)).map (fun e => e.2.length)).sum
  [s.pagesFree.length, s.pagesUsed.length - of 2, of 2, s.fld F.canvasPoolPagesPages]

/-- The scope of a core's OT ledger. -/
def otScope (c : Nat) : Nat := if c < 8 then c / 2 else 4

/-- The terms of an instance; none where there is no such instance. -/
def State.ledgerTerms (s : State) (code scope unit : Nat) : List Nat :=
  match code with
  | 0 => if scope < 4 ∧ unit = 0 then s.cellTerms scope else []
  | 1 =>
    let n := unit % 256 / 8
    if unit < 512 ∧ n < 24 ∧ n / 6 = scope then s.creditTerms n (unit % 8) (decide (256 ≤ unit)) else []
  | 2 =>
    if 0x1_0000 ≤ unit then
      if scope < 4 ∧ unit - 0x1_0000 < 16384 then s.meterTerms scope (unit - 0x1_0000) else []
    else
      let counts := [2048, 1024, 96, 12]
      if scope < 4 ∧ nodeHall unit = scope ∧ unit % 2 ^ 12 < counts.getD (nodeLevel unit) 0 then s.nodeTerms unit else []
  | 3 => if scope = 4 ∧ unit = 0 then s.powerTerms else []
  | 4 => if scope < 4 ∧ unit = 0 then s.frameTerms scope else []
  | 5 => if unit < 11 ∧ otScope unit = scope then s.otTerms unit else []
  | 6 => if scope = 4 ∧ unit = 0 then s.pageTerms else []
  | _ => []

/-- LEDG_RD (R473). -/
def execLedgRd (x : Issue) (rd ra rb : Fin 32) (s : State) : Host.Outcome State Fault Refusal :=
  .next (s.wzIssue x { group := .switch, priv := true, srcs := [ra.val, rb.val], dsts := [rd.val] } noChk fun s =>
    let a := s.wzG x ra.val
    let r := s.ledgerTerms (a % 256) (a / 256 % 256) (a / 65536 % 2 ^ 32)
    s.setThr x.core.val x.thread.val
      ((s.thr x.core.val x.thread.val).setG rd.val (BitVec.ofNat 64 (r.getD (s.wzG x rb.val % 16) 0))).next)

/-! The audit sweep (R64 to R66, R472). -/

/-- LEDG_AUDIT (R64, R66). -/
def execLedgAudit (x : Issue) (ra : Fin 32) (tag : Fin 16) (s : State) : Host.Outcome State Fault Refusal :=
  .next (s.wzIssue x { group := .switch, priv := true, tag := some tag.val, srcs := [ra.val] }
    (fun s => if s.wzG x ra.val % 64 = 0 then none else some 2) fun s =>
    let c := x.core.val
    let t := x.thread.val
    let a := s.wzG x ra.val % 2 ^ 48
    let s := s.setThr c t (s.thr c t).next
    if s.chip.sweep.isSome then s.otAtOnce c t tag.val 3 0
    else
      let s := s.otAlloc c t tag.val (.audit a)
      { s with chip := { s.chip with sweep := some { core := c, thread := t, tag := tag.val, buf := a, at_ := s.tb } } })

/-- Flights that keep ledger counters (R472). -/
def ledgerFlights (scope : Nat) : List Nat :=
  if scope < 4 then [1, 2, 3, 4, 5, 7, 9] else [0x10, 0x11, 0x12, 0x15, 0x19, 0x1A]

/-- Is a scope EXCLUDED: a Hall quarantined or in reset? -/
def State.excluded (s : State) (scope : Nat) : Bool := decide (scope < 4) && s.hallState scope != 0

/-- Is a scope INCOMPLETE: such a Flight FENCING or RESETTING? -/
def State.incomplete (s : State) (scope : Nat) : Bool :=
  !s.excluded scope && (ledgerFlights scope).any (fun k => (List.range (flightCount scope k)).any (fun i =>
    s.flightState scope k i == 1 || s.flightState scope k i == 3))

/-- One audit record, 32 bytes. -/
def auditRecord (tb right left unit flags scope ledger : Nat) : List Byte :=
  leBytes 1 ledger ++ leBytes 1 scope ++ leBytes 2 flags ++ leBytes 4 unit ++ leBytes 8 left ++ leBytes 8 right ++ leBytes 8 tb

/-- The units of one ledger in one scope of which the model keeps a term, and the core of an OT instance. -/
def State.ledgerUnits (s : State) (code scope : Nat) (core : Nat) : List Nat :=
  match code with
  | 1 => (hallTrunks scope).flatMap (fun n => (List.range 8).flatMap (fun v => [8 * n + v, 256 + 8 * n + v]))
  | 2 => (s.nodes.filter (fun e => nodeHall e.1 == scope)).map (fun e => e.1) ++
         (s.meters.filter (fun e => e.1 / 16384 == scope)).map (fun e => 0x1_0000 + e.1 % 16384)
  | 5 => [core]
  | _ => [0]

/-- Both sides of a unit's equation. -/
def State.unitSides (s : State) (code scope unit : Nat) : Nat × Nat :=
  let l := s.ledgerTerms code scope unit
  match code with
  | 0 => ((l.take 4).sum, l.getD 4 0)
  | 3 => (l.getD 0 0 + l.getD 1 0, l.getD 2 0)
  | 6 => (l.getD 0 0 + l.getD 1 0 + l.getD 2 0, l.getD 3 0)
  | _ => (l.getD 0 0, (l.drop 1).sum % 2 ^ 64)

/-- What a sweep reads of a unit: both sides as its counters stand, or as an error in a counter has made them. -/
def State.swept (s : State) (errors : List LedgerError) (code scope unit : Nat) : LedgerError :=
  match errors.find? (fun e => e.ledger == code && e.scope == scope && e.unit == unit) with
  | some e => e
  | none => { ledger := code, scope := scope, unit := unit, left := (s.unitSides code scope unit).1,
              right := (s.unitSides code scope unit).2 }

/-- The summary instances, in order of ledger code (assumption log 121): ledger, scope, unit. -/
def auditInstances : List (Nat × Nat × Nat) :=
  (List.range 7).flatMap (fun k =>
    if k = 3 ∨ k = 6 then [(k, 4, 0)]
    else if k = 5 then (List.range 11).map (fun c => (k, otScope c, c))
    else (List.range 4).map (fun h => (k, h, 0)))

/-- What a sweep reads of the units of one instance: those the model keeps, and those an error names. -/
def State.sweptAll (s : State) (errors : List LedgerError) (i : Nat × Nat × Nat) : List LedgerError :=
  let units := s.ledgerUnits i.1 i.2.1 i.2.2
  let named := (errors.filter (fun e => e.ledger == i.1 && e.scope == i.2.1 && (s.ledgerTerms i.1 i.2.1 e.unit) != [] &&
    !units.contains e.unit && i.1 != 5)).map (·.unit)
  (units ++ named.eraseDups).map (s.swept errors i.1 i.2.1)

/-- May a sweep write its buffer: memory that refuses none of the stores (03 R102, R103; 07 R189)? -/
def State.sweepBuffer (s : State) (a : Nat) : Bool :=
  s.inMemory a 4096 && (List.range 64).all (fun i => !s.storeRefused (a + 64 * i) 64)

/-- AUDIT_SWEEP_END (R65, R66, R63): `errors` are the units of which a counter is in error, and both sides of the equation
as that leaves them. A mismatch is a unit whose sides differ. -/
def execAuditSweepEnd (errors : List LedgerError) (s : State) : Host.Outcome State Fault Refusal :=
  match s.chip.sweep with
  | none => .next s
  | some w =>
    let flagsOf := fun (scope : Nat) => (if s.incomplete scope then 2 else 0) + (if s.excluded scope then 4 else 0)
    let y := auditInstances.map (fun i =>
      let units := s.sweptAll errors i
      let bad := if s.excluded i.2.1 || s.incomplete i.2.1 then [] else units.filter (fun e => e.left != e.right)
      (auditRecord w.at_ ((units.map (·.right)).sum % 2 ^ 64) ((units.map (·.left)).sum % 2 ^ 64) (if i.1 = 5 then i.2.2 else 0)
        ((if bad = [] then 0 else 1) + flagsOf i.2.1) i.2.1 i.1, bad))
    let judged := y.flatMap (fun p => p.2)
    let listed := judged.take 64
    let more := listed.flatMap (fun e => auditRecord w.at_ e.right e.left e.unit 1 e.scope e.ledger)
    let scopes := List.range 5
    let flags := (if judged = [] then 0 else 1) + (if scopes.any s.incomplete then 2 else 0) +
      (if scopes.any s.excluded then 4 else 0) + (if listed.length < judged.length then 8 else 0)
    let last := auditRecord w.at_ listed.length judged.length 0 flags 4 0xFF
    let ok := s.sweepBuffer w.buf
    let s : State := { s with chip := { s.chip with sweep := none } }
    let s := if ok then (s.unpoison w.buf 4096).setBytes w.buf (y.flatMap (fun p => p.1) ++ more ++ last) else s
    let s := judged.foldl (fun (s : State) e =>
      let info := e.ledger + e.unit % 2 ^ 32 * 65536
      if e.scope < 4 then s.hallFault e.scope 7 info else s.chipFault 7 0xFFFF info false) s
    .next (s.otComplete w.core w.thread w.tag (if ok then 0 else 1) listed.length)

end Sys2Proof.Machine
end

