-- ==== Sys2Proof/Machine/Start.lean ====
section
/-! DEFINITION. Start-up and the reset scopes: the rails and POR_N, chip and Hall resets, the boot ROM and the image loader,
JTAG's hold on a thread (spec/19_startup_and_reset.md; spec/03_waizefy_isa.md R102 to R104). -/

namespace Sys2Proof.Machine

/-! Reset scopes (R438). -/

/-- What a reset of the whole chip starts from: the state right after reset, with what lies outside the chip (reference
clocks, ADC inputs, attached USB devices, the BOOT_MODE pins) and the waiting commands; `keep` picks registers and `cells`
memory that outlast it. -/
def State.fresh (s : State) (keep : RegName → Bool) (cells : Nat → Bool) : State :=
  let quads := mapUnits (fun (q : Quad) => ({ refPresent := q.refPresent } : Quad)) s.quads
  let dns := mapUnits (fun (d : DnPort) => ({ device := d.device, ocLow := d.ocLow } : DnPort)) s.usb.dns
  { State.reset with
    regs := s.regs.filter (fun e => keep e.1.name)
    mem := s.mem.filter (fun e => cells e.1)
    quads := quads.filter (fun e => e.2 != {})
    usb := { dns := dns.filter (fun e => e.2 != {}) }
    power := { adc := s.power.adc }
    chip := { boots := s.chip.boots, pins := s.chip.pins }
    jtagDebug := s.jtagDebug
    out := s.out
    free := s.free
    pending := s.pending }

/-- The crash record (18 R423) and the external DRAM. -/
def crashCell (a : Nat) : Bool := decide (crashBase ≤ a ∧ a < crashBase + 4096)
def dramCell (a : Nat) : Bool := decide (0x10_0000_0000 ≤ a)

/-- What a path keeps through a chip reset: ATTEMPTS, DAMAGED, the model, and what the Newel still does for SAFE. -/
def State.pathKept (s : State) (p : Nat) (t : State) : State :=
  let o := s.path p
  let t := t.setPath p { t1 := o.t1, t2 := o.t2, model := o.model, tripped := o.tripped }
  let t := (t.setFld F.ppStatusAttempts p 0 (s.fld F.ppStatusAttempts p)).setFld F.ppStatusModelC p 0 (s.fld F.ppStatusModelC p)
  let t := if s.flag F.ppStatusDamaged p then
      ((t.setFld F.ppStatusDamaged p 0 1).setFld F.ppStatusState p 0 5).setFld F.ppStatusCause p 0 6
    else t
  match s.deadline .ppDischarge p with
  | some d => if s.chip.safe.isSome then (t.setFld F.ppStatusDisch p 0 1).arm .ppDischarge p 0 (d - s.tb) else t
  | none => t

/-- The pins BOOT_MODE are sampled at the end of a reset (R430). -/
def State.sampleStraps (s : State) : State := s.setFld F.bootStatusStraps 0 0 s.chip.pins.toNat

/-- A chip or watchdog reset with its bit of CAUSE (R438): TB restarts at 0 and the ROM is to run. -/
def State.chipReset (s : State) (cause : Nat) : State :=
  let s := s.blowCut
  let keep := fun (n : RegName) => [.newelTamperCtrl, .newelTamperCause, .newelTemp, .fuseSvn].contains n
  let t := s.fresh keep (fun a => crashCell a || dramCell a)
  let t := (List.range 13).foldl (fun (t : State) p => s.pathKept p t) t
  let t := (t.setFld F.wdnStatusZeroizes 0 0 (s.fld F.wdnStatusZeroizes)).setFld F.wdnStatusTampered 0 0
    (s.fld F.wdnStatusTampered)
  let t := t.setFld F.wdnStatusStoreLocked 0 0 (s.fld F.wdnStatusStoreLocked)
  let c := t.chip
  let t := { t with chip := { c with boots := s.chip.boots + 1, stage := .rom } }
  (t.setFld F.bootStatusCause 0 0 cause).sampleStraps

/-- Is the chip up: SYS_PWREN high and POR_N high? -/
def State.powered (s : State) : Bool := s.chip.pwren && !s.chip.porLow

/-- The pins BOOT_MODE take a level. -/
def State.setPins (s : State) (straps : BitVec 3) : State := { s with chip := { s.chip with pins := straps } }

/-- RESET_N_ASSERT (R429, R441): RESET_N low for `ns`; the reset lasts as long, and TB counts from its end. -/
def execResetNAssert (ns : Nat) (straps : BitVec 3) (s : State) : Host.Outcome State Fault Refusal :=
  if ns < 1000 ∨ s.powered = false then .next s else .next ((s.setPins straps).chipReset 2)

/-- CHIP_RESET_CMD (R438, R440). -/
def State.chipResetCmd (s : State) : State := if s.powered then s.chipReset 8 else s
def execChipResetCmd (s : State) : Host.Outcome State Fault Refusal := .next s.chipResetCmd

/-- JTAG_CHIP_RESET (R438). -/
def execJtagChipReset (s : State) : Host.Outcome State Fault Refusal := .next (if s.powered then s.chipReset 16 else s)

/-- SAFE_HOLD_EXPIRE (18 R421): a watchdog chip reset. -/
def execSafeHoldExpire (s : State) : Host.Outcome State Fault Refusal :=
  if s.chip.safe.isSome ∧ s.due .safeHold = true then .next (s.chipReset 4) else .next s

/-- The power-on scope: everything but what VDD_AON keeps. The tamper registers wait for the judgement of the next rising
edge of POR_N (15 R387). -/
def State.porReset (s : State) : State :=
  let s := s.blowCut
  let t := s.fresh (fun n => [.newelTamperCtrl, .newelTamperCause, .fuseSvn].contains n) crashCell
  let t := (t.setFld F.wdnStatusTampered 0 0 (s.fld F.wdnStatusTampered)).setFld F.wdnStatusStoreLocked 0 0
    (s.fld F.wdnStatusStoreLocked)
  let c := t.chip
  { t with chip := { c with pwren := s.chip.pwren, wake := s.chip.wake, porLow := true, stage := .held } }

/-- POR_N_FALL (R427, R440). -/
def execPorNFall (s : State) : Host.Outcome State Fault Refusal := .next s.porReset

/-- The store's lock and CAUSE at a power-on reset: cleared when no enabled source is in alarm, else kept with AT_BOOT. -/
def State.tamperAtBoot (s : State) (alarms : Nat) : State :=
  let a := alarms &&& s.fld F.newelTamperCtrlEn
  let cause := s.fld F.newelTamperCauseCause
  let s := s.resetRegs (fun r => r.name == .newelTamperCtrl || r.name == .newelTamperCause)
  if a = 0 then (s.setFld F.wdnStatusTampered 0 0 0).setFld F.wdnStatusStoreLocked 0 0 0
  else
    let s := (s.setFld F.newelTamperCauseCause 0 0 (cause ||| a)).setFld F.newelTamperCauseAtBoot 0 0 1
    (s.setFld F.wdnStatusTampered 0 0 1).setFld F.wdnStatusStoreLocked 0 0 1

/-- POWER_ON_RESET (R427, R430, R438; 15 R387; 20 R454): POR_N rises with the straps, `alarms` of *Tamper sources* and TEST_EN
as they are then. -/
def execPowerOnReset (straps : BitVec 3) (alarms : BitVec 6) (testEn : Bool) (s : State) : Host.Outcome State Fault Refusal :=
  if s.chip.porLow = false ∨ s.chip.pwren = false then .next s
  else
    let wake := s.chip.wake
    let s := s.porReset.tamperAtBoot alarms.toNat
    let c := s.chip
    let s := { s with chip := { c with porLow := false, wake := false, pins := straps, stage := if testEn then .test else .rom } }
    .next (s.setFld F.bootStatusCause 0 0 (if wake then 33 else 1)).sampleStraps

/-- VDD_AON_UP (R426): the Newel starts with nothing kept but the fuses, and drives SYS_PWREN high; the board holds POR_N low. -/
def execVddAonUp (s : State) : Host.Outcome State Fault Refusal :=
  let s := s.blowCut
  let t := s.fresh (fun n => n == .fuseSvn) (fun _ => false)
  let c := t.chip
  .next { t with chip := { c with boots := 0, porLow := true, stage := .held } }

/-- WAKE_FROM_OFF (17 R407): SYS_PWREN rises; the board holds POR_N low until the rails are up. -/
def execWakeFromOff (s : State) : Host.Outcome State Fault Refusal :=
  if s.chip.pwren then .next s
  else
    let t := s.porReset
    let c := t.chip
    .next { t with chip := { c with pwren := true, wake := true } }

/-! Hall reset (R438, R439). -/

/-- The Hall whose region holds a register; a MAC lies in the Hall of the quad that holds it (07). -/
def State.regHall (s : State) (r : RegId) : Option Nat :=
  match (regDesc r.name).blk with
  | .hall => some r.i
  | .usher => some (r.i / 2)
  | .quad => some (r.i / 3)
  | .lane => some (r.i / 12)
  | .trk => some (r.i / 6)
  | .gal => some (r.i / 4)
  | .sp => some (r.i / 12)
  | .map => some r.i
  | .eth => (s.unitQuad 5 r.i).map (fun q => q / 3)
  | _ => none

/-- Registers of the Hall's region that a Hall reset keeps: the error ring's, the Riser loop's, and the quarantine's. -/
def hallKeeps (n : RegName) : Bool := n == .hallErrRing || n == .hallRiserCtrl || n == .hallRiserStatus

/-- Hall timers: the Hall a timer belongs to. -/
def timerHall (t : TimerId) : Option Nat :=
  match t.kind with
  | .farLoad => if t.i / 8 < 8 then some (t.i / 16) else none
  | .laneRefresh | .laneTrain | .laneExit | .badLane => some (t.i / 12)
  | .trkAck | .trkRetry | .trkCredit | .trkCreditAll | .trkBeat | .trkSilence | .trkTrain | .trkTrainRetry | .trkWidth
  | .psnGap | .tdInit | .tdTimeout | .tdWidth | .tdLinkup | .tdNak | .tdAck | .tdRetry | .tdCredit | .tdCreditAll => some (t.i / 6)
  | .epochHold => some t.i
  | .drain | .flightReset => some (t.i / 512)
  | _ => none

/-- Memory of a Hall's region that a Hall reset zeroes: all but the error ring. -/
def hallCell (h a : Nat) : Bool :=
  let base := 0x1_0000_0000 + h * 0x1000_0000
  decide (base ≤ a ∧ a < base + 0x1000_0000) && !decide (base + 0x2000 ≤ a ∧ a < base + 0x2800)

/-- The units of a table that are not of Hall h, `n` units to a Hall. -/
def otherHalls {α : Type} (h n : Nat) (t : UnitMap α) : UnitMap α := t.filter (fun e => e.1 / n != h)

/-- An Usher put in reset at once: outstanding operations and completion words discarded (03 R101). -/
def State.usherHallReset (s : State) (u : Nat) : State :=
  let s := (s.bellCoreReset u).clearThreads u
  s.setCore u { s.wzCore u with issuedOps := 0, completedOps := 0, release := false }

/-- What a Hall reset clears. The lanes' quads keep sight of their reference clock. -/
def State.hallClear (s : State) (h : Nat) : State :=
  let s := (s.parcels.filter (fun p => p.hall == h)).foldl (fun (s : State) p => s.dropPacket p.id 11) s
  let s := (hallTrunks h).foldl (fun (s : State) n => s.secDrop n) s
  let s := (s.usherHallReset (2 * h)).usherHallReset (2 * h + 1)
  let gone := fun (r : RegId) => s.regHall r == some h && !hallKeeps r.name
  let riser := (unitGet {} s.halls h).riserGrid
  let w := s.warden
  let c := s.chip
  { s.resetRegs gone with
    halves := s.halves.filter (fun e => !gone e.1)
    mem := s.mem.filter (fun e => !hallCell h e.1)
    poisoned := s.poisoned.filter (fun w => !hallCell h w)
    timers := s.timers.filter (fun e => timerHall e.1 != some h)
    lanes := otherHalls h 12 s.lanes
    quads := (s.quads.map (fun e => if e.1 / 3 = h then (e.1, { refPresent := e.2.refPresent }) else e)).filter
      (fun e => e.2 != {})
    trunks := otherHalls h 6 s.trunks
    waiting := s.waiting.filter (fun p => p.hall != h)
    claims := otherHalls h 48 s.claims
    leafQ := otherHalls h 2048 s.leafQ
    halls := unitSet {} s.halls h { riserGrid := riser }
    galLossy := s.galLossy.filter (fun g => g / 4 != h)
    galCount := otherHalls h 4 s.galCount
    versions := s.versions.filter (fun v => v.hall != h)
    meters := otherHalls h 16384 s.meters
    nodes := otherHalls h 16384 s.nodes
    ports := otherHalls h 12 s.ports
    tds := otherHalls h 6 s.tds
    beacons := otherHalls h 6 s.beacons
    warden := { w with secs := otherHalls h 6 w.secs }
    chip := { c with flights := otherHalls h 512 c.flights } }

/-- CHIP_HALL_RESET bit h written 1: the Hall must be QUARANTINED. -/
def State.hallResetCmd (s : State) (h : Nat) : State :=
  if s.hallState h = 2 then
    let s := (s.hallClear h).setHallState h 3
    s.arm .hallReset h 0 (us 500)
  else s.setFld F.chipHallCtlCmdErr 0 0 1

/-- HALL_RESET (R439). -/
def execHallReset (h : Fin 4) (s : State) : Host.Outcome State Fault Refusal := .next (s.hallResetCmd h.val)

/-- HALL_RESET_DONE (R439): within 500 us, STATE returns to QUARANTINED. -/
def execHallResetDone (h : Fin 4) (s : State) : Host.Outcome State Fault Refusal :=
  if s.hallState h.val = 3 then
    let s := (s.setHallState h.val 2).disarm .hallReset h.val 0
    .next (s.setHallCtl h.val { s.hallCtl h.val with resetDone := true })
  else .next s

/-! WZI images (03 *WZI header*, R102 to R104). -/

/-- An image as the loader reads it: byte by offset. -/
abbrev Image := Nat → Byte

/-- A number at an offset. -/
def Image.nat (b : Image) (off n : Nat) : Nat := leNat ((List.range n).map (fun i => b (off + i)))

/-- Bytes from an offset. -/
def Image.part (b : Image) (off n : Nat) : List Byte := (List.range n).map (fun i => b (off + i))

/-- Header fields. -/
def Image.target (b : Image) : Nat := b.nat 8 4
def Image.svn (b : Image) : Nat := b.nat 12 4
def Image.sects (b : Image) : Nat := b.nat 16 4
def Image.length (b : Image) : Nat := b.nat 24 8
def Image.entry (b : Image) : Nat := b.nat 32 8

/-- A section of an image. -/
structure Section where
  type : Nat
  cores : Nat
  addr : Nat
  size : Nat
  offset : Nat
  deriving DecidableEq, Repr

/-- The section table. -/
def Image.sectionTable (b : Image) : List Section :=
  (List.range b.sects).map (fun i =>
    let o := 256 + 32 * i
    { type := b.nat o 4, cores := b.nat (o + 4) 4, addr := b.nat (o + 8) 8, size := b.nat (o + 16) 4, offset := b.nat (o + 20) 4 })

/-- Is a section loaded into core memory: CODE, DATA or ZERO? -/
def Section.loads (x : Section) : Bool := decide (1 ≤ x.type ∧ x.type ≤ 3)

/-- Does a section name a core? -/
def Section.on (x : Section) (c : Nat) : Bool := x.cores.testBit c

/-- Does a section keep to R102: inside the file and in front of the signature block, 64-byte aligned, inside the local
addresses of its cores? A ZERO section has no data in the file. -/
def Section.fits (x : Section) (len : Nat) : Bool :=
  decide (1 ≤ x.type ∧ x.type ≤ 6) && (x.type == 3 || (decide (x.offset + x.size + 512 ≤ len) && x.offset % 64 == 0)) &&
  (!x.loads || (List.range 11).all (fun c => !x.on c || decide (x.addr + x.size ≤ localSize c)))

/-- Do two sections overlap in some core? -/
def Section.meets (x y : Section) : Bool :=
  x.loads && y.loads && (List.range 11).any (fun c => x.on c && y.on c) &&
    decide (x.addr < y.addr + y.size ∧ y.addr < x.addr + x.size)

/-- No two sections of the list overlap. -/
def sectionsApart : List Section → Bool
  | [] => true
  | x :: t => !t.any (fun y => x.meets y) && sectionsApart t

/-- The checks of R102 in their order: the ERR code of the first that fails, 0 when all pass. -/
def State.imageCheck (s : State) (b : Image) : Nat :=
  let len := b.length
  let key := b.part (len - 512) 97
  if b.nat 0 4 ≠ 0x3149_5A57 ∨ b.nat 4 2 ≠ 1 ∨ b.nat 6 2 ≠ 256 then 2
  else if sha384 key ≠ Config.fusePkHash ∨ Config.fusePkHash.all (· == 0) = true then 3
  else if ecdsaVerify key (sha384 (b.part 0 (len - 512))) (b.part (len - 512 + 128) 96) = false then 4
  else if b.svn < s.chip.svns then 5
  else if b.sects = 0 ∨ 32 < b.sects ∨ len < 256 + 32 * b.sects + 512 ∨ b.sectionTable.any (fun x => !x.fits len) = true ∨
      sectionsApart b.sectionTable = false then 6
  else 0

/-- The cores an image is for. -/
def Image.cores (b : Image) : List Nat := (List.range 11).filter (fun c => b.target.testBit c || b.sectionTable.any (fun x => x.loads && x.on c))

/-- Load one section into one core. A CODE section of a WZ-C core becomes a code region (R103). -/
def State.loadSection (s : State) (b : Image) (c : Nat) (x : Section) : State :=
  if !x.loads || !x.on c then s
  else
    let s := s.setLocal c x.addr (if x.type = 3 then List.replicate x.size 0 else b.part x.offset x.size)
    if x.type = 1 ∧ 8 ≤ c then
      let k := s.wzCore c
      s.setCore c { k with code := k.code ++ [(x.addr, x.size)] }
    else s

/-- Stage the program of an ACTION section (09 R249): its handle names the Hall in [15:14] and the program in [7:0]
(assumption log 184). One that fails the checks is not staged. -/
def State.loadAction (s : State) (b : Image) (x : Section) : State :=
  if x.type ≠ 4 then s
  else
    let h := x.addr / 2 ^ 14 % 4
    s.setHall h ((s.hall h).stageProg
      (s.progOf h (x.addr % 256) (fun n => if n ≤ x.size then some (b.part x.offset n) else none)))

/-- Load an image that has passed its checks; its ACTION sections are staged, TABLE and CONFIG sections are data for firmware. -/
def State.imageLoad (s : State) (b : Image) : State :=
  let s := b.cores.foldl (fun (s : State) c => b.sectionTable.foldl (fun (s : State) x => s.loadSection b c x) s) s
  let s := b.sectionTable.foldl (fun (s : State) x => s.loadAction b x) s
  let s := (b.cores.filter (fun c => 8 ≤ c && b.target.testBit c)).foldl (fun (s : State) c =>
    s.setCore c { s.wzCore c with entry := b.entry }) s
  let w := s.warden
  s.setWarden { w with imageSvns := w.imageSvns ++ [b.svn] }

/-! The boot ROM (R431 to R433). -/

/-- The Docent's threads start at ENTRY. -/
def State.docentStart (s : State) : State :=
  let s := ((s.startThreads 8 3 (s.wzCore 8).entry).setFld F.bootStatusStage 0 0 1).disarm .sidebandMax 0 0
  { s with chip := { s.chip with stage := .done } }

/-- A failure of the ROM: its code and entry are recorded, and the failure column of *Boot modes* is followed. -/
def State.bootFail (s : State) (err entry : Nat) : State :=
  let s := (s.setFld F.bootStatusErr 0 0 err).setFld F.bootStatusFailedEntry 0 0 entry
  let m := s.fld F.bootStatusStraps
  if (m = 3 ∨ m = 4) ∧ err ≠ 8 then
    let s := s.setFld F.bootStatusSource 0 0 2
    { s with chip := { s.chip with stage := .sideband } }
  else
    let s := (s.setFld F.bootStatusStage 0 0 2).disarm .sidebandMax 0 0
    { s with chip := { s.chip with stage := .done } }

/-- A flash as the ROM reads it: none where it cannot be read. -/
def flashNat (flash : List Byte) (off n : Nat) : Option Nat :=
  if off + n ≤ flash.length then some (leNat ((flash.drop off).take n)) else none

/-- Bytes of a flash from an offset, as an image. -/
def flashImage (flash : List Byte) (off : Nat) : Image := fun i => flash.getD (off + i) 0

/-- Try one directory entry: none when it does not name core 8, else its failure, 0 for a pass. An image that lies beyond
what can be read fails with FLASH_READ. -/
def State.tryEntry (s : State) (flash : List Byte) (i : Nat) : Option Nat :=
  match flashNat flash (16 * i) 8 with
  | none => some 7
  | some off =>
    let b := flashImage flash off
    if flash.length < off + 256 then some 7
    else if !b.target.testBit 8 then none
    else if flash.length < off + b.length then some 7
    else some (s.imageCheck b)

/-- Try entries `i` on, `n` of them: the entry that passes, or the last failure and its entry. -/
def State.tryEntries (s : State) (flash : List Byte) : Nat → Nat → Option (Nat × Nat) → Nat ⊕ Option (Nat × Nat)
  | 0, _, last => .inr last
  | n + 1, i, last =>
    match s.tryEntry flash i with
    | some 0 => .inl i
    | some e => s.tryEntries flash n (i + 1) (some (e, i))
    | none => s.tryEntries flash n (i + 1) last

/-- A boot from flash. Where no entry names core 8 the spec names no failure: ERR and FAILED_ENTRY are free values. -/
def State.flashBoot (s : State) (flash : List Byte) : State :=
  match flashNat flash 0 4, flashNat flash 4 1 with
  | some magic, some n =>
    if magic ≠ 0x3144_5A57 ∨ n = 0 ∨ 31 < n then s.bootFail 1 0
    else match s.tryEntries flash n 1 none with
      | .inl i => (s.imageLoad (flashImage flash (leNat ((flash.drop (16 * i)).take 8)))).docentStart
      | .inr (some (e, i)) => s.bootFail e i
      | .inr none =>
        let r := s.openValue
        r.2.bootFail (r.1.toNat % 7 + 1) (r.1.toNat / 256 % 256)
  | _, _ => s.bootFail 7 0

/-- BOOT_ROM_START (R430 to R433): `flash` is what the boot flash holds. -/
def execBootRomStart (flash : List Byte) (s : State) : Host.Outcome State Fault Refusal :=
  if s.chip.stage ≠ .rom then .next s
  else
    let m := s.fld F.bootStatusStraps
    let source := if m = 7 then 7 else if m = 2 then 2 else if m = 1 ∨ m = 4 then 1 else 0
    let s := s.setFld F.bootStatusSource 0 0 source
    let s : State := { s with chip := { s.chip with svns := s.svnCount } }
    if m = 7 then .next { s with chip := { s.chip with stage := .jtag } }
    else
      let s := if 2 ≤ m ∧ m ≤ 4 then s.arm .sidebandMax 0 0 60000000000 else s
      if m = 2 then .next { s with chip := { s.chip with stage := .sideband } } else .next (s.flashBoot flash)

/-- Where the ROM stages byte i of a sideband image: in the data memories of the Ushers, U0's first (R433; 01 R29; assumption
log 200). -/
def stagedAt (i : Nat) : Nat := localBase (i / 0x30000) + 0x1_0000 + i % 0x30000

/-- The image staged there. -/
def State.stagedImage (s : State) : Image := fun i => if i < 0x180000 then s.byte (stagedAt i) else 0

/-- IMAGE_WRITE (R433): at most 248 bytes, within the 1.5 MiB of the Usher data memories. -/
def execImageWrite (offset : BitVec 32) (data : List Byte) (s : State) : Host.Outcome State Fault Refusal :=
  if s.chip.stage ≠ .sideband ∨ 248 < data.length ∨ 0x180000 < offset.toNat + data.length then .next s
  else
    .next ((List.range data.length).foldl (fun (s : State) i => s.setByte (stagedAt (offset.toNat + i)) (data.getD i 0)) s)

/-- IMAGE_GO (R433): the staged image is treated as a directory entry, number 0xFF. -/
def execImageGo (s : State) : Host.Outcome State Fault Refusal :=
  if s.chip.stage ≠ .sideband then .next s
  else
    let b := s.stagedImage
    if !b.target.testBit 8 then
      let r := s.openValue
      .next (r.2.bootFail (r.1.toNat % 7 + 1) 0xFF)
    else
      let e := s.imageCheck b
      .next (if e = 0 then (s.imageLoad b).docentStart else s.bootFail e 0xFF)

/-- SIDEBAND_TIMEOUT (R433). -/
def execSidebandTimeout (s : State) : Host.Outcome State Fault Refusal :=
  if s.chip.stage = .sideband ∧ s.due .sidebandMax = true then .next (s.bootFail 8 0xFF) else .next s

/-! BOOT_LOAD (R434, 03 R104). -/

/-- A write of BOOT_LOAD. -/
def State.bootLoadWrite (s : State) (v mask : BitVec 64) : State :=
  let s := s.storeReg .bootLoad 0 0 v mask
  if wr F.bootLoadGo (v &&& mask) = 0 ∨ s.flag F.bootLoadBusy = true then s
  else
    let s := s.setFld F.bootLoadBusy 0 0 1
    { s with chip := { s.chip with loading := some (s.flag F.bootLoadFlash, s.fld F.bootLoadSrc) } }

/-- BOOT_LOAD_GO (R434). -/
def execBootLoadGo (flash : Bool) (src : BitVec 48) (s : State) : Host.Outcome State Fault Refusal :=
  .next (s.bootLoadWrite (fldPut F.bootLoadGo 1 (fldPut F.bootLoadFlash (if flash then 1 else 0) (fldPut F.bootLoadSrc src.toNat 0)))
    (BitVec.allOnes 64))

/-- May an image be loaded into a core now: an Usher held in reset, another core not yet started (03 R104)? -/
def State.loadable (s : State) (c : Nat) : Bool :=
  if c < 8 then s.flag F.usherCtlReset c && !(s.wzCore c).resetWait else s.coreReset c

/-- The image of a load under way; an address where there is no memory reads 0. -/
def State.loadImage (s : State) (flash : List Byte) (fromFlash : Bool) (src : Nat) : Image :=
  if fromFlash then flashImage flash src else fun i => if s.inMemory (src + i) 1 then s.byte (src + i) else 0

/-- The result of a load: the code of R102, or FLASH_READ. R104 names no code for a core that may not be reloaded: a free
value other than 0. -/
def State.loadResult (s : State) (flash : List Byte) (fromFlash : Bool) (src : Nat) (b : Image) : Nat × State :=
  if fromFlash ∧ (flash.length < src + 256 ∨ flash.length < src + b.length) then (7, s)
  else
    let e := s.imageCheck b
    if e ≠ 0 then (e, s)
    else if b.cores.all (fun c => s.loadable c) then (0, s)
    else
      let r := s.openValue
      (r.1.toNat % 255 + 1, r.2)

/-- IMAGE_LOAD_DONE (03 R102 to R104; R432, R434): `flash` is what the boot flash holds. A WZ-C core whose image has loaded
starts at its ENTRY. -/
def execImageLoadDone (flash : List Byte) (s : State) : Host.Outcome State Fault Refusal :=
  match s.chip.loading with
  | none => .next s
  | some (fromFlash, src) =>
    let b := s.loadImage flash fromFlash src
    let r := s.loadResult flash fromFlash src b
    let s : State := { r.2 with chip := { r.2.chip with loading := none } }
    let s := (s.setFld F.bootLoadBusy 0 0 0).setFld F.bootLoadResult 0 0 r.1
    if r.1 ≠ 0 then .next s
    else
      let s := s.imageLoad b
      let s := if b.target.testBit 8 then s.docentStart else s
      .next ([9, 10].foldl (fun (s : State) c => if b.target.testBit c then s.startThreads c 1 b.entry else s) s)

/-! JTAG (03 R85; 18 R422). -/

/-- JTAG_HALT: a wait is abandoned; the watchdog pauses while the Docent is held. JTAG debug is enabled from then on
(assumption log 7). -/
def execJtagHalt (core : Fin 11) (thread : Fin 8) (s : State) : Host.Outcome State Fault Refusal :=
  let th := s.thr core.val thread.val
  if th.run.live = false then .next s
  else
    let s := s.setThr core.val thread.val { th with jtag := true, run := .running }
    let s : State := { s with jtagDebug := true }
    .next (if s.docentHeld then s.disarm .wdog 0 0 else s)

/-- JTAG_RELEASE: the thread goes on, and the watchdog starts a full period when the Docent was held. -/
def execJtagRelease (core : Fin 11) (thread : Fin 8) (s : State) : Host.Outcome State Fault Refusal :=
  let th := s.thr core.val thread.val
  let held := s.docentHeld
  let s := s.setThr core.val thread.val { th with jtag := false }
  .next (if held && !s.docentHeld then s.wdogStart else s)

end Sys2Proof.Machine
end

