-- ==== Sys2Proof/Machine/BusMap.lean ====
section
/-! DEFINITION. The internal address space: which block, register or memory an address names, and what a register reads as
(spec/01_architecture.md R27 to R32; spec/00_scope.md R6, R10, R11, R471). -/

namespace Sys2Proof.Machine

/-! Blocks (01 R27, R28, R30). Each place is a block kind, the instance and the offset in it. -/

/-- The Hall whose quad holds ETHm (07 *ETHm registers*). -/
def State.ethHall (s : State) (m : Nat) : Option Nat := (s.unitQuad 5 m).map (fun q => q / 3)

/-- Places at an offset of Hall h's region (01 *Hall region layout*); none for a reserved offset. -/
def State.hallPlaces (s : State) (h o : Nat) : Option (List (Blk × Nat × Nat)) :=
  if o < 0x10_0000 then some [(.hall, h, o)]
  else if o < 0x20_0000 then
    let k := (o - 0x10_0000) / 0x1_0000
    let r := o % 0x1_0000
    if 3 ≤ k then some []
    else if r < 0x1000 then some [(.quad, 3 * h + k, r)]
    else if r < 0x5000 then some [(.lane, 12 * h + 4 * k + (r / 0x1000 - 1), r % 0x1000)]
    else some []
  else if o < 0x30_0000 then
    let k := (o - 0x20_0000) / 0x1_0000
    if 6 ≤ k then some [] else some [(.trk, 6 * h + k, o % 0x1_0000)]
  else if o < 0x40_0000 then
    if 0x30_C000 ≤ o ∧ o < 0x30_C400 then some [(.gal, 4 * h + (o - 0x30_C000) / 0x100, o % 0x100)]
    else if 0x30_E000 ≤ o ∧ o < 0x30_F000 then
      let m := (o - 0x30_E000) / 0x200
      if s.ethHall m = some h then some [(.eth, m, o % 0x200)] else some []
    else some [(.hall, h, o)]
  else if o < 0x50_0000 then
    if o < 0x40_0C00 then some [(.sp, 12 * h + (o - 0x40_0000) / 0x100, o % 0x100)] else some [(.hall, h, o)]
  else if o < 0x60_0000 then
    let k := (o - 0x50_0000) / 0x1000
    if 2 ≤ k then some [] else some [(.usher, 2 * h + k, o % 0x1000)]
  else if 0x100_0000 ≤ o ∧ o < 0x400_0000 then some [(.map, h, o - 0x100_0000)]
  else if 0x800_0000 ≤ o ∧ o < 0x860_0000 then some []
  else none

/-- Places at an internal address; none outside every block (01 R31). -/
def State.places (s : State) (a : Nat) : Option (List (Blk × Nat × Nat)) :=
  let o := a % 0x100_0000
  if 0xFFFF_FFFF_FFFF < a then none
  else if 0x10_0000_0000 ≤ a then
    if a < 0x10_0000_0000 + s.fld F.dramCfgCapacity * 2 ^ 28 ∧ a < 0x14_0000_0000 then some [] else none
  else if 0x2_0100_0000 ≤ a then none
  else if 0x2_0000_0000 ≤ a then some []
  else if 0x1_4000_0000 ≤ a then none
  else if 0x1_0000_0000 ≤ a then s.hallPlaces ((a - 0x1_0000_0000) / 0x1000_0000) (a % 0x1000_0000)
  else match a / 0x100_0000 with
    | 0 => some [(.newel, 0, o)]
    | 1 => some (if o / 0x1_0000 < 11 then [(.bell, o / 0x1_0000, o % 0x1_0000)] else [])
    | 2 => some (if o < 0x1_0000 then [(.pwrsvc, 0, o)]
        else if o < 0x1_0D00 then [(.pp, (o - 0x1_0000) / 0x100, o % 0x100)] else [])
    | 3 => some (if o < 0xC000 then [(.tc, o / 0x1000, o % 0x1000)] else [])
    | 4 => some (
        if 0x100 ≤ o ∧ o < 0x280 then [(.up, (o - 0x100) / 0x40, o % 0x40)]
        else if 0x400 ≤ o ∧ o < 0x600 then [(.dn, (o - 0x400) / 0x40, o % 0x40)]
        else if o < 0x1000 then [(.usb, 0, o)] else [])
    | 5 => some (
        if o < 0x1000 then [(.canvas, 0, o)]
        else if o < 0x2000 then [(.cclient, (o - 0x1000) / 0x10, o % 0x10)]
        else if 0x1_0000 ≤ o ∧ o < 0x1_6000 then [(.head, (o - 0x1_0000) / 0x1000, o % 0x1000)]
        else if 0x4_0000 ≤ o ∧ o < 0x6_0000 then [(.csurf, (o - 0x4_0000) / 0x20, o % 0x20)] else [])
    | 6 => some [(.warden, 0, o)]
    | 7 => some (if o < 0x8000 then [(.mon, o / 0x200, o % 0x200)] else [(.monsvc, 0, o)])
    | 8 => some [(.dram, 0, o)]
    | 9 => some (
        if o < 0x6000 then [(.host, o / 0x1000, o % 0x1000)]
        else if 0x1_0000 ≤ o ∧ o < 0x1_8000 then [(.prt, (o - 0x1_0000) / 0x1000, o % 0x1000)]
        else if 0x10_0000 ≤ o ∧ o < 0x14_0000 then [(.alcove, (o - 0x10_0000) / 0x100, o % 0x100)] else [])
    | _ => none

/-! Memory. -/

/-- Buffers of the blocks that lie in the address space: the crash record (18 R423), the error rings (18 R413), the USB data
buffers (13) and the Type-C keep-alive buffers (14). -/
def bufferAt (a : Nat) : Bool :=
  decide (crashBase ≤ a ∧ a < crashBase + 0x1000) ||
  (List.range 5).any (fun c => decide (ringBase c ≤ a ∧ a < ringBase c + 2048)) ||
  (List.range 6).any (fun h => decide (mgmtBuf h ≤ a ∧ a < mgmtBuf h + 256)) ||
  (List.range 12).any (fun n => decide (0x0300_0100 + 0x1000 * n ≤ a ∧ a < 0x0300_0100 + 0x1000 * n + 272))

/-- Is a byte address memory? -/
def State.ramAt (s : State) (a : Nat) : Bool :=
  bufferAt a || (hallCellAt a).isSome || (aliasAt a).isSome || (decide (0x10_0000_0000 ≤ a) && (s.places a).isSome)

/-! Registers. -/

/-- The index of the register of a name that covers an offset of its block, and the byte in it. -/
def regOffset (d : RegDesc) (o : Nat) : Option (Nat × Nat) :=
  if o < d.off then none
  else
    let r := o - d.off
    if d.n1 = 1 ∧ d.n2 = 1 then (if r < d.width / 8 then some (0, r) else none)
    else
      let a := r / max 1 d.s1
      let q := r % max 1 d.s1
      let b := if d.n2 = 1 then 0 else q / max 1 d.s2
      let k := q - b * d.s2
      if a < d.n1 ∧ b < d.n2 ∧ k < d.width / 8 then some (a * d.n2 + b, k) else none

/-- The register of a block that covers an offset: its name, its index in the block and the byte in it. -/
def regIn (blk : Blk) (o : Nat) : List RegName → Option (RegName × Nat × Nat)
  | [] => none
  | n :: t =>
    if (regDesc n).blk = blk then
      match regOffset (regDesc n) o with
      | some (j, k) => some (n, j, k)
      | none => regIn blk o t
    else regIn blk o t

/-- A register of a TD-212 trunk that reads 0 and ignores writes: its link and pair registers (12 R301, R324). -/
def tdHidden (o : Nat) : Bool := decide (o < 0x800) || decide (0x840 ≤ o ∧ o < 0xA00)

/-- The register that covers a byte address, and the byte in it; none for an unassigned address (00 R10). -/
def State.regAt (s : State) (a : Nat) : Option (RegId × Nat) :=
  match s.places a with
  | none => none
  | some l => l.findSome? (fun (blk, i, o) =>
      if blk = .trk ∧ tdHidden o ∧ s.tdOn i then none
      else (regIn blk o regNames).map (fun (n, j, k) => (⟨n, i, j⟩, k)))

/-! What a register reads as (00 R6). -/

/-- Fields packed into a value, each at its place. -/
def packed (l : List (Fld × Nat)) : Word := l.foldl (fun w e => fldPut e.1 e.2 w) 0

/-- A count of threads that meet a test, as a bit for each. -/
def threadBits (p : Nat → Bool) : Nat := ((List.range 8).map (fun t => if p t then 2 ^ t else 0)).sum

/-- `USHERu_STATUS` (03): HALTED, WAITING and OT_USED beside the stored DOUBLE_FAULT. WAITING shows the threads in `ot.wait`,
`ot.waitany` and `bell.wait` (assumption log 131). -/
def State.usherStatusRead (s : State) (u : Nat) : Word :=
  let halted := threadBits fun t =>
    let th := s.thr u t
    th.run == .halted || (th.run.live && (th.jtag || s.flag F.usherCtlHalt u))
  let waiting := threadBits fun t => match (s.thr u t).run with
    | .waitTag .. => true
    | .waitAny .. => true
    | .waitBell => true
    | _ => false
  fldPut F.usherStatusHalted halted (fldPut F.usherStatusWaiting waiting
    (fldPut F.usherStatusOtUsed (s.wzCore u).ot.length (s.reg .usherStatus u)))

/-- `BELLb_DEPTH`. -/
def State.bellDepthRead (s : State) (b : Nat) : Word :=
  BitVec.ofNat 64 (((List.range 8).map (fun t => (s.bellStack b t).length * 2 ^ (8 * t))).sum)

/-- `BELLb_STACKt_w`: entries 4w to 4w + 3, counted from the bottom. -/
def State.bellStackRead (s : State) (b j : Nat) : Word :=
  let l := (s.bellStack b (j / 4)).reverse
  BitVec.ofNat 64 (((List.range 4).map (fun k =>
    match l[j % 4 * 4 + k]? with
    | some (prio, src) => (prio * 4096 + src) * 2 ^ (16 * k)
    | none => 0)).sum)

/-- `BELLb_PENDSUMw`. -/
def State.bellPendRead (s : State) (b w : Nat) : Word :=
  BitVec.ofNat 64 ((s.regs.map (fun e =>
    if e.1.name = .bellSrc ∧ e.1.i = b ∧ e.1.j / 64 = w ∧ fldGet F.bellSrcPending e.2 = 1 then 2 ^ (e.1.j % 64) else 0)).sum)

/-- `HALLn_BUF_STATUS` (07). -/
def State.bufStatusRead (s : State) (h : Nat) : Word :=
  let t := s.cellTerms h
  packed [(F.hallBufStatusTransit, t.getD 3 0), (F.hallBufStatusLanding, t.getD 1 0), (F.hallBufStatusQueued, t.getD 2 0),
    (F.hallBufStatusFree, t.getD 0 0)]

/-- `SPp_STATUS` (08). -/
def State.spStatusRead (s : State) (p : Nat) : Word :=
  let r := s.reservedRate p
  fldPut F.spStatusResMbps (ceilDiv r.1 (max 1 r.2)) (fldPut F.spStatusRateNow (s.serviceRate p / 512)
    (fldPut F.spStatusCommitPending (if (s.port p).commitAt.isSome then 1 else 0)
      (fldPut F.spStatusFoArmed (if (s.port p).fo == [] then 0 else 1) (s.reg .spStatus p))))

/-- `TRKn_PAIR_STATUS`: NO_FOCOMMIT while the mate's port holds no failover set (08 R228). -/
def State.pairStatusRead (s : State) (n : Nat) : Word :=
  let m := s.fld F.trkPairMate n
  let none_ := decide (24 ≤ m) || (s.port (m / 6 * 12 + m % 6)).fo == []
  fldPut F.trkPairStatusNoFocommit (if none_ then 1 else 0) (s.reg .trkPairStatus n)

/-- A link counter: `STALL_NS` with the stall that lasts now (05 R150). -/
def State.trkCntRead (s : State) (n j : Nat) : Word :=
  match (if j = 11 then (s.trk n).stallSince else none) with
  | some b => packed [(F.trkCntCount, s.fld F.trkCntCount n j + (s.tb - b))]
  | none => s.reg .trkCnt n j

/-- A bucket of an ingress meter in bytes, as it stands (08 R216). -/
def State.meterRead (s : State) (h m : Nat) : Meter := (s.meter h m).refill s.tb

/-- Scan-out-referenced pages (11 R295, `CANVAS_PAGE_STATUS`): those of RETIRING surfaces. -/
def State.scanPages (s : State) : Nat :=
  (s.canvas.pages.map (fun e => if s.fld F.canvasSurfState e.1 = 2 then e.2.length else 0)).sum

/-- GPIO levels: a pin the hub drives reads what it drives; the others are the board's, which the model does not hold
(assumption log 132). -/
def State.gpioRead (s : State) (free : Word) : Word :=
  let w := s.reg .gpioCtrl
  let oe := fldGet F.gpioCtrlOe w
  let out := fldGet F.gpioCtrlOut w
  fldPut F.gpioCtrlIn ((oe &&& out) ||| (free.toNat % 65536 &&& (65535 - oe))) w

/-- A register as it reads. Fields that the hub computes from what it holds elsewhere are computed here; `free` stands for the
values the model does not hold. -/
def State.regRead (s : State) (free : Word) (r : RegId) : Word :=
  let i := r.i
  let j := r.j
  match r.name with
  | .tbNow => BitVec.ofNat 64 s.tb
  | .usherStatus => s.usherStatusRead i
  | .bellDepth => s.bellDepthRead i
  | .bellStack => s.bellStackRead i j
  | .bellPendsum => s.bellPendRead i j
  | .bellDoorbell => 0
  | .bellEoi => 0
  | .bellHostmsg => 0
  | .chipHallCtl => s.hallCtlRead
  | .chipHallReset => BitVec.ofNat 64 (((List.range 4).map (fun h => if s.hallState h = 3 then 2 ^ h else 0)).sum)
  | .hallBufStatus => s.bufStatusRead i
  | .hallQadm => fldPut F.hallQadmDepth (s.depth (2048 * i + j) 0) (s.reg .hallQadm i j)
  | .hallIndLive => (s.version i (s.epochNow i)).reg .hallInd j
  | .hallPnodeLive => (s.version i (s.epochNow i)).reg .hallPnode j
  | .hallPedgeLive => (s.version i (s.epochNow i)).reg .hallPedge j
  | .hallEntryLive => (s.version i (s.epochNow i)).reg .hallEntry j
  | .hallTblMissLive => (s.version i (s.epochNow i)).reg .hallTblMiss j
  | .hallTblStatus => packed [(F.hallTblStatusStaged, (s.tblStaged i j).length), (F.hallTblStatusUsed, (s.tblUsed i j).length)]
  | .hallMtrliveTc => packed [(F.hallMtrliveTcTc, (s.meterRead i j).tc / 1024)]
  | .hallMtrliveTp => packed [(F.hallMtrliveTpTp, (s.meterRead i j).tp / 1024)]
  | .trkPairStatus => s.pairStatusRead i
  | .trkCnt => s.trkCntRead i j
  | .spStatus => s.spStatusRead i
  | .spFo => packed [(F.spFoBlocks, (s.port i).fo.length)]
  | .laneRxffe => packed [(F.laneRxffeCoef, s.ffeNow i j free)]
  | .laneRxeq => fldPut F.laneRxeqDfe1 (s.dfe1Now i free) (fldPut F.laneRxeqCtle (s.ctleNow i free) (s.reg .laneRxeq i))
  | .fusePkhash => BitVec.ofNat 64 (leNat ((Config.fusePkHash.drop (8 * j)).take 8))
  | .canvasPageStatus => packed [(F.canvasPageStatusScanref, s.scanPages), (F.canvasPageStatusFree, s.pagesFree.length)]
  | .canvasFetch => let f := s.fetchSum
                    packed [(F.canvasFetchMpix, ceilDiv f.1 (max 1 f.2 * 1000000))]
  | .canvasSurf => fldPut F.canvasSurfRefs (s.refsOf i) (s.reg .canvasSurf i)
  | .dhStatus => fldPut F.dhStatusLine (s.lineNow i) (s.reg .dhStatus i)
  | .hostStatus => fldPut F.hostStatusLink (if s.hostLink i then 1 else 0) (s.reg .hostStatus i)
  | .wdnStatus => fldPut F.wdnStatusReady (if (s.thr 10 0).run.live then 1 else 0) (s.reg .wdnStatus)
  | .pwrWakeEn => s.reg .pwrWakeEn ||| 32
  | .gpioCtrl => s.gpioRead free
  | n => s.reg n i j

end Sys2Proof.Machine
end

