-- ==== Sys2Proof/Machine/Bus.lean ====
section
/-! DEFINITION. Accesses to registers and memory by any master: what is refused, what a write of each register does beside
storing its fields, and reads (spec/01_architecture.md R31, R32; spec/00_scope.md R6, R7, R10, R11, R471). -/

namespace Sys2Proof.Machine

/-! What an access meets (01 R31, R32). -/

/-- Is the master the Docent in supervisory mode, or JTAG? -/
def Master.owner : Master → Bool
  | .core c _ sup => c == 8 && sup
  | .jtag => true
  | _ => false

/-- Is the master core c? -/
def Master.isCore (m : Master) (n : Nat) : Bool :=
  match m with
  | .core c _ _ => c == n
  | _ => false

/-- Is an access refused with the decode-error response? It has no allowed size or alignment, lies outside every block, or is
one of those of R32, 07 R189 and 15 R382. -/
def State.accessBad (s : State) (m : Master) (write : Bool) (a n : Nat) : Bool :=
  !([1, 2, 4, 8].contains n && a % max 1 n == 0) || (s.places a).isNone ||
  (write && decide (a < 0x100_0000) &&
    (if 0x6100 ≤ a ∧ a < 0x6108 then !m.isCore 10 else !m.owner)) ||
  (decide (0x600_0000 ≤ a ∧ a < 0x700_0000) &&
    (write || !(decide (a < 0x600_0008) || decide (0x600_0100 ≤ a ∧ a < 0x600_0120)))) ||
  (write && s.storeRefused a n) ||
  (match s.regAt a with
    | some (r, _) => r.name == .trkSecKey && !m.isCore 10
    | none => false)

/-! Writes of registers that do more than store. `v` holds the bytes written at their places, `mask` the bits they cover. -/

/-- A register's value with the bits of `mask` taken from `v`. -/
def merged (old v mask : Word) : Word := (old &&& ~~~ mask) ||| (v &&& mask)

/-- Did a write cover a one-bit field with a 1? -/
def hit (f : Fld) (v mask : Word) : Bool := fldGet f (v &&& mask) != 0

/-- Is a register locked by its block's `LOCK` (00 R7)? Every field of these registers is RWL. -/
def State.locked (s : State) : RegName → Bool
  | .newelVceil => s.flag F.newelVceilLock
  | .linkId => s.flag F.linkIdLockLock
  | .linkIdLock => s.flag F.linkIdLockLock
  | .newelPplim0 => s.flag F.newelPplockLock
  | .newelPplim1 => s.flag F.newelPplockLock
  | .newelPplock => s.flag F.newelPplockLock
  | .newelTamperCtrl => s.flag F.newelTamperCtrlLock
  | _ => false

/-- `LANEn_CTRL` (04): a value outside its range or a refused loopback leaves it as it was; EN and IDLE act on their edges. -/
def State.laneCtrlWrite (s : State) (l : Nat) (v mask : Word) : State :=
  let old := s.reg .laneCtrl l
  let new := regWrite .laneCtrl mask v old
  let lp := fldGet F.laneCtrlLpbk new
  let t := if lp = fldGet F.laneCtrlLpbk old then s
    else s.prbsWrite l (s.flag F.lanePrbsGenEn l) (s.flag F.lanePrbsChkEn l) (s.fld F.lanePrbsPattern l) lp
  if fldGet F.laneCtrlPrecode new = 3 ∨ fldGet F.laneCtrlRate new = 3 then s.quadRefuse (l / 4) 9 (l % 4)
  else if t.fld F.laneCtrlLpbk l ≠ lp then t
  else
    let t := t.setReg .laneCtrl l 0 (fldPut F.laneCtrlEn (fldGet F.laneCtrlEn old) new)
    let t := t.pllUpdate (l / 4)
    let t := if fldGet F.laneCtrlIdle new = fldGet F.laneCtrlIdle old then t
      else if fldGet F.laneCtrlIdle new = 1 then t.idleRequest l else t.idleRelease l
    if fldGet F.laneCtrlEn new = fldGet F.laneCtrlEn old then t
    else if fldGet F.laneCtrlEn new = 1 then t.laneEnable l else t.laneDisable l

/-- `LANEn_PRBS` (04 R130, R131). -/
def State.lanePrbsWrite (s : State) (l : Nat) (v mask : Word) : State :=
  let old := s.reg .lanePrbs l
  let new := regWrite .lanePrbs mask v old
  let s := s.storeReg .lanePrbs l 0 v (mask &&& fldMask F.lanePrbsSat)
  let s := if fldGet F.lanePrbsGenEn new = fldGet F.lanePrbsGenEn old ∧ fldGet F.lanePrbsChkEn new = fldGet F.lanePrbsChkEn old ∧
      fldGet F.lanePrbsPattern new = fldGet F.lanePrbsPattern old then s
    else s.prbsWrite l (fldGet F.lanePrbsGenEn new == 1) (fldGet F.lanePrbsChkEn new == 1) (fldGet F.lanePrbsPattern new)
      (s.fld F.laneCtrlLpbk l)
  let s := if hit F.lanePrbsSnap v mask then s.laneSnap l else s
  if hit F.lanePrbsClr v mask then s.laneClrAll l else s

/-- `TRKn_LINK_CTRL` (05). -/
def State.linkCtrlWrite (s : State) (n : Nat) (v mask : Word) : State :=
  let sec := s.flag F.trkLinkCtrlSecEn n
  let s := s.storeReg .trkLinkCtrl n 0 v mask
  let r := s.fld F.trkLinkCtrlRetry n
  let s := if r = 0 then s else s.setFld F.trkLinkCtrlRetry n 0 (max 100 (min 2000 r))
  let s := if sec && !s.flag F.trkLinkCtrlSecEn n then s.secEnClear n else s
  let s := if hit F.trkLinkCtrlClr v mask then s.trunkClr n else s
  if hit F.trkLinkCtrlFlush v mask then s.trunkFlush n else s

/-- `TRKn_CFG` (06 R159): a nonce that an enabled trunk draws is the hub's own. -/
def State.trkCfgStore (s : State) (n : Nat) (v mask : Word) : State :=
  let (nonce, s) := s.openValue
  s.trkCfgWrite n (merged (s.reg .trkCfg n) v mask) nonce

/-- `TRKn_WIDTH` (06): RETRAIN asks for a retrain (R167). -/
def State.trkWidthWrite (s : State) (n : Nat) (v mask : Word) : State :=
  let s := s.storeReg .trkWidth n 0 v mask
  if hit F.trkWidthRetrain v mask then s.retrainAsk n else s

/-- `HALLn_REDp_CTRL` (07 R202): setting ADAPT starts its grid. -/
def State.redCtrlWrite (s : State) (h p : Nat) (v mask : Word) : State :=
  let was := s.flag F.hallRedCtrlAdapt h p
  let s := s.storeReg .hallRedCtrl h p v mask
  if s.flag F.hallRedCtrlAdapt h p ∧ !was then
    s.setHall h { s.hall h with redGrid := unitSet {} (s.hall h).redGrid p (Grid.fresh s.tb) }
  else s

/-- `HALLn_BUF_CTRL` (07 R189): a smaller FW_CELLS returns cells at once. -/
def State.bufCtrlWrite (s : State) (h : Nat) (v mask : Word) : State :=
  let s := s.storeReg .hallBufCtrl h 0 v mask
  s.setHall h { s.hall h with fwHeld := (s.hall h).fwHeld.filter (fun c => decide (s.fwFrom h ≤ c)) }

/-- `HALLn_USHQ_j` (09 R248): a binding in use to a queue that holds packets makes its input queue non-empty at once
(assumption log 159). -/
def State.ushqWrite (s : State) (h j : Nat) (v mask : Word) : State :=
  let was := s.inputQueue (2 * h + j / 16) (j % 16)
  let s := s.storeReg .hallUshq h j v mask
  let now := s.inputQueue (2 * h + j / 16) (j % 16)
  let holds := fun (q : Option Nat) => match q with
    | some q => unitGet [] s.leafQ q != []
    | none => false
  if holds now && !holds was then s.ring (2 * h + j / 16) (16 + j % 16) else s

/-- `HALLn_PROG_STAGE` (09 R249). -/
def State.progStageWrite (s : State) (h : Nat) (v mask : Word) : State :=
  let s := s.storeReg .hallProgStage h 0 v mask
  if hit F.hallProgStageGo v mask then s.progGo h (s.fld F.hallProgStageProg h) else s

/-- `HOSTh_CFG` (10 R277): fields other than EN apply only while EN = 0. -/
def State.hostCfgWrite (s : State) (h : Nat) (v mask : Word) : State :=
  let s' := s.storeReg .hostCfg h 0 v (if s.flag F.hostCfgEn h then mask &&& fldMask F.hostCfgEn else mask)
  if (s.tdTrunk h).isSome then s'.setFld F.hostCfgEn h 0 0 else s'

/-- `ALCOVEa_CFG` (10 R277): by the Docent, while the Alcove is FREE. -/
def State.alcoveCfgWrite (s : State) (m : Master) (a : Nat) (v mask : Word) : State :=
  if m.isCore 8 ∧ s.alcState a = 0 then s.storeReg .alcoveCfg a 0 v mask else s

/-- `ALCOVEa_INFLIGHT` (10 R277): FW by the serving core. -/
def State.inflightWrite (s : State) (m : Master) (a : Nat) (v mask : Word) : State :=
  if m.isCore (s.fld F.alcoveCfgCore a) then s.storeReg .alcoveInflight a 0 v mask else s

/-- `BELLb_SRCs` (16): a TARGET above the core's last thread is stored as 0; a source that becomes takeable ends a wait. -/
def State.bellSrcWrite (s : State) (b j : Nat) (v mask : Word) : State :=
  let s := s.storeReg .bellSrc b j v mask
  let s := if coreThreads b ≤ s.fld F.bellSrcTarget b j then s.setFld F.bellSrcTarget b j 0 else s
  let s : State := if s.flag F.bellSrcPending b j then s else { s with bellFirst := s.bellFirst.filter (· != b * 4096 + j) }
  s.wakeBell b

/-- `USHERu_CTL` (03 R101): HALT and RESET act on their edges. -/
def State.usherCtlWrite (s : State) (u : Nat) (v mask : Word) : State :=
  let new := regWrite .usherCtl mask v (s.reg .usherCtl u)
  let halt := fldGet F.usherCtlHalt new
  let reset := fldGet F.usherCtlReset new
  let s := s.storeReg .usherCtl u 0 v (mask &&& ~~~ (fldMask F.usherCtlHalt ||| fldMask F.usherCtlReset))
  let s := if halt = s.fld F.usherCtlHalt u then s else if halt = 1 then s.usherHaltSet u else s.setFld F.usherCtlHalt u 0 0
  if reset = s.fld F.usherCtlReset u then s else if reset = 1 then s.usherResetSet u else s.usherResetClear u

/-- `USB_CTRL` (13): clearing EN detaches every host. -/
def State.usbCtrlWrite (s : State) (v mask : Word) : State :=
  let was := s.flag F.usbCtrlEn
  let s := s.storeReg .usbCtrl 0 0 v mask
  if was && !s.flag F.usbCtrlEn then (List.range 6).foldl (fun s h => s.upDetach h) s else s

/-- `UPh_CTRL` (13): clearing EN detaches the host. -/
def State.upCtrlWrite (s : State) (h : Nat) (v mask : Word) : State :=
  let was := s.flag F.upCtrlEn h
  let s := s.storeReg .upCtrl h 0 v mask
  if was && !s.flag F.upCtrlEn h then s.upDetach h else s

/-- `UPh_MGMT_DONE` (13 R338, R339). -/
def State.mgmtDoneWrite (s : State) (h : Nat) (v mask : Word) : State :=
  let w := v &&& mask
  match wr F.upMgmtDoneAction w with
  | 1 => s.mgmtDone h (wr F.upMgmtDoneXfer w) .ack
  | 2 => s.mgmtDone h (wr F.upMgmtDoneXfer w) .stall
  | _ => s

/-- `DNk_CTRL` (13 R330, R331). -/
def State.dnCtrlWrite (s : State) (k : Nat) (v mask : Word) : State :=
  let s := (s.storeReg .dnCtrl k 0 v mask).dnRefresh k
  if hit F.dnCtrlCycle v mask then s.dnCycle k else s

/-- `NEWEL_WDOG` (18 R422). -/
def State.wdogWrite (s : State) (v mask : Word) : State :=
  (s.storeReg .newelWdog 0 0 v mask).wdogKick (wr F.newelWdogKick (v &&& mask))

/-- `NEWEL_SAFE` (18 R419; 19 R438). -/
def State.safeWrite (s : State) (m : Master) (v mask : Word) : State :=
  let s := s.storeReg .newelSafe 0 0 v mask
  let s := if hit F.newelSafeEnter v mask then s.safeEnter (m == .jtag) else s
  if hit F.newelSafeChipReset v mask then s.chipResetCmd else s

/-- `CHIP_HALL_CTL` (18 R417, R418): QUAR and STAIR_OPEN of each Hall, CMD_ERR. -/
def State.hallCtlWrite (s : State) (m : Master) (v mask : Word) : State :=
  let w := (v &&& mask).toNat
  let s := s.storeReg .chipHallCtl 0 0 v (mask &&& fldMask F.chipHallCtlCmdErr)
  (List.range 4).foldl (fun s h =>
    let s := if w.testBit (8 * h + 3) then s.hallQuarCmd h (m == .jtag) else s
    if w.testBit (8 * h + 2) then s.stairOpenCmd h else s) s

/-- `CHIP_HALL_RESET` (19 R439). -/
def State.hallResetWrite (s : State) (v mask : Word) : State :=
  let w := (v &&& mask).toNat
  (List.range 4).foldl (fun s h => if w.testBit h then s.hallResetCmd h else s) s

/-- A write of the bytes in `mask` to a register, in an access of `n` bytes. Registers not named only store their fields. -/
def State.regStore (s : State) (m : Master) (r : RegId) (v mask : Word) (n : Nat) : State :=
  let i := r.i
  let j := r.j
  let all := merged (s.reg r.name i j) v mask
  if s.locked r.name then s
  else match r.name with
  | .laneCtrl => s.laneCtrlWrite i v mask
  | .lanePrbs => s.lanePrbsWrite i v mask
  | .laneTxeq => s.txeqWrite i all
  | .laneRxeq => s.rxeqWrite i v mask
  | .laneEyeCtrl => s.eyeCtrlWrite i v mask
  | .quadPersonality => s.personalityWrite i all
  | .quadPll => (s.storeReg .quadPll i 0 v mask).pllUpdate i
  | .trkLinkCtrl => s.linkCtrlWrite i v mask
  | .trkVcCfg => s.vcCfgWrite i all
  | .trkCfg => s.trkCfgStore i v mask
  | .trkWidth => s.trkWidthWrite i v mask
  | .trkTdCtrl => if s.flag F.trkCfgEn i then s else s.storeReg .trkTdCtrl i 0 v mask
  | .trkSecKey => s.secKeyWrite i all
  | .hallQadm => s.qadmWrite i j v mask
  | .hallRedC => s.redWrite i j v mask
  | .hallRedCtrl => s.redCtrlWrite i j v mask
  | .hallBufCtrl => s.bufCtrlWrite i v mask
  | .galCtrl => s.galCtrlWrite i v mask
  | .hallTblDef => s.tblDefWrite i j v mask
  | .hallTblExt => if s.flag F.hallTblDefEn i (j / 8) then s else s.storeReg .hallTblExt i j v mask
  | .hallProgStage => s.progStageWrite i v mask
  | .hallUshq => s.ushqWrite i j v mask
  | .hallSampleCtrl => s.sampleCtrlWrite i v mask
  | .spFo => if hit F.spFoClear v mask then s.foClear i else s
  | .prtLafCtrl => (s.storeReg .prtLafCtrl i 0 v mask).lafClear i (wr F.prtLafCtrlClr (v &&& mask))
  | .prtBridge => s.prtBridgeWrite i v mask
  | .hostCfg => s.hostCfgWrite i v mask
  | .alcoveCfg => s.alcoveCfgWrite m i v mask
  | .alcoveInflight => s.inflightWrite m i v mask
  | .dhLink => s.linkWrite i v mask
  | .dhAuxCmd => s.auxCmdWrite i v mask
  | .canvasPoolBase => s.poolWrite .canvasPoolBase v mask
  | .canvasPoolPages => s.poolWrite .canvasPoolPages v mask
  | .canvasPageOp => s.pageOp v mask
  | .dramCfg => s.capacityWrite v mask
  | .usherCtl => s.usherCtlWrite i v mask
  | .usbCtrl => s.usbCtrlWrite v mask
  | .usbAssign => s.assignWrite all
  | .usbAudio => s.audioWrite v mask
  | .upCtrl => s.upCtrlWrite i v mask
  | .upMgmtDone => s.mgmtDoneWrite i v mask
  | .dnCtrl => s.dnCtrlWrite i v mask
  | .dnStatus => s.dnStatusWrite i v mask
  | .tcCtrl => s.tcCtrlWrite i v mask
  | .powerTotal => s.powerTotal all.toNat
  | .fuseSvnCtrl => if hit F.fuseSvnCtrlGo v mask then s.svnBlow else s
  | .bellSrc => s.bellSrcWrite i j v mask
  | .bellDoorbell => s.doorbell i m v.toNat n
  | .bellEoi => if (mask &&& 0xFFF) = 0 then s else s.eoiWrite i m (v &&& mask).toNat
  | .bellHostmsg => if (mask &&& 0x7FFC000FFFF) = 0 then s else s.hostMsg i m (v &&& mask)
  | .monCtrl => s.monCtrlWrite i v mask
  | .hallRiserCtrl => s.riserCtrlWrite i v mask
  | .svcRiserCtrl => s.riserCtrlWrite 4 v mask
  | .hallFlightCmd => s.flightCmdWrite i v mask (m == .jtag)
  | .svcFlightCmd => s.flightCmdWrite 4 v mask (m == .jtag)
  | .chipHallCtl => s.hallCtlWrite m v mask
  | .chipHallReset => s.hallResetWrite v mask
  | .pwrAnswer => s.answerWrite j v mask
  | .newelWdog => s.wdogWrite v mask
  | .newelVceil => (List.range 5).foldl (fun (s : State) n => s.railFlags n (s.fld F.pwrStatusState == 3))
      (s.storeReg .newelVceil 0 0 v mask)
  | .newelSafe => s.safeWrite m v mask
  | .bootLoad => s.bootLoadWrite v mask
  | k => s.storeReg k i j v mask

/-! Accesses. -/

/-- A write into memory: the crash record takes a 0 to byte 4 only (18 R423), the error rings take nothing. -/
def State.ramWrite (s : State) (a : Nat) (data : List Byte) : State :=
  if crashBase ≤ a ∧ a < crashBase + 0x1000 then
    if a ≤ crashBase + 4 ∧ data[crashBase + 4 - a]? = some 0 then s.crashClear else s
  else if (List.range 5).any (fun c => decide (ringBase c ≤ a ∧ a < ringBase c + 2048)) then s
  else s.writeBytes a data

/-- The bytes of an access that fall in one register: the register, the byte in it, and how many. -/
def State.chunk (s : State) (a n : Nat) : Option (RegId × Nat × Nat) :=
  (s.regAt a).map (fun (r, k) => (r, k, min n ((regDesc r.name).width / 8 - k)))

/-- Write `n` bytes to registers and unassigned addresses, register by register; the low half first (00 R471). `size` is that of
the whole access. -/
def State.regsWrite (m : Master) (size : Nat) : Nat → State → Nat → Nat → List Byte → State
  | 0, s, _, _, _ => s
  | f + 1, s, a, n, data =>
    if n = 0 then s
    else match s.chunk a n with
      | some (r, k, w) =>
        let v := BitVec.ofNat 64 (leNat (data.take w) * 2 ^ (8 * k))
        let mask := BitVec.ofNat 64 ((2 ^ (8 * w) - 1) * 2 ^ (8 * k))
        State.regsWrite m size f (s.regStore m r v mask size) (a + w) (n - w) (data.drop w)
      | none => State.regsWrite m size f s (a + 1) (n - 1) (data.drop 1)

/-- Perform a write of `n` bytes at `a` (01 R31, R32; 00 R471): false when it met the decode-error response. -/
def State.busWrite (s : State) (m : Master) (a n : Nat) (v : Word) : Bool × State :=
  if s.accessBad m true a n then (false, s)
  else
    let data := leBytes n v.toNat
    (true, if s.ramAt a then s.ramWrite a data else s.regsWrite m n n a n data)

/-- A read of DRAM offers its latency, in class CORE of 11 R299, to the monitors of DRAM_LATENCY (18); the model does not hold
it (assumption log 133). -/
def State.dramRead (s : State) (a : Nat) : State :=
  if 0x10_0000_0000 ≤ a ∧ s.monsOf 9 ≠ [] then
    let (v, s) := s.openValue
    s.monOffer 9 2 (v.toNat % 2 ^ 48)
  else s

/-- A 32-bit read of half of a 64-bit register (00 R11): the lower half latches the upper, and the next read of the upper half
returns what was latched. -/
def State.halfRead (s : State) (r : RegId) (k : Nat) (v : Word) : Nat × State :=
  if k = 0 then
    (v.toNat % 2 ^ 32,
      { s with halves := tabSet regRank (fun _ => none) s.halves r (some (BitVec.ofNat 32 (v.toNat / 2 ^ 32))) })
  else match tabGet (fun _ => none) s.halves r with
    | some w => (w.toNat, { s with halves := tabSet regRank (fun _ => none) s.halves r none })
    | none => (v.toNat / 2 ^ 32, s)

/-- Read a register as it stands; a value the model does not hold is drawn for the registers that show one. -/
def State.regNow (s : State) (r : RegId) : Word × State :=
  if r.name = .laneRxffe ∨ r.name = .laneRxeq ∨ r.name = .gpioCtrl then
    let (v, s) := s.openValue
    (s.regRead v r, s)
  else (s.regRead 0 r, s)

/-- Read `n` bytes from registers and unassigned addresses, as a number. -/
def State.regsRead : Nat → State → Nat → Nat → Nat × State
  | 0, s, _, _ => (0, s)
  | f + 1, s, a, n =>
    if n = 0 then (0, s)
    else match s.chunk a n with
      | some (r, k, w) =>
        let (v, s) := s.regNow r
        let (x, s) := if w = 4 ∧ (regDesc r.name).width = 64 then s.halfRead r k v else (v.toNat / 2 ^ (8 * k) % 2 ^ (8 * w), s)
        let (y, s) := State.regsRead f s (a + w) (n - w)
        (x + 2 ^ (8 * w) * y, s)
      | none =>
        let (y, s) := State.regsRead f s (a + 1) (n - 1)
        (256 * y, s)

/-- Perform a read of `n` bytes at `a`; none when it met the decode-error response. -/
def State.busRead (s : State) (m : Master) (a n : Nat) : Option Word × State :=
  if s.accessBad m false a n then (none, s)
  else if s.ramAt a then (some (BitVec.ofNat 64 (leNat (s.bytes a n))), s.dramRead a)
  else
    let (v, s) := s.regsRead n a n
    (some (BitVec.ofNat 64 v), s)

/-- REGISTER_WRITE (00 R6, R7, R9, R10, R471; 01 R31, R32): a master's write of `size` bytes. -/
def execRegisterWrite (master : Master) (addr size : Nat) (value : BitVec 64) (s : State) : Host.Outcome State Fault Refusal :=
  let r := s.busWrite master addr size value
  .next { r.2 with reply := if r.1 then .done else .decodeError }

/-- REGISTER_HALF_READ (00 R11): a master's 32-bit read. -/
def execRegisterHalfRead (master : Master) (addr : Nat) (s : State) : Host.Outcome State Fault Refusal :=
  let r := s.busRead master addr 4
  .next { r.2 with reply := match r.1 with
    | some v => .data v
    | none => .decodeError }

end Sys2Proof.Machine
end

