-- ==== Sys2Proof/Machine/Far.lean ====
section
/-! DEFINITION. Far accesses of the Waizefy cores: far loads, posted far stores, atomics, doorbells, DMA and messages
(spec/03_waizefy_isa.md R77, R79 to R82, R87 to R90, R94, R98, R99; spec/10_host_functions.md R268). -/

namespace Sys2Proof.Machine

/-! Task windows (R77). -/

/-- Do `n` bytes at `a` lie in window w of a thread, with the permission: bit 1 read, bit 0 write? The window covers the
addresses from its base to base + limit, both included (assumption log 136). -/
def Thread.inWindow (th : Thread) (w a n perm : Nat) : Bool :=
  let base := (unitGet 0 th.twin (2 * w)).toNat
  let lim := (unitGet 0 th.twin (2 * w + 1)).toNat
  lim.testBit perm && decide (base ≤ a ∧ a + n ≤ base + lim / 4096 % 2 ^ 36 * 4096 + 1)

/-- May a thread access `n` bytes at `a`: in supervisory mode any, in task mode those of a window that permits it? -/
def Thread.mayAccess (th : Thread) (a n : Nat) (read write : Bool) : Bool :=
  !th.task || (List.range 4).any (fun w => (!read || th.inWindow w a n 1) && (!write || th.inWindow w a n 0))

/-- The check of a far access: ALIGN (R92), then ACCESS (R77). -/
def farChk (th : Thread) (a n : Nat) (read write : Bool) : WzCheck :=
  if a % n ≠ 0 then some 2 else if !th.mayAccess a n read write then some 3 else none

/-- The address of a far load or store: ra + sext(imm7) × size. -/
def State.farAddr (s : State) (x : Issue) (ra : Nat) (imm : BitVec 7) (n : Nat) : Nat :=
  ((s.thr x.core.val x.thread.val).g ra + BitVec.ofInt 64 (imm.toInt * n)).toNat

/-! Issue. -/

/-- `ldf` (R79, R81). -/
def execLdf (x : Issue) (size : Fin 4) (rd ra : Fin 32) (imm : BitVec 7) (tag : Fin 16) (s : State) :
    Host.Outcome State Fault Refusal :=
  let n := 2 ^ size.val
  .next (s.wzIssue x { group := .system, tag := some tag.val, srcs := [ra.val], dsts := [rd.val] }
    (fun s => farChk (s.thr x.core.val x.thread.val) (s.farAddr x ra.val imm n) n true false) fun s =>
    let c := x.core.val
    let t := x.thread.val
    let th := s.thr c t
    ((s.otAlloc c t tag.val (.farLoad (s.farAddr x ra.val imm n) n rd.val (!th.task))).setThr c t th.next).arm
      .farLoad (c * 8 + t) tag.val (ms 1))

/-- Post a far store of a thread. -/
def State.post (s : State) (c t : Nat) (st : PostedStore) : State :=
  let th := s.thr c t
  s.setThr c t { th.next with posted := th.posted ++ [st] }

/-- `stf` (R87): posted. -/
def execStf (x : Issue) (size : Fin 4) (rs ra : Fin 32) (imm : BitVec 7) (s : State) : Host.Outcome State Fault Refusal :=
  let n := 2 ^ size.val
  .next (s.wzIssue x { group := .system, srcs := [ra.val, rs.val] }
    (fun s => farChk (s.thr x.core.val x.thread.val) (s.farAddr x ra.val imm n) n false true) fun s =>
    let th := s.thr x.core.val x.thread.val
    s.post x.core.val x.thread.val {
      addr := s.farAddr x ra.val imm n, size := n, data := th.g rs.val, sup := !th.task })

/-- `bell.ring` (R94): a posted 32-bit store to the DOORBELL of Bell ra; a Bell number above 10 names an unassigned address,
where the store is ignored (assumption log 137). -/
def execBellRing (x : Issue) (ra rb : Fin 32) (s : State) : Host.Outcome State Fault Refusal :=
  .next (s.wzIssue x { group := .system, srcs := [ra.val, rb.val] } noChk fun s =>
    let th := s.thr x.core.val x.thread.val
    let b := (th.g ra.val).toNat
    s.post x.core.val x.thread.val {
      addr := 0x0100_0000 + min b 255 * 0x1_0000, size := 4, data := th.g rb.val &&& 0xFFF, sup := !th.task })

/-- Issue an atomic (R90): ALIGN, then ACCESS outside Hall SRAM or outside a window that permits both. -/
def State.wzAmo (s : State) (x : Issue) (op : AmoOp) (rd ra rb : Fin 32) (tag : Fin 16) : State :=
  let a := fun (s : State) => ((s.thr x.core.val x.thread.val).g ra.val).toNat
  s.wzIssue x
    { group := .system, tag := some tag.val, srcs := if op = .cas then [ra.val, rb.val, rd.val] else [ra.val, rb.val],
      dsts := [rd.val] }
    (fun s => match farChk (s.thr x.core.val x.thread.val) (a s) 8 true true with
      | some k => some k
      | none => if (hallCellAt (a s)).isNone then some 3 else none) fun s =>
    let c := x.core.val
    let t := x.thread.val
    let th := s.thr c t
    ((s.otAlloc c t tag.val (.atomic op (a s) rd.val (th.g rb.val) (th.g rd.val))).setThr c t th.next).arm
      .farLoad (c * 8 + t) tag.val (ms 1)

/-- `amo.add`. -/
def execAmoAdd (x : Issue) (rd ra rb : Fin 32) (tag : Fin 16) (s : State) : Host.Outcome State Fault Refusal :=
  .next (s.wzAmo x .add rd ra rb tag)
/-- `amo.and`. -/
def execAmoAnd (x : Issue) (rd ra rb : Fin 32) (tag : Fin 16) (s : State) : Host.Outcome State Fault Refusal :=
  .next (s.wzAmo x .and rd ra rb tag)
/-- `amo.or`. -/
def execAmoOr (x : Issue) (rd ra rb : Fin 32) (tag : Fin 16) (s : State) : Host.Outcome State Fault Refusal :=
  .next (s.wzAmo x .or rd ra rb tag)
/-- `amo.xor`. -/
def execAmoXor (x : Issue) (rd ra rb : Fin 32) (tag : Fin 16) (s : State) : Host.Outcome State Fault Refusal :=
  .next (s.wzAmo x .xor rd ra rb tag)
/-- `amo.swap`. -/
def execAmoSwap (x : Issue) (rd ra rb : Fin 32) (tag : Fin 16) (s : State) : Host.Outcome State Fault Refusal :=
  .next (s.wzAmo x .swap rd ra rb tag)
/-- `amo.umin`. -/
def execAmoUmin (x : Issue) (rd ra rb : Fin 32) (tag : Fin 16) (s : State) : Host.Outcome State Fault Refusal :=
  .next (s.wzAmo x .umin rd ra rb tag)
/-- `amo.umax`. -/
def execAmoUmax (x : Issue) (rd ra rb : Fin 32) (tag : Fin 16) (s : State) : Host.Outcome State Fault Refusal :=
  .next (s.wzAmo x .umax rd ra rb tag)
/-- `amo.cas`. -/
def execAmoCas (x : Issue) (rd ra rb : Fin 32) (tag : Fin 16) (s : State) : Host.Outcome State Fault Refusal :=
  .next (s.wzAmo x .cas rd ra rb tag)

/-! Performing (R87). -/

/-- Perform the oldest posted store of a thread; an error response is on its way when it is refused (R83, R87). -/
def State.performOne (s : State) (c t : Nat) : State :=
  match (s.thr c t).posted with
  | [] => s
  | st :: rest =>
    let s := s.setThr c t { s.thr c t with posted := rest }
    let r := s.busWrite (.core c t st.sup) st.addr st.size st.data
    if r.1 then r.2
    else r.2.setThr c t { r.2.thr c t with storeErrs := (r.2.thr c t).storeErrs ++ [st.addr] }

/-- Perform every posted store of a thread. -/
def State.performAll (s : State) (c t : Nat) : Nat → State
  | 0 => s
  | k + 1 => (s.performOne c t).performAll c t k

/-- The posted stores of a thread come before its far loads, atomics and messages. -/
def State.settle_ (s : State) (c t : Nat) : State := s.performAll c t (s.thr c t).posted.length

/-- The word an atomic leaves (R90): `old` in memory, `x` the operand, `y` what `cas` compares with. -/
def amoWord : AmoOp → Word → Word → Word → Word
  | .add, old, x, _ => old + x
  | .and, old, x, _ => old &&& x
  | .or, old, x, _ => old ||| x
  | .xor, old, x, _ => old ^^^ x
  | .swap, _, x, _ => x
  | .umin, old, x, _ => if x.toNat < old.toNat then x else old
  | .umax, old, x, _ => if old.toNat < x.toNat then x else old
  | .cas, old, x, y => if old = y then x else old

/-- Perform an atomic: the old word, none when the cell refuses it (07 R189). -/
def State.amoDo (s : State) (m : Master) (op : AmoOp) (a : Nat) (x y : Word) : Option Word × State :=
  if s.accessBad m true a 8 then (none, s)
  else
    let old : Word := BitVec.ofNat 64 (leNat (s.bytes a 8))
    (some old, s.setBytes a (leBytes 8 (amoWord op old x y).toNat))

/-- End a far access whose value has come: OK; POISON with a register that the spec leaves open (assumption log 138). -/
def State.farEnd (s : State) (c t tag : Nat) (poison : Bool) (v : Option Word) : State :=
  match v with
  | none => s.farDone c t tag 1 0
  | some v =>
    if poison then
      let (w, s) := s.openValue
      s.farDone c t tag 2 w
    else s.farDone c t tag 0 v

/-- FAR_RESPONSE (R79, R81, R82): the access of the operation with this tag is performed and its response arrives; `poison`
says that the data carried a poisoned token, as data of a poisoned word of SRAM does. A response after TIMEOUT is discarded. -/
def execFarResponse (core : Fin 11) (thread : Fin 8) (tag : Fin 16) (poison : Bool) (s : State) :
    Host.Outcome State Fault Refusal :=
  let c := core.val
  let t := thread.val
  match s.otFind c t tag.val with
  | none => .next s
  | some e =>
    if e.done then .next s
    else match e.kind with
      | .farLoad a n _ sup =>
        let r := (s.settle_ c t).busRead (.core c t sup) a n
        .next (r.2.farEnd c t tag.val (poison || s.poisonAt a n) r.1)
      | .atomic op a _ x y =>
        let r := (s.settle_ c t).amoDo (.core c t true) op a x y
        .next (r.2.farEnd c t tag.val (poison || s.poisonAt a 8) r.1)
      | _ => .next s

/-! DMA (R98). -/

/-- A DMA descriptor (*DMA descriptor, 32 bytes*). -/
def dmaDesc (d : List Byte) : DmaDesc :=
  let flags := field d 20 24
  let len := field d 16 20
  let fn := field d 24 26
  { dst := field d 0 8, src := field d 8 16, len := len, fill := flags.testBit 0, dstHost := flags.testBit 1,
    srcHost := flags.testBit 2, fn := fn % 1024,
    bad := decide (8 ≤ flags) || decide (1024 ≤ fn) || !zeroBytes d 26 32 || len == 0 || decide (16777216 < len) ||
      (flags.testBit 1 && flags.testBit 2) }

/-- Does a descriptor read or write host memory? A FILL reads no source (assumption log 139). -/
def DmaDesc.readsHost (d : DmaDesc) : Bool := d.srcHost && !d.fill
def DmaDesc.host (d : DmaDesc) : Bool := d.dstHost || d.readsHost

/-- May a DMA use Alcove a (10 R268)? -/
def State.alcDma (s : State) (a : Nat) : Bool :=
  let h := s.fld F.alcoveCfgHost a
  let st := s.alcState a
  decide (a < 1023) && st != 0 && st != 3 && st != 5 && s.vfThere h (s.fld F.alcoveCfgVf a) &&
    s.cfgGet h (s.alcFn a) .busMaster == 1

/-- A descriptor as it was read at issue: one with an address, internal or of a host, outside the task windows is refused
(R77; assumption log 135). A FILL pattern is no address. -/
def DmaDesc.seenBy (d : DmaDesc) (th : Thread) : DmaDesc :=
  { d with bad := d.bad || !(th.mayAccess d.dst d.len false true && (d.fill || th.mayAccess d.src d.len true false)) }

/-- Where the packets of a core's DMA enter: its Hall, under its own source number; those of the Docent where the
host-function unit sends. -/
def State.dmaFrom (s : State) (c h : Nat) : Nat × Nat := if c < 8 then (c / 2, 40 + c) else (s.hostHall h, 49)

/-- The bytes that a descriptor reads at offset `off` before it must read host memory again: up to a 4 KiB boundary. -/
def DmaDesc.piece (d : DmaDesc) (off : Nat) : Nat := min (d.len - off) (4096 - (d.src + off) % 4096)

/-- Ask for the host memory at a descriptor's offset. -/
def State.dmaAsk (s : State) (c t tag : Nat) (d : DmaDesc) (off : Nat) : State :=
  let h := s.fld F.alcoveCfgHost d.fn
  let w := s.dmaFrom c h
  let a := (d.src + off) % 2 ^ 64
  s.hubRead h w.1 w.2 (.dma c t tag off) d.fn (s.alcRid d.fn) (a / 4 * 4) (d.piece off + a % 4)

/-- The answer to that request. -/
def State.dmaReq (s : State) (c t tag off : Nat) : Option BridgeReq :=
  s.reqs.find? (fun r => r.origin == .dma c t tag off)

/-- Read bytes one by one, up to the first that meets an error. -/
def State.dmaRead (m : Master) : Nat → State → Nat → List Byte × State
  | 0, s, _ => ([], s)
  | n + 1, s, a =>
    match s.busRead m a 1 with
    | (none, s) => ([], s)
    | (some v, s) =>
      let r := State.dmaRead m n s (a + 1)
      (BitVec.ofNat 8 v.toNat :: r.1, r.2)

/-- The largest aligned access that starts at `a` and covers no more than `n` bytes. -/
def alignedSize (a n : Nat) : Nat :=
  if a % 8 = 0 ∧ 8 ≤ n then 8 else if a % 4 = 0 ∧ 4 ≤ n then 4 else if a % 2 = 0 ∧ 2 ≤ n then 2 else 1

/-- Write bytes in aligned accesses; answers how many were written before one met an error. -/
def State.dmaPut (m : Master) : Nat → State → Nat → List Byte → Nat × State
  | 0, s, _, _ => (0, s)
  | f + 1, s, a, data =>
    if data = [] then (0, s)
    else
      let n := alignedSize a data.length
      let r := s.busWrite m a n (BitVec.ofNat 64 (leNat (data.take n)))
      if r.1 then
        let x := State.dmaPut m f r.2 (a + n) (data.drop n)
        (n + x.1, x.2)
      else (0, r.2)

/-- Bytes with those of the poisoned units, given as offset and length in the descriptor, written as zeros. -/
def dmaZero (poison : List (Nat × Nat)) (off : Nat) (data : List Byte) : List Byte :=
  (List.range data.length).map (fun i =>
    if poison.any (fun p => decide (p.1 ≤ off + i ∧ off + i < p.1 + p.2)) then 0 else data.getD i 0)

/-- The bytes of a FILL pattern from an offset. -/
def DmaDesc.pattern (d : DmaDesc) (off n : Nat) : List Byte :=
  (List.range n).map (fun i => BitVec.ofNat 8 (d.src / 256 ^ ((off + i) % 8)))

/-- Write a piece of a descriptor at its offset: to host memory, or to the internal address space. Answers the bytes
written. -/
def State.dmaWrite (s : State) (c : Nat) (d : DmaDesc) (off : Nat) (data : List Byte) : Nat × State :=
  if d.dstHost then
    let w := s.dmaFrom c (s.fld F.alcoveCfgHost d.fn)
    (data.length, s.alcWrite d.fn w.1 w.2 ((d.dst + off) % 2 ^ 64) data)
  else State.dmaPut (.dma c) data.length s (d.dst + off) data

/-- What one turn of a descriptor comes to: it waits for host memory, or it has ended with a status and its bytes written. -/
inductive DmaTurn where
  | waits (off : Nat) (poison : Bool)
  | ended (status bytes : Nat)
  deriving DecidableEq, Repr

/-- Write data that has been read in full or up to an error, and end the descriptor or go on. How many of the bytes before
an error are written is left open (assumption log 140). -/
def State.dmaPiece (s : State) (c : Nat) (d : DmaDesc) (off : Nat) (whole poison : Bool) (data : List Byte) :
    DmaTurn × State :=
  if whole then
    let r := s.dmaWrite c d off data
    if r.1 < data.length then (.ended 1 (off + r.1), r.2)
    else if d.len ≤ off + data.length then (.ended (if poison then 2 else 0) d.len, r.2)
    else (.waits (off + data.length) poison, r.2)
  else
    let (v, s) := s.openValue
    let r := s.dmaWrite c d off (data.take (v.toNat % (data.length + 1)))
    (.ended 1 (off + r.1), r.2)

/-- One turn of a descriptor from an offset. -/
def State.dmaTurn (s : State) (c t tag : Nat) (d : DmaDesc) (off : Nat) (was : Bool) (poison : List (Nat × Nat)) :
    DmaTurn × State :=
  if d.bad ∨ (d.host ∧ !s.alcDma d.fn) then (.ended 4 off, s)
  else if d.fill then s.dmaPiece c d 0 true false (d.pattern 0 d.len)
  else if d.srcHost then
    match s.dmaReq c t tag off with
    | none => (.waits off was, s.dmaAsk c t tag d off)
    | some r =>
      if !r.parts.all (fun p => p.done) then (.waits off was, s)
      else
        let s := s.reqEnd r
        if r.closed then (.ended 1 off, s)
        else
          let n := d.piece off
          let got := ((r.parts.flatMap (fun p => p.got)).drop ((d.src + off) % 4)).take n
          let bad := r.poisoned || poison.any (fun p => decide (p.1 < off + n ∧ off < p.1 + p.2))
          s.dmaPiece c d off true (was || bad) (if r.poisoned then List.replicate n 0 else dmaZero poison off got)
  else
    let poison := poison ++ s.poisonIn d.src d.len
    let r := State.dmaRead (.dma c) d.len s d.src
    r.2.dmaPiece c d 0 (r.1.length == d.len) (poison.any (fun p => decide (p.1 < d.len ∧ 0 < p.2))) (dmaZero poison 0 r.1)

/-- INFLIGHT.HW of the Alcoves a DMA holds (10 R268). -/
def State.dmaHold (s : State) (l : List Nat) : State := l.foldl (fun s a => s.addSat F.alcoveInflightHw a 0 1 0xFFFF) s
def State.dmaRelease (s : State) (l : List Nat) : State :=
  l.foldl (fun s a => s.setFld F.alcoveInflightHw a 0 (s.fld F.alcoveInflightHw a - 1)) s

/-- Run a DMA operation until it waits or ends; `fuel` bounds its turns. The poisoned units are those of the descriptor it is
at. -/
def State.dmaRun (c t tag : Nat) : Nat → State → List (Nat × Nat) → State
  | 0, s, _ => s
  | fuel + 1, s, poison =>
    match s.otFind c t tag with
    | none => s
    | some e => match e.kind with
      | .dma descs chain w =>
        let fin := fun (s : State) (st r : Nat) => (s.dmaRelease w.held).otComplete c t tag st r
        match descs[w.pos]? with
        | none => fin s 0 w.pos
        | some d =>
          match s.dmaTurn c t tag d w.off w.poison poison with
          | (.waits off p, s) =>
            let s := s.otPut c t tag (some { e with kind := .dma descs chain { w with off := off, poison := p } })
            if off = w.off then s else s.dmaAsk c t tag d off
          | (.ended st n, s) =>
            if chain ∧ st = 0 then
              State.dmaRun c t tag fuel
                (s.otPut c t tag (some { e with kind := .dma descs chain { w with pos := w.pos + 1, off := 0, poison := false } })) []
            else fin s st (if chain then w.pos else n)
      | _ => s

/-- The first request of a DMA that begins in host memory. -/
def State.dmaBegin (s : State) (c t tag : Nat) (d : DmaDesc) : State := if d.readsHost then s.dmaAsk c t tag d 0 else s

/-- Issue a DMA of descriptors read at local addresses: REFUSED at once when the first may not run. -/
def State.dmaIssue (s : State) (x : Issue) (tag : Nat) (descs : List DmaDesc) (chain : Bool) : State :=
  let c := x.core.val
  let t := x.thread.val
  let th := s.thr c t
  let s := s.setThr c t th.next
  let descs := descs.map (fun d => d.seenBy th)
  match descs with
  | [] => s.otAtOnce c t tag 4 0
  | d :: _ =>
    if d.bad ∨ (d.host ∧ !s.alcDma d.fn) then s.otAtOnce c t tag 4 0
    else
      let held := ((descs.filter (fun d => !d.bad && d.host && s.alcDma d.fn)).map (fun d => d.fn)).eraseDups
      ((s.otAlloc c t tag (.dma descs chain { held := held })).dmaHold held).dmaBegin c t tag d

/-- `dma.cp [ra], t` (R98): the descriptor is read at issue. -/
def execDmaCp (x : Issue) (ra : Fin 32) (tag : Fin 16) (s : State) : Host.Outcome State Fault Refusal :=
  .next (s.wzIssue x { group := .switch, tag := some tag.val, srcs := [ra.val] } (wzBuf x ra.val 32 false) fun s =>
    s.dmaIssue x tag.val [dmaDesc (s.localBytes x.core.val (s.wzG x ra.val) 32)] false)

/-- The descriptors of a chain: up to 64, or up to the first that is refused (assumption log 141). -/
def State.chainDescs (s : State) (c a : Nat) : Nat → List DmaDesc
  | 0 => []
  | k + 1 =>
    let d := dmaDesc (s.localBytes c a 32)
    if d.bad then [d] else d :: s.chainDescs c (a + 32) k

/-- `dma.chain [ra], t` (R98). -/
def execDmaChain (x : Issue) (ra : Fin 32) (tag : Fin 16) (s : State) : Host.Outcome State Fault Refusal :=
  .next (s.wzIssue x { group := .switch, tag := some tag.val, srcs := [ra.val] }
    (fun s => s.bufChk x.core.val (s.wzG x ra.val) (32 * (s.chainDescs x.core.val (s.wzG x ra.val) 64).length) false) fun s =>
    s.dmaIssue x tag.val (s.chainDescs x.core.val (s.wzG x ra.val) 64) true)

/-- DMA_COMPLETE (R98): the engine moves the data of the operation with this tag, as far as what it reads from host memory has
come, and writes the completion word when it has finished. `poison` gives the source units, by offset and length in the
descriptor, that carry a poisoned token. -/
def execDmaComplete (core : Fin 11) (thread : Fin 8) (tag : Fin 16) (poison : List (Nat × Nat)) (s : State) :
    Host.Outcome State Fault Refusal :=
  .next (match s.otFind core.val thread.val tag.val with
    | none => s
    | some e =>
      if e.done then s else match e.kind with
      | .dma descs _ _ => State.dmaRun core.val thread.val tag.val (descs.length + 1) s poison
      | _ => s)

/-! Messages (R99). -/

/-- `stair.msg [ra], rb, t`: 64 bytes to the core that rb[7:0] names, behind the thread's far stores. -/
def execStairMsg (x : Issue) (ra rb : Fin 32) (tag : Fin 16) (s : State) : Host.Outcome State Fault Refusal :=
  .next (s.wzOp x .system false tag.val [ra.val, rb.val] (wzBuf x ra.val 64 false) fun s =>
    let m := s.localBytes x.core.val (s.wzG x ra.val) 64
    let dst := s.wzG x rb.val % 256
    let r := (s.settle_ x.core.val x.thread.val).deliver x.core.val dst m
    (r.1, 0, r.2))

/-- `stair.rcv rd, [ra]`: the oldest message of the core's receive ring, and rd := 1; rd := 0 when the ring is empty. -/
def execStairRcv (x : Issue) (rd ra : Fin 32) (s : State) : Host.Outcome State Fault Refusal :=
  .next (s.wzIssue x { group := .system, srcs := [ra.val], dsts := [rd.val] }
    (fun s => if (s.wzCore x.core.val).ring = [] then none else wzBuf x ra.val 64 true s) fun s =>
    let c := x.core.val
    let t := x.thread.val
    let done := fun (s : State) (v : Word) => s.setThr c t ((s.thr c t).setG rd.val v).next
    match s.takeMessage c with
    | none => done s 0
    | some (m, s') => done (s'.setLocal c (s.wzG x ra.val) m) 1)

end Sys2Proof.Machine
end

