-- ==== Sys2Proof/Machine/Dispatch.lean ====
section
/-! DEFINITION. One arm per command (assumption log 1). -/

namespace Sys2Proof.Machine

def exec (i : Instr) (s : State) : Host.Outcome State Fault Refusal :=
  match i with
  | .registerWrite master addr size value => Sys2Proof.Machine.execRegisterWrite master addr size value s
  | .stuckTread scope kind inst tread => Sys2Proof.Machine.execStuckTread scope kind inst tread s
  | .treadError scope kind inst parity packet => Sys2Proof.Machine.execTreadError scope kind inst parity packet s
  | .flightFenced scope kind inst => Sys2Proof.Machine.execFlightFenced scope kind inst s
  | .drainTimeout scope kind inst => Sys2Proof.Machine.execDrainTimeout scope kind inst s
  | .hallIsolation h => Sys2Proof.Machine.execHallIsolation h s
  | .quarDone h => Sys2Proof.Machine.execQuarDone h s
  | .quarTimeout h => Sys2Proof.Machine.execQuarTimeout h s
  | .stairFault src dst => Sys2Proof.Machine.execStairFault src dst s
  | .safeHoldExpire => Sys2Proof.Machine.execSafeHoldExpire s
  | .landingAccept h => Sys2Proof.Machine.execLandingAccept h s
  | .mapClassify x => Sys2Proof.Machine.execMapClassify x s
  | .admissionDecide h src => Sys2Proof.Machine.execAdmissionDecide h src s
  | .admissionRetry h => Sys2Proof.Machine.execAdmissionRetry h s
  | .stairCross src dst => Sys2Proof.Machine.execStairCross src dst s
  | .queueLink h src => Sys2Proof.Machine.execQueueLink h src s
  | .portSchedule p => Sys2Proof.Machine.execPortSchedule p s
  | .packetDepart p => Sys2Proof.Machine.execPacketDepart p s
  | .localPacketEnter h src => Sys2Proof.Machine.execLocalPacketEnter h src s
  | .landingCellClaim n vc => Sys2Proof.Machine.execLandingCellClaim n vc s
  | .fwCellWithhold h => Sys2Proof.Machine.execFwCellWithhold h s
  | .epochHoldRelease h => Sys2Proof.Machine.execEpochHoldRelease h s
  | .epochHoldTimeout h => Sys2Proof.Machine.execEpochHoldTimeout h s
  | .lockstepEpochDecide h => Sys2Proof.Machine.execLockstepEpochDecide h s
  | .lockstepSwitch h => Sys2Proof.Machine.execLockstepSwitch h s
  | .tbHoldover => Sys2Proof.Machine.execTbHoldover s
  | .tbRelock => Sys2Proof.Machine.execTbRelock s
  | .riserUpdate rail load cycle ack => Sys2Proof.Machine.execRiserUpdate rail load cycle ack s
  | .auditSweepEnd errors => Sys2Proof.Machine.execAuditSweepEnd errors s
  | .add x rd ra rb => Sys2Proof.Machine.execAdd x rd ra rb s
  | .sub x rd ra rb => Sys2Proof.Machine.execSub x rd ra rb s
  | .and x rd ra rb => Sys2Proof.Machine.execAnd x rd ra rb s
  | .or x rd ra rb => Sys2Proof.Machine.execOr x rd ra rb s
  | .xor x rd ra rb => Sys2Proof.Machine.execXor x rd ra rb s
  | .sll x rd ra rb => Sys2Proof.Machine.execSll x rd ra rb s
  | .srl x rd ra rb => Sys2Proof.Machine.execSrl x rd ra rb s
  | .sra x rd ra rb => Sys2Proof.Machine.execSra x rd ra rb s
  | .mul x rd ra rb => Sys2Proof.Machine.execMul x rd ra rb s
  | .mulhu x rd ra rb => Sys2Proof.Machine.execMulhu x rd ra rb s
  | .divu x rd ra rb => Sys2Proof.Machine.execDivu x rd ra rb s
  | .remu x rd ra rb => Sys2Proof.Machine.execRemu x rd ra rb s
  | .div x rd ra rb => Sys2Proof.Machine.execDiv x rd ra rb s
  | .rem x rd ra rb => Sys2Proof.Machine.execRem x rd ra rb s
  | .min x rd ra rb => Sys2Proof.Machine.execMin x rd ra rb s
  | .max x rd ra rb => Sys2Proof.Machine.execMax x rd ra rb s
  | .minu x rd ra rb => Sys2Proof.Machine.execMinu x rd ra rb s
  | .maxu x rd ra rb => Sys2Proof.Machine.execMaxu x rd ra rb s
  | .clz x rd ra => Sys2Proof.Machine.execClz x rd ra s
  | .popc x rd ra => Sys2Proof.Machine.execPopc x rd ra s
  | .bswap x rd ra => Sys2Proof.Machine.execBswap x rd ra s
  | .addi x rd ra imm => Sys2Proof.Machine.execAddi x rd ra imm s
  | .andi x rd ra imm => Sys2Proof.Machine.execAndi x rd ra imm s
  | .ori x rd ra imm => Sys2Proof.Machine.execOri x rd ra imm s
  | .xori x rd ra imm => Sys2Proof.Machine.execXori x rd ra imm s
  | .slli x rd ra amount => Sys2Proof.Machine.execSlli x rd ra amount s
  | .srli x rd ra amount => Sys2Proof.Machine.execSrli x rd ra amount s
  | .srai x rd ra amount => Sys2Proof.Machine.execSrai x rd ra amount s
  | .movi x rd imm => Sys2Proof.Machine.execMovi x rd imm s
  | .movk x rd imm => Sys2Proof.Machine.execMovk x rd imm s
  | .cmp x cc pd ra rb => Sys2Proof.Machine.execCmp x cc pd ra rb s
  | .cmpi x cc pd ra imm => Sys2Proof.Machine.execCmpi x cc pd ra imm s
  | .pand x pd pa pb => Sys2Proof.Machine.execPand x pd pa pb s
  | .por x pd pa pb => Sys2Proof.Machine.execPor x pd pa pb s
  | .pxor x pd pa pb => Sys2Proof.Machine.execPxor x pd pa pb s
  | .pandn x pd pa pb => Sys2Proof.Machine.execPandn x pd pa pb s
  | .pnot x pd pa => Sys2Proof.Machine.execPnot x pd pa s
  | .ptst x pd ga => Sys2Proof.Machine.execPtst x pd ga s
  | .ldB x rd ra imm => Sys2Proof.Machine.execLdB x rd ra imm s
  | .ldH x rd ra imm => Sys2Proof.Machine.execLdH x rd ra imm s
  | .ldW x rd ra imm => Sys2Proof.Machine.execLdW x rd ra imm s
  | .ldD x rd ra imm => Sys2Proof.Machine.execLdD x rd ra imm s
  | .ldBu x rd ra imm => Sys2Proof.Machine.execLdBu x rd ra imm s
  | .ldHu x rd ra imm => Sys2Proof.Machine.execLdHu x rd ra imm s
  | .ldWu x rd ra imm => Sys2Proof.Machine.execLdWu x rd ra imm s
  | .stB x rs ra imm => Sys2Proof.Machine.execStB x rs ra imm s
  | .stH x rs ra imm => Sys2Proof.Machine.execStH x rs ra imm s
  | .stW x rs ra imm => Sys2Proof.Machine.execStW x rs ra imm s
  | .stD x rs ra imm => Sys2Proof.Machine.execStD x rs ra imm s
  | .ldf x size rd ra imm tag => Sys2Proof.Machine.execLdf x size rd ra imm tag s
  | .stf x size rs ra imm => Sys2Proof.Machine.execStf x size rs ra imm s
  | .amoAdd x rd ra rb tag => Sys2Proof.Machine.execAmoAdd x rd ra rb tag s
  | .amoAnd x rd ra rb tag => Sys2Proof.Machine.execAmoAnd x rd ra rb tag s
  | .amoOr x rd ra rb tag => Sys2Proof.Machine.execAmoOr x rd ra rb tag s
  | .amoXor x rd ra rb tag => Sys2Proof.Machine.execAmoXor x rd ra rb tag s
  | .amoSwap x rd ra rb tag => Sys2Proof.Machine.execAmoSwap x rd ra rb tag s
  | .amoUmin x rd ra rb tag => Sys2Proof.Machine.execAmoUmin x rd ra rb tag s
  | .amoUmax x rd ra rb tag => Sys2Proof.Machine.execAmoUmax x rd ra rb tag s
  | .amoCas x rd ra rb tag => Sys2Proof.Machine.execAmoCas x rd ra rb tag s
  | .farResponse core thread tag poison => Sys2Proof.Machine.execFarResponse core thread tag poison s
  | .farLoadTimeout core thread tag => Sys2Proof.Machine.execFarLoadTimeout core thread tag s
  | .farStoreError core thread => Sys2Proof.Machine.execFarStoreError core thread s
  | .fenceRw x => Sys2Proof.Machine.execFenceRw x s
  | .fenceW x => Sys2Proof.Machine.execFenceW x s
  | .fenceR x => Sys2Proof.Machine.execFenceR x s
  | .fenceOt x => Sys2Proof.Machine.execFenceOt x s
  | .fenceIo x => Sys2Proof.Machine.execFenceIo x s
  | .br x disp => Sys2Proof.Machine.execBr x disp s
  | .call x disp => Sys2Proof.Machine.execCall x disp s
  | .jr x ra => Sys2Proof.Machine.execJr x ra s
  | .jalr x rd ra => Sys2Proof.Machine.execJalr x rd ra s
  | .sysRd x g num => Sys2Proof.Machine.execSysRd x g num s
  | .sysWr x num g => Sys2Proof.Machine.execSysWr x num g s
  | .sysEret x => Sys2Proof.Machine.execSysEret x s
  | .sysTrap x num => Sys2Proof.Machine.execSysTrap x num s
  | .sysBrk x num => Sys2Proof.Machine.execSysBrk x num s
  | .sysYield x => Sys2Proof.Machine.execSysYield x s
  | .sysHalt x => Sys2Proof.Machine.execSysHalt x s
  | .interruptEntry core thread => Sys2Proof.Machine.execInterruptEntry core thread s
  | .otWait x rd tag => Sys2Proof.Machine.execOtWait x rd tag s
  | .otWaitany x rd => Sys2Proof.Machine.execOtWaitany x rd s
  | .otPoll x rd tag => Sys2Proof.Machine.execOtPoll x rd tag s
  | .otMask x rd => Sys2Proof.Machine.execOtMask x rd s
  | .bellRing x ra rb => Sys2Proof.Machine.execBellRing x ra rb s
  | .bellTake x rd => Sys2Proof.Machine.execBellTake x rd s
  | .bellEoi x ra => Sys2Proof.Machine.execBellEoi x ra s
  | .bellWait x => Sys2Proof.Machine.execBellWait x s
  | .tblIns x ra rb tag => Sys2Proof.Machine.execTblIns x ra rb tag s
  | .tblDel x ra rb tag => Sys2Proof.Machine.execTblDel x ra rb tag s
  | .tblFind x ra rb tag => Sys2Proof.Machine.execTblFind x ra rb tag s
  | .tblCnt x ra rb tag => Sys2Proof.Machine.execTblCnt x ra rb tag s
  | .tblCntc x ra rb tag => Sys2Proof.Machine.execTblCntc x ra rb tag s
  | .tblMtr x ra rb tag => Sys2Proof.Machine.execTblMtr x ra rb tag s
  | .epochPub x ra tag => Sys2Proof.Machine.execEpochPub x ra tag s
  | .epochDrain x ra rb tag => Sys2Proof.Machine.execEpochDrain x ra rb tag s
  | .epochCur x rd ra => Sys2Proof.Machine.execEpochCur x rd ra s
  | .qPop x ra rb tag => Sys2Proof.Machine.execQPop x ra rb tag s
  | .qPush x ra rb tag => Sys2Proof.Machine.execQPush x ra rb tag s
  | .qDrop x ra tag => Sys2Proof.Machine.execQDrop x ra tag s
  | .qDepth x rd rb => Sys2Proof.Machine.execQDepth x rd rb s
  | .schedWr x ra rb tag => Sys2Proof.Machine.execSchedWr x ra rb tag s
  | .schedRd x ra rb tag => Sys2Proof.Machine.execSchedRd x ra rb tag s
  | .schedCommit x ra tag => Sys2Proof.Machine.execSchedCommit x ra tag s
  | .schedCommitApply p => Sys2Proof.Machine.execSchedCommitApply p s
  | .ledgAudit x ra tag => Sys2Proof.Machine.execLedgAudit x ra tag s
  | .ledgRd x rd ra rb => Sys2Proof.Machine.execLedgRd x rd ra rb s
  | .dmaCp x ra tag => Sys2Proof.Machine.execDmaCp x ra tag s
  | .dmaChain x ra tag => Sys2Proof.Machine.execDmaChain x ra tag s
  | .dmaComplete core thread tag poison => Sys2Proof.Machine.execDmaComplete core thread tag poison s
  | .stairMsg x ra rb tag => Sys2Proof.Machine.execStairMsg x ra rb tag s
  | .stairRcv x rd ra => Sys2Proof.Machine.execStairRcv x rd ra s
  | .pwrReq x ra tag => Sys2Proof.Machine.execPwrReq x ra tag s
  | .ppCmdOff x ra rb tag => Sys2Proof.Machine.execPpCmdOff x ra rb tag s
  | .ppCmdOn x ra rb tag => Sys2Proof.Machine.execPpCmdOn x ra rb tag s
  | .ppCmdDischarge x ra rb tag => Sys2Proof.Machine.execPpCmdDischarge x ra rb tag s
  | .ppCmdClear x ra rb tag => Sys2Proof.Machine.execPpCmdClear x ra rb tag s
  | .pwrAdc x ra tag aux => Sys2Proof.Machine.execPwrAdc x ra tag aux s
  | .pwrPdtx x ra rb tag => Sys2Proof.Machine.execPwrPdtx x ra rb tag s
  | .pwrPdrx x ra rb tag => Sys2Proof.Machine.execPwrPdrx x ra rb tag s
  | .pwrBudget x ra rb tag => Sys2Proof.Machine.execPwrBudget x ra rb tag s
  | .keyGen x ra rb tag health => Sys2Proof.Machine.execKeyGen x ra rb tag health s
  | .keyDerive x ra rb tag => Sys2Proof.Machine.execKeyDerive x ra rb tag s
  | .keyRetire x ra tag => Sys2Proof.Machine.execKeyRetire x ra tag s
  | .keyWrap x ra rb tag => Sys2Proof.Machine.execKeyWrap x ra rb tag s
  | .keyUnwrap x ra rb tag => Sys2Proof.Machine.execKeyUnwrap x ra rb tag s
  | .keyZero x tag => Sys2Proof.Machine.execKeyZero x tag s
  | .keyPub x ra rb tag => Sys2Proof.Machine.execKeyPub x ra rb tag s
  | .aesGcme x ra tag => Sys2Proof.Machine.execAesGcme x ra tag s
  | .aesGcmd x ra tag => Sys2Proof.Machine.execAesGcmd x ra tag s
  | .sha384 x ra tag => Sys2Proof.Machine.execSha384 x ra tag s
  | .shaHmac x ra tag => Sys2Proof.Machine.execShaHmac x ra tag s
  | .eccSign x ra tag => Sys2Proof.Machine.execEccSign x ra tag s
  | .eccVfy x ra tag => Sys2Proof.Machine.execEccVfy x ra tag s
  | .eccEcdh x ra tag => Sys2Proof.Machine.execEccEcdh x ra tag s
  | .wardenOpComplete tag burnt => Sys2Proof.Machine.execWardenOpComplete tag burnt s
  | .usherResetSet u => Sys2Proof.Machine.execUsherResetSet u s
  | .usherResetDone u => Sys2Proof.Machine.execUsherResetDone u s
  | .usherResetClear u => Sys2Proof.Machine.execUsherResetClear u s
  | .usherHaltSet u => Sys2Proof.Machine.execUsherHaltSet u s
  | .usherHaltClear u => Sys2Proof.Machine.execUsherHaltClear u s
  | .bootLoadGo flash src => Sys2Proof.Machine.execBootLoadGo flash src s
  | .imageLoadDone flash => Sys2Proof.Machine.execImageLoadDone flash s
  | .quadPersonalityWrite q value => Sys2Proof.Machine.execQuadPersonalityWrite q value s
  | .quadReady q => Sys2Proof.Machine.execQuadReady q s
  | .refclkLoss h => Sys2Proof.Machine.execRefclkLoss h s
  | .refclkReturn h => Sys2Proof.Machine.execRefclkReturn h s
  | .laneEnable n => Sys2Proof.Machine.execLaneEnable n s
  | .laneDisable n => Sys2Proof.Machine.execLaneDisable n s
  | .laneTxeqWrite n value => Sys2Proof.Machine.execLaneTxeqWrite n value s
  | .landingMarkerSend n tap up ready => Sys2Proof.Machine.execLandingMarkerSend n tap up ready s
  | .landingMarkerReceive n m blocks => Sys2Proof.Machine.execLandingMarkerReceive n m blocks s
  | .markerLossAlign n => Sys2Proof.Machine.execMarkerLossAlign n s
  | .laneLos n => Sys2Proof.Machine.execLaneLos n s
  | .laneIdleEntry n => Sys2Proof.Machine.execLaneIdleEntry n s
  | .laneIdleExit n => Sys2Proof.Machine.execLaneIdleExit n s
  | .fastExitFail n => Sys2Proof.Machine.execFastExitFail n s
  | .laneRefreshTimeout n => Sys2Proof.Machine.execLaneRefreshTimeout n s
  | .laneTrainTimeout n => Sys2Proof.Machine.execLaneTrainTimeout n s
  | .laneTrained n found inverted => Sys2Proof.Machine.execLaneTrained n found inverted s
  | .td212CommaAlign n => Sys2Proof.Machine.execTd212CommaAlign n s
  | .td212AlignLoss n => Sys2Proof.Machine.execTd212AlignLoss n s
  | .lanePrbsCtrl n gen chk pattern lpbk => Sys2Proof.Machine.execLanePrbsCtrl n gen chk pattern lpbk s
  | .laneCounterSnap n => Sys2Proof.Machine.execLaneCounterSnap n s
  | .laneCounterClr n => Sys2Proof.Machine.execLaneCounterClr n s
  | .laneSnrUpdate n snr bits errs levels => Sys2Proof.Machine.execLaneSnrUpdate n snr bits errs levels s
  | .eyeScanStart lane ctrl => Sys2Proof.Machine.execEyeScanStart lane ctrl s
  | .eyeScanPointDone lane count => Sys2Proof.Machine.execEyeScanPointDone lane count s
  | .eyeScanAbort lane => Sys2Proof.Machine.execEyeScanAbort lane s
  | .flitSlot n => Sys2Proof.Machine.execFlitSlot n s
  | .flitReceive n block => Sys2Proof.Machine.execFlitReceive n block s
  | .ackTimer n => Sys2Proof.Machine.execAckTimer n s
  | .lossReportRepeat n => Sys2Proof.Machine.execLossReportRepeat n s
  | .retryTimerExpire n => Sys2Proof.Machine.execRetryTimerExpire n s
  | .creditAdvertiseTimer n vc => Sys2Proof.Machine.execCreditAdvertiseTimer n vc s
  | .heartbeat n => Sys2Proof.Machine.execHeartbeat n s
  | .trunkHeartbeatLoss n => Sys2Proof.Machine.execTrunkHeartbeatLoss n s
  | .trunkFlush n => Sys2Proof.Machine.execTrunkFlush n s
  | .trunkLinkCounterClr n => Sys2Proof.Machine.execTrunkLinkCounterClr n s
  | .trkVcCfgWrite n value => Sys2Proof.Machine.execTrkVcCfgWrite n value s
  | .trunkEnable n value nonce => Sys2Proof.Machine.execTrunkEnable n value nonce s
  | .trunkDisable n => Sys2Proof.Machine.execTrunkDisable n s
  | .trunkTargetWrite n target => Sys2Proof.Machine.execTrunkTargetWrite n target s
  | .paramReceive n p nonce => Sys2Proof.Machine.execParamReceive n p nonce s
  | .trunkTrainTimeout n => Sys2Proof.Machine.execTrunkTrainTimeout n s
  | .trunkTrainRetry n nonce => Sys2Proof.Machine.execTrunkTrainRetry n nonce s
  | .widthPropose n => Sys2Proof.Machine.execWidthPropose n s
  | .widthAbandon n => Sys2Proof.Machine.execWidthAbandon n s
  | .trunkRetrainRequest n => Sys2Proof.Machine.execTrunkRetrainRequest n s
  | .laneDrainIdle n => Sys2Proof.Machine.execLaneDrainIdle n s
  | .badLaneRetrain n => Sys2Proof.Machine.execBadLaneRetrain n s
  | .failoverTransferDone n => Sys2Proof.Machine.execFailoverTransferDone n s
  | .failoverCommitApply n => Sys2Proof.Machine.execFailoverCommitApply n s
  | .spliceEndReceive n vc => Sys2Proof.Machine.execSpliceEndReceive n vc s
  | .resyncReceive n mask => Sys2Proof.Machine.execResyncReceive n mask s
  | .psnGapHoldExpire n context => Sys2Proof.Machine.execPsnGapHoldExpire n context s
  | .qadmWrite h q value => Sys2Proof.Machine.execQadmWrite h q value s
  | .redProfileWrite h p c value => Sys2Proof.Machine.execRedProfileWrite h p c value s
  | .redAdapt h p => Sys2Proof.Machine.execRedAdapt h p s
  | .galleryWrite h => Sys2Proof.Machine.execGalleryWrite h s
  | .galEnable g value => Sys2Proof.Machine.execGalEnable g value s
  | .galRearm g => Sys2Proof.Machine.execGalRearm g s
  | .ethFrameReceive m rx => Sys2Proof.Machine.execEthFrameReceive m rx s
  | .ethFrameTransmit m => Sys2Proof.Machine.execEthFrameTransmit m s
  | .isoInstanceStart h sub => Sys2Proof.Machine.execIsoInstanceStart h sub s
  | .schedFoClear p => Sys2Proof.Machine.execSchedFoClear p s
  | .queueSamplePass h => Sys2Proof.Machine.execQueueSamplePass h s
  | .qsampClrPeak h => Sys2Proof.Machine.execQsampClrPeak h s
  | .tableDefine h t value => Sys2Proof.Machine.execTableDefine h t value s
  | .programStage h prog => Sys2Proof.Machine.execProgramStage h prog s
  | .programStageDone h => Sys2Proof.Machine.execProgramStageDone h s
  | .hostConfigRequest host express cap => Sys2Proof.Machine.execHostConfigRequest host express cap s
  | .bridgePosted src => Sys2Proof.Machine.execBridgePosted src s
  | .bridgeNonposted src => Sys2Proof.Machine.execBridgeNonposted src s
  | .bridgeCompletion src => Sys2Proof.Machine.execBridgeCompletion src s
  | .bridgeCompletionTimeout id => Sys2Proof.Machine.execBridgeCompletionTimeout id s
  | .prefetchExpire prt entry => Sys2Proof.Machine.execPrefetchExpire prt entry s
  | .lafClear prt mask => Sys2Proof.Machine.execLafClear prt mask s
  | .sharedEndpointRequest prt tlp => Sys2Proof.Machine.execSharedEndpointRequest prt tlp s
  | .prtOwnerChange prt value => Sys2Proof.Machine.execPrtOwnerChange prt value s
  | .prtPerstRelease prt => Sys2Proof.Machine.execPrtPerstRelease prt s
  | .prtLinkUp prt => Sys2Proof.Machine.execPrtLinkUp prt s
  | .pewakeAssert prt => Sys2Proof.Machine.execPewakeAssert prt s
  | .vfCommonConfigWrite host vf offset data => Sys2Proof.Machine.execVfCommonConfigWrite host vf offset data s
  | .vfNotifyWrite host vf q => Sys2Proof.Machine.execVfNotifyWrite host vf q s
  | .vfFlr host vf => Sys2Proof.Machine.execVfFlr host vf s
  | .alcoveCreate mbx => Sys2Proof.Machine.execAlcoveCreate mbx s
  | .alcoveQuiesce mbx => Sys2Proof.Machine.execAlcoveQuiesce mbx s
  | .alcoveReset mbx => Sys2Proof.Machine.execAlcoveReset mbx s
  | .alcoveDestroy mbx => Sys2Proof.Machine.execAlcoveDestroy mbx s
  | .alcoveFreeze mbx => Sys2Proof.Machine.execAlcoveFreeze mbx s
  | .alcoveSave mbx => Sys2Proof.Machine.execAlcoveSave mbx s
  | .alcoveRestore mbx => Sys2Proof.Machine.execAlcoveRestore mbx s
  | .alcoveThaw mbx => Sys2Proof.Machine.execAlcoveThaw mbx s
  | .alcoveDirty mbx => Sys2Proof.Machine.execAlcoveDirty mbx s
  | .alcoveQuery mbx => Sys2Proof.Machine.execAlcoveQuery mbx s
  | .alcoveQuiesceTimeout a => Sys2Proof.Machine.execAlcoveQuiesceTimeout a s
  | .alcoveXlatClose a => Sys2Proof.Machine.execAlcoveXlatClose a s
  | .alcoveInflightZero a => Sys2Proof.Machine.execAlcoveInflightZero a s
  | .dhLinkWrite n value => Sys2Proof.Machine.execDhLinkWrite n value s
  | .dhAuxStart n value host data => Sys2Proof.Machine.execDhAuxStart n value host data s
  | .dhAuxReply n reply data => Sys2Proof.Machine.execDhAuxReply n reply data s
  | .dhAuxTimeout n => Sys2Proof.Machine.execDhAuxTimeout n s
  | .irqHpd n => Sys2Proof.Machine.execIrqHpd n s
  | .unplug n => Sys2Proof.Machine.execUnplug n s
  | .plug n => Sys2Proof.Machine.execPlug n s
  | .dhTeEdge n => Sys2Proof.Machine.execDhTeEdge n s
  | .dhFrameStart n => Sys2Proof.Machine.execDhFrameStart n s
  | .teMiss n => Sys2Proof.Machine.execTeMiss n s
  | .dhCommitRequest n => Sys2Proof.Machine.execDhCommitRequest n s
  | .dhCommitWindow n => Sys2Proof.Machine.execDhCommitWindow n s
  | .dhVblank n => Sys2Proof.Machine.execDhVblank n s
  | .dhModeChange n => Sys2Proof.Machine.execDhModeChange n s
  | .dhUnderrun n => Sys2Proof.Machine.execDhUnderrun n s
  | .canvasPageOp value => Sys2Proof.Machine.execCanvasPageOp value s
  | .canvasCreate hall => Sys2Proof.Machine.execCanvasCreate hall s
  | .canvasFree hall => Sys2Proof.Machine.execCanvasFree hall s
  | .canvasRect hall => Sys2Proof.Machine.execCanvasRect hall s
  | .canvasFill hall => Sys2Proof.Machine.execCanvasFill hall s
  | .canvasCopy hall => Sys2Proof.Machine.execCanvasCopy hall s
  | .canvasIngest hall => Sys2Proof.Machine.execCanvasIngest hall s
  | .canvasFence hall => Sys2Proof.Machine.execCanvasFence hall s
  | .canvasPresent hall slot => Sys2Proof.Machine.execCanvasPresent hall slot s
  | .dpstPacket hall canvas => Sys2Proof.Machine.execDpstPacket hall canvas s
  | .dramCapacityWrite trained value => Sys2Proof.Machine.execDramCapacityWrite trained value s
  | .tdInitSend n => Sys2Proof.Machine.execTdInitSend n s
  | .tdInitReceive n frame => Sys2Proof.Machine.execTdInitReceive n frame s
  | .tdInitTimeout n => Sys2Proof.Machine.execTdInitTimeout n s
  | .tdWidthDecide n => Sys2Proof.Machine.execTdWidthDecide n s
  | .tdLinkupRetry n => Sys2Proof.Machine.execTdLinkupRetry n s
  | .tdFrameSlot n => Sys2Proof.Machine.execTdFrameSlot n s
  | .tdFrameFail n frame ended => Sys2Proof.Machine.execTdFrameFail n frame ended s
  | .tdDataReceive n frame => Sys2Proof.Machine.execTdDataReceive n frame s
  | .tdAckReceive n frame => Sys2Proof.Machine.execTdAckReceive n frame s
  | .tdNakReceive n frame => Sys2Proof.Machine.execTdNakReceive n frame s
  | .tdCreditReceive n frame => Sys2Proof.Machine.execTdCreditReceive n frame s
  | .tdNakRepeat n => Sys2Proof.Machine.execTdNakRepeat n s
  | .tdAckTimer n => Sys2Proof.Machine.execTdAckTimer n s
  | .tdRetryExpire n => Sys2Proof.Machine.execTdRetryExpire n s
  | .tdCreditTimer n => Sys2Proof.Machine.execTdCreditTimer n s
  | .tdWindowRead n t => Sys2Proof.Machine.execTdWindowRead n t s
  | .tdWindowWrite n t => Sys2Proof.Machine.execTdWindowWrite n t s
  | .tdAuxGo n => Sys2Proof.Machine.execTdAuxGo n s
  | .tdBeacon n => Sys2Proof.Machine.execTdBeacon n s
  | .usbUpAttach host pin => Sys2Proof.Machine.execUsbUpAttach host pin s
  | .usbUpDetach host => Sys2Proof.Machine.execUsbUpDetach host s
  | .usbBusReset host chirps => Sys2Proof.Machine.execUsbBusReset host chirps s
  | .usbHubRequest host dev setup => Sys2Proof.Machine.execUsbHubRequest host dev setup s
  | .usbDnPortReset k chirp => Sys2Proof.Machine.execUsbDnPortReset k chirp s
  | .usbDnConnectChange k device => Sys2Proof.Machine.execUsbDnConnectChange k device s
  | .usbAssignWrite value => Sys2Proof.Machine.execUsbAssignWrite value s
  | .usbReassignGapEnd port => Sys2Proof.Machine.execUsbReassignGapEnd port s
  | .usbDnOvercurrent k low => Sys2Proof.Machine.execUsbDnOvercurrent k low s
  | .usbDnCycle k => Sys2Proof.Machine.execUsbDnCycle k s
  | .usbDnCycleEnd k => Sys2Proof.Machine.execUsbDnCycleEnd k s
  | .usbVendorSetup host setup => Sys2Proof.Machine.execUsbVendorSetup host setup s
  | .usbMgmtDoneAck host xfer => Sys2Proof.Machine.execUsbMgmtDoneAck host xfer s
  | .usbMgmtDoneStall host xfer => Sys2Proof.Machine.execUsbMgmtDoneStall host xfer s
  | .usbMgmtLate host => Sys2Proof.Machine.execUsbMgmtLate host s
  | .usbSuspend host => Sys2Proof.Machine.execUsbSuspend host s
  | .usbRemoteWake k => Sys2Proof.Machine.execUsbRemoteWake k s
  | .usbHostResume host => Sys2Proof.Machine.execUsbHostResume host s
  | .usbAudioOwnerChange owner => Sys2Proof.Machine.execUsbAudioOwnerChange owner s
  | .usbAudioSetRate host freq => Sys2Proof.Machine.execUsbAudioSetRate host freq s
  | .usbSof host missing => Sys2Proof.Machine.execUsbSof host missing s
  | .usbAudioPacket host packet => Sys2Proof.Machine.execUsbAudioPacket host packet s
  | .tcAttach tc attach cc orient => Sys2Proof.Machine.execTcAttach tc attach cc orient s
  | .tcDetach tc => Sys2Proof.Machine.execTcDetach tc s
  | .pdMessageReceive tc sop msg => Sys2Proof.Machine.execPdMessageReceive tc sop msg s
  | .pdTxRetry tc => Sys2Proof.Machine.execPdTxRetry tc s
  | .pdHardResetReceive tc => Sys2Proof.Machine.execPdHardResetReceive tc s
  | .pdKeepaliveExpire tc => Sys2Proof.Machine.execPdKeepaliveExpire tc s
  | .pdKeepaliveSend tc => Sys2Proof.Machine.execPdKeepaliveSend tc s
  | .pdFrsReceive tc => Sys2Proof.Machine.execPdFrsReceive tc s
  | .newelAdcScan codes => Sys2Proof.Machine.execNewelAdcScan codes s
  | .ppShort p => Sys2Proof.Machine.execPpShort p s
  | .ppFaultTimer p => Sys2Proof.Machine.execPpFaultTimer p s
  | .ppPrechargeTimeout p => Sys2Proof.Machine.execPpPrechargeTimeout p s
  | .ppGateTimeout p => Sys2Proof.Machine.execPpGateTimeout p s
  | .ppDischargeDone p => Sys2Proof.Machine.execPpDischargeDone p s
  | .ppDischargeFail p => Sys2Proof.Machine.execPpDischargeFail p s
  | .ppCooldownEnd p => Sys2Proof.Machine.execPpCooldownEnd p s
  | .ppAttemptsReset p => Sys2Proof.Machine.execPpAttemptsReset p s
  | .pfailAccept => Sys2Proof.Machine.execPfailAccept s
  | .powerTotalWrite value => Sys2Proof.Machine.execPowerTotalWrite value s
  | .wardenInfo => Sys2Proof.Machine.execWardenInfo s
  | .linkSetup n slot sends secret => Sys2Proof.Machine.execLinkSetup n slot sends secret s
  | .linkRekey n slot sends secret => Sys2Proof.Machine.execLinkRekey n slot sends secret s
  | .linkClear n => Sys2Proof.Machine.execLinkClear n s
  | .seal slot ident gen => Sys2Proof.Machine.execSeal slot ident gen s
  | .unseal slot blob => Sys2Proof.Machine.execUnseal slot blob s
  | .sign digest => Sys2Proof.Machine.execSign digest s
  | .svnAdvance count => Sys2Proof.Machine.execSvnAdvance count s
  | .zeroize => Sys2Proof.Machine.execZeroize s
  | .secTunnelReceive n payload => Sys2Proof.Machine.execSecTunnelReceive n payload s
  | .secKeyInstall n value => Sys2Proof.Machine.execSecKeyInstall n value s
  | .secKeyClear n value => Sys2Proof.Machine.execSecKeyClear n value s
  | .fuseSvnBlow => Sys2Proof.Machine.execFuseSvnBlow s
  | .fuseBlowDone one => Sys2Proof.Machine.execFuseBlowDone one s
  | .tamperAlarm alarm gap => Sys2Proof.Machine.execTamperAlarm alarm gap s
  | .wardenClearDone => Sys2Proof.Machine.execWardenClearDone s
  | .bellDoorbell bell master value size => Sys2Proof.Machine.execBellDoorbell bell master value size s
  | .bellEoiStore core thread bell value => Sys2Proof.Machine.execBellEoiStore core thread bell value s
  | .bellHostmsg bell master value => Sys2Proof.Machine.execBellHostmsg bell master value s
  | .pwrAnswerWrite c value => Sys2Proof.Machine.execPwrAnswerWrite c value s
  | .pwrPollDelay unit => Sys2Proof.Machine.execPwrPollDelay unit s
  | .pwrMsgRetry c => Sys2Proof.Machine.execPwrMsgRetry c s
  | .pwrAnswerTimeout c => Sys2Proof.Machine.execPwrAnswerTimeout c s
  | .pwrEntryTimeout => Sys2Proof.Machine.execPwrEntryTimeout s
  | .pwrCommit => Sys2Proof.Machine.execPwrCommit s
  | .pwrWake sources gap avs => Sys2Proof.Machine.execPwrWake sources gap avs s
  | .wakeFromOff => Sys2Proof.Machine.execWakeFromOff s
  | .monCtrlWrite m value => Sys2Proof.Machine.execMonCtrlWrite m value s
  | .monSnap m => Sys2Proof.Machine.execMonSnap m s
  | .monClr m => Sys2Proof.Machine.execMonClr m s
  | .monPeriodSample m => Sys2Proof.Machine.execMonPeriodSample m s
  | .flightFence scope kind inst jtag => Sys2Proof.Machine.execFlightFence scope kind inst jtag s
  | .flightUnfence scope kind inst => Sys2Proof.Machine.execFlightUnfence scope kind inst s
  | .flightReset scope kind inst => Sys2Proof.Machine.execFlightReset scope kind inst s
  | .flightResetDone scope kind inst => Sys2Proof.Machine.execFlightResetDone scope kind inst s
  | .hallQuarCmd h jtag => Sys2Proof.Machine.execHallQuarCmd h jtag s
  | .stairOpen h => Sys2Proof.Machine.execStairOpen h s
  | .hallReset h => Sys2Proof.Machine.execHallReset h s
  | .hallResetDone h => Sys2Proof.Machine.execHallResetDone h s
  | .safeEnterCmd jtag => Sys2Proof.Machine.execSafeEnterCmd jtag s
  | .chipResetCmd => Sys2Proof.Machine.execChipResetCmd s
  | .wdogKick value => Sys2Proof.Machine.execWdogKick value s
  | .wdogKickLapse => Sys2Proof.Machine.execWdogKickLapse s
  | .wdogExpire => Sys2Proof.Machine.execWdogExpire s
  | .crashRead offset => Sys2Proof.Machine.execCrashRead offset s
  | .crashrd => Sys2Proof.Machine.execCrashrd s
  | .crashClear master => Sys2Proof.Machine.execCrashClear master s
  | .sidebandMailboxGo cmd => Sys2Proof.Machine.execSidebandMailboxGo cmd s
  | .vddAonUp => Sys2Proof.Machine.execVddAonUp s
  | .powerOnReset straps alarms testEn => Sys2Proof.Machine.execPowerOnReset straps alarms testEn s
  | .resetNAssert ns straps => Sys2Proof.Machine.execResetNAssert ns straps s
  | .bootRomStart flash => Sys2Proof.Machine.execBootRomStart flash s
  | .imageWrite offset data => Sys2Proof.Machine.execImageWrite offset data s
  | .imageGo => Sys2Proof.Machine.execImageGo s
  | .sidebandTimeout => Sys2Proof.Machine.execSidebandTimeout s
  | .tempUpdate temp => Sys2Proof.Machine.execTempUpdate temp s
  | .laneSignalDetect n => Sys2Proof.Machine.execLaneSignalDetect n s
  | .prbsChkLock n => Sys2Proof.Machine.execPrbsChkLock n s
  | .prbsChkLoss n bits wrong => Sys2Proof.Machine.execPrbsChkLoss n bits wrong s
  | .registerHalfRead master addr => Sys2Proof.Machine.execRegisterHalfRead master addr s
  | .usbHostTransaction host txn => Sys2Proof.Machine.execUsbHostTransaction host txn s
  | .audioCodecFrame sdi => Sys2Proof.Machine.execAudioCodecFrame sdi s
  | .vconnOvercurrent tc => Sys2Proof.Machine.execVconnOvercurrent tc s
  | .pdAmsStartDelay tc => Sys2Proof.Machine.execPdAmsStartDelay tc s
  | .pf0MailboxGo h => Sys2Proof.Machine.execPf0MailboxGo h s
  | .msixUnmask host fn vector => Sys2Proof.Machine.execMsixUnmask host fn vector s
  | .prtLinkDown prt => Sys2Proof.Machine.execPrtLinkDown prt s
  | .porNFall => Sys2Proof.Machine.execPorNFall s
  | .jtagHalt core thread => Sys2Proof.Machine.execJtagHalt core thread s
  | .jtagRelease core thread => Sys2Proof.Machine.execJtagRelease core thread s
  | .jtagChipReset => Sys2Proof.Machine.execJtagChipReset s

end Sys2Proof.Machine
end

