-- ==== Sys2Proof/Machine/Tick.lean ====
section
/-! DEFINITION. What time alone does: one nanosecond of the timebase, and far stores on their way (02 R44; 03 R87). -/

namespace Sys2Proof.Machine

/-- The timebase counts one nanosecond; it does not run in DEEP and OFF (02 R44; 17 *Power states*). -/
def State.count (s : State) : State := if s.fld F.pwrStatusState < 3 then { s with tb := s.tb + 1 } else s

/-- Every thread's oldest posted far store is performed (03 R87). -/
def State.perform (s : State) : State :=
  (List.range 11).foldl (fun (s : State) c => (List.range (coreThreads c)).foldl (fun (s : State) t => s.performOne c t) s) s

/-- What happens in one nanosecond in which no command waits (assumption log 2). -/
def State.tick (s : State) : State := s.count.perform

end Sys2Proof.Machine
end

