-- ==== Sys2Proof/Safety.lean ====
section
/-! DEFINITION. The terms the statements are made in: what a command does, what it leaves alone, when an instruction issues,
and the canonical form of the state. -/

namespace Sys2Proof.Machine

/-- Command `c` answers a next state of which `P` holds. -/
def Does (c : Instr) (s : State) (P : State → Prop) : Prop := ∃ t, exec c s = .next t ∧ P t

/-! What is left alone. -/

/-- Every byte of addressed memory reads as before. -/
def SameMemory (s t : State) : Prop := ∀ a, t.byte a = s.byte a

/-- Every register of the register file but those `p` picks reads as before. -/
def SameRegsBut (p : RegName → Nat → Nat → Prop) (s t : State) : Prop := ∀ n i j, ¬p n i j → t.reg n i j = s.reg n i j

/-- One register alone may differ, in the bits of field `f`: every other register, and every other bit of its own, stays. -/
def OnlyField (f : Fld) (i j : Nat) (s t : State) : Prop :=
  SameRegsBut (fun n a b => n = f.reg ∧ a = i ∧ b = j) s t ∧
    ∀ g : Fld, g.reg = f.reg → g.lo ≤ g.hi → g.hi < 64 → (g.hi < f.lo ∨ f.hi < g.lo) → t.fld g i j = s.fld g i j

/-- Registers alone may differ. -/
def OnlyRegs (s t : State) : Prop := t = { s with regs := t.regs }

/-- Registers and timers alone may differ. -/
def OnlyRegsTimers (s t : State) : Prop := t = { s with regs := t.regs, timers := t.timers }

/-! Waizefy instructions. -/

/-- The thread an instruction belongs to. -/
def State.at_ (s : State) (x : Issue) : Thread := s.thr x.core.val x.thread.val

/-- Every check an instruction passes before its own effect (03 R71, R72, R76 to R79, R82, R103): its thread is ready, its
word can be fetched and has no field that must be 0 and is not, its core has the group, its predicate is true, its registers
are not locked, it raises no fault of its own and, with a tag, an entry is free. -/
def State.issues (s : State) (x : Issue) (q : WzReq) (chk : State → WzCheck) : Bool :=
  let c := x.core.val
  let t := x.thread.val
  let th := s.at_ x
  s.canIssue c t && !th.asyncDue && s.fetchOk c th.pc && groupOk q.group c && !tagIllegal c q.tag && !q.illegal && !x.unused &&
    th.p x.pred.val && !(q.priv && th.task) &&
    !(s.wzCore c).ot.any (fun e => e.locksFor t q) && !(s.wzCore c).ot.any (fun e => e.faultsFor t q) &&
    (chk s).isNone &&
    (match q.tag with
      | none => true
      | some g => (s.otFind c t g).isNone && decide ((s.wzCore c).ot.length < otSize c))

/-- Everything outside thread `x` stays as it was, but that its core's next turn is that of the thread after it (03 R72). -/
def OnlyThread (x : Issue) (s t : State) : Prop :=
  t = { s with threads := t.threads, turns := (s.tookTurn x.core.val x.thread.val).turns } ∧
    ∀ k, k ≠ x.core.val * 8 + x.thread.val → unitGet {} t.threads k = unitGet {} s.threads k

/-- The thread goes on to its next instruction, and of its registers only `rd` may differ; everything outside the thread
stays as it was. -/
def OnlyGpr (x : Issue) (rd : Nat) (s t : State) : Prop :=
  OnlyThread x s t ∧ (∀ r, r ≠ rd → (t.at_ x).g r = (s.at_ x).g r) ∧
    t.at_ x = { s.at_ x with gpr := (t.at_ x).gpr, pc := (s.at_ x).pc + 4 }

/-- The thread goes on, and of its predicates only `pd` may differ; everything outside the thread stays as it was. -/
def OnlyPred (x : Issue) (pd : Nat) (s t : State) : Prop :=
  OnlyThread x s t ∧ (∀ i, i < 8 → i ≠ pd → (t.at_ x).p i = (s.at_ x).p i) ∧
    t.at_ x = { s.at_ x with preds := (t.at_ x).preds, pc := (s.at_ x).pc + 4 }

/-- An instruction that writes `v` to register `rd` (03 R74: a write of g0 is discarded) and changes nothing else but the
program counter. -/
def Writes (c : Instr) (x : Issue) (rd : Fin 32) (v : Word) (s : State) : Prop :=
  Does c s fun t => (t.at_ x).g rd.val = (if rd = 0 then 0 else v) ∧ OnlyGpr x rd.val s t ∧ SameMemory s t

/-- An instruction that writes `v` to predicate `pd` (a write of p0 is discarded). -/
def Decides (c : Instr) (x : Issue) (pd : Fin 8) (v : Bool) (s : State) : Prop :=
  Does c s fun t => (t.at_ x).p pd.val = (if pd = 0 then true else v) ∧ OnlyPred x pd.val s t ∧ SameMemory s t

/-- A little-endian number of `n` bytes at local address `a` of core `c` (00 R5). -/
def State.localNat (s : State) (c a n : Nat) : Nat := leNat ((List.range n).map (fun i => s.byte (localBase c + a + i)))

/-- An operation-table entry of the thread with this tag has completed with this status and RESULT (03 R78, R80). -/
def Completed (x : Issue) (tag status result : Nat) (t : State) : Prop :=
  ∃ e, t.otFind x.core.val x.thread.val tag = some e ∧ e.done = true ∧ e.status = status ∧ e.result = result

/-- An operation-table entry of the thread with this tag has not completed. -/
def InFlight (x : Issue) (tag : Nat) (t : State) : Prop :=
  ∃ e, t.otFind x.core.val x.thread.val tag = some e ∧ e.done = false

/-- The thread stands at the next instruction and is otherwise as it was. -/
def WentOn (x : Issue) (s t : State) : Prop := t.at_ x = { s.at_ x with pc := (s.at_ x).pc + 4 }

/-- The command writes local memory of the thread's core: `v` at local address `a`, and every other byte stays. -/
def Stores (x : Issue) (a : Nat) (v : List Byte) (s t : State) : Prop :=
  ∀ b, t.byte b = if localBase x.core.val + a ≤ b ∧ b < localBase x.core.val + a + v.length
    then v.getD (b - (localBase x.core.val + a)) 0 else s.byte b

/-! Containment and the rest of the hub. -/

/-- Registers whose write does more than store their fields, or which a value the model draws stands in. -/
def specialRegs : List RegName :=
  [.laneCtrl, .lanePrbs, .laneTxeq, .laneRxeq, .laneEyeCtrl, .quadPersonality, .quadPll, .trkLinkCtrl, .trkVcCfg, .trkCfg, .trkWidth,
    .trkTdCtrl, .trkSecKey, .hallQadm, .hallRedC, .hallRedCtrl, .hallBufCtrl, .galCtrl, .hallTblDef, .hallTblExt,
    .hallProgStage, .hallUshq, .hallSampleCtrl, .spFo, .prtLafCtrl, .prtBridge, .hostCfg, .alcoveCfg, .alcoveInflight, .dhLink,
    .dhAuxCmd, .canvasPoolBase, .canvasPoolPages, .canvasPageOp, .dramCfg, .usherCtl, .usbCtrl, .usbAssign, .usbAudio,
    .upCtrl, .upMgmtDone, .dnCtrl, .dnStatus, .tcCtrl, .powerTotal, .fuseSvnCtrl, .bellSrc, .bellDoorbell, .bellEoi,
    .bellHostmsg, .monCtrl, .hallRiserCtrl, .svcRiserCtrl, .hallFlightCmd, .svcFlightCmd, .chipHallCtl, .chipHallReset,
    .pwrAnswer, .newelWdog, .newelVceil, .newelSafe, .bootLoad]

/-- Hosts, bridges, Alcoves, displays, the Canvas, USB, the timebase and the queue of commands are as they were. -/
def SameDevices (s t : State) : Prop :=
  t.hosts = s.hosts ∧ t.prts = s.prts ∧ t.mailboxes = s.mailboxes ∧ t.alcoves = s.alcoves ∧ t.bridge = s.bridge ∧
    t.reqs = s.reqs ∧ t.heads = s.heads ∧ t.canvas = s.canvas ∧ t.usb = s.usb ∧ t.tb = s.tb ∧ t.pending = s.pending

/-- One error record `e` is in its scope's ring, at the place WR names, and every other byte of memory is as it was
(18 R413). -/
def Logged (e : ErrInfo) (s t : State) : Prop :=
  t.ringCount e.scope = s.ringCount e.scope + 1 ∧ t.ringWr e.scope = (s.ringWr e.scope + 1) % 65536 ∧
    ∀ a, t.byte a =
      (let at_ := ringBase e.scope + 32 * (s.ringWr e.scope % 64)
       if at_ ≤ a ∧ a < at_ + 32 then (s.errRecord e).getD (a - at_) 0 else s.byte a)

/-- The chip is in SAFE for a fault of class `cls` that came first (18 R419, R421): cause, hold, and the crash record. -/
def EntersSafe (cls : Nat) (s t : State) : Prop :=
  t.chip.safe = some s.tb ∧ t.fld F.newelSafeInSafe = 1 ∧ t.fld F.newelSafeCause = cls ∧
    t.deadline .safeHold = some (s.tb + (if cls = 14 then 0 else ms (s.fld F.newelSafeHold))) ∧
    (s.byte (crashBase + 4) = 0 → t.byte (crashBase + 4) = 1 ∧ t.byte (crashBase + 5) = BitVec.ofNat 8 cls)

/-- A chip or watchdog reset with bit `cause` (19 R438): TB restarts, the ROM is to run, nothing of the cores or the queues
is left; the crash record, external DRAM, the fuses (a blow that the reset cuts short leaves its bit open, assumption log 195)
and the tamper registers outlast it, as do the commands that wait. -/
def ChipResets (cause : Nat) (s t : State) : Prop :=
  t.tb = 0 ∧ t.chip.stage = .rom ∧ t.chip.boots = s.chip.boots + 1 ∧ t.chip.safe = none ∧ t.fld F.bootStatusCause = cause ∧
    t.threads = [] ∧ t.cores = [] ∧ t.parcels = [] ∧ t.lanes = [] ∧ t.trunks = [] ∧ t.pending = s.pending ∧
    (∀ a, t.byte a = if crashCell a || dramCell a then s.byte a else 0) ∧
    (∀ n i j, n ∈ [RegName.newelTamperCtrl, .newelTamperCause, .newelTemp] → t.reg n i j = s.reg n i j) ∧
    (∀ i j, t.reg .fuseSvn i j = s.blowCut.reg .fuseSvn i j) ∧
    ∀ n i j, n ∉ [RegName.newelTamperCtrl, .newelTamperCause, .newelTemp, .fuseSvn, .ppStatus, .wdnStatus, .bootStatus] →
      t.reg n i j = regReset ⟨n, i, j⟩

/-- A packet is gone from the hub, counted in its Hall under this drop reason unless it is a Gallery copy (07 R184). -/
def Dropped (p : Parcel) (reason : Nat) (s t : State) : Prop :=
  t.parcel p.id = none ∧
    (p.copy = none → reason ≠ 15 → t.fld F.hallDropCount p.hall reason = (s.fld F.hallDropCount p.hall reason + 1) % 2 ^ 48) ∧
    SameDevices s t ∧ SameMemory s t

/-- A packet stands as `q` in its place among the packets of the hub, and nothing else changes. -/
def Moves (p q : Parcel) (s t : State) : Prop :=
  t = { s with parcels := s.parcels.map (fun x => if x.id = p.id then q else x) }

/-! The canonical form of the state. -/

/-- The register file, the half latches, memory and the timers are in the one form in which equal contents are equal
data: keys strictly rising, no entry equal to what an unlisted key reads as. -/
def State.canonical (s : State) : Bool :=
  tabWf regRank regReset s.regs && tabWf regRank (fun _ => (none : Option (BitVec 32))) s.halves && Memory.wf s.mem &&
    tabWf timerRank (fun _ => (none : Option Nat)) s.timers

end Sys2Proof.Machine
end

