-- ==== Sys2Proof/Certificates/Slice0/Obligations.lean ====
section
/-! DEFINITION. The statements about the block, for the provers (OBLIGATIONS.json). -/

open Sys2Proof Sys2Proof.Machine

/-- For every command c and state s whose queue begins with c, the step of s is exec of c on s with the queue's rest. (A step takes one command; that commands wait in a queue is the model's form, assumption log 1.) -/
def Obligations.StepRunsFrontCommand : Prop :=
  ∀ (c : Instr) (rest : List Instr) (s : State), s.pending = c :: rest → step s = exec c { s with pending := rest }

/-- When no command waits and no far store is posted, a step answers a next state that differs from s in TB alone: TB is one more in RUN, IDLE and SLEEP and the same in DEEP and OFF. (That an empty queue lets one nanosecond pass is the model's choice, assumption log 2.) -/
def Obligations.IdleStepCountsTimebase : Prop :=
  ∀ s : State, s.pending = [] → (∀ c t, (s.thr c t).posted = []) →
    step s = .next { s with tb := if s.fld F.pwrStatusState < 3 then s.tb + 1 else s.tb }

/-- For every state whose register file, half latches, memory and timers are in canonical form (keys strictly rising in their order, no entry equal to what an unlisted key reads as), every step that answers a next state answers one in canonical form. -/
def Obligations.StepKeepsCanonicalForm : Prop :=
  ∀ s t : State, s.canonical = true → step s = .next t → t.canonical = true

/-- After reset the state is in canonical form, its queue is empty, no timer runs, every register reads its table's reset value, and every byte of addressed memory reads the value assumption log 4 names (0, the model's choice). -/
def Obligations.ResetIsCanonical : Prop :=
  State.reset.canonical = true ∧ State.reset.pending = [] ∧ (∀ k i j, State.reset.deadline k i j = none) ∧
    (∀ n i j, State.reset.reg n i j = regReset ⟨n, i, j⟩) ∧ ∀ a, State.reset.byte a = 0

/-- For every ALU function with two operands and every operand value, an instruction that issues writes the result of the spec's table to rd (a write of g0 is discarded), the thread goes on to the next instruction, and every other register, all memory and every other thread stay. Shifts take rb[5:0]; divu by 0 gives all ones and remu by 0 gives ra; div gives -1 for a zero divisor and -2^63 for -2^63 / -1, rem gives ra and 0 there; otherwise div rounds toward zero. -/
def Obligations.AluResults : Prop :=
  ∀ (x : Issue) (rd ra rb : Fin 32) (s : State) (a b : Word),
    s.issues x { srcs := [ra.val, rb.val], dsts := [rd.val] } noChk = true →
    a = (s.at_ x).g ra.val → b = (s.at_ x).g rb.val →
    Writes (.add x rd ra rb) x rd (BitVec.ofNat 64 (a.toNat + b.toNat)) s ∧
    Writes (.sub x rd ra rb) x rd (BitVec.ofInt 64 (a.toInt - b.toInt)) s ∧
    Writes (.and x rd ra rb) x rd (a &&& b) s ∧
    Writes (.or x rd ra rb) x rd (a ||| b) s ∧
    Writes (.xor x rd ra rb) x rd (a ^^^ b) s ∧
    Writes (.sll x rd ra rb) x rd (BitVec.ofNat 64 (a.toNat * 2 ^ (b.toNat % 64))) s ∧
    Writes (.srl x rd ra rb) x rd (BitVec.ofNat 64 (a.toNat / 2 ^ (b.toNat % 64))) s ∧
    Writes (.sra x rd ra rb) x rd (BitVec.ofInt 64 (a.toInt / 2 ^ (b.toNat % 64))) s ∧
    Writes (.mul x rd ra rb) x rd (BitVec.ofNat 64 (a.toNat * b.toNat)) s ∧
    Writes (.mulhu x rd ra rb) x rd (BitVec.ofNat 64 (a.toNat * b.toNat / 2 ^ 64)) s ∧
    Writes (.divu x rd ra rb) x rd (if b = 0 then BitVec.allOnes 64 else BitVec.ofNat 64 (a.toNat / b.toNat)) s ∧
    Writes (.remu x rd ra rb) x rd (if b = 0 then a else BitVec.ofNat 64 (a.toNat % b.toNat)) s ∧
    Writes (.div x rd ra rb) x rd
      (if b = 0 then BitVec.ofInt 64 (-1) else BitVec.ofInt 64 (a.toInt.tdiv b.toInt)) s ∧
    Writes (.rem x rd ra rb) x rd (if b = 0 then a else BitVec.ofInt 64 (a.toInt.tmod b.toInt)) s ∧
    Writes (.min x rd ra rb) x rd (BitVec.ofInt 64 (min a.toInt b.toInt)) s ∧
    Writes (.max x rd ra rb) x rd (BitVec.ofInt 64 (max a.toInt b.toInt)) s ∧
    Writes (.minu x rd ra rb) x rd (BitVec.ofNat 64 (min a.toNat b.toNat)) s ∧
    Writes (.maxu x rd ra rb) x rd (BitVec.ofNat 64 (max a.toNat b.toNat)) s

/-- For every ra, clz writes the number n of leading zeros (64 for 0; otherwise bit 63-n is the highest one), popc writes the number of ones, and bswap writes the word whose byte i is byte 7-i of ra; nothing else changes but the program counter. -/
def Obligations.BitCountsAndByteReversal : Prop :=
  ∀ (x : Issue) (rd ra : Fin 32) (s : State) (a : Word),
    s.issues x { srcs := [ra.val], dsts := [rd.val] } noChk = true → a = (s.at_ x).g ra.val →
    (∃ n : Nat, n ≤ 64 ∧ (a = 0 → n = 64) ∧ (a ≠ 0 → a.toNat / 2 ^ (63 - n) = 1) ∧
      Writes (.clz x rd ra) x rd (BitVec.ofNat 64 n) s) ∧
    Writes (.popc x rd ra) x rd (BitVec.ofNat 64 ((List.range 64).countP (fun i => a.getLsbD i))) s ∧
    (∃ w : Word, (∀ i : Nat, i < 8 → w.toNat / 2 ^ (8 * i) % 256 = a.toNat / 2 ^ (8 * (7 - i)) % 256) ∧
      Writes (.bswap x rd ra) x rd w s)

/-- addi adds a sign-extended imm13; andi, ori and xori take a zero-extended one; slli, srli and srai shift by the amount; movi writes sext(imm18) and movk writes (rd << 18) | imm18. Each writes rd alone and goes on. -/
def Obligations.ImmediateResults : Prop :=
  ∀ (x : Issue) (rd ra : Fin 32) (imm : BitVec 13) (amount : Fin 64) (k : BitVec 18) (s : State) (a d : Word),
    a = (s.at_ x).g ra.val → d = (s.at_ x).g rd.val →
    (s.issues x { srcs := [ra.val], dsts := [rd.val] } noChk = true →
      Writes (.addi x rd ra imm) x rd (BitVec.ofInt 64 (a.toInt + imm.toInt)) s ∧
      Writes (.andi x rd ra imm) x rd (a &&& BitVec.ofNat 64 imm.toNat) s ∧
      Writes (.ori x rd ra imm) x rd (a ||| BitVec.ofNat 64 imm.toNat) s ∧
      Writes (.xori x rd ra imm) x rd (a ^^^ BitVec.ofNat 64 imm.toNat) s ∧
      Writes (.slli x rd ra amount) x rd (BitVec.ofNat 64 (a.toNat * 2 ^ amount.val)) s ∧
      Writes (.srli x rd ra amount) x rd (BitVec.ofNat 64 (a.toNat / 2 ^ amount.val)) s ∧
      Writes (.srai x rd ra amount) x rd (BitVec.ofInt 64 (a.toInt / 2 ^ amount.val)) s) ∧
    (s.issues x { srcs := [], dsts := [rd.val] } noChk = true →
      Writes (.movi x rd k) x rd (BitVec.ofInt 64 k.toInt) s) ∧
    (s.issues x { srcs := [rd.val], dsts := [rd.val] } noChk = true →
      Writes (.movk x rd k) x rd (BitVec.ofNat 64 (d.toNat * 2 ^ 18 + k.toNat)) s)

/-- cmp and cmpi set pd from ra cc operand for cc 0 eq, 1 ne, 2 lt, 3 ge (signed), 4 ltu, 5 geu, with cmpi's imm12 sign-extended; cc 6 and 7 raise ILLEGAL (the fault entry of class 0) and write no predicate; pand, por, pxor, pandn, pnot and ptst compute pa & pb, pa | pb, pa ^ pb, pa & !pb, !pa and ga not 0. p0 stays true, no other predicate or register changes, and memory stays. -/
def Obligations.ComparesAndPredicateLogic : Prop :=
  (∀ (x : Issue) (cc pd : Fin 8) (ra rb : Fin 32) (imm : BitVec 12) (s : State) (a b : Word),
    a = (s.at_ x).g ra.val → b = (s.at_ x).g rb.val → cc.val < 6 →
    (s.issues x { srcs := [ra.val, rb.val] } noChk = true →
      Decides (.cmp x cc pd ra rb) x pd
        (if cc.val = 0 then a = b else if cc.val = 1 then a ≠ b else if cc.val = 2 then a.toInt < b.toInt
         else if cc.val = 3 then b.toInt ≤ a.toInt else if cc.val = 4 then a.toNat < b.toNat else b.toNat ≤ a.toNat) s) ∧
    (s.issues x { srcs := [ra.val] } noChk = true →
      Decides (.cmpi x cc pd ra imm) x pd
        (if cc.val = 0 then a.toInt = imm.toInt else if cc.val = 1 then a.toInt ≠ imm.toInt
         else if cc.val = 2 then a.toInt < imm.toInt else if cc.val = 3 then imm.toInt ≤ a.toInt
         else if cc.val = 4 then a.toNat < (imm.signExtend 64).toNat else (imm.signExtend 64).toNat ≤ a.toNat) s)) ∧
  (∀ (x : Issue) (cc pd : Fin 8) (ra rb : Fin 32) (imm : BitVec 12) (s : State), 6 ≤ cc.val →
    s.issues x {} noChk = true →
    exec (.cmp x cc pd ra rb) s = .next ((s.tookTurn x.core.val x.thread.val).faultHere x.core.val x.thread.val 0) ∧
    exec (.cmpi x cc pd ra imm) s = .next ((s.tookTurn x.core.val x.thread.val).faultHere x.core.val x.thread.val 0)) ∧
  (∀ (x : Issue) (pd pa pb : Fin 8) (ga : Fin 32) (s : State) (p q : Bool),
    p = (s.at_ x).p pa.val → q = (s.at_ x).p pb.val →
    (s.issues x {} noChk = true →
      Decides (.pand x pd pa pb) x pd (p && q) s ∧
      Decides (.por x pd pa pb) x pd (p || q) s ∧
      Decides (.pxor x pd pa pb) x pd (p ^^ q) s ∧
      Decides (.pandn x pd pa pb) x pd (p && !q) s ∧
      Decides (.pnot x pd pa) x pd (!p) s) ∧
    (s.issues x { srcs := [ga.val] } noChk = true →
      Decides (.ptst x pd ga) x pd ((s.at_ x).g ga.val ≠ 0) s))

/-- For a local address a = ra + sext(imm13) that is aligned to the access and lies in the core's local memory, ld.b, ld.h and ld.w write the sign-extended little-endian number stored there to rd, ld.d the doubleword, and ld.bu, ld.hu and ld.wu the zero-extended one. Nothing else changes but the program counter; every byte of memory stays. -/
def Obligations.LocalLoadsExtend : Prop :=
  ∀ (x : Issue) (rd ra : Fin 32) (imm : BitVec 13) (s : State) (a : Nat),
    s.issues x { srcs := [ra.val], dsts := [rd.val] } noChk = true →
    a = ((s.at_ x).g ra.val + imm.signExtend 64).toNat →
    let v := fun n => s.localNat x.core.val a n
    let size := localSize x.core.val
    (a < size → Writes (.ldB x rd ra imm) x rd ((BitVec.ofNat 8 (v 1)).signExtend 64) s ∧
      Writes (.ldBu x rd ra imm) x rd (BitVec.ofNat 64 (v 1)) s) ∧
    (a % 2 = 0 → a + 2 ≤ size → Writes (.ldH x rd ra imm) x rd ((BitVec.ofNat 16 (v 2)).signExtend 64) s ∧
      Writes (.ldHu x rd ra imm) x rd (BitVec.ofNat 64 (v 2)) s) ∧
    (a % 4 = 0 → a + 4 ≤ size → Writes (.ldW x rd ra imm) x rd ((BitVec.ofNat 32 (v 4)).signExtend 64) s ∧
      Writes (.ldWu x rd ra imm) x rd (BitVec.ofNat 64 (v 4)) s) ∧
    (a % 8 = 0 → a + 8 ≤ size → Writes (.ldD x rd ra imm) x rd (BitVec.ofNat 64 (v 8)) s)

/-- For a local address a = ra + sext(imm13) that is aligned, lies in the core's local memory and touches no instruction memory or code region, st.b, st.h, st.w and st.d store the 1, 2, 4 or 8 low bytes of rs, least significant first, at a; every other byte of memory stays, the thread goes on, and nothing else changes. -/
def Obligations.LocalStoresWriteTheirBytes : Prop :=
  ∀ (x : Issue) (rs ra : Fin 32) (imm : BitVec 13) (s : State) (a : Nat),
    s.issues x { srcs := [ra.val, rs.val] } noChk = true →
    a = ((s.at_ x).g ra.val + imm.signExtend 64).toNat →
    let ok := fun n => a % n = 0 ∧ a + n ≤ localSize x.core.val ∧ s.inCode x.core.val a n = false
    let stored := fun (n : Nat) (t : State) =>
      Stores x a (leBytes n ((s.at_ x).g rs.val).toNat) s t ∧ WentOn x s t ∧ OnlyThread x { s with mem := t.mem, poisoned := t.poisoned } t
    (ok 1 → Does (.stB x rs ra imm) s (stored 1)) ∧ (ok 2 → Does (.stH x rs ra imm) s (stored 2)) ∧
    (ok 4 → Does (.stW x rs ra imm) s (stored 4)) ∧ (ok 8 → Does (.stD x rs ra imm) s (stored 8))

/-- A local load or store whose address is not a multiple of its size raises ALIGN (class 2), as do ldf and stf, and jr and jalr to an address whose bits [1:0] are not 0; an aligned local access that does not lie in the core's local memory raises ACCESS (class 3), and so does an aligned local store into an Usher's instruction memory or a WZ-C core's code region; an atomic to a misaligned address raises ALIGN. -/
def Obligations.MisalignedAndOutOfRangeAccessesFault : Prop :=
  ∀ (x : Issue) (r ra rb : Fin 32) (imm : BitVec 13) (far : BitVec 7) (tag : Fin 16) (size : Fin 4) (s : State) (a b : Nat),
    a = ((s.at_ x).g ra.val + imm.signExtend 64).toNat →
    b = ((s.at_ x).g ra.val + BitVec.ofInt 64 (far.toInt * (2 ^ size.val : Nat))).toNat →
    let raises := fun (c : Instr) (cls : Nat) =>
      exec c s = .next ((s.tookTurn x.core.val x.thread.val).faultHere x.core.val x.thread.val cls)
    let top := localSize x.core.val
    (s.issues x { srcs := [ra.val], dsts := [r.val] } noChk = true →
      (top < a + 1 → raises (.ldB x r ra imm) 3 ∧ raises (.ldBu x r ra imm) 3) ∧
      (a % 2 ≠ 0 → raises (.ldH x r ra imm) 2 ∧ raises (.ldHu x r ra imm) 2) ∧
      (a % 2 = 0 → top < a + 2 → raises (.ldH x r ra imm) 3 ∧ raises (.ldHu x r ra imm) 3) ∧
      (a % 4 ≠ 0 → raises (.ldW x r ra imm) 2 ∧ raises (.ldWu x r ra imm) 2) ∧
      (a % 4 = 0 → top < a + 4 → raises (.ldW x r ra imm) 3 ∧ raises (.ldWu x r ra imm) 3) ∧
      (a % 8 ≠ 0 → raises (.ldD x r ra imm) 2) ∧ (a % 8 = 0 → top < a + 8 → raises (.ldD x r ra imm) 3) ∧
      (((s.at_ x).g ra.val).toNat % 4 ≠ 0 → raises (.jalr x r ra) 2)) ∧
    (s.issues x { srcs := [ra.val] } noChk = true → ((s.at_ x).g ra.val).toNat % 4 ≠ 0 → raises (.jr x ra) 2) ∧
    (s.issues x { srcs := [ra.val, r.val] } noChk = true →
      let bad := fun n => top < a + n ∨ s.inCode x.core.val a n = true
      (bad 1 → raises (.stB x r ra imm) 3) ∧
      (a % 2 ≠ 0 → raises (.stH x r ra imm) 2) ∧ (a % 2 = 0 → bad 2 → raises (.stH x r ra imm) 3) ∧
      (a % 4 ≠ 0 → raises (.stW x r ra imm) 2) ∧ (a % 4 = 0 → bad 4 → raises (.stW x r ra imm) 3) ∧
      (a % 8 ≠ 0 → raises (.stD x r ra imm) 2) ∧ (a % 8 = 0 → bad 8 → raises (.stD x r ra imm) 3)) ∧
    (s.issues x { group := .system, srcs := [ra.val, r.val] } noChk = true → b % 2 ^ size.val ≠ 0 →
      raises (.stf x size r ra far) 2) ∧
    (s.issues x { group := .system, tag := some tag.val, srcs := [ra.val], dsts := [r.val] } noChk = true →
      b % 2 ^ size.val ≠ 0 → raises (.ldf x size r ra far tag) 2) ∧
    (s.issues x { group := .system, tag := some tag.val, srcs := [ra.val, rb.val], dsts := [r.val] } noChk = true →
      ((s.at_ x).g ra.val).toNat % 8 ≠ 0 → raises (.amoAdd x r ra rb tag) 2 ∧ raises (.amoAnd x r ra rb tag) 2 ∧
      raises (.amoOr x r ra rb tag) 2 ∧ raises (.amoXor x r ra rb tag) 2 ∧ raises (.amoSwap x r ra rb tag) 2 ∧
      raises (.amoUmin x r ra rb tag) 2 ∧ raises (.amoUmax x r ra rb tag) 2) ∧
    (s.issues x { group := .system, tag := some tag.val, srcs := [ra.val, rb.val, r.val], dsts := [r.val] } noChk = true →
      ((s.at_ x).g ra.val).toNat % 8 ≠ 0 → raises (.amoCas x r ra rb tag) 2)

/-- br and call go to PC + 4 x sext(disp23), call first writing PC + 4 to g31; jr and jalr go to the address in ra when its bits [1:0] are 0, jalr writing PC + 4 to rd (a write of g0 is discarded; the target is the value ra held before, assumption log 8). Nothing else changes. -/
def Obligations.BranchesSetThePc : Prop :=
  ∀ (x : Issue) (disp : BitVec 23) (rd ra : Fin 32) (s : State) (target link : Nat),
    target = ((BitVec.ofInt 64 ((s.at_ x).pc + 4 * disp.toInt)).toNat) → link = (s.at_ x).pc + 4 →
    let goes := fun (rd dest : Nat) (t : State) => OnlyThread x s t ∧ SameMemory s t ∧ (t.at_ x).pc = dest ∧
      (rd ≠ 0 → (t.at_ x).g rd = BitVec.ofNat 64 link) ∧ (∀ r, r ≠ rd → (t.at_ x).g r = (s.at_ x).g r) ∧
      t.at_ x = { s.at_ x with gpr := (t.at_ x).gpr, pc := dest }
    (s.issues x {} noChk = true → Does (.br x disp) s (goes 0 target)) ∧
    (s.issues x { dsts := [31] } noChk = true → Does (.call x disp) s (goes 31 target)) ∧
    (s.issues x { srcs := [ra.val] } noChk = true → ((s.at_ x).g ra.val).toNat % 4 = 0 →
      Does (.jr x ra) s (goes 0 ((s.at_ x).g ra.val).toNat)) ∧
    (s.issues x { srcs := [ra.val], dsts := [rd.val] } noChk = true → ((s.at_ x).g ra.val).toNat % 4 = 0 →
      Does (.jalr x rd ra) s (goes rd.val ((s.at_ x).g ra.val).toNat))

/-- sys.rd writes the value of a listed register to g: TID, CORE with the profile code, TB, STATUS, VBASE, EPC, FCAUSE, FVAL, ESTATUS, TWIN0 to TWIN3, OTFREE, OTBUSY, SCRATCH0 to 3. sys.wr makes a RW register read the value written (STATUS takes bits 2 to 0 and keeps AFP) and leaves read-only ones. In task mode a sys.rd of VBASE to ESTATUS or TWIN, and a sys.wr of anything but SCRATCH0 to 3, raises PRIVILEGE; an unlisted number raises ILLEGAL in both. -/
def Obligations.SystemRegisterAccess : Prop :=
  ∀ (x : Issue) (g : Fin 32) (num : BitVec 12) (s : State) (n : Nat) (w : Word), n = num.toNat → w = (s.at_ x).g g.val →
    let c := x.core.val
    let th := s.at_ x
    let isReg := fun n =>
      n ≤ 3 ∨ (0x10 ≤ n ∧ n ≤ 0x14) ∨ (0x20 ≤ n ∧ n ≤ 0x27) ∨ n = 0x30 ∨ n = 0x31 ∨ (0x40 ≤ n ∧ n ≤ 0x43)
    let listed := isReg n
    let raises := fun (i : Instr) (cls : Nat) =>
      exec i s = .next ((s.tookTurn c x.thread.val).faultHere c x.thread.val cls)
    (s.issues x { group := .system, dsts := [g.val] } noChk = true →
      (¬listed → raises (.sysRd x g num) 0) ∧
      (listed → th.task = true → (0x10 ≤ n ∧ n ≤ 0x27) → raises (.sysRd x g num) 1) ∧
      (listed → (th.task = false ∨ ¬(0x10 ≤ n ∧ n ≤ 0x27)) →
        ∃ v, Writes (.sysRd x g num) x g v s ∧
          (n = 0 → v = BitVec.ofNat 64 x.thread.val) ∧
          (n = 1 → v.toNat % 256 = c ∧ v.toNat / 256 = (if c < 8 then 0 else if c < 10 then 1 else 2)) ∧
          (n = 2 → v = BitVec.ofNat 64 s.tb) ∧ (n = 3 → v = th.status) ∧ (n = 0x10 → v = th.vbase) ∧
          (n = 0x11 → v = th.epc) ∧ (n = 0x12 → v = th.fcause) ∧ (n = 0x13 → v = th.fval) ∧
          (n = 0x14 → v = th.estatus) ∧ (0x20 ≤ n ∧ n ≤ 0x27 → v = unitGet 0 th.twin (n - 0x20)) ∧
          (n = 0x30 → v = BitVec.ofNat 64 (otSize c - (s.wzCore c).ot.length)) ∧
          (n = 0x31 → v = s.otBusy c x.thread.val) ∧
          (0x40 ≤ n → v = unitGet 0 th.scratch (n - 0x40)))) ∧
    (s.issues x { group := .system, srcs := [g.val] } noChk = true →
      (¬listed → raises (.sysWr x num g) 0) ∧
      (listed → th.task = true → n < 0x40 → raises (.sysWr x num g) 1) ∧
      (listed → (th.task = false ∨ 0x40 ≤ n) →
        Does (.sysWr x num g) s fun t => OnlyThread x s t ∧ SameMemory s t ∧
          (t.at_ x).pc = th.pc + 4 ∧ (∀ r, (t.at_ x).g r = th.g r) ∧ (t.at_ x).preds = th.preds ∧
          (∀ m, m ≠ n → isReg m → t.sysRead c x.thread.val m = s.sysRead c x.thread.val m) ∧
          (n = 3 → (t.at_ x).status = (th.status &&& 8#64) ||| (w &&& 7#64)) ∧
          (n ≤ 2 ∨ n = 0x30 ∨ n = 0x31 → t.sysRead c x.thread.val n = s.sysRead c x.thread.val n) ∧
          (0x10 ≤ n ∧ n ≤ 0x27 ∨ 0x40 ≤ n → t.sysRead c x.thread.val n = w)))

/-- With FIP = 0, sys.trap and sys.brk (JTAG debug off) save PC in EPC, the class (6, 7) in FCAUSE, the number in FVAL and STATUS in ESTATUS, set supervisory, IE 0, FIP 1, and go to VBASE + class x 0x40; interrupt entry does the same with class 8 when a source is takeable and IE = 1, without taking the source and without using a turn. sys.eret restores STATUS from ESTATUS with FIP cleared and resumes at EPC. With FIP = 1, sys.trap halts the thread, sets its DOUBLE_FAULT bit (Ushers) and rings the core's Bell, source 1. With JTAG debug sys.brk halts the thread behind it instead (assumption log 9). sys.yield goes on and gives up the thread's next turn; sys.halt halts. Memory and other threads stay in all but the double fault. -/
def Obligations.FaultEntryAndReturn : Prop :=
  ∀ (x : Issue) (num : BitVec 12) (s : State),
    let c := x.core.val
    let th := s.at_ x
    let enters := fun (cls : Nat) (fval : Word) (now : Nat) (t : State) => OnlyThread x s t ∧ SameMemory s t ∧
      t.at_ x = { th with
        epc := BitVec.ofNat 64 th.pc, fcause := BitVec.ofNat 64 cls, fval := fval, estatus := th.status,
        status := (th.status &&& ~~~3#64) ||| 4#64, pc := th.vbase.toNat / 1024 * 1024 + cls * 0x40,
        run := .running, entered := now }
    let is := s.issues x { group := .system } noChk = true
    (is → th.run = .running → th.fip = false → Does (.sysTrap x num) s (enters 6 (num.setWidth 64) th.entered)) ∧
    (is → th.run = .running → th.fip = false → s.jtagDebug = false →
      Does (.sysBrk x num) s (enters 7 (num.setWidth 64) th.entered)) ∧
    (is → th.fip = true → Does (.sysTrap x num) s fun t => (t.at_ x).run = .halted ∧ SameMemory s t ∧
      (c < 8 → (t.fld F.usherStatusDoubleFault c 0).testBit x.thread.val = true) ∧ t.fld F.bellSrcPending c 1 = 1) ∧
    (is → s.jtagDebug = true → s.flag F.fuseCfgDebugLock = false → Does (.sysBrk x num) s fun t =>
      (t.at_ x).jtag = true ∧ (t.at_ x).fcause = th.fcause ∧ SameMemory s t ∧ OnlyThread x { s with timers := t.timers } t ∧
      (t.at_ x).pc = th.pc + 4) ∧
    (s.coreIssues c = true → th.run.live = true → th.jtag = false → th.ie = true → th.afp = false → th.fip = false →
      s.fetchOk c th.pc = true → (s.bellBest c x.thread.val).isSome = true →
      Does (.interruptEntry x.core x.thread) s fun t => t.turns = s.turns ∧
        enters 8 0 s.tb { t with turns := (s.tookTurn c x.thread.val).turns } ∧
        t.bellBest c x.thread.val = s.bellBest c x.thread.val) ∧
    (s.issues x { group := .system, priv := true } noChk = true →
      Does (.sysEret x) s (fun t => OnlyThread x s t ∧ SameMemory s t ∧ t.at_ x = { th with
        status := (th.status &&& 8#64) ||| (th.estatus &&& 3#64), pc := th.epc.toNat }) ∧
      Does (.sysHalt x) s (fun t => OnlyThread x s t ∧ SameMemory s t ∧ t.at_ x = { th with run := .halted })) ∧
    (is → Does (.sysYield x) s fun t => SameMemory s t ∧ WentOn x s t ∧
      OnlyThread x s { t with turns := (s.tookTurn c x.thread.val).turns } ∧
      t.turns = ((s.tookTurn c x.thread.val).yieldTurn c x.thread.val).turns)

/-- With tag t (within the core's range) completed and no fault due, ot.wait and ot.poll write its completion word (RESULT in [63:16], TAG in [11:8], STATUS in [7:0]) to rd, free the entry and go on; with t outstanding, ot.wait waits and ot.poll writes PENDING with TAG t and frees nothing; with no entry both write NOTAG. ot.waitany collects the completed entry with the lowest tag, waits when none has completed, and writes NOTAG when the thread holds no entry. ot.mask writes OTBUSY. -/
def Obligations.OperationTableCollection : Prop :=
  ∀ (x : Issue) (rd : Fin 32) (tag : Fin 16) (s : State) (e : OtEntry),
    let c := x.core.val
    let t0 := x.thread.val
    let word := fun (tag status result : Nat) => BitVec.ofNat 64 (status % 256 + tag % 16 * 2 ^ 8 + result % 2 ^ 48 * 2 ^ 16)
    let collects := fun (t : State) => t.otFind c t0 e.tag = none ∧ SameMemory s t ∧
      (t.at_ x).g rd.val = (if rd = 0 then 0 else word e.tag e.status e.result) ∧ (t.at_ x).pc = (s.at_ x).pc + 4 ∧
      (t.wzCore c).issuedOps = (s.wzCore c).issuedOps ∧ (t.wzCore c).completedOps = (s.wzCore c).completedOps
    s.issues x { group := .system, dsts := [rd.val] } noChk = true → tagIllegal c (some tag.val) = false →
    (s.otFind c t0 tag.val = some e → e.done = true → e.faultDue = false →
      Does (.otWait x rd tag) s collects ∧ Does (.otPoll x rd tag) s collects) ∧
    (s.otFind c t0 tag.val = some e → e.done = false →
      Does (.otWait x rd tag) s (fun t => OnlyThread x s t ∧ t.at_ x = { s.at_ x with run := .waitTag tag.val rd.val }) ∧
      Writes (.otPoll x rd tag) x rd (word tag.val 0x0E 0) s) ∧
    (s.otFind c t0 tag.val = none →
      Writes (.otWait x rd tag) x rd (word tag.val 0x0F 0) s ∧ Writes (.otPoll x rd tag) x rd (word tag.val 0x0F 0) s) ∧
    (s.otLowest c t0 = some e → e.faultDue = false → Does (.otWaitany x rd) s collects) ∧
    (s.otLowest c t0 = none → (∃ d ∈ (s.wzCore c).ot, d.thread = t0) →
      Does (.otWaitany x rd) s fun t => OnlyThread x s t ∧ t.at_ x = { s.at_ x with run := .waitAny rd.val }) ∧
    ((∀ d ∈ (s.wzCore c).ot, d.thread ≠ t0) → Writes (.otWaitany x rd) x rd (word 0 0x0F 0) s) ∧
    Writes (.otMask x rd) x rd (s.otBusy c t0) s

/-- fence.rw goes on when every far load and atomic of the thread has completed and every far store has been performed, fence.w when the stores have, fence.r when the loads and atomics have, fence.ot when every operation of the thread has completed, and fence.io as fence.rw with no error response of a far store outstanding; otherwise the thread stays at the fence and nothing changes. -/
def Obligations.FencesWaitForTheirCondition : Prop :=
  ∀ (x : Issue) (s : State),
    let c := x.core.val
    let t0 := x.thread.val
    let loads := ∀ e ∈ (s.wzCore c).ot, e.thread = t0 → e.done = false →
      (match e.kind with | .farLoad .. => False | .atomic .. => False | _ => True)
    let stores := (s.at_ x).posted = []
    let fence := fun (i : Instr) (ok : Prop) =>
      (ok → Does i s fun t => OnlyThread x s t ∧ SameMemory s t ∧ WentOn x s t) ∧ (¬ok → exec i s = .next s)
    s.issues x { group := .system } noChk = true →
    fence (.fenceRw x) (loads ∧ stores) ∧ fence (.fenceW x) stores ∧ fence (.fenceR x) loads ∧
    fence (.fenceOt x) (∀ e ∈ (s.wzCore c).ot, e.thread = t0 → e.done = true) ∧
    fence (.fenceIo x) (loads ∧ stores ∧ (s.at_ x).storeErrs = [])

/-- In supervisory mode, an aligned ldf and an atomic on an 8-byte-aligned word in Hall SRAM take an entry under their tag, start the 1 ms response timer, count one operation issued and lock rd (unless it is g0), so that an instruction that names rd stalls; an aligned stf posts a store of rs behind the thread's earlier ones, and bell.ring with a Bell number up to 10 posts a 4-byte store of rb[11:0] to that Bell's DOORBELL. The thread goes on; memory stays until the access is performed. -/
def Obligations.FarAccessesAndAtomicsIssue : Prop :=
  ∀ (x : Issue) (size : Fin 4) (rd ra rb : Fin 32) (imm : BitVec 7) (tag : Fin 16) (s : State) (far amo : Nat),
    let c := x.core.val
    let t0 := x.thread.val
    let n := 2 ^ size.val
    far = ((s.at_ x).g ra.val + BitVec.ofInt 64 (imm.toInt * (n : Nat))).toNat →
    amo = ((s.at_ x).g ra.val).toNat → (s.at_ x).task = false →
    let issued := fun (t : State) => InFlight x tag.val t ∧ WentOn x s t ∧ SameMemory s t ∧
      t.deadline .farLoad (c * 8 + t0) tag.val = some (s.tb + 1000000) ∧
      (t.wzCore c).issuedOps = (s.wzCore c).issuedOps + 1 ∧
      t = { s with cores := t.cores, threads := t.threads, timers := t.timers, turns := t.turns } ∧
      (rd ≠ 0 → t.fetchOk c (t.at_ x).pc = true → ∀ r : Fin 32, exec (.or x r rd 0) t = .next t)
    let posts := fun (addr bytes : Nat) (data : Word) (t : State) => OnlyThread x s t ∧ SameMemory s t ∧
      t.at_ x = { s.at_ x with
        pc := (s.at_ x).pc + 4
        posted := (s.at_ x).posted ++ [{ addr := addr, size := bytes, data := data, sup := true }] }
    (s.issues x { group := .system, tag := some tag.val, srcs := [ra.val], dsts := [rd.val] } noChk = true → far % n = 0 →
      Does (.ldf x size rd ra imm tag) s issued) ∧
    (s.issues x { group := .system, srcs := [ra.val, rd.val] } noChk = true → far % n = 0 →
      Does (.stf x size rd ra imm) s (posts far n ((s.at_ x).g rd.val))) ∧
    (s.issues x { group := .system, tag := some tag.val, srcs := [ra.val, rb.val], dsts := [rd.val] } noChk = true →
      amo % 8 = 0 → (hallCellAt amo).isSome = true →
      Does (.amoAdd x rd ra rb tag) s issued ∧ Does (.amoAnd x rd ra rb tag) s issued ∧
      Does (.amoOr x rd ra rb tag) s issued ∧ Does (.amoXor x rd ra rb tag) s issued ∧
      Does (.amoSwap x rd ra rb tag) s issued ∧ Does (.amoUmin x rd ra rb tag) s issued ∧
      Does (.amoUmax x rd ra rb tag) s issued) ∧
    (s.issues x { group := .system, tag := some tag.val, srcs := [ra.val, rb.val, rd.val], dsts := [rd.val] } noChk = true →
      amo % 8 = 0 → (hallCellAt amo).isSome = true → Does (.amoCas x rd ra rb tag) s issued) ∧
    (s.issues x { group := .system, srcs := [ra.val, rb.val] } noChk = true → amo ≤ 10 →
      Does (.bellRing x ra rb) s (posts (0x0100_0000 + amo * 0x1_0000) 4 ((s.at_ x).g rb.val &&& 0xFFF)))

/-- For an operation in flight of a thread with no posted store: the response of a far load of memory below DRAM writes the little-endian number stored there to rd and completes OK, changing no memory; that of an atomic in Hall SRAM leaves the word the operation computes from the old one at the address, changes no other byte, writes the old word to rd and completes OK. After 1 ms without a response the operation completes with TIMEOUT and rd takes 0; a response that comes after completion changes nothing. The error response of the oldest failed far store sets STATUS.AFP and holds one more fault to be taken (assumption log 160). The words read hold no poisoned token. -/
def Obligations.FarResultsArrive : Prop :=
  ∀ (c : Fin 11) (t0 : Fin 8) (tag : Fin 16) (poison : Bool) (s : State) (e : OtEntry),
    let x : Issue := ⟨c, t0, 0, false⟩
    let ends := fun (rd status : Nat) (v : Word) (t : State) =>
      Completed x tag.val status 0 t ∧ (rd ≠ 0 → (t.at_ x).g rd = v) ∧ (∀ r, r ≠ rd → (t.at_ x).g r = (s.at_ x).g r) ∧
        t.deadline .farLoad (c.val * 8 + t0.val) tag.val = none ∧ (t.at_ x).pc = (s.at_ x).pc
    (s.otFind c.val t0.val tag.val = some e → e.done = false → (s.at_ x).posted = [] → (s.at_ x).run = .running →
      (∀ a n rd sup, e.kind = .farLoad a n rd sup → a < 0x10_0000_0000 → s.accessBad (.core c.val t0.val sup) false a n = false →
        s.ramAt a = true → s.poisonAt a n = false → Does (.farResponse c t0 tag false) s fun t =>
          ends rd 0 (BitVec.ofNat 64 (leNat (s.bytes a n))) t ∧ SameMemory s t) ∧
      (∀ op a rd w y, e.kind = .atomic op a rd w y → s.accessBad (.core c.val t0.val true) true a 8 = false →
        s.poisonAt a 8 = false →
        let old : Word := BitVec.ofNat 64 (leNat (s.bytes a 8))
        let new : Word := match op with
          | .add => old + w | .and => old &&& w | .or => old ||| w | .xor => old ^^^ w | .swap => w
          | .umin => BitVec.ofNat 64 (min old.toNat w.toNat) | .umax => BitVec.ofNat 64 (max old.toNat w.toNat)
          | .cas => if old = y then w else old
        Does (.farResponse c t0 tag false) s fun t => ends rd 0 old t ∧
          ∀ b, t.byte b = if a ≤ b ∧ b < a + 8 then (leBytes 8 new.toNat).getD (b - a) 0 else s.byte b) ∧
      (s.due .farLoad (c.val * 8 + t0.val) tag.val = true →
        (∀ a n rd sup, e.kind = .farLoad a n rd sup → Does (.farLoadTimeout c t0 tag) s fun t => ends rd 8 0 t ∧ SameMemory s t) ∧
        (∀ op a rd w y, e.kind = .atomic op a rd w y → Does (.farLoadTimeout c t0 tag) s fun t => ends rd 8 0 t ∧ SameMemory s t))) ∧
    (s.otFind c.val t0.val tag.val = some e → e.done = true → exec (.farResponse c t0 tag poison) s = .next s) ∧
    (∀ a rest, (s.at_ x).storeErrs = a :: rest → Does (.farStoreError c t0) s fun t => t.turns = s.turns ∧
      OnlyThread x s { t with turns := (s.tookTurn c.val t0.val).turns } ∧
      t.at_ x = { s.at_ x with
        storeErrs := rest, asyncHeld := (s.at_ x).asyncHeld + 1, status := (s.at_ x).status ||| 8#64 })

/-- bell.take writes the number of the source the thread takes to rd, clears its PENDING, sets its ACTIVE and pushes it, or writes 0x1000 when none is takeable and then changes nothing else. bell.eoi of the source on top of the thread's stack pops it and clears its ACTIVE; of another source it counts STACK_ORDER and pops nothing. bell.wait goes on when a source is takeable and waits otherwise. Memory stays. -/
def Obligations.BellTakeCompleteAndWait : Prop :=
  ∀ (x : Issue) (rd ra : Fin 32) (s : State),
    let c := x.core.val
    let t0 := x.thread.val
    let src := ((s.at_ x).g ra.val).toNat % 4096
    (s.issues x { group := .system, dsts := [rd.val] } noChk = true →
      (∀ prio best, s.bellBest c t0 = some (prio, best) → Does (.bellTake x rd) s fun t =>
        (t.at_ x).g rd.val = (if rd = 0 then 0 else BitVec.ofNat 64 best) ∧ t.fld F.bellSrcPending c best = 0 ∧
        t.fld F.bellSrcActive c best = 1 ∧ t.bellStack c t0 = (prio, best) :: s.bellStack c t0 ∧ SameMemory s t ∧
        (t.at_ x).pc = (s.at_ x).pc + 4) ∧
      (s.bellBest c t0 = none → Writes (.bellTake x rd) x rd 0x1000 s)) ∧
    (s.issues x { group := .system, srcs := [ra.val] } noChk = true →
      (∀ prio rest, s.bellStack c t0 = (prio, src) :: rest → Does (.bellEoi x ra) s fun t =>
        t.bellStack c t0 = rest ∧ t.fld F.bellSrcActive c src = 0 ∧ SameMemory s t ∧ (t.at_ x).pc = (s.at_ x).pc + 4) ∧
      (∀ prio top rest, s.bellStack c t0 = (prio, top) :: rest → top ≠ src → Does (.bellEoi x ra) s fun t =>
        t.bellStack c t0 = s.bellStack c t0 ∧ SameMemory s t ∧
        t.fld F.bellStatusStackOrder c = min 0xFFFF (s.fld F.bellStatusStackOrder c + 1) ∧ t.fld F.bellFaultWritten c = src)) ∧
    (s.issues x { group := .system } noChk = true →
      (s.bellBest c t0 = none → Does (.bellWait x) s fun t => OnlyThread x s t ∧ t.at_ x = { s.at_ x with run := .waitBell }) ∧
      ((s.bellBest c t0).isSome = true → Does (.bellWait x) s fun t =>
        OnlyThread x s t ∧ t.at_ x = { s.at_ x with pc := (s.at_ x).pc + 4, entered := s.tb }))

/-- A 4-byte write of a source of 256 or more to a Bell's DOORBELL leaves the source pending, and counts COALESCED when it already was; it is wake source 7 (assumption log 194). A write of another size, of a fixed source by a master that does not own it, an EOI from another core than the Bell's own, and a HOSTMSG from a master that is no core change nothing but count BAD_WRITES (saturating at 0xFFFF). A HOSTMSG of an enabled, masked PF0 vector sets its pending bit. -/
def Obligations.DoorbellsCompletionsAndHostMessages : Prop :=
  ∀ (b : Fin 11) (m : Master) (v : BitVec 32) (w : BitVec 64) (size : Nat) (c : Fin 11) (t0 : Fin 8) (s : State),
    let src := v.toNat % 4096
    let counts := fun (f : Fld) (t : State) =>
      t.fld f b.val = min 0xFFFF (s.fld f b.val + 1) ∧ OnlyField f b.val 0 s t ∧ OnlyRegs s t
    (size = 4 → 256 ≤ src → s.fld F.bellSrcPending b.val src = 0 → Does (.bellDoorbell b m v size) s fun t =>
      t.fld F.bellSrcPending b.val src = 1 ∧ OnlyField F.bellSrcPending b.val src s t ∧ SameMemory s t ∧
      t = { s with regs := t.regs, threads := t.threads, bellSince := t.bellSince, chip := (s.wakeOn 7).chip }) ∧
    (size = 4 → 256 ≤ src → s.fld F.bellSrcPending b.val src = 1 →
      Does (.bellDoorbell b m v size) s (fun t => t.fld F.bellStatusCoalesced b.val = min 0xFFFF (s.fld F.bellStatusCoalesced b.val + 1) ∧
        OnlyField F.bellStatusCoalesced b.val 0 s t ∧ OnlyRegs (s.wakeOn 7) t)) ∧
    (size ≠ 4 → Does (.bellDoorbell b m v size) s (counts F.bellStatusBadWrites)) ∧
    (size = 4 → src < 256 → (∀ b' s', m ≠ .hw b' s') → Does (.bellDoorbell b m v size) s (counts F.bellStatusBadWrites)) ∧
    (c ≠ b → Does (.bellEoiStore c t0 b v) s (counts F.bellStatusBadWrites)) ∧
    (∀ prio rest, s.bellStack b.val t0.val = (prio, src) :: rest → Does (.bellEoiStore b t0 b v) s fun t =>
      t.bellStack b.val t0.val = rest ∧ t.fld F.bellSrcActive b.val src = 0 ∧ SameMemory s t) ∧
    ((∀ k l u, m ≠ .core k l u) → Does (.bellHostmsg b m w) s (counts F.bellStatusBadWrites)) ∧
    (∀ k l u host vec, m = .core k l u → host < 6 → vec < 32 → wr F.bellHostmsgHost w = host → wr F.bellHostmsgFn w = 0x3FF →
      wr F.bellHostmsgVector w = vec → s.cfgGet host 10 .msixEnable ≠ 0 → s.cfgGet host 10 .msixMask ≠ 0 →
      Does (.bellHostmsg b m w) s fun t => t.mbx host = { s.mbx host with pba := (s.mbx host).pba ||| 2 ^ vec } ∧
        t = { s with mailboxes := t.mailboxes })

/-- Setting RESET sets the bit, empties the Bell's stacks and, with nothing outstanding, clears every thread and the operation table at once; with something outstanding the reset waits, and clears them when the last of it has ended. Clearing RESET after the wait starts each thread in THREAD_EN at ENTRY (bits [1:0] ignored) in supervisory mode with registers, predicates, STATUS and VBASE 0, and no other thread. Setting HALT sets the bit and abandons waits; clearing it clears the bit alone. Memory stays. -/
def Obligations.UsherControl : Prop :=
  ∀ (u : Fin 8) (s : State),
    (Does (.usherResetSet u) s fun t => t.fld F.usherCtlReset u.val = 1 ∧ SameMemory s t ∧
      (∀ k, k < 8 → t.bellStack u.val k = []) ∧
      (s.usherQuiet u.val = true → (t.wzCore u.val).ot = [] ∧ (t.wzCore u.val).resetWait = false ∧
        ∀ k, k < 8 → t.thr u.val k = {}) ∧
      (s.usherQuiet u.val = false → (t.wzCore u.val).ot = (s.wzCore u.val).ot ∧ (t.wzCore u.val).resetWait = true)) ∧
    ((s.wzCore u.val).resetWait = true → s.usherQuiet u.val = true → (s.wzCore u.val).release = false →
      Does (.usherResetDone u) s fun t => (t.wzCore u.val).ot = [] ∧ (t.wzCore u.val).resetWait = false ∧
        (∀ k, k < 8 → t.thr u.val k = {}) ∧ t = { s with cores := t.cores, threads := t.threads, turns := t.turns }) ∧
    (s.fld F.usherCtlReset u.val = 1 → (s.wzCore u.val).resetWait = false → Does (.usherResetClear u) s fun t =>
      t.fld F.usherCtlReset u.val = 0 ∧ OnlyField F.usherCtlReset u.val 0 s t ∧ SameMemory s t ∧
      ∀ k, k < 8 → t.thr u.val k = (if (s.fld F.usherCtlThreadEn u.val).testBit k then
        { pc := s.fld F.usherCtlEntry u.val / 4 * 4, run := .running } else s.thr u.val k)) ∧
    (Does (.usherHaltSet u) s fun t => t.fld F.usherCtlHalt u.val = 1 ∧ OnlyField F.usherCtlHalt u.val 0 s t ∧ SameMemory s t ∧
      ∀ k, k < 8 → t.thr u.val k = (if (s.thr u.val k).run.live then { s.thr u.val k with run := .running } else s.thr u.val k)) ∧
    (Does (.usherHaltClear u) s fun t => t.fld F.usherCtlHalt u.val = 0 ∧ OnlyField F.usherCtlHalt u.val 0 s t ∧ OnlyRegs s t)

/-- A DMA whose descriptor has LEN 0 or above 16 MiB, a reserved bit set or both HOST flags set completes REFUSED; one between internal addresses in supervisory mode is in flight, and a FILL of 8 aligned bytes of memory then writes its pattern there and completes OK with RESULT 8. stair.msg appends 64 bytes to the receive ring of a core that is not in reset and completes OK and makes the core's Bell source 0 pending; it completes FULL when 16 messages wait and REFUSED for a core in reset or a number above 10, delivering nothing. stair.rcv moves the oldest message to local memory with rd 1, or writes 0 for an empty ring. -/
def Obligations.DmaAndMessages : Prop :=
  ∀ (x : Issue) (rd ra rb : Fin 32) (tag : Fin 16) (s : State) (a : Nat) (d : DmaDesc),
    let c := x.core.val
    a = ((s.at_ x).g ra.val).toNat → (s.at_ x).posted = [] →
    (s.issues x { group := .switch, tag := some tag.val, srcs := [ra.val] } noChk = true → a + 32 ≤ localSize c →
      d = dmaDesc (s.localBytes c a 32) →
      (d.bad = true → Does (.dmaCp x ra tag) s (fun t => Completed x tag.val 4 0 t ∧ WentOn x s t ∧ SameMemory s t) ∧
        Does (.dmaChain x ra tag) s (fun t => Completed x tag.val 4 0 t ∧ WentOn x s t ∧ SameMemory s t)) ∧
      (d.bad = false → d.dstHost = false → d.srcHost = false → (s.at_ x).task = false →
        Does (.dmaCp x ra tag) s fun t => InFlight x tag.val t ∧ WentOn x s t ∧ SameMemory s t)) ∧
    (∀ e, s.otFind c x.thread.val tag.val = some e → e.done = false → e.kind = .dma [d] false {} → d.bad = false → d.fill = true →
      d.dstHost = false → d.srcHost = false → d.len = 8 → d.dst % 8 = 0 → 0x2_0000_0000 ≤ d.dst →
      s.ramAt d.dst = true → s.accessBad (.dma c) true d.dst 8 = false → (s.at_ x).run = .running →
      Does (.dmaComplete x.core x.thread tag []) s fun t => Completed x tag.val 0 8 t ∧
        ∀ b, t.byte b = if d.dst ≤ b ∧ b < d.dst + 8 then BitVec.ofNat 8 (d.src / 256 ^ (b - d.dst)) else s.byte b) ∧
    (s.issues x { group := .system, tag := some tag.val, srcs := [ra.val, rb.val] } noChk = true → a + 64 ≤ localSize c →
      let dst := ((s.at_ x).g rb.val).toNat % 256
      (10 < dst ∨ s.coreReset dst = true → Does (.stairMsg x ra rb tag) s fun t =>
        Completed x tag.val 4 0 t ∧ WentOn x s t ∧ SameMemory s t ∧ ∀ k, (t.wzCore k).ring = (s.wzCore k).ring) ∧
      (dst ≤ 10 → s.coreReset dst = false → (s.wzCore dst).ring.length < 16 → Does (.stairMsg x ra rb tag) s fun t =>
        Completed x tag.val 0 0 t ∧ WentOn x s t ∧ SameMemory s t ∧ t.fld F.bellSrcPending dst 0 = 1 ∧
        (t.wzCore dst).ring = (s.wzCore dst).ring ++ [s.localBytes c a 64]) ∧
      (dst ≤ 10 → s.coreReset dst = false → 16 ≤ (s.wzCore dst).ring.length → Does (.stairMsg x ra rb tag) s fun t =>
        Completed x tag.val 5 0 t ∧ WentOn x s t ∧ SameMemory s t ∧ ∀ k, (t.wzCore k).ring = (s.wzCore k).ring)) ∧
    (s.issues x { group := .system, srcs := [ra.val], dsts := [rd.val] } noChk = true →
      ((s.wzCore c).ring = [] → Writes (.stairRcv x rd ra) x rd 0 s) ∧
      (∀ msg rest, (s.wzCore c).ring = msg :: rest → a + 64 ≤ localSize c → s.inCode c a 64 = false →
        Does (.stairRcv x rd ra) s fun t => Stores x a msg s t ∧ (t.wzCore c).ring = rest ∧
          (t.at_ x).g rd.val = (if rd = 0 then 0 else 1)))

/-- A refused access meets the decode-error response and changes nothing. One to unassigned addresses is completed, reads 0 and changes nothing. A write to memory outside the crash record and the error rings stores its bytes and no other. A write that lies in one register which only stores its fields writes that register alone, by its access codes, with the bytes at their places; a locked register stays. A 32-bit read of the low half of a 64-bit register answers it and latches the high half; a read of the high half answers what is latched and drops it, or the high half as it stands. -/
def Obligations.RegisterAccesses : Prop :=
  ∀ (m : Master) (a size : Nat) (v : BitVec 64) (s : State),
    let write := Instr.registerWrite m a size v
    let read := Instr.registerHalfRead m a
    (s.accessBad m true a size = true → exec write s = .next { s with reply := .decodeError }) ∧
    (s.accessBad m false a 4 = true → exec read s = .next { s with reply := .decodeError }) ∧
    (s.accessBad m true a size = false → s.ramAt a = false → (∀ k, k < size → s.regAt (a + k) = none) →
      exec write s = .next { s with reply := .done }) ∧
    (s.accessBad m false a 4 = false → s.ramAt a = false → (∀ k, k < 4 → s.regAt (a + k) = none) →
      exec read s = .next { s with reply := .data 0 }) ∧
    (s.accessBad m true a size = false → s.ramAt a = true → ¬(crashBase ≤ a ∧ a < crashBase + 0x1000) →
      (∀ c, c < 5 → ¬(ringBase c ≤ a ∧ a < ringBase c + 2048)) → Does write s fun t =>
        t = { s with mem := t.mem, poisoned := (s.unpoison a size).poisoned, reply := .done } ∧
        ∀ b, t.byte b = if a ≤ b ∧ b < a + size then BitVec.ofNat 8 (v.toNat / 256 ^ (b - a)) else s.byte b) ∧
    (s.accessBad m false a 4 = false → s.ramAt a = true → a < 0x10_0000_0000 →
      exec read s = .next { s with reply := .data (BitVec.ofNat 64 (leNat (s.bytes a 4))) }) ∧
    (∀ r k, s.accessBad m true a size = false → s.ramAt a = false → s.regAt a = some (r, k) →
      k + size ≤ (regDesc r.name).width / 8 → 0 < size →
      (s.locked r.name = true → exec write s = .next { s with reply := .done }) ∧
      (s.locked r.name = false → r.name ∉ specialRegs → exec write s = .next
        { s.storeReg r.name r.i r.j (BitVec.ofNat 64 (v.toNat % 2 ^ (8 * size) * 2 ^ (8 * k)))
            (BitVec.ofNat 64 ((2 ^ (8 * size) - 1) * 2 ^ (8 * k))) with reply := .done })) ∧
    (∀ r, s.accessBad m false a 4 = false → s.ramAt a = false → (regDesc r.name).width = 64 →
      r.name ≠ .laneRxffe → r.name ≠ .laneRxeq → r.name ≠ .gpioCtrl →
      let now := (s.regRead 0 r).toNat
      let latched := fun (t : State) => tabGet (fun _ => (none : Option (BitVec 32))) t.halves r
      (s.regAt a = some (r, 0) → Does read s fun t => t = { s with halves := t.halves, reply := t.reply } ∧
        t.reply = .data (BitVec.ofNat 64 (now % 2 ^ 32)) ∧ latched t = some (BitVec.ofNat 32 (now / 2 ^ 32))) ∧
      (s.regAt a = some (r, 4) → Does read s fun t => t = { s with halves := t.halves, reply := t.reply } ∧
        t.reply = .data (BitVec.ofNat 64 (match latched s with
          | some w => w.toNat
          | none => now / 2 ^ 32)) ∧ latched t = none))

/-- For every register and every field of its table row that a write covers whole, RO, WO and RC fields keep their bits, RW and RWL fields take the value written (in the form the field's row stores it), W1C fields lose the bits written 1 and W1S fields gain them; a field of which the write covers no bit keeps its bits, and so does every bit of the register that lies in no field. -/
def Obligations.FieldsFollowAccessCodes : Prop :=
  ∀ (n : RegName) (mask v old : BitVec 64),
    (∀ f ∈ (regDesc n).fields,
      let top := 2 ^ (f.hi - f.lo + 1) - 1
      let was := slotGet f.hi f.lo old
      let x := slotGet f.hi f.lo v
      let now := slotGet f.hi f.lo (regWrite n mask v old)
      (slotGet f.hi f.lo mask = 0 → now = was) ∧
      (slotGet f.hi f.lo mask = top →
        now = match f.acc with
          | .ro => was
          | .wo => was
          | .rc => was
          | .rw => storedVal f.stored x % (top + 1)
          | .rwl => storedVal f.stored x % (top + 1)
          | .w1c => was &&& (top - x)
          | .w1s => was ||| x)) ∧
    (∀ k, k < 64 → (∀ f ∈ (regDesc n).fields, ¬(f.lo ≤ k ∧ k ≤ f.hi)) →
      (regWrite n mask v old).getLsbD k = old.getLsbD k)

/-- A fault or command at a Flight in RUN, outside SAFE and in a Hall in RUN, fences it: FENCING, its cause kept, the drain limit running. A stuck Tread is recorded with class STUCK_TREAD and, at a Flight with higher containment at work, fences nothing. A Tread error below the threshold counts in TREAD_ERRS and in its 1 ms window; the one that reaches it fences. A FENCING Flight of another cause becomes FENCED; at its drain limit a services Flight enters SAFE and a Hall Flight quarantines its Hall. UNFENCE returns a FENCED Flight not stuck to RUN; RESET runs 10 us and clears TREAD_ERRS; a command that does not apply sets CMD_ERR alone. -/
def Obligations.FlightsFenceAndReturn : Prop :=
  ∀ (scope : Fin 5) (kind : Fin 32) (inst : Fin 16) (n : Fin 256) (tread : BitVec 16) (parity jtag : Bool) (packet : Nat) (s : State),
    n.val = inst.val →
    let sc := scope.val
    let k := kind.val
    let i := inst.val
    let key := flightKey sc k i
    let there := flightIs sc k i = true
    let st := fun (t : State) => t.flightState sc k i
    let limit := us (if sc < 4 then s.fld F.hallErrCtrlDrainLimit sc else s.fld F.svcErrCtrlDrainLimit)
    let thresh := if sc < 4 then s.fld F.hallErrCtrlFenceThresh sc else s.fld F.svcErrCtrlFenceThresh
    let errs := fun (t : State) => if sc < 4 then t.fld F.hallFlightTreadErrs sc (16 * k + i) else t.fld F.svcFlightTreadErrs 0 (16 * (k - 16) + i)
    let last := fun (t : State) => if sc < 4 then t.fld F.hallFlightLastClass sc (16 * k + i) else t.fld F.svcFlightLastClass 0 (16 * (k - 16) + i)
    let cmdErr := fun (c : Instr) => Does c s fun t => OnlyRegs s t ∧
      (if sc < 4 then t.fld F.hallFlightCmdCmdErr sc = 1 ∧ OnlyField F.hallFlightCmdCmdErr sc 0 s t
       else t.fld F.svcFlightCmdCmdErr = 1 ∧ OnlyField F.svcFlightCmdCmdErr 0 0 s t)
    let fences := fun (cls : Nat) (t : State) => st t = 1 ∧ last t = cls ∧ (t.flight key).cause = cls ∧
      t.deadline .drain key = some (s.tb + limit) ∧ SameDevices s t
    let w := s.tb / 1000000
    let count := if (s.flight key).window = w then (s.flight key).errs + 1 else 1
    let counted := fun (t : State) => errs t = min 0xFFFF (errs s + 1) ∧ last t = (if parity then 2 else 1) ∧
      (t.flight key).window = w ∧ (t.flight key).errs = count ∧ st t = st s ∧
      t = { s with regs := t.regs, chip := t.chip, mem := t.mem, poisoned := t.poisoned, threads := t.threads, bellSince := t.bellSince }
    there →
    (s.flightActs sc k i = true →
      Does (.stuckTread scope kind inst tread) s (fences 3) ∧
      Does (.flightFence scope kind n jtag) s (fences 15) ∧
      (count = thresh → Does (.treadError scope kind inst parity packet) s fun t =>
        st t = 1 ∧ (t.flight key).cause = 4 ∧ SameDevices s t)) ∧
    (s.flightActs sc k i = false → Does (.stuckTread scope kind inst tread) s fun t => st t = st s ∧ last t = 3 ∧
      Logged { scope := sc, level := 1, action := 5, cls := 3, unit := k * 256 + i, info := tread.toNat } s t) ∧
    (s.parcel packet = none → count ≠ thresh → Does (.treadError scope kind inst parity packet) s fun t => counted t ∧
      (count = 1 → Logged {
        scope := sc, level := 0, action := (if s.flightActs sc k i then 1 else 5), cls := (if parity then 2 else 1)
        unit := k * 256 + i, info := 1 } s t) ∧ (count ≠ 1 → SameMemory s t)) ∧
    (st s ≠ 0 → cmdErr (.flightFence scope kind n jtag)) ∧
    (st s = 1 → (s.flight key).cause ≠ 3 → Does (.flightFenced scope kind inst) s fun t => st t = 2 ∧
      t.deadline .drain key = none ∧ SameDevices s t ∧ SameMemory s t) ∧
    (st s = 1 → s.due .drain key = true → s.chip.safe = none →
      (sc = 4 → Does (.drainTimeout scope kind inst) s (EntersSafe 6 s)) ∧
      (sc < 4 → s.hallState sc = 0 → Does (.drainTimeout scope kind inst) s fun t => t.hallState sc = 1 ∧
        (t.hallCtl sc).since = s.tb ∧ t.ringCount sc = s.ringCount sc + 2 ∧ SameDevices s t)) ∧
    (st s = 2 → (s.flight key).cause ≠ 3 → Does (.flightUnfence scope kind n) s fun t => st t = 0 ∧ t.flight key = {} ∧
      SameDevices s t ∧ SameMemory s t) ∧
    (st s ≠ 2 ∨ (s.flight key).cause = 3 → cmdErr (.flightUnfence scope kind n)) ∧
    (st s = 2 → Does (.flightReset scope kind n) s fun t => st t = 3 ∧
      t.deadline .flightReset key = some (s.tb + 10000) ∧ OnlyRegsTimers s t) ∧
    (st s ≠ 2 → cmdErr (.flightReset scope kind n)) ∧
    (st s = 3 → Does (.flightResetDone scope kind inst) s fun t => st t = 0 ∧ errs t = 0 ∧ t.flight key = {} ∧
      t.deadline .flightReset key = none ∧ SameDevices s t ∧ SameMemory s t)

/-- QUAR of a Hall in RUN outside SAFE makes it QUARANTINING at this TB with two records and HALT on both Ushers; else it writes one record with ACTION 5 and the state stays. Isolation after 100 us idles the Hall's lanes without a marker. QUAR_DONE of a Hall whose logic acts or that is isolated makes it QUARANTINED with a record of the time taken; a quarantine not done in 1 ms enters SAFE. HALL_RESET of a QUARANTINED Hall makes it RESETTING for at most 500 us, holds both Ushers in reset and zeroes the Hall's memory but for its error ring; its end returns QUARANTINED. STAIR_OPEN after that returns RUN; a HALL_RESET or STAIR_OPEN in another state sets CMD_ERR alone. -/
def Obligations.HallQuarantineAndReset : Prop :=
  ∀ (hall : Fin 4) (jtag : Bool) (s : State),
    let h := hall.val
    let info := if jtag then 0 else 8
    let refused := fun (c : Instr) => Does c s fun t => t.fld F.chipHallCtlCmdErr = 1 ∧
      OnlyField F.chipHallCtlCmdErr 0 0 s t ∧ OnlyRegs s t
    (s.hallState h = 0 → s.chip.safe = none → Does (.hallQuarCmd hall jtag) s fun t =>
      t.hallState h = 1 ∧ t.hallCtl h = { since := s.tb } ∧ t.ringCount h = s.ringCount h + 2 ∧
      t.fld F.usherCtlHalt (2 * h) = 1 ∧ t.fld F.usherCtlHalt (2 * h + 1) = 1 ∧ SameDevices s t ∧
      ∀ a, ¬(ringBase h ≤ a ∧ a < ringBase h + 2048) → t.byte a = s.byte a) ∧
    (s.hallState h ≠ 0 ∨ s.chip.safe ≠ none → Does (.hallQuarCmd hall jtag) s fun t => t.hallState h = s.hallState h ∧
      Logged { scope := h, level := 2, action := 5, cls := 15, info := info } s t ∧ SameDevices s t) ∧
    (s.hallState h = 1 → s.due .quarIso h = true → (s.hallCtl h).idle = false → Does (.hallIsolation hall) s fun t =>
      (t.hallCtl h).idle = true ∧ t.deadline .quarIso h = none ∧
      (∀ l, 12 * h ≤ l → l < 12 * h + 12 → (t.lane l).txIdle = true ∧ (t.lane l).idleAnnounced = false) ∧
      (∀ l, ¬(12 * h ≤ l ∧ l < 12 * h + 12) → t.lane l = s.lane l) ∧
      t = { s with chip := t.chip, timers := t.timers, lanes := t.lanes }) ∧
    (s.hallState h = 1 → ((s.hallCtl h).idle = true ∨ s.quarLogicOk h = true) → Does (.quarDone hall) s fun t =>
      t.hallState h = 2 ∧ (t.hallCtl h).idle = true ∧ t.deadline .quarMax h = none ∧
      Logged { scope := h, level := 2, action := 0, cls := 9, info := s.tb - (s.hallCtl h).since } s t ∧ SameDevices s t) ∧
    (s.hallState h = 1 → s.due .quarMax h = true → s.chip.safe = none → Does (.quarTimeout hall) s (EntersSafe 10 s)) ∧
    (s.hallState h = 2 → Does (.hallReset hall) s fun t => t.hallState h = 3 ∧
      t.deadline .hallReset h = some (s.tb + 500000) ∧ t.fld F.usherCtlReset (2 * h) = 1 ∧ t.fld F.usherCtlReset (2 * h + 1) = 1 ∧
      (∀ a, t.byte a = if hallCell h a then 0 else s.byte a) ∧ SameDevices s t) ∧
    (s.hallState h ≠ 2 → refused (.hallReset hall)) ∧
    (s.hallState h = 3 → Does (.hallResetDone hall) s fun t => t.hallState h = 2 ∧ (t.hallCtl h).resetDone = true ∧
      t.deadline .hallReset h = none ∧ t = { s with regs := t.regs, timers := t.timers, chip := t.chip }) ∧
    (s.hallState h = 2 → (s.hallCtl h).resetDone = true → Does (.stairOpen hall) s fun t => t.hallState h = 0 ∧
      t.hallCtl h = {} ∧ SameDevices s t ∧ SameMemory s t) ∧
    (s.hallState h ≠ 2 ∨ (s.hallCtl h).resetDone = false → refused (.stairOpen hall))

/-- A Stair fault or ENTER outside SAFE enters it with its class, hold and a crash record; inside SAFE it is recorded only, in LATER and LATEST_CAUSE when VALID. Watchdog expiry enters SAFE with hold 0. The end of the hold, CHIP_RESET and JTAG reset the chip with CAUSE bits 2, 3 and 4, keeping the crash record and DRAM. A KICK byte 0 is no kick; 0xA5 arms the sequence for 1 ms; 0x5A then restarts the period in RUN; any other byte counts in BAD_KICKS and cancels. CRASH_READ and CRASHRD return the record; a 0 written to its byte 4 by the Docent in supervisory mode or JTAG clears VALID and LATER, others are refused. TEMP_UPDATE writes NOW and raises the signed PEAK. -/
def Obligations.SafeWatchdogAndCrashRecord : Prop :=
  ∀ (a b : Fin 5) (jtag : Bool) (kick : BitVec 8) (off temp : BitVec 16) (m : Master) (s : State),
    let later := fun (cls : Nat) (t : State) => t.chip.safe = s.chip.safe ∧ t.ringCount 4 = s.ringCount 4 + 1 ∧
      (s.byte (crashBase + 4) = 1 → t.byte (crashBase + 7) = BitVec.ofNat 8 cls ∧
        t.byte (crashBase + 6) = BitVec.ofNat 8 (min 255 ((s.byte (crashBase + 6)).toNat + 1)))
    let live := match s.chip.kickAt with
      | some t => decide (s.tb ≤ t + 1000000)
      | none => false
    let bad := fun (t : State) => t.fld F.newelWdogBadKicks = min 0xFFFF (s.fld F.newelWdogBadKicks + 1) ∧
      OnlyField F.newelWdogBadKicks 0 0 s t ∧ t = { s with regs := t.regs, chip := { s.chip with kickAt := none } }
    let docent := m = .jtag ∨ ∃ t0, m = .core 8 t0 true
    (s.chip.safe = none → Does (.stairFault a b) s (EntersSafe 11 s) ∧ Does (.safeEnterCmd jtag) s (EntersSafe 15 s) ∧
      (s.due .wdog = true → Does .wdogExpire s (EntersSafe 14 s))) ∧
    (s.chip.safe ≠ none → Does (.stairFault a b) s (later 11) ∧ Does (.safeEnterCmd jtag) s (later 15)) ∧
    (s.chip.safe ≠ none → s.due .safeHold = true → Does .safeHoldExpire s (ChipResets 4 s)) ∧
    (s.powered = true → Does .chipResetCmd s (ChipResets 8 s) ∧ Does .jtagChipReset s (ChipResets 16 s)) ∧
    (kick = 0 → exec (.wdogKick kick) s = .next s) ∧
    (kick = 0xA5 → live = false → exec (.wdogKick kick) s = .next { s with chip := { s.chip with kickAt := some s.tb } }) ∧
    (kick = 0x5A → live = true → Does (.wdogKick kick) s fun t => t.fld F.newelWdogArmed = 1 ∧ t.chip.kickAt = none ∧
      t.chip.kicks = s.chip.kicks + 1 ∧ t = { s with regs := t.regs, chip := t.chip, timers := t.timers } ∧
      t.deadline .wdog = (if s.fld F.pwrStatusState = 0 ∧ s.docentHeld = false
        then some (s.tb + ms (s.fld F.newelWdogPeriod)) else none)) ∧
    (kick ≠ 0 → ¬(kick = 0x5A ∧ live = true) → ¬(kick = 0xA5 ∧ live = false) → Does (.wdogKick kick) s bad) ∧
    (∀ t, s.chip.kickAt = some t → t + 1000000 ≤ s.tb →
      exec .wdogKickLapse s = .next { s with chip := { s.chip with kickAt := none } }) ∧
    (Does (.crashRead off) s fun t => ∃ l, t.out = .crash l :: s.out ∧ l.length = 32 ∧
      (∀ i, i < 32 → off.toNat + i < 4096 → l[i]? = some (s.byte (crashBase + off.toNat + i))) ∧
      t = { s with out := t.out, free := t.free }) ∧
    exec .crashrd s = .next { s with out := .crash (s.bytes crashBase 4096) :: s.out } ∧
    (docent → Does (.crashClear m) s fun t => t = { s with mem := t.mem } ∧
      ∀ x, t.byte x = if x = crashBase + 4 ∨ x = crashBase + 6 then 0 else s.byte x) ∧
    (¬docent → exec (.crashClear m) s = .next { s with reply := .decodeError }) ∧
    (Does (.tempUpdate temp) s fun t => t.fld F.newelTempNow = temp.toNat ∧
      t.fld F.newelTempPeak = (if signed 16 (s.fld F.newelTempPeak) < temp.toInt then temp.toNat else s.fld F.newelTempPeak) ∧
      OnlyRegs s t ∧ SameRegsBut (fun n i j => n = .newelTemp ∧ i = 0 ∧ j = 0) s t)

/-- SNAP copies MIN, MAX, COUNT, SUM and the 32 bins; CLR sets MIN to 2^48-1 and the rest to 0. A write while EN = 1 that keeps EN changes nothing and one that clears it stops sampling; one that sets EN with a good configuration clears the monitor, and otherwise sets CFG_ERR alone. At its period a monitor that is not saturated folds the quantity's value into COUNT, SUM, MIN and MAX and its grid moves on by PERIOD; before it, nothing happens. A sampling pass writes every queue's DEPTH in cells; CLR_PEAK zeroes the peaks. -/
def Obligations.MonitorsAndQueueSamples : Prop :=
  ∀ (mon : Fin 64) (v : BitVec 64) (hall : Fin 4) (s : State),
    let m := mon.val
    let h := hall.val
    let old := s.reg .monCtrl m
    let new := regWrite .monCtrl (BitVec.allOnes 64) v old
    let write := Instr.monCtrlWrite mon v
    let plain := wr F.monCtrlSnap v = 0 ∧ wr F.monCtrlClr v = 0
    let cleared := fun (t : State) => t.fld F.monMinMin m = 2 ^ 48 - 1 ∧ t.fld F.monMaxMax m = 0 ∧ t.reg .monCount m = 0 ∧
      t.reg .monSum m = 0 ∧ ∀ i, i < 32 → t.reg .monBin m i = 0
    let g := (s.mon m).grid
    let dueNow := s.chipRuns = true ∧ s.flag F.monCtrlEn m = true ∧ g.on = true ∧ g.next ≤ s.tb
    let k := s.hall h
    (Does (.monSnap mon) s fun t => t.reg .monSnapMin m = s.reg .monMin m ∧ t.reg .monSnapMax m = s.reg .monMax m ∧
      t.reg .monSnapCount m = s.reg .monCount m ∧ t.reg .monSnapSum m = s.reg .monSum m ∧
      (∀ i, i < 32 → t.reg .monSnapBin m i = s.reg .monBin m i) ∧ OnlyRegs s t ∧
      SameRegsBut (fun n i _ => n ∈ [RegName.monSnapMin, .monSnapMax, .monSnapCount, .monSnapSum, .monSnapBin] ∧ i = m) s t) ∧
    (Does (.monClr mon) s fun t => cleared t ∧ OnlyRegs s t ∧
      SameRegsBut (fun n i _ => n ∈ [RegName.monMin, .monMax, .monCount, .monSum, .monBin] ∧ i = m) s t) ∧
    (plain → s.fld F.monCtrlEn m = 1 → fldGet F.monCtrlEn new = 1 → exec write s = .next s) ∧
    (plain → s.fld F.monCtrlEn m = 1 → fldGet F.monCtrlEn new = 0 → exec write s = .next (s.setReg .monCtrl m 0 new)) ∧
    (plain → s.fld F.monCtrlEn m = 0 → fldGet F.monCtrlEn new = 1 → s.monCfgOk m new = true → Does write s fun t =>
      t.reg .monCtrl m = new ∧ cleared t ∧ (t.mon m).grid.on = monPeriodic (fldGet F.monCtrlQuantity new) ∧
      t = { s with regs := t.regs, chip := t.chip }) ∧
    (s.fld F.monCtrlEn m = 0 → fldGet F.monCtrlEn new = 1 → s.monCfgOk m new = false → Does write s fun t =>
      t.fld F.monStatusCfgErr m = 1 ∧ OnlyField F.monStatusCfgErr m 0 s t ∧ OnlyRegs s t) ∧
    (dueNow → (∀ x, s.monValue m = some x → x < 2 ^ 48 → s.fld F.monCountSat m = 0 → s.fld F.monCountCount m < 2 ^ 48 - 2 →
      s.fld F.monSumSum m + x < 2 ^ 64 → Does (.monPeriodSample mon) s fun t =>
        t.fld F.monCountCount m = s.fld F.monCountCount m + 1 ∧ t.fld F.monSumSum m = s.fld F.monSumSum m + x ∧
        t.fld F.monMinMin m = min (s.fld F.monMinMin m) x ∧ t.fld F.monMaxMax m = max (s.fld F.monMaxMax m) x ∧
        (t.mon m).grid.nominal = g.nominal + us (s.fld F.monCtrlPeriod m) ∧
        t = { s with regs := t.regs, chip := t.chip, threads := t.threads, bellSince := t.bellSince })) ∧
    (¬dueNow → exec (.monPeriodSample mon) s = .next s) ∧
    (s.chipRuns = true → s.flag F.hallSampleCtrlEn h = true → k.sampleGrid.on = true → k.sampleGrid.next ≤ s.tb →
      Does (.queueSamplePass hall) s fun t =>
        (∀ q, q < 2048 → t.fld F.hallQsampDepth h q = s.depth (h * 2048 + q) 0 % 2 ^ 15) ∧
        (t.hall h).sampleGrid.nominal = k.sampleGrid.nominal + us (s.fld F.hallSampleCtrlPeriod h) ∧
        t = { s with regs := t.regs, halls := t.halls, threads := t.threads, bellSince := t.bellSince, chip := t.chip }) ∧
    (Does (.qsampClrPeak hall) s fun t => (∀ q, q < 2048 → t.fld F.hallQsampPeak h q = 0) ∧
      (∀ q, t.fld F.hallQsampDepth h q = s.fld F.hallQsampDepth h q) ∧ OnlyRegs s t ∧
      SameRegsBut (fun n i _ => n = .hallQsamp ∧ i = h) s t)

/-- The loss of REFCLK0 sets HOLDOVER, clears LOCKED and rings Bell 8 source 16; relocking reverses it. At its grid a loop in DEMAND with AVSBus in order records the cycle and commands the code R49 gives, no higher than the ceiling; a third transaction in succession without acknowledgement sets AVS_ERR. ledg.rd writes the named term of an instance. ledg.audit of an aligned buffer starts a sweep, or completes BUSY while one runs, and raises ALIGN otherwise. A sweep that finds nothing completes OK with RESULT 0 and writes inside its 4 KiB buffer only; the one unit whose sides differ, in a Hall in RUN, quarantines that Hall. -/
def Obligations.TimebaseRisersAndLedgers : Prop :=
  ∀ (x : Issue) (rd ra rb : Fin 32) (tag : Fin 16) (rail : Fin 5) (load : Rat) (cycle : BitVec 16) (s : State),
    let c := x.core.val
    let n := rail.val
    let g := s.riserGrid n
    let head := if n < 4 then s.fld F.hallRiserCtrlHeadroom n else s.fld F.svcRiserCtrlHeadroom
    let code := min (s.ceiling n) (riserMove (s.vnow n) (riserErr load cycle.toNat head))
    let cyc := fun (t : State) => if n < 4 then t.fld F.hallRiserStatusCyclePs n else t.fld F.svcRiserStatusCyclePs
    let avsErr := fun (t : State) => if n < 4 then t.fld F.hallRiserStatusAvsErr n else t.fld F.svcRiserStatusAvsErr
    let dueNow := s.chipRuns = true ∧ s.demand n = true ∧ g.on = true ∧ g.next ≤ s.tb
    let frame := fun (t : State) => t = { s with
      chip := t.chip, regs := t.regs, threads := t.threads, out := t.out, halls := t.halls, bellSince := t.bellSince }
    let a := ((s.at_ x).g ra.val).toNat
    let k := ((s.at_ x).g rb.val).toNat % 16
    (s.fld F.tbStatusHoldover = 0 → Does .tbHoldover s fun t => t.fld F.tbStatusHoldover = 1 ∧ t.fld F.tbStatusLocked = 0 ∧
      t.fld F.bellSrcPending 8 16 = 1 ∧
      t = { s with regs := t.regs, threads := t.threads, bellSince := t.bellSince, chip := (s.wakeOn 7).chip }) ∧
    (Does .tbRelock s fun t => t.fld F.tbStatusHoldover = 0 ∧ t.fld F.tbStatusLocked = 1 ∧ OnlyRegs s t ∧
      SameRegsBut (fun m i j => m = .tbStatus ∧ i = 0 ∧ j = 0) s t) ∧
    (dueNow → s.avsOk n = true →
      Does (.riserUpdate rail load cycle true) s fun t => frame t ∧ t.vnow n = code % 64 ∧ cyc t = cycle.toNat ∧
        t.out = .avs n code :: s.out ∧ (t.riserGrid n).nominal = g.nominal + 20000) ∧
    (dueNow → s.avsOk n = true → unitGet 0 s.chip.noAck n = 2 →
      Does (.riserUpdate rail load cycle false) s fun t => frame t ∧ avsErr t = 1 ∧ t.vnow n = s.vnow n) ∧
    (¬dueNow → ∀ ack, exec (.riserUpdate rail load cycle ack) s = .next s) ∧
    (s.issues x { group := .switch, priv := true, srcs := [ra.val, rb.val], dsts := [rd.val] } noChk = true →
      Writes (.ledgRd x rd ra rb) x rd
        (BitVec.ofNat 64 ((s.ledgerTerms (a % 256) (a / 256 % 256) (a / 65536 % 2 ^ 32)).getD k 0)) s) ∧
    (s.issues x { group := .switch, priv := true, tag := some tag.val, srcs := [ra.val] } noChk = true →
      (a % 64 ≠ 0 → exec (.ledgAudit x ra tag) s =
        .next ((s.tookTurn c x.thread.val).faultHere c x.thread.val 2)) ∧
      (a % 64 = 0 → s.chip.sweep = none → Does (.ledgAudit x ra tag) s fun t => InFlight x tag.val t ∧ WentOn x s t ∧
        t.chip.sweep = some { core := c, thread := x.thread.val, tag := tag.val, buf := a % 2 ^ 48, at_ := s.tb } ∧ SameMemory s t) ∧
      (a % 64 = 0 → s.chip.sweep.isSome = true → Does (.ledgAudit x ra tag) s fun t => Completed x tag.val 3 0 t ∧
        WentOn x s t ∧ t.chip = s.chip ∧ SameMemory s t)) ∧
    (∀ w, s.chip.sweep = some w → w.core = c → w.thread = x.thread.val → w.tag = tag.val → (s.at_ x).run = .running →
      (∀ e, s.otFind c x.thread.val tag.val = some e → e.done = false → s.sweepBuffer w.buf = true →
        (∀ i ∈ auditInstances, ∀ u ∈ s.sweptAll [] i, u.left = u.right) → Does (.auditSweepEnd []) s fun t => t.chip = { s.chip with sweep := none } ∧ Completed x tag.val 0 0 t ∧
          ∀ b, ¬(w.buf ≤ b ∧ b < w.buf + 4096) → t.byte b = s.byte b) ∧
      (∀ e : LedgerError, e.scope < 4 → s.hallState e.scope = 0 → s.incomplete e.scope = false → s.chip.safe = none →
        e.left ≠ e.right → (∃ i ∈ auditInstances, e ∈ s.sweptAll [e] i) →
        (∀ i ∈ auditInstances, ∀ u ∈ s.sweptAll [e] i, u = e ∨ u.left = u.right) → Does (.auditSweepEnd [e]) s fun t => t.hallState e.scope = 1 ∧ t.chip.sweep = none ∧ SameDevices s t))

/-- A personality write refused by a check records its code and CFG_INFO and leaves the personality; an accepted one is stored and takes READY and the locks. When the PLLs relock with REFCLK present, READY and A_LOCK are set and each lane that waited trains. Losing REFCLK holds PLL A of the Hall's three quads and rings Bell 8; its return ends the hold. Enabling a lane zeroes its counters and trains it in a ready quad, or lets it wait (also in a Hall not in RUN); disabling one that is in no trunk idles it in OFF. A TXEQ write outside the limits is refused with code 9 and stores nothing; one without OVERRIDE leaves coefficients that a partner steers (assumption log 178). A lane that has not trained in 2 ms is FAILED and rings Bell 8. -/
def Obligations.QuadsLanesAndClocks : Prop :=
  ∀ (quad : Fin 12) (hall : Fin 4) (lane : Fin 48) (v : BitVec 64) (s : State),
    let q := quad.val
    let l := lane.val
    let refused := fun (q code info : Nat) (t : State) => t.fld F.quadStatusCfgErr q = code % 256 ∧
      t.fld F.quadStatusCfgInfo q = info % 128 ∧ t.fld F.quadStatusCfgNew q = 1 ∧ t.fld F.bellSrcPending 8 (32 + q) = 1 ∧
      t = { s with regs := t.regs, threads := t.threads, bellSince := t.bellSince, chip := (s.wakeOn 7).chip }
    (∀ code info, s.personalityError q v = some (code, info) → Does (.quadPersonalityWrite quad v) s fun t =>
      refused q code info t ∧ t.reg .quadPersonality q = s.reg .quadPersonality q) ∧
    (s.personalityError q v = none → Does (.quadPersonalityWrite quad v) s fun t =>
      t.reg .quadPersonality q = regWrite .quadPersonality (BitVec.allOnes 64) v (s.reg .quadPersonality q) ∧
      t.fld F.quadStatusReady q = 0 ∧ t.fld F.quadStatusALock q = 0 ∧ t.fld F.quadStatusBLock q = 0 ∧
      t = { s with
        quads := t.quads, timers := t.timers, regs := t.regs, threads := t.threads, bellSince := t.bellSince, lanes := t.lanes,
        free := t.free, chip := t.chip }) ∧
    (s.fld F.quadStatusReady q = 0 → (s.quad q).refPresent = true → s.fld F.quadPersonalityMode q ≠ 0 →
      s.hallState (q / 3) = 0 → Does (.quadReady quad) s fun t => t.fld F.quadStatusReady q = 1 ∧ t.fld F.quadStatusALock q = 1 ∧
        (∀ k ∈ quadLanes q, (s.lane k).enWaiting = true → t.fld F.laneStatusState k = 1 ∧ (t.lane k).enWaiting = false) ∧
        SameDevices s t ∧ SameMemory s t) ∧
    (s.fld F.quadStatusReady q = 1 ∨ (s.quad q).refPresent = false → exec (.quadReady quad) s = .next s) ∧
    ((s.quad (3 * hall.val)).refPresent = true → Does (.refclkLoss hall) s fun t =>
      (∀ k ∈ hallQuads hall.val, t.fld F.quadStatusAHold k = 1 ∧ t.fld F.quadStatusRefLoss k = 1 ∧ (t.quad k).refPresent = false ∧
        t.fld F.bellSrcPending 8 (32 + k) = 1) ∧
      t = { s with
        quads := t.quads, regs := t.regs, threads := t.threads, bellSince := t.bellSince, chip := (s.wakeOn 7).chip }) ∧
    ((s.quad (3 * hall.val)).refPresent = false → Does (.refclkReturn hall) s fun t =>
      (∀ k ∈ hallQuads hall.val, t.fld F.quadStatusAHold k = 0 ∧ (t.quad k).refPresent = true) ∧
      t = { s with quads := t.quads, regs := t.regs }) ∧
    (s.fld F.laneCtrlEn l = 0 → Does (.laneEnable lane) s fun t => t.fld F.laneCtrlEn l = 1 ∧ t.fld F.lanePrbsSat l = 0 ∧
      (∀ i, i < 10 → t.reg .laneCnt l i = 0) ∧ SameDevices s t ∧ SameMemory s t ∧
      (if s.fld F.quadStatusReady (l / 4) = 1 ∧ s.laneMode l ≠ 0 ∧ s.hallState (l / 12) = 0 then t.fld F.laneStatusState l = 1
       else (t.lane l).enWaiting = true ∧ t.fld F.laneStatusState l = s.fld F.laneStatusState l)) ∧
    (s.fld F.laneCtrlEn l = 1 → exec (.laneEnable lane) s = .next s) ∧
    (s.fld F.laneCtrlEn l = 1 → s.trkOf l = none → Does (.laneDisable lane) s fun t => t.fld F.laneCtrlEn l = 0 ∧
      t.fld F.laneStatusState l = 0 ∧ (t.lane l).txIdle = true ∧ (t.lane l).idleAnnounced = false ∧ SameDevices s t ∧ SameMemory s t) ∧
    (txeqOk v = true → Does (.laneTxeqWrite lane v) s fun t =>
      t.reg .laneTxeq l = (if wr F.laneTxeqOverride v = 1 ∨ (s.laneMode l ≠ 1 ∧ s.laneMode l ≠ 4)
        then regWrite .laneTxeq (BitVec.allOnes 64) v (s.reg .laneTxeq l)
        else fldPut F.laneTxeqOverride 0 (s.reg .laneTxeq l)) ∧ OnlyRegs s t ∧
      SameRegsBut (fun n i j => n = .laneTxeq ∧ i = l ∧ j = 0) s t) ∧
    (txeqOk v = false → Does (.laneTxeqWrite lane v) s fun t => refused (l / 4) 9 (l % 4) t ∧
      t.reg .laneTxeq l = s.reg .laneTxeq l) ∧
    (s.due .laneTrain l = true → s.fld F.laneStatusState l = 1 → Does (.laneTrainTimeout lane) s fun t =>
      t.fld F.laneStatusState l = 6 ∧ t.fld F.bellSrcPending 8 (48 + l) = 1 ∧ t.deadline .laneTrain l = none ∧
      (∀ k, k ≠ l → t.lane k = s.lane k) ∧ t = { s with
        quads := t.quads, timers := t.timers, regs := t.regs, threads := t.threads, bellSince := t.bellSince, lanes := t.lanes
        free := t.free, chip := t.chip })

/-- A lane in training sends markers with TRAINING, an ACTIVE one with its flit count. A matching marker keeps an ACTIVE lane; IDLE_NEXT takes its receiver to IDLE, TRAINING without RX_READY to a refresh, and another session or count to training; a failed CRC is only noted. Three missing markers retrain. Announced idle sends IDLE_NEXT and idles the transmitter; within 10 ms it is left by a fast exit with a burst and a marker, later by a 200 us refresh. The exit burst wakes a receiver for 1 us, then a refresh follows; a refresh out of time retrains. A trained lane is ACTIVE at its rate. LOS within 84 ns of a failed CRC is idle, else LOS is set. A TD212 lane aligns and loses alignment likewise. -/
def Obligations.MarkersIdleAndTraining : Prop :=
  ∀ (lane : Fin 48) (tap : Fin 6) (up inv : Bool) (found : LaneFound) (m : Marker) (blocks : Nat) (s : State),
    let l := lane.val
    let k := s.lane l
    let st := fun (t : State) => t.fld F.laneStatusState l
    let quiet := fun (t : State) => SameDevices s t ∧ SameMemory s t
    let sends := fun (p : Marker → Prop) => Does (.landingMarkerSend lane tap up none) s fun t => quiet t ∧
      (∃ w, t.out = .marker l w :: s.out ∧ p w ∧ w.lane = l ∧ w.session = k.txSession ∧ w.txeqTap = tap.val ∧ w.txeqUp = up) ∧
      st t = st s ∧ (t.lane l).sinceTx = 0 ∧ (t.lane l).txeqAck = false
    let recv := Instr.landingMarkerReceive lane m blocks
    let birique := s.laneMode l = 1
    let carries := s.laneOn l = true
    let live := fun (n k : Nat) => k ∈ s.trkLanes n ∧ k ≠ l ∧ (s.lane k).rxIdle = false ∧ s.fld F.laneStatusLos k = 0 ∧
      s.fld F.laneStatusAligned k = 1
    let inUp := fun (n : Nat) => s.trkOf l = some n ∧ s.trkState n = 2
    let stays := s.fld F.laneStatusAligned l = 1 ∧ s.fld F.laneStatusLos l = 0
    let awake := fun (ok : Prop) => ok ∨ ∀ n, inUp n → ∃ k, live n k
    let asleep := ∀ n, inUp n → (∀ k ∈ s.trkLanes n, k ≠ l → (s.lane k).rxIdle = true) ∨ ∃ k, live n k
    let on := s.fld F.pwrStatusState < 2
    (birique → k.txIdle = false → st s = 1 → sends (fun w => w.training = true ∧ w.idleNext = false)) ∧
    (birique → k.txIdle = false → st s = 2 → sends (fun w => w.training = false ∧ w.flitCount = k.flitsTx)) ∧
    (¬birique ∨ k.txIdle = true → exec (.landingMarkerSend lane tap up none) s = .next s) ∧
    (birique → on → st s = 2 → m.crcOk = false → Does recv s fun t => st t = 2 ∧ (t.lane l).crcFailTb = some s.tb ∧ quiet t) ∧
    (birique → on → st s = 2 → m.crcOk = true → (k.rxSessionKnown = true → m.session = k.rxSession) → m.txeqTap = 0 →
      (m.training = false → m.flitCount = k.flitsRx → m.idleNext = false → Does recv s fun t => st t = 2 ∧
        t.fld F.laneStatusPartnerLane l = 128 + m.lane % 64 ∧ t.fld F.laneStatusLos l = 0 ∧ (t.lane l).sinceRx = 0 ∧
        (t.lane l).rxSession = m.session ∧ quiet t) ∧
      (m.training = false → m.flitCount = k.flitsRx → m.idleNext = true → asleep → Does recv s fun t => st t = 3 ∧
        (t.lane l).rxIdle = true ∧ (t.lane l).stored = true ∧ quiet t) ∧
      (m.training = true → m.flitCount = k.flitsRx → m.rxReady = false → awake (s.fld F.laneStatusAligned l = 1) →
        Does recv s fun t => st t = 5 ∧ (t.lane l).txIdle = false ∧ quiet t)) ∧
    (birique → on → st s = 2 → m.crcOk = true → ((k.rxSessionKnown = true ∧ m.session ≠ k.rxSession) ∨ m.flitCount ≠ k.flitsRx) →
      Does recv s fun t =>
      st t = 1 ∧ t.fld F.laneStatusAligned l = 0 ∧ quiet t) ∧
    (birique → st s = 2 → s.fld F.laneStatusAligned l = 1 → Does (.markerLossAlign lane) s fun t =>
      st t = 1 ∧ t.fld F.laneStatusAligned l = 0 ∧ quiet t) ∧
    (birique → carries → Does (.laneIdleEntry lane) s fun t => (∃ w, t.out = .marker l w :: s.out ∧ w.idleNext = true) ∧
      (t.lane l).txIdle = true ∧ (t.lane l).idleAnnounced = true ∧ (t.lane l).idleSince = s.tb ∧
      t = { s with regs := t.regs, out := t.out, lanes := t.lanes, quads := t.quads }) ∧
    (birique → k.txIdle = true → k.idleAnnounced = true →
      (s.tb ≤ k.idleSince + 10000000 → Does (.laneIdleExit lane) s fun t =>
        (∃ w, t.out = .marker l w :: .burst l :: s.out ∧ w.training = false) ∧ (t.lane l).txIdle = false ∧
        (t.lane l).idleAnnounced = false ∧ quiet t) ∧
      (k.idleSince + 10000000 < s.tb → s.deadline .laneRefresh l = none → awake stays → Does (.laneIdleExit lane) s fun t => st t = 5 ∧
        t.deadline .laneRefresh l = some (s.tb + 200000) ∧ (t.lane l).txIdle = false ∧ t.out = s.out ∧ quiet t)) ∧
    (birique → on → st s = 3 → Does (.laneSignalDetect lane) s fun t => st t = 4 ∧ t.deadline .laneExit l = some (s.tb + 1000) ∧ quiet t) ∧
    (s.due .laneExit l = true → st s = 3 ∨ st s = 4 → awake stays → Does (.fastExitFail lane) s fun t => st t = 5 ∧ t.deadline .laneExit l = none ∧ quiet t) ∧
    (s.due .laneRefresh l = true → st s = 5 → Does (.laneRefreshTimeout lane) s fun t => st t = 1 ∧
      t.fld F.laneStatusAligned l = 0 ∧ quiet t) ∧
    (st s = 1 → s.laneMode l ≠ 2 → Does (.laneTrained lane found inv) s fun t => st t = 2 ∧
      (s.laneMode l ≠ 3 → t.fld F.laneStatusAligned l = 1 ∧ t.fld F.laneStatusLos l = 0) ∧ t.deadline .laneTrain l = none ∧ quiet t ∧
      (birique → t.fld F.laneStatusRateNow l = max (min found.rate.val 2) (s.fld F.laneCtrlRate l) ∧
        t.fld F.laneCtrlRxInv l = (if inv then 1 else 0))) ∧
    (s.laneMode l ≠ 3 → st s ≠ 3 → (birique → ∀ b, k.crcFailTb = some b → b + 84 < s.tb) → Does (.laneLos lane) s fun t =>
      t.fld F.laneStatusLos l = 1 ∧ quiet t) ∧
    (st s ≠ 3 → birique → asleep → (∃ b, k.crcFailTb = some b ∧ s.tb ≤ b + 84) → Does (.laneLos lane) s fun t =>
      st t = 3 ∧ (t.lane l).rxIdle = true ∧ t.fld F.laneStatusLos l = s.fld F.laneStatusLos l ∧ quiet t) ∧
    (s.laneMode l = 2 → st s = 1 → Does (.td212CommaAlign lane) s fun t => st t = 2 ∧ t.fld F.laneStatusAligned l = 1 ∧
      (t.lane l).txIdle = false ∧ quiet t) ∧
    (s.laneMode l = 2 → st s = 2 → s.fld F.laneStatusAligned l = 1 → Does (.td212AlignLoss lane) s fun t => st t = 1 ∧
      t.fld F.laneStatusAligned l = 0 ∧ quiet t)

/-- A pattern write out of range is refused with code 9; one for a lane of no trunk in UP and no unit puts it in TEST with its fields, and ending the patterns returns a disabled lane to OFF. A checker locks, and losing lock clears it and counts in LOSS_CNT. SNAP copies the ten counters; CLR zeroes them with LOSS_CNT and SAT. An SNR update in ACTIVE writes SNR alone; in TEST a locked checker also counts bits and errors. A scan with good settings clears its monitor and runs in ACTIVE or TEST, with bad ones is refused with code 9; each point fills its bin and the last one ends the scan; ABORT ends a running one. -/
def Obligations.PatternsCountersAndEyeScans : Prop :=
  ∀ (lane : Fin 48) (gen chk : Bool) (pat : Fin 16) (lp : Fin 4) (bits errs count : Nat) (wrong : PrbsErrs) (snr : Fin 256) (v : BitVec 64) (s : State),
    let l := lane.val
    let st := fun (t : State) => t.fld F.laneStatusState l
    let any := (gen || chk || lp.val != 0) = true
    let refused := fun (t : State) => t.fld F.quadStatusCfgErr (l / 4) = 9 ∧ t.fld F.quadStatusCfgInfo (l / 4) = l % 4 ∧
      t.reg .lanePrbs l = s.reg .lanePrbs l ∧ t.reg .laneEyeCtrl l = s.reg .laneEyeCtrl l ∧ SameDevices s t ∧ SameMemory s t
    let running := s.checking l = true ∧ s.fld F.lanePrbsChkLock l = 1
    let new := regWrite .laneEyeCtrl (BitVec.allOnes 64) v (s.reg .laneEyeCtrl l)
    let mon := wr F.laneEyeCtrlMon new
    let res := fun (t : State) => t.fld F.laneEyeStatusResult l
    let p := s.fld F.laneEyeStatusPoint l
    let m := s.fld F.laneEyeCtrlMon l
    (6 < pat.val ∨ 2 < lp.val → Does (.lanePrbsCtrl lane gen chk pat lp) s refused) ∧
    (pat.val ≤ 6 → lp.val ≤ 2 → any → s.laneInUse l = false →
      Does (.lanePrbsCtrl lane gen chk pat lp) s fun t => st t = 7 ∧ t.fld F.lanePrbsPattern l = pat.val ∧
        t.fld F.lanePrbsGenEn l = (if gen then 1 else 0) ∧ t.fld F.lanePrbsChkEn l = (if chk then 1 else 0) ∧
        t.fld F.laneCtrlLpbk l = lp.val ∧ (t.lane l).txIdle = false ∧ SameDevices s t ∧ SameMemory s t) ∧
    (pat.val ≤ 6 → lp.val ≤ 2 → ¬any → st s = 7 → s.fld F.laneCtrlEn l = 0 →
      Does (.lanePrbsCtrl lane gen chk pat lp) s fun t => st t = 0 ∧ t.fld F.lanePrbsChkLock l = 0 ∧ (t.lane l).txIdle = true ∧
        SameDevices s t ∧ SameMemory s t) ∧
    (s.checking l = true → Does (.prbsChkLock lane) s fun t => t.fld F.lanePrbsChkLock l = 1 ∧
      OnlyField F.lanePrbsChkLock l 0 s t ∧ OnlyRegs s t) ∧
    (running → Does (.prbsChkLoss lane bits wrong) s fun t => t.fld F.lanePrbsChkLock l = 0 ∧
      t.fld F.lanePrbsLossCnt l = min 255 (s.fld F.lanePrbsLossCnt l + 1) ∧ OnlyRegs s t ∧
      SameRegsBut (fun n i _ => (n = .lanePrbs ∨ n = .laneCnt) ∧ i = l) s t) ∧
    (Does (.laneCounterSnap lane) s fun t => (∀ i, i < 10 → t.reg .laneSnap l i = s.reg .laneCnt l i) ∧ OnlyRegs s t ∧
      SameRegsBut (fun n i _ => n = .laneSnap ∧ i = l) s t) ∧
    (Does (.laneCounterClr lane) s fun t => (∀ i, i < 10 → t.reg .laneCnt l i = 0) ∧ t.fld F.lanePrbsLossCnt l = 0 ∧
      t.fld F.lanePrbsSat l = 0 ∧ OnlyRegs s t ∧ SameRegsBut (fun n i _ => (n = .lanePrbs ∨ n = .laneCnt) ∧ i = l) s t) ∧
    (st s = 2 → Does (.laneSnrUpdate lane snr bits errs []) s fun t => t.fld F.laneStatusSnr l = snr.val ∧
      OnlyField F.laneStatusSnr l 0 s t ∧ OnlyRegs s t) ∧
    (running → s.fld F.lanePrbsSat l = 0 → Does (.laneSnrUpdate lane snr bits errs []) s fun t =>
      t.fld F.laneStatusSnr l = snr.val ∧ OnlyRegs s t ∧
      t.fld F.laneCntCount l 0 = min (2 ^ 48 - 1) (s.fld F.laneCntCount l 0 + errs) ∧
      t.fld F.laneCntCount l 1 = min (2 ^ 48 - 1) (s.fld F.laneCntCount l 1 + bits) ∧
      t.fld F.lanePrbsSat l = (if 2 ^ 48 - 1 ≤ s.fld F.laneCntCount l 1 + bits then 1 else 0)) ∧
    (res s ≠ 1 → wr F.laneEyeCtrlAbort v = 0 → s.eyeOk l new = true → Does (.eyeScanStart lane v) s fun t => t.reg .laneEyeCtrl l = new ∧
      t.fld F.laneEyeStatusPoint l = 0 ∧ res t = (if st s = 2 ∨ st s = 7 then 1 else 3) ∧ t.reg .monCount mon = 0 ∧ OnlyRegs s t) ∧
    (res s ≠ 1 → s.eyeOk l new = false → Does (.eyeScanStart lane v) s refused) ∧
    (res s = 1 → Does (.eyeScanPointDone lane count) s fun t => OnlyRegs s t ∧
      (s.monWatches m 5 l = true → t.fld F.monBinCount m (p % 32) = min count (2 ^ 32 - 1)) ∧
      (p < s.fld F.laneEyeCtrlPoints l → t.fld F.laneEyeStatusPoint l = p + 1 ∧ res t = 1) ∧
      (s.fld F.laneEyeCtrlPoints l ≤ p → t.fld F.laneEyeStatusPoint l = p ∧ res t = 2)) ∧
    (res s = 1 → Does (.eyeScanAbort lane) s fun t => res t = 3 ∧ OnlyField F.laneEyeStatusResult l 0 s t ∧ OnlyRegs s t) ∧
    (res s ≠ 1 → exec (.eyeScanAbort lane) s = .next s)

/-- On a trunk in UP a lane that carries sends, as the 512 bytes of a block, the oldest resend placed on it with RS, else new data of the chosen VC under NEXT, which moves on while the flit joins the replay pool, else IDLE_FILL; one that carries nothing sends nothing. A good data flit ahead of RCV_NEXT is stored; one in sequence that completes no packet moves RCV_NEXT on and joins its VC's bytes; one that fails FEC or CRC counts in RUN and the CRC counter. ACK, loss repeat, retry, CREDIT and heartbeat timers make their words due or resend; the sixteenth expiry and 750 ns of silence end UP with their cause. FLUSH acts in DOWN and LOST only. CLR zeroes the link counters, a stall that lasts being counted from then on. A VC_CFG beyond 896 KiB sets CFG_ERR alone. -/
def Obligations.LinkFlitsAndTimers : Prop :=
  ∀ (lane : Fin 48) (trk : Fin 24) (vc : Fin 8) (block : List Byte) (v : BitVec 64) (s : State),
    let l := lane.val
    let n := trk.val
    let rx := s.rxFlit n l block
    let t0 := s.trk n
    let f := rx.flit
    let p := s.lanePos n l
    let cnt := fun (t : State) (i k : Nat) => t.fld F.trkCntCount n i = (s.fld F.trkCntCount n i + k) % 2 ^ 48
    let carries := s.trkOf l = some n ∧ s.laneMode l = 1 ∧ s.laneOn l = true ∧ (s.lane l).sinceTx < 4096 ∧ s.trkState n = 2 ∧
      t0.retrainDue = false
    let sends := fun (P : Flit → State → Prop) => Does (.flitSlot lane) s fun t => SameDevices s t ∧ SameMemory s t ∧
      ∃ w : Flit, t.out = .flit l (s.flitBlock n l w) :: s.out ∧ P w t
    let receives := s.trkOf l = some n ∧ s.laneMode l = 1 ∧ s.fld F.laneStatusState l = 2 ∧ s.trkState n = 2 ∧ l ∉ t0.withdrawn
    let good := receives ∧ rx.fecU = 0 ∧ rx.crcOk = true ∧ s.flitValid n f = true ∧ rx.secOk = true ∧ f.enc = false ∧
      f.words = [] ∧ f.type = .data ∧ f.rs = false ∧ t0.rxLists ≠ [] ∧ t0.rowApplies p f = true ∧
      t0.training = .none ∧ seqDist (s.rcvNext n) f.seq < t0.rxWindow ∧ t0.store = []
    let h : HeldFlit := { seq := f.seq, vc := f.vc, pktOff := f.pktOff, data := f.data, tbIn := s.tb }
    let held := unitGet [] t0.vcRx f.vc
    let bytes := ((hallTrunks (n / 6)).map (fun k => if s.flag F.trkCfgEn k && s.isTd k then 2 * 16320
      else (s.setReg .trkVcCfg n 0 (vcCfgStored v)).trkConfigured k * 256)).sum
    let lost := fun (cause : Nat) (t : State) => t.fld F.trkLinkStatusLostCause n = cause ∧ t.fld F.trkLinkStatusLostEvt n = 1 ∧
      t.trkState n ≠ 2 ∧ t.fld F.bellSrcPending 8 (96 + n) = 1 ∧ SameDevices s t ∧ SameMemory s t
    (carries → ∀ e, t0.replay.find? (fun e => t0.resends.contains (e.seq, l)) = some e → e.copies.length < 16 →
      sends fun w t => w.rs = true ∧ w.type = .data ∧ w.seq = e.seq ∧ w.data = e.data ∧ w.rcnt = (unitGet 0 t0.rcnt l + 1) % 16 ∧
        cnt t 1 1 ∧ s.txNext n = t.txNext n) ∧
    (carries → t0.resends = [] → s.newDataOk n p = true → ∀ k, s.pickVc n = some k → sends fun w t => w.rs = false ∧
      w.type = .data ∧ w.vc = k ∧ w.seq = s.txNext n ∧ t.txNext n = (s.txNext n + 1) % 2 ^ 24 ∧ cnt t 0 1 ∧
      ∃ e, (t.trk n).replay = t0.replay ++ [e] ∧ e.seq = w.seq ∧ e.data = w.data ∧ e.copies = [{ lane := l }]) ∧
    (carries → t0.resends = [] → (s.newDataOk n p = false ∨ s.pickVc n = none) → (s.active n).testBit p = true → t0.widthWord = none → t0.due = [] → t0.resumeSay = false →
      sends fun w t => w.type = .idleFill ∧ w.words = [] ∧ w.len = 0 ∧ w.seq = s.fillerSeq n p ∧ t.txNext n = s.txNext n ∧
        (t.trk n).replay = t0.replay) ∧
    (s.laneOn l = false ∨ 4096 ≤ (s.lane l).sinceTx → exec (.flitSlot lane) s = .next s) ∧
    (good → f.seq = (s.rcvNext n + 1) % 2 ^ 24 → Does (.flitReceive lane block) s fun t => (t.trk n).store = [h] ∧
      t.rcvNext n = s.rcvNext n ∧ t.fld F.trkRxSeqHeld n = 1 ∧ cnt t 2 1 ∧ (t.lane l).flitsRx = (s.lane l).flitsRx + 1 ∧
      SameDevices s t ∧ SameMemory s t) ∧
    (good → f.seq = s.rcvNext n → unitGet none t0.contRx f.vc = none → (held ≠ [] ∨ f.pktOff = 0) →
      firstStart held f.data = f.pktOff → splitPackets ((held ++ f.data).length / 16 + 1) (held ++ f.data) = ([], held ++ f.data) →
      Does (.flitReceive lane block) s fun t => t.rcvNext n = (s.rcvNext n + 1) % 2 ^ 24 ∧ (t.trk n).store = [] ∧
        unitGet [] (t.trk n).vcRx f.vc = held ++ f.data ∧ t.parcels = s.parcels ∧ SameDevices s t ∧ SameMemory s t) ∧
    (receives → rx.fecU ≠ 0 ∨ rx.crcOk = false → s.fld F.trkPosRun n p ≠ 7 → Does (.flitReceive lane block) s fun t =>
      t.fld F.trkPosRun n p = min 255 (s.fld F.trkPosRun n p + 1) ∧ cnt t 3 1 ∧ t = { s with regs := t.regs, lanes := t.lanes }) ∧
    (s.due .trkAck n = true → Does (.ackTimer trk) s fun t => .ack 0 ∈ (t.trk n).due ∧ t.deadline .trkAck n = none ∧
      t = { s with trunks := t.trunks, timers := t.timers }) ∧
    (∀ r : LossReport, s.trkState n = 2 → t0.losses = [r] → r.resend = false → s.missing n r.seq = true →
      r.at_ + s.retryNs n ≤ s.tb → Does (.lossReportRepeat trk) s fun t => .nack r.seq 0 ∈ (t.trk n).due ∧
        (t.trk n).losses = [{ r with at_ := s.tb }] ∧ cnt t 6 1 ∧ t = { s with trunks := t.trunks, regs := t.regs }) ∧
    (∀ e rest, s.due .trkRetry n = true → t0.expiries < 15 → t0.replay = e :: rest → Does (.retryTimerExpire trk) s fun t =>
      (t.trk n).expiries = t0.expiries + 1 ∧ (∃ k, (e.seq, k) ∈ (t.trk n).resends ∧ (t0.resends = [] → k = s.placeOn n e)) ∧ cnt t 8 1 ∧
      t.deadline .trkRetry n = some (s.tb + s.retryNs n) ∧ t = { s with trunks := t.trunks, regs := t.regs, timers := t.timers }) ∧
    (s.due .trkRetry n = true → t0.expiries = 15 → s.trkState n = 2 →
      Does (.retryTimerExpire trk) s (lost (if s.allDead n = true then 2 else 4))) ∧
    (s.due .trkCredit n vc.val = true ∨ s.due .trkCreditAll n vc.val = true → Does (.creditAdvertiseTimer trk vc) s fun t =>
      .credit vc.val (unitGet 0 t0.limit vc.val) ∈ (t.trk n).due ∧ t.deadline .trkCreditAll n vc.val = some (s.tb + 10000) ∧
      t.deadline .trkCredit n vc.val = none ∧ t = { s with trunks := t.trunks, timers := t.timers }) ∧
    (s.due .trkBeat n = true → s.trkState n = 2 → (∃ k ∈ s.trkLanes n, (s.lane k).txIdle = false) → Does (.heartbeat trk) s fun t =>
      .ack 0 ∈ (t.trk n).due ∧ t.deadline .trkBeat n = some (s.tb + 250) ∧ t = { s with trunks := t.trunks, timers := t.timers }) ∧
    (s.due .trkSilence n = true → s.trkState n = 2 → (∃ k ∈ s.trkLanes n, (s.lane k).rxIdle = false) →
      Does (.trunkHeartbeatLoss trk) s (lost 1)) ∧
    (s.trkState n = 0 → Does (.trunkFlush trk) s fun t => (t.trk n).replay = [] ∧ (t.trk n).store = [] ∧ (t.trk n).due = [] ∧
      t.trkState n = 0 ∧ cnt t 5 (t0.replay.length + t0.store.length) ∧
      t = { s with trunks := t.trunks, regs := t.regs, timers := t.timers }) ∧
    (s.trkState n = 1 ∨ s.trkState n = 2 → exec (.trunkFlush trk) s = .next s) ∧
    (Does (.trunkLinkCounterClr trk) s fun t => (∀ i, i < 13 → t.reg .trkCnt n i = 0) ∧
      t.trk n = { t0 with stallSince := t0.stallSince.map (fun _ => s.tb) } ∧ (∀ k, k ≠ n → t.trk k = s.trk k) ∧
      t = { s with regs := t.regs, trunks := t.trunks } ∧
      SameRegsBut (fun m i _ => m = .trkCnt ∧ i = n) s t) ∧
    (896 * 1024 < bytes → Does (.trkVcCfgWrite trk v) s fun t => t.fld F.trkLinkStatusCfgErr n = 1 ∧
      OnlyField F.trkLinkStatusCfgErr n 0 s t ∧ OnlyRegs s t) ∧
    (bytes ≤ 896 * 1024 → exec (.trkVcCfgWrite trk v) s = .next (s.setReg .trkVcCfg n 0 (vcCfgStored v)))

/-- Enabling with a bad lane set or host sets CFG_BAD and rings Bell 8; with a good one the trunk trains from DOWN for at most 2 ms with its fresh nonce. Disabling discards its link state, idles its lanes and leaves DOWN. PARAM with the same nonce draws another, with the same role fails with CAUSE 2, and from a MASTER with good values sets PEER_ID, PEER_NONCE, NVC_NOW and the width limit. A training out of time fails to DOWN (LOST when it resumed) and is retried after 1 ms. A wanted list starts a WIDTH transaction of 100 us; one not acknowledged retrains; a retrain request proposes 0, or waits for the transaction outstanding. A drained lane announces idle; a bad lane trains in the background, up to eight times. -/
def Obligations.TrunkTrainingAndWidth : Prop :=
  ∀ (trk : Fin 24) (lane : Fin 48) (v nonce : BitVec 64) (target : Fin 256) (q : Param) (s : State),
    let n := trk.val
    let l := lane.val
    let w := fldPut F.trkCfgEn 1 v
    let enable := Instr.trunkEnable trk v nonce
    let t0 := s.trk n
    let rest := fun (t : State) => SameDevices s t ∧ SameMemory s t
    let mode := s.fld F.quadPersonalityMode (wr F.trkCfgFirst w / 4)
    let okCfg := s.laneSetOk n w = true ∧ s.hostOk n w = true
    let trainsFresh := fun (t : State) => t.trkState n = 1 ∧ (t.trk n).training = .fromDown ∧ (t.trk n).replay = [] ∧
      t.reg .trkNonce n = nonce ∧ t.deadline .trkTrain n = some (s.tb + 2000000) ∧ rest t
    let fails := fun (cause : Nat) (t : State) => t.fld F.trkTrainCause n = cause ∧
      t.trkState n = (if t0.training = .resume then 3 else 0) ∧ t.fld F.bellSrcPending 8 (96 + n) = 1 ∧
      (s.fld F.trkCfgEn n = 1 → t.deadline .trkTrainRetry n = some (s.tb + 1000000)) ∧
      (∀ k ∈ s.trkLanes n, (t.lane k).txIdle = true) ∧ rest t
    let training := s.trkState n = 1 ∧ t0.training = .fromDown ∧ t0.param = none
    let own := s.fld F.trkCfgRole n
    let want := s.wantedList n
    let free := t0.widthFree = true
    (s.fld F.trkCfgEn n = 0 → ¬okCfg → Does enable s fun t => t.fld F.trkTrainCfgBad n = 1 ∧ t.fld F.bellSrcPending 8 (96 + n) = 1 ∧
      t.reg .trkCfg n = s.reg .trkCfg n ∧ t = { s with
        regs := t.regs, threads := t.threads, bellSince := t.bellSince, chip := (s.wakeOn 7).chip }) ∧
    (s.fld F.trkCfgEn n = 0 → okCfg → mode = 1 → s.mayTrain n = true → Does enable s fun t => trainsFresh t ∧
      t.fld F.trkCfgEn n = 1 ∧ t.fld F.trkCfgFirst n = wr F.trkCfgFirst v) ∧
    (s.fld F.trkCfgEn n = 1 → s.isTd n = false → Does (.trunkDisable trk) s fun t => t.fld F.trkCfgEn n = 0 ∧ t.trkState n = 0 ∧
      t.active n = 0 ∧ (t.trk n).replay = [] ∧ (t.trk n).param = none ∧ (∀ k ∈ s.trkLanes n, (t.lane k).txIdle = true) ∧ rest t) ∧
    (s.fld F.trkCfgEn n = 0 → exec (.trunkDisable trk) s = .next s) ∧
    (Does (.trunkTargetWrite trk target) s fun t => t.fld F.trkCfgTarget n = target.val ∧ OnlyField F.trkCfgTarget n 0 s t ∧
      t = { s with regs := t.regs, trunks := t.trunks, timers := t.timers }) ∧
    (training → q.nonce = s.reg .trkNonce n → Does (.paramReceive trk q nonce) s fun t => t.reg .trkNonce n = nonce ∧
      t.trkState n = 1 ∧ t = { s with regs := t.regs, trunks := t.trunks }) ∧
    (training → q.nonce ≠ s.reg .trkNonce n → (q.loop = true ↔ own = 1) → Does (.paramReceive trk q nonce) s (fails 2)) ∧
    (training → q.nonce ≠ s.reg .trkNonce n → own = 0 → q.loop = true → q.version = 1 → q.reservedZero = true →
      Does (.paramReceive trk q nonce) s fun t => t.reg .trkPeerNonce n = q.nonce ∧ t.reg .trkPeerId n = q.peerId ∧
        t.fld F.trkLinkStatusNvcNow n = min (s.fld F.trkLinkCtrlNvc n) q.nvc ∧
        t.fld F.trkWidthLimit n = 2 ^ min (s.trkWidthCfg n) q.lanes - 1 ∧ (t.trk n).param = some q ∧ rest t) ∧
    (s.due .trkTrain n = true → s.trkState n = 1 → t0.secWait = true → Does (.trunkTrainTimeout trk) s (fails 4)) ∧
    (s.due .trkTrain n = true → s.trkState n = 1 → t0.secWait = false → own = 0 → Does (.trunkTrainTimeout trk) s (fails 1)) ∧
    (s.due .trkTrainRetry n = true → s.fld F.trkCfgEn n = 1 → s.mayTrain n = true →
      (s.trkState n = 0 → Does (.trunkTrainRetry trk nonce) s trainsFresh) ∧
      (s.trkState n = 3 → (s.sec n).dropped = false → Does (.trunkTrainRetry trk nonce) s fun t => t.trkState n = 1 ∧
        (t.trk n).training = .resume ∧ (t.trk n).replay = t0.replay ∧ rest t)) ∧
    (s.trkState n = 2 → free → want ≠ s.active n → want ≠ 0 → Does (.widthPropose trk) s fun t =>
      (t.trk n).own = some { mask := want, txn := (s.fld F.trkWidthTxn n + 1) % 256, base := s.txNext n } ∧
      t.fld F.trkWidthBusy n = 1 ∧ t.active n = want ∧ t.deadline .trkWidth n = some (s.tb + 100000) ∧ rest t) ∧
    (want = s.active n → exec (.widthPropose trk) s = .next s) ∧
    (∀ o, s.due .trkWidth n = true → t0.own = some o → o.acked = false → s.mayTrain n = true → (s.sec n).dropped = false →
      Does (.widthAbandon trk) s fun t => t.trkState n = 1 ∧ (t.trk n).training = .resume ∧ (t.trk n).own = none ∧ rest t) ∧
    (s.trkState n = 2 → free → Does (.trunkRetrainRequest trk) s fun t =>
      (t.trk n).own = some { mask := 0, txn := (s.fld F.trkWidthTxn n + 1) % 256, base := s.txNext n } ∧ t.active n = s.active n ∧
      t = { s with regs := t.regs, trunks := t.trunks, timers := t.timers }) ∧
    (s.trkState n = 2 → ¬free → Does (.trunkRetrainRequest trk) s fun t => t.trk n = { t0 with wantRetrain := true } ∧
      t = { s with trunks := t.trunks }) ∧
    (s.trkState n ≠ 2 → exec (.trunkRetrainRequest trk) s = .next s) ∧
    (s.trkOf l = some n → s.drainedNow n l = true → Does (.laneDrainIdle lane) s fun t => (t.lane l).txIdle = true ∧
      (t.lane l).idleAnnounced = true ∧ unitGet none (t.trk n).txLeft (s.lanePos n l) = none ∧
      (∃ m, t.out = .marker l m :: s.out ∧ m.idleNext = true) ∧
      t = { s with regs := t.regs, trunks := t.trunks, lanes := t.lanes, out := t.out, quads := t.quads }) ∧
    (s.trkOf l = some n → s.due .badLane l = true → s.trkState n = 2 → unitGet 0 t0.retrains (s.lanePos n l) < 8 →
      s.fld F.laneCtrlEn l = 1 → Does (.badLaneRetrain lane) s fun t =>
        unitGet 0 (t.trk n).retrains (s.lanePos n l) = unitGet 0 t0.retrains (s.lanePos n l) + 1 ∧ t.deadline .badLane l = none ∧
        (s.fld F.quadStatusReady (l / 4) = 1 → s.laneMode l ≠ 0 → s.hallState (l / 12) = 0 → t.fld F.laneStatusState l = 1) ∧ rest t)

/-- When the last packet of a lost pair member has crossed to its covering mate, the member's link state is discarded and it may train from DOWN. A RESYNC makes each context it names unknown at both members and stops its gap timers, and changes no other context. SPLICE_END with no continuation only counts a frame in and out; with a continuation whose leading bytes are missing the straddler is dropped and counted, and both halves are forgotten. When a gap timer runs out with packets held, PSN_GAP counts and Bell 8 rings; with none held only the timer stops. -/
def Obligations.PairsAndFailover : Prop :=
  ∀ (trk : Fin 24) (vc : Fin 8) (ctx : Fin 256) (mask : BitVec 256) (m : Nat) (s : State),
    let n := trk.val
    let rest := fun (t : State) => SameDevices s t ∧ SameMemory s t
    let cnt := fun (t : State) (i : Nat) => t.fld F.trkPairCntCount n i = (s.fld F.trkPairCntCount n i + 1) % 2 ^ 48
    (s.mateOf n = some m → (s.trk n).held = true → s.trkState n = 3 → (s.trk m).covering = true →
      Does (.failoverTransferDone trk) s fun t => (t.trk n).held = false ∧ (t.trk n).replay = [] ∧ (t.trk n).store = [] ∧ rest t ∧
        (s.fld F.trkCfgEn n = 1 → s.mayTrain n = true → t.trkState n = 1)) ∧
    (s.mateOf n = none → exec (.failoverTransferDone trk) s = .next s) ∧
    (s.mateOf n = some m → Does (.resyncReceive trk mask) s fun t => rest t ∧ ∀ c, c < 256 →
      (mask.getLsbD c = true → ∀ k ∈ [n, m], t.psnNext k c = none ∧ t.deadline .psnGap k c = none) ∧
      (mask.getLsbD c = false → ∀ k, t.psnNext k c = s.psnNext k c ∧ t.deadline .psnGap k c = s.deadline .psnGap k c)) ∧
    (s.mateOf n = none → exec (.resyncReceive trk mask) s = .next (s.frameLink (n / 6))) ∧
    (unitGet none (s.trk n).contRx vc.val = none → exec (.spliceEndReceive trk vc) s = .next (s.frameLink (n / 6))) ∧
    (∀ c, unitGet none (s.trk n).contRx vc.val = some c → s.mateOf n = some m → (unitGet [] (s.trk m).strad vc.val).length < 4 →
      Does (.spliceEndReceive trk vc) s fun t => cnt t 3 ∧ unitGet none (t.trk n).contRx vc.val = none ∧
        unitGet [] (t.trk m).strad vc.val = [] ∧ t.parcels = s.parcels ∧ rest t) ∧
    (s.due .psnGap n ctx.val = true →
      s.psnWaiting n ctx.val ((s.psnNext n ctx.val).getD 0) = [] → Does (.psnGapHoldExpire trk ctx) s fun t =>
        t.deadline .psnGap n ctx.val = none ∧ t = { s with timers := t.timers }) ∧
    (s.due .psnGap n ctx.val = true →
      s.psnWaiting n ctx.val ((s.psnNext n ctx.val).getD 0) ≠ [] → Does (.psnGapHoldExpire trk ctx) s fun t =>
        cnt t 1 ∧ t.fld F.bellSrcPending 8 (96 + n) = 1 ∧ rest t)

/-- A whole packet is dropped for its first failing check or accepted with HOPS reduced on a trunk, its TB, the rings that sample it and the pipeline it is dealt to. Classification stamps it; with no entry program it is dropped with reason 8, with a poisoned word read with reason 4 and a record, and act.queue of word 0 sends it to leaf queue 0 under VC 0. Admission grants, drops (reason 8 unusable, 9 no room) or leaves a lossless packet waiting, decided again later. Granted packets cross an open Stair and, when the arbiter (its weights open, assumption log 168) chooses their source, are written into free cells, their segments and credits released, and an Usher's input queue that becomes non-empty signals its Bell; one above MAX is dropped with reason 10. LOCKSTEP decides ended epochs only. A taken packet departs. Local packets enter when cells are free; VC buffers claim cells at 4 credits each; firmware cells are withheld. -/
def Obligations.PacketsThroughTheHub : Prop :=
  ∀ (hall : Fin 4) (src : Fin 5) (trk : Fin 24) (vc : Fin 8) (port : Fin 48) (unit : Fin 64) (word : BitVec 48) (p : Parcel) (q : Nat)
    (s : State),
    let h := hall.val
    let n := trk.val
    let there := s.parcel p.id = some p
    let trunk := decide (p.src < 24) && !p.loc && !s.tdOn p.src
    let v := s.version h (s.epochNow h)
    let maps := s.chipRuns = true ∧ s.hallRuns h 2 p.pipe = true ∧ s.nextToClassify h = some p
    let decides := s.lockstep h = false ∧ s.chipRuns = true ∧ s.flightRuns h 3 0 = true
    let asks := decides ∧ s.nextAsker h src.val = some p ∧ there ∧ p.queue = some q ∧
      q / 2048 = h ∧ s.hallState h = 0
    let open_ := s.usable q = true ∧ s.portConfigured (s.portOf q) = true
    let granted := Moves p { p with spot := .granted, tbGrant := s.tb } s
    let arrives := s.chipRuns = true ∧ s.hallRuns h 3 0 = true ∧ there ∧ p.queue = some q ∧
      s.offer h src.val = some p ∧ (s.arbiter h).map (·.1) = some src.val
    let linkTb := if s.lockstep h then 64 * (s.hall h).lsNext else s.tb
    let linked := fun (at_ : Nat) (t : State) => ∃ r, t.parcel p.id = some r ∧ r.spot = .linked ∧ r.hall = h ∧ r.segs = [] ∧ r.vcBuf = none ∧
      r.tbLink = at_ ∧ unitGet [] t.leafQ q = unitGet [] s.leafQ q ++ [p.id] ∧ SameDevices s t ∧
      (∀ c ∈ r.cells, c ∈ s.freeCells h) ∧
      (unitGet [] s.leafQ q = [] → ∀ j, j < 32 → s.flag F.hallUshqValid h j = true → s.fld F.hallUshqQueue h j = q % 2048 →
        t.fld F.bellSrcPending (2 * h + j / 16) (16 + j % 16) = 1) ∧
      ∀ a, (∀ c ∈ r.cells, ¬(cellAddr h c ≤ a ∧ a < cellAddr h c + 256)) → t.byte a = s.byte a
    let avg := avgStep (if s.depthSeen q p.id = 0 then 0 else unitGet 0 (s.hall h).redAvg (q % 2048)) (s.depthSeen q p.id)
      (s.fld F.hallRedCtrlW h (s.fld F.hallQadmProfile h (q % 2048)))
    let colour := s.fld F.hallQadmProfile h (q % 2048) * 3 + min 2 p.pkt.colour
    (s.hallState h = 0 → s.parcels.find? (fun x => x.hall == h && x.spot == .arrived) = some p → there →
      ((∀ c, acceptCheck p.pkt p.poison trunk = some c → Does (.landingAccept hall) s (Dropped p c s)) ∧
      (acceptCheck p.pkt p.poison trunk = none → Does (.landingAccept hall) s fun t => ∃ r,
        t.parcels = s.parcels.filter (fun x => x.id != p.id) ++ [r] ∧
        r = {
          p with
          pkt := { p.pkt with hops := if trunk then p.pkt.hops - 1 else p.pkt.hops }
          spot := .accepted, tbAccept := s.tb, samples := r.samples, pipe := (s.hall h).deal } ∧
        (∀ g, g ∈ r.samples ↔ g < 16 ∧ s.flag F.galCtrlEn g = true ∧ s.fld F.galCtrlSampleHall g = h ∧
          s.fld F.galCtrlSampleN g ≠ 0 ∧ (unitGet 0 s.galCount g + 1) % s.fld F.galCtrlSampleN g = 0) ∧
        t = { s with parcels := t.parcels, galCount := t.galCount, halls := (s.setHall h { s.hall h with deal := 1 - (s.hall h).deal }).halls }))) ∧
    (maps → there → s.flag F.hallMapCtrlEn h = false ∨ v.fld F.hallEntryValid p.src = 0 →
      Does (.mapClassify { hall := hall }) s (Dropped p 8 s)) ∧
    (maps → there → (s.countErr h 2 p.pipe).1 ≠ s.fld F.hallErrCtrlFenceThresh h → Does (.mapClassify { hall := hall, poison := some word }) s fun t =>
      t.parcel p.id = none ∧
      (p.copy = none → t.fld F.hallDropCount h 4 = (s.fld F.hallDropCount h 4 + 1) % 2 ^ 48) ∧
      Logged {
        scope := h, level := 1, action := if s.flightActs h 2 p.pipe = true then 1 else 5, cls := 5, unit := flightUnit 2 p.pipe
        info := word.toNat } s t) ∧
    (∀ g w e, maps → there → s.flag F.hallMapCtrlEn h = true → v.fld F.hallEntryValid p.src = 1 →
      v.progs.find? (fun x => x.num == v.fld F.hallEntryProg p.src) = some g → s.changesFor h (s.epochNow h) = [] → p.samples = [] →
      p.moved = false → g.words = [w, e] → wMajor w = 0x38 → wFunc4 w = 1 → wRa w = 0 → wPred w = 0 → wMajor e = 0x38 → wFunc4 e = 15 →
      wPred e = 0 → Does (.mapClassify { hall := hall }) s fun t => ∃ r, t.parcel p.id = some r ∧ r.spot = .asking ∧ r.queue = some 0 ∧
        r.pkt.vc = 0 ∧ r.stamped = true ∧ r.epoch = s.epochNow h ∧ r.tbReady = s.readyAt p ∧ SameDevices s t ∧ SameMemory s t) ∧
    (asks → ¬open_ → Does (.admissionDecide hall src) s (Dropped p 8 s)) ∧
    (asks → open_ → p.pkt.lossy = true → s.grantsLossy q p.pkt.cellCount = true → Does (.admissionDecide hall src) s granted) ∧
    (asks → open_ → p.pkt.lossy = true → s.grantsLossy q p.pkt.cellCount = false →
      Does (.admissionDecide hall src) s (Dropped p 9 s)) ∧
    (asks → open_ → p.pkt.lossy = false → Does (.admissionDecide hall src) s (Moves p
      (if s.admits q p.pkt.cellCount 0 = true then { p with spot := .granted, tbGrant := s.tb } else { p with spot := .refusedOnce }) s)) ∧
    (decides → there → p.queue = some q → q / 2048 = h → s.hallState h = 0 → open_ → p.pkt.lossy = false →
      s.parcels.filter (fun x => x.spot == .refusedOnce && x.queue.any (fun a => a / 2048 == h)) = [p] →
      heldBack (s.askers h p.hall) p = false → s.admits q p.pkt.cellCount 0 = true → Does (.admissionRetry hall) s granted) ∧
    (src.val ≠ h → s.stairOpen src.val h = true → s.nextToCross src.val h = some p →
      Does (.stairCross src hall) s (Moves p { p with spot := .crossing } s)) ∧
    (s.stairOpen src.val h = false → exec (.stairCross src hall) s = .next s) ∧
    ((s.arbiter h).map (·.1) ≠ some src.val → exec (.queueLink hall src) s = .next s) ∧
    (arrives → q / 2048 = h → p.pkt.lossy = false → Does (.queueLink hall src) s (linked linkTb)) ∧
    (arrives → q / 2048 = h → p.pkt.lossy = true → s.admits q p.pkt.cellCount p.id = false →
      Does (.queueLink hall src) s (Dropped p 9 s)) ∧
    (arrives → q / 2048 = h → p.pkt.lossy = true → s.admits q p.pkt.cellCount p.id = true → s.flag F.hallQadmRedEn h (q % 2048) = true →
      s.flag F.hallRedCtrlMode h (s.fld F.hallQadmProfile h (q % 2048)) = false →
      ((s.fld F.hallRedLiveMinNow h colour * 65536 ≤ avg ∧ s.fld F.hallRedLiveMaxNow h colour * 65536 ≤ avg →
        Does (.queueLink hall src) s (Dropped p 10 s)) ∧
      (avg < s.fld F.hallRedLiveMinNow h colour * 65536 → Does (.queueLink hall src) s (linked linkTb)))) ∧
    (s.lockstep h = true → s.chipRuns = true → s.flightRuns h 3 0 = true → s.parcels = [p] → p.spot = .asking → p.queue = some q →
      q / 2048 = h → s.hallState h = 0 → open_ → p.pkt.lossy = false → s.admits q p.pkt.cellCount 0 = true →
      (p.hall = h ∨ s.stairOpen p.hall h = true) →
      ((State.presented p h < s.epochIndex → (s.hall h).lsNext < s.epochIndex → (s.hall h).lsFreed = [] →
        Does (.lockstepEpochDecide hall) s (linked (64 *
          ((if (s.hall h).lsNext ≤ State.presented p h then State.presented p h else s.epochIndex - 1) + 1)))) ∧
      (s.epochIndex ≤ State.presented p h → Does (.lockstepEpochDecide hall) s fun t => t = { s with halls := t.halls }))) ∧
    (s.lockstep h = false → exec (.lockstepEpochDecide hall) s = .next s) ∧
    (s.parcels.find? (fun x => x.hall == port.val / 12 && x.spot == .serving && x.queue.any (fun a => s.portOf a == port.val) &&
      s.tookLast x) = some p → Does (.packetDepart port) s fun t => t.parcel p.id = none ∧
        (t.port port.val).busy = (if (s.port port.val).busy = some p.id then none else (s.port port.val).busy) ∧
        (t.hall (port.val / 12)).frameOut = (s.hall (port.val / 12)).frameOut + 1 ∧ SameDevices s t ∧ SameMemory s t) ∧
    (∀ w, s.waiting.find? (fun x => x.hall == h && x.src == unit.val) = some w → w.queue = none → s.hallState h = 0 →
      w.pkt.cellCount ≤ s.localRoom h → Does (.localPacketEnter ⟨hall.val, by omega⟩ unit) s fun t => ∃ segs,
        t.parcels = s.parcels ++ [{
          id := s.nextParcel, pkt := { w.pkt with hops := s.fld F.hallBufCtrlHopsInit h }, src := unit.val,
          hall := h, spot := .arrived, loc := true, segs := segs }] ∧ segs.length = 4 * w.pkt.cellCount ∧
        (∀ g ∈ segs, g / 4 ∈ s.landingEmpty h) ∧ t.waiting = s.waiting.erase w ∧ t.nextParcel = s.nextParcel + 1 ∧
        (∀ a, (∀ g ∈ segs, ¬(cellAddr h 0 + 64 * g ≤ a ∧ a < cellAddr h 0 + 64 * g + 64)) → t.byte a = s.byte a) ∧
        t = { s with
          waiting := t.waiting, halls := t.halls, free := t.free, parcels := t.parcels, nextParcel := t.nextParcel
          mem := t.mem, poisoned := t.poisoned }) ∧
    (∀ w, s.waiting.find? (fun x => x.hall == 4 && x.src == unit.val) = some w → w.queue = some q →
      Does (.localPacketEnter 4 unit) s fun t => t.parcels = s.parcels ++ [{
          id := s.nextParcel, pkt := { w.pkt with hops := s.fld F.hallBufCtrlHopsInit (q / 2048) }, src := unit.val, hall := 4,
          spot := .asking, loc := true, queue := some q, tbAccept := s.tb, tbReady := s.tb }] ∧
        t = { s with waiting := s.waiting.erase w, parcels := t.parcels, nextParcel := s.nextParcel + 1 }) ∧
    (s.flag F.trkCfgEn n = true → s.isTd n = false → (s.trk n).param.isSome = true → Does (.landingCellClaim trk vc) s fun t =>
      let k := min (s.vcReserve n vc.val - (s.claim n vc.val).length) (s.landingEmpty (n / 6)).length
      (t.claim n vc.val).length = (s.claim n vc.val).length + k ∧ (∀ c ∈ t.claim n vc.val, c ∈ s.claim n vc.val ∨ c ∈ s.landingEmpty (n / 6)) ∧
      (0 < k → unitGet 0 (t.trk n).limit vc.val = (unitGet 0 (s.trk n).limit vc.val + 4 * k) % 2 ^ 16) ∧
      t = { s with trunks := t.trunks, timers := t.timers, free := t.free, claims := t.claims }) ∧
    (s.flag F.trkCfgEn n = false → exec (.landingCellClaim trk vc) s = .next s) ∧
    (∀ c rest, s.fwPending h = c :: rest → Does (.fwCellWithhold hall) s fun t =>
      (t.hall h).fwHeld = (s.hall h).fwHeld ++ [c] ∧ t = { s with halls := t.halls })

/-- Packets held for changed entries go on when no epoch older than theirs is live, or at the timeout, counted as ORDER_BREAK with a Bell. A QADM write clamps ALPHA to 9; a sum of reserves above 4,096 sets CFG_ERR alone. A colour's MIN above MAX does the same; else both are in force at once. An adaptive profile above 1.1 of its target lowers its thresholds by 1/16 to no less than a quarter, below 0.9 raises them. A copy is written at WR as a 128-byte entry; a full ring stops or overwrites; EN zeroes WR and RD or is refused. A MAC counts RS-FEC codewords on its lane, bad FCS, short, long, control and unplaced frames; a good one becomes a TYPE 4 packet. A sent frame carries padding and FCS; an E2E failure is dropped with reason 6, one too long with 13. -/
def Obligations.HoldsThresholdsGalleriesAndEthernet : Prop :=
  ∀ (hall : Fin 4) (leaf : Fin 2048) (prof : Fin 16) (colour : Fin 3) (ring : Fin 16) (mac : Fin 8) (value : BitVec 64)
    (frame : List Byte) (fixed lost : Nat) (p : Parcel) (s : State),
    let h := hall.val
    let m := mac.val
    let drained := fun (e : Nat) => !s.olderLive h e
    let late := fun (e : Nat) => s.due .epochHold h e && s.olderLive h e
    let released := fun (f : Nat → Bool) (t : State) =>
      t.parcels = s.parcels.map (fun x => if x.hall = h ∧ x.spot = Spot.epochHeld ∧ f x.epoch = true then
        { x with spot := .asking, tbReady := s.readyAt x } else x) ∧
      t.fld F.hallEpochStatusHeld h = s.fld F.hallEpochStatusHeld h - (s.heldIn h f).length ∧
      ∀ x ∈ s.heldIn h f, t.deadline .epochHold h x.epoch = none
    let cfgErr := fun (t : State) => t.fld F.hallBufCtrlCfgErr h = 1 ∧ OnlyField F.hallBufCtrlCfgErr h 0 s t ∧ OnlyRegs s t
    let others := (s.regs.map (fun e => if e.1.name = .hallQadm ∧ e.1.i = h ∧ e.1.j ≠ leaf.val then fldGet F.hallQadmReserve e.2
      else 0)).sum
    let j := prof.val * 3 + colour.val
    let grid := unitGet {} (s.hall h).redGrid prof.val
    let adapts := s.chipRuns = true ∧ s.flag F.hallRedCtrlAdapt h prof.val = true ∧ grid.on = true ∧ grid.next ≤ s.tb
    let queues := s.leafQ.filter (fun e => e.1 / 2048 == h && e.2 != [] && s.fld F.hallQadmProfile h (e.1 % 2048) == prof.val)
    let delay := (queues.map (fun e => unitGet 0 (s.hall h).delayAvg (e.1 % 2048))).foldl max 0
    let target := s.fld F.hallRedCtrlTarget h prof.val * 65536
    let moves := fun (up : Bool) (t : State) =>
      t.fld F.hallRedLiveMinNow h j = adaptValue up (s.fld F.hallRedLiveMinNow h j) (s.fld F.hallRedCMin h j) ∧
      t.fld F.hallRedLiveMaxNow h j = adaptValue up (s.fld F.hallRedLiveMaxNow h j) (s.fld F.hallRedCMax h j) ∧
      SameMemory s t ∧ (t.chip = s.chip ∨ t.chip = (s.wakeOn 7).chip) ∧
      t = { s with regs := t.regs, halls := t.halls, threads := t.threads, bellSince := t.bellSince, chip := t.chip }
    let g := ring.val
    let wr := s.fld F.galWrWr g
    let size := 2 ^ s.fld F.galCtrlSizeLog2 g
    let full := (wr + 2 ^ 32 - s.fld F.galRdRd g) % 2 ^ 32 = size
    let serves := fun (port : Nat) => s.parcels.find? (fun x => x.hall == port / 12 && x.spot == .serving && !x.taken &&
      x.queue.any (fun q => s.portOf q == port)) = some p
    let entryAt := s.fld F.galBaseBase g + wr % size * 128
    let put := fun (c : CopyInfo) (t : State) => t.fld F.galWrWr g = (wr + 1) % 2 ^ 32 ∧
      (∀ a, t.byte a = if entryAt ≤ a ∧ a < entryAt + 128 then
        (galleryEntry c (s.galLossy.contains g) (wr % 65536) s.tb).getD (a - entryAt) 0 else s.byte a) ∧
      t.parcels = s.parcels.map (fun x => if x.id = p.id then { p with taken := true } else x) ∧
      t = { s with
        regs := t.regs, mem := t.mem, parcels := t.parcels, galLossy := s.galLossy.erase g
        poisoned := (s.unpoison entryAt 128).poisoned }
    let ringOn := s.flag F.galCtrlEn g = true ∧ s.flag F.galStatusStopped g = false
    let cnt := fun (t : State) (i k : Nat) => t.fld F.ethCntCount m i = (s.fld F.ethCntCount m i + k) % 2 ^ 48
    let receive := Instr.ethFrameReceive mac { frame := frame, fixed := fixed, lost := lost }
    let coded := s.ethFec m fixed lost
    let counts := fun (i : Nat) => Does receive s fun t => cnt t i 1 ∧ OnlyField F.ethCntCount m i coded t ∧ OnlyRegs s t
    let body := frame.take (frame.length - 4)
    let crcOk := crc32 body = leNat (frame.drop (frame.length - 4))
    let inSize := 64 ≤ frame.length ∧ frame.length ≤ s.fld F.ethCtrlMaxFrame m
    let plain := crcOk ∧ inSize ∧ etherType body 12 ≠ 0x8808 ∧ isTagged body (s.fld F.ethTagTpid m) = false
    let mk := ethPacket body (s.fld F.ethCtrlTid m) (ethFlow body (s.fld F.ethTagTpid m))
    let sent := s.ethFrame m p.pkt.payload
    (Does (.epochHoldRelease hall) s fun t => released drained t ∧ OnlyField F.hallEpochStatusHeld h 0 s t ∧
      t = { s with parcels := t.parcels, regs := t.regs, timers := t.timers }) ∧
    (s.heldIn h late ≠ [] → Does (.epochHoldTimeout hall) s fun t => released late t ∧
      t.fld F.hallOrderBreakCount h = (s.fld F.hallOrderBreakCount h + (s.heldIn h late).length) % 2 ^ 48 ∧
      t.fld F.bellSrcPending 8 (120 + h) = 1 ∧ SameDevices s t ∧ SameMemory s t) ∧
    (s.heldIn h late = [] → Does (.epochHoldTimeout hall) s fun t => t = { s with regs := t.regs, trunks := t.trunks, ports := t.ports }) ∧
    (4096 < others + fldGet F.hallQadmReserve value → Does (.qadmWrite hall leaf value) s cfgErr) ∧
    (others + fldGet F.hallQadmReserve value ≤ 4096 → Does (.qadmWrite hall leaf value) s fun t =>
      t.fld F.hallQadmReserve h leaf.val = fldGet F.hallQadmReserve value ∧
      t.fld F.hallQadmAlpha h leaf.val = min 9 (fldGet F.hallQadmAlpha value) ∧
      t.fld F.hallQadmRedEn h leaf.val = fldGet F.hallQadmRedEn value ∧
      t.fld F.hallQadmProfile h leaf.val = fldGet F.hallQadmProfile value ∧
      OnlyRegs s t ∧ SameRegsBut (fun n a b => n = .hallQadm ∧ a = h ∧ b = leaf.val) s t) ∧
    (fldGet F.hallRedCMax value < fldGet F.hallRedCMin value → Does (.redProfileWrite hall prof colour value) s cfgErr) ∧
    (fldGet F.hallRedCMin value ≤ fldGet F.hallRedCMax value → Does (.redProfileWrite hall prof colour value) s fun t =>
      t.fld F.hallRedCMin h j = fldGet F.hallRedCMin value ∧ t.fld F.hallRedCMax h j = fldGet F.hallRedCMax value ∧
      t.fld F.hallRedCMaxp h j = fldGet F.hallRedCMaxp value ∧
      t.fld F.hallRedLiveMinNow h j = fldGet F.hallRedCMin value ∧ t.fld F.hallRedLiveMaxNow h j = fldGet F.hallRedCMax value ∧
      OnlyRegs s t ∧ SameRegsBut (fun n a b => (n = .hallRedC ∨ n = .hallRedLive) ∧ a = h ∧ b = j) s t) ∧
    (adapts → target * 11 < delay * 10 → Does (.redAdapt hall prof) s (moves false)) ∧
    (adapts → delay * 10 < target * 9 → Does (.redAdapt hall prof) s (moves true)) ∧
    (s.tb < grid.next → exec (.redAdapt hall prof) s = .next s) ∧
    (∀ c, serves (12 * h + 11) → p.copy = some c → c.ring = g →
      ((ringOn → ¬full → Does (.galleryWrite hall) s (put c)) ∧
      (ringOn → full → s.flag F.galCtrlMode g = true → Does (.galleryWrite hall) s fun t => t.fld F.galStatusStopped g = 1 ∧
        t.fld F.bellSrcPending 8 (120 + h) = 1 ∧ t.parcel p.id = none ∧ SameDevices s t ∧ SameMemory s t) ∧
      (ringOn → full → s.flag F.galCtrlMode g = false → Does (.galleryWrite hall) s fun t => put c t ∧
        t.fld F.galRdRd g = (s.fld F.galRdRd g + 1) % 2 ^ 32 ∧
        t.fld F.galOverwrittenCount g = (s.fld F.galOverwrittenCount g + 1) % 2 ^ 48))) ∧
    (s.flag F.galCtrlEn g = false → fldGet F.galCtrlEn value = 1 →
      ((s.galRingOk (s.fld F.galBaseBase g) (2 ^ fldGet F.galCtrlSizeLog2 value) = true → Does (.galEnable ring value) s fun t =>
        t.fld F.galCtrlEn g = 1 ∧ t.fld F.galWrWr g = 0 ∧ t.fld F.galRdRd g = 0 ∧
        t.fld F.galCtrlSizeLog2 g = fldGet F.galCtrlSizeLog2 value ∧ t = { s with regs := t.regs, galCount := t.galCount }) ∧
      (s.galRingOk (s.fld F.galBaseBase g) (2 ^ fldGet F.galCtrlSizeLog2 value) = false → Does (.galEnable ring value) s fun t =>
        t.fld F.galCtrlEn g = 0 ∧ t.fld F.galStatusCfgErr g = 1 ∧ OnlyRegs s t))) ∧
    (Does (.galRearm ring) s fun t => t.fld F.galStatusStopped g = 0 ∧ OnlyField F.galStatusStopped g 0 s t ∧ OnlyRegs s t) ∧
    (∀ q, s.unitQuad 5 m = some q → s.flag F.ethCtrlEn m = true →
      ((¬crcOk → counts 2) ∧ (crcOk → frame.length < 64 → counts 3) ∧
      (crcOk → 64 ≤ frame.length → s.fld F.ethCtrlMaxFrame m < frame.length → counts 4) ∧
      (crcOk → inSize → etherType body 12 = 0x8808 → counts 5) ∧
      (plain → (mk 0).cellCount ≤ s.localRoom (q / 3) → Does receive s fun t => cnt t 0 1 ∧
        cnt t 1 frame.length ∧ cnt t 6 0 ∧ (∃ r, t.parcels = s.parcels ++ [r] ∧ r.pkt = mk (s.fld F.hallBufCtrlHopsInit (q / 3)) ∧
          r.id = s.nextParcel ∧ r.src = 32 + m ∧ r.hall = q / 3 ∧ r.spot = .arrived ∧ r.loc = true) ∧
        t = { s with
          regs := t.regs, halls := t.halls, free := t.free, parcels := t.parcels, nextParcel := s.nextParcel + 1
          mem := t.mem, poisoned := t.poisoned, chip := (s.wakeOn 3).chip }) ∧
      (plain → s.localRoom (q / 3) < (mk 0).cellCount → Does receive s fun t => cnt t 0 1 ∧
        cnt t 6 1 ∧ t = { s with regs := t.regs, chip := (s.wakeOn 3).chip }) ∧
      (serves (12 * (q / 3) + 7) → p.pkt.e2eOk = true → sent.length ≤ s.fld F.ethCtrlMaxFrame m →
        Does (.ethFrameTransmit mac) s fun t => t.out = .ethFrame m sent :: s.out ∧ cnt t 7 1 ∧ cnt t 8 sent.length ∧
        t.parcels = s.parcels.map (fun x => if x.id = p.id then { p with taken := true } else x) ∧
        t = { s with regs := t.regs, out := t.out, parcels := t.parcels }) ∧
      (serves (12 * (q / 3) + 7) → s.parcel p.id = some p → p.pkt.e2eOk = true → s.fld F.ethCtrlMaxFrame m < sent.length →
        Does (.ethFrameTransmit mac) s fun t => cnt t 9 1 ∧ Dropped p 13 s t) ∧
      (serves (12 * (q / 3) + 7) → s.parcel p.id = some p → p.pkt.e2eOk = false →
        Does (.ethFrameTransmit mac) s (Dropped p 6 s)))) ∧
    (∀ q l u, s.unitQuad 5 m = some q → (s.unitLanes 5 m).head? = some l → s.laneUnit l = some u →
      unitRate (unitField (s.reg .quadPersonality (l / 4)) u) = 2 → Does receive s fun t =>
        t.fld F.laneCntCount l 6 = min cnt48 (s.fld F.laneCntCount l 6 + fixed) ∧
        t.fld F.laneCntCount l 8 = min cnt48 (s.fld F.laneCntCount l 8 + lost)) ∧
    (∀ q, s.unitQuad 5 m = some q → s.flag F.ethCtrlEn m = false → exec receive s = .next coded) ∧
    (s.unitQuad 5 m = none → exec receive s = .next s)

/-- tbl.ins stages an entry, tbl.del a deletion, each in place of a staged change of the same identity; a bad descriptor completes REFUSED, a full table or staging area FULL, an absent entry NOTFOUND. tbl.find writes the entry in force back. tbl.cnt reads a counter pair, tbl.cntc also clears it, tbl.mtr stages a meter. epoch.pub answers BUSY with four live epochs and FULL without room; else the next epoch is current with the staged changes applied and nothing staged any more. epoch.drain completes at once unless its epoch is live. A Hall above 3 is refused, and epoch.cur of it reads 0 (the model's choice, assumption log). -/
def Obligations.TableInstructionsStageAndEpochsPublish : Prop :=
  ∀ (x : Issue) (rd ra rb : Fin 32) (tag : Fin 16) (e : TblEntry) (s : State),
    let c := x.core.val
    let a := s.wzG x ra.val
    let v := s.wzG x rb.val
    let turned := s.tookTurn c x.thread.val
    let h := handleHall v
    let tb := handleTable v
    let ready := fun (srcs dsts : List Nat) (tagged : Bool) (chk : State → WzCheck) =>
      s.issues x { group := .switch, priv := true, tag := if tagged then some tag.val else none, srcs := srcs, dsts := dsts } chk = true
    let op := fun (n : Nat) (store : Bool) => ready [ra.val, rb.val] [] true (wzBuf x ra.val n store)
    let did := fun (status result : Nat) (t : State) => Completed x tag.val status result t ∧ WentOn x s t ∧ t.tb = s.tb
    let idle := fun (status : Nat) (t : State) => did status 0 t ∧ t = { turned with cores := t.cores, threads := t.threads, free := t.free }
    let d := s.localBytes c a 144
    let k := s.tblKind h tb
    let desc := s.entryOf h tb d
    let other := fun (y : TblChange) => !sameEntry k y.entry e
    let staged := (s.hall h).staged
    let used := (s.tblUsed h tb).length
    let noRoom := (∀ y ∈ staged, other y = true) ∧ 4096 ≤ staged.length
    let noEntry := s.tblSize h tb < used + 1
    let known := (∃ y ∈ (s.version h (s.epochNow h)).entries, sameEntry k y e = true) ∨ ∃ y ∈ staged, other y = false
    let puts := fun (del : Bool) (t : State) => did 0 0 t ∧ (t.hall h).staged = staged.filter other ++ [{ entry := e, del := del }] ∧
      t = { turned with cores := t.cores, threads := t.threads, halls := t.halls }
    let cur := s.epochNow h
    let live := (s.version h cur).entries
    let key := if k = 2 then leBytes 4 e.index else (d.drop 8).take (s.tblKeyBytes h tb)
    let cntHall := v / 2 ^ 16 % 4
    let cntIdx := v % 2 ^ 16
    let counted := fun (t : State) => did 0 0 t ∧ Stores x a (leBytes 8 (s.reg .hallCntPkt cntHall cntIdx).toNat ++
      leBytes 8 (s.reg .hallCntByte cntHall cntIdx).toNat) s t
    let p := s.wzG x ra.val
    let old := s.version p (s.epochNow p)
    let next := (s.epochNow p + 1) % 65536
    let retired := match s.drainSlot p (s.epochNow p) with
      | some i => decide (s.fld F.hallEpochDrainCount p i = 0)
      | none => true
    (op 144 false →
      (desc = none → Does (.tblIns x ra rb tag) s (idle 4) ∧ Does (.tblDel x ra rb tag) s (idle 4)) ∧
      (desc = some e → noRoom ∨ noEntry → Does (.tblIns x ra rb tag) s (idle 5)) ∧
      (desc = some e → ¬noRoom → ¬noEntry → k ≠ 0 ∨ used * 10 < s.tblSize h tb * 9 → Does (.tblIns x ra rb tag) s (puts false)) ∧
      (desc = some e → ¬known → Does (.tblDel x ra rb tag) s (idle 6)) ∧
      (desc = some e → known → noRoom → Does (.tblDel x ra rb tag) s (idle 5)) ∧
      (desc = some e → known → ¬noRoom → Does (.tblDel x ra rb tag) s (puts true))) ∧
    (op 144 true →
      (desc = none → Does (.tblFind x ra rb tag) s (idle 4)) ∧
      (desc = some e → entryFind k tb live key = none → Does (.tblFind x ra rb tag) s (idle 6)) ∧
      (∀ w, desc = some e → entryFind k tb live key = some w → Does (.tblFind x ra rb tag) s fun t => did 0 0 t ∧
        t.localNat c a 4 = 0 ∧ (k ≠ 0 → t.localNat c (a + 4) 4 = w.index % 2 ^ 32) ∧
        t.localNat c (a + 136) 8 = (w.data.toNat + 2 ^ 63) % 2 ^ 64 ∧
        ∀ b, ¬(localBase c + a ≤ b ∧ b < localBase c + a + 144) → t.byte b = s.byte b)) ∧
    (op 16 true → Does (.tblCnt x ra rb tag) s (fun t => counted t ∧ SameRegsBut (fun _ _ _ => False) s t) ∧
      Does (.tblCntc x ra rb tag) s fun t => counted t ∧ t.reg .hallCntPkt cntHall cntIdx = 0 ∧ t.reg .hallCntByte cntHall cntIdx = 0 ∧
        SameRegsBut (fun n i j => (n = .hallCntPkt ∨ n = .hallCntByte) ∧ i = cntHall ∧ j = cntIdx) s t) ∧
    (op 32 false →
      (meterOf (s.localBytes c a 32) = none → Does (.tblMtr x ra rb tag) s (idle 4)) ∧
      (∀ m, meterOf (s.localBytes c a 32) = some m → Does (.tblMtr x ra rb tag) s fun t => did 0 0 t ∧
        (t.hall h).stagedMtr = (s.hall h).stagedMtr.filter (fun y => y.1 != v % 2 ^ 14) ++ [(v % 2 ^ 14, m)] ∧
        t = { turned with cores := t.cores, threads := t.threads, halls := t.halls })) ∧
    (ready [ra.val] [] true noChk →
      (4 ≤ p → Does (.epochPub x ra tag) s (idle 4)) ∧
      (p < 4 → 4 ≤ s.fld F.hallEpochStatusLive p → Does (.epochPub x ra tag) s (idle 3)) ∧
      (p < 4 → s.fld F.hallEpochStatusLive p < 4 → s.pubFull p (s.entriesAfter p old.entries) = true →
        Does (.epochPub x ra tag) s (idle 5)) ∧
      (p < 4 → s.fld F.hallEpochStatusLive p < 4 → s.pubFull p (s.entriesAfter p old.entries) = false →
        Does (.epochPub x ra tag) s fun t => did 0 next t ∧ t.epochNow p = next ∧
          t.fld F.hallEpochStatusLive p = s.fld F.hallEpochStatusLive p + (if retired then 0 else 1) ∧
          (t.version p next).entries = s.entriesAfter p old.entries ∧ (t.version p next).regs = s.stagedRegs p ∧
          (retired = true → ∀ y ∈ t.versions, ¬(y.hall = p ∧ y.epoch = s.epochNow p)) ∧
          (t.hall p).staged = [] ∧ (t.hall p).stagedMtr = [] ∧ (t.hall p).stagedProg = [] ∧ SameDevices s t ∧ SameMemory s t)) ∧
    (ready [ra.val, rb.val] [] true noChk →
      (4 ≤ p → Does (.epochDrain x ra rb tag) s (idle 4)) ∧
      (p < 4 → s.epochLive p v = false → Does (.epochDrain x ra rb tag) s (idle 0)) ∧
      (p < 4 → v < 65536 → s.epochLive p v = true → Does (.epochDrain x ra rb tag) s fun t => InFlight x tag.val t ∧ WentOn x s t ∧
        t = { turned with cores := t.cores, threads := t.threads })) ∧
    (ready [ra.val] [rd.val] false noChk → Writes (.epochCur x rd ra) x rd (BitVec.ofNat 64 (if p < 4 then s.epochNow p else 0)) s)

/-- q.pop of a bound, filled input queue takes its oldest packet, writes its 32-byte descriptor and completes OK; of an empty or unbound one NOTFOUND. q.push of a popped packet frees its cells and puts the packet, its header as edited and its bytes as its cells hold them, into the Landing as a new arrival; it is REFUSED for a foreign source or another length, FULL without Landing room, NOTFOUND for a packet not popped. q.drop drops the packet. q.depth reads the packets of the queue. A definition that fails its checks leaves EN 0 with CFG_ERR; a used table stays defined. GO starts one staging; its end clears BUSY, gives RESULT, stages a good program and rings Bell 8. -/
def Obligations.UsherQueuesAndProgramStaging : Prop :=
  ∀ (x : Issue) (rd ra rb : Fin 32) (tag : Fin 16) (hall : Fin 4) (table : Fin 32) (prog : BitVec 8) (value : BitVec 64)
    (p : Parcel) (q : Nat) (s : State),
    let c := x.core.val
    let a := s.wzG x ra.val
    let v := s.wzG x rb.val
    let turned := s.tookTurn c x.thread.val
    let ready := fun (srcs dsts : List Nat) (tagged : Bool) (chk : State → WzCheck) =>
      s.issues x { group := .queue, tag := if tagged then some tag.val else none, srcs := srcs, dsts := dsts } chk = true
    let did := fun (status : Nat) (t : State) => Completed x tag.val status 0 t ∧ WentOn x s t
    let idle := fun (status : Nat) (t : State) => did status t ∧ t = { turned with cores := t.cores, threads := t.threads }
    let d := s.localBytes c a 32
    let held := (p.cells.flatMap (fun y => s.bytes (cellAddr p.hall y) 256)).drop 16
    let new : Packet := { Packet.ofBytes (d.take 16) with payload := held.take (Packet.ofBytes (d.take 16)).len }
    let fits := new.cellCount = p.cells.length ∧ field d 22 24 = p.cells.length
    let h := hall.val
    let n := table.val
    let en := fldGet F.hallTblDefEn value = 1
    let defined := s.fld F.hallTblDefEn h n = 1
    let s' := s.setReg .hallTblDef h n (regWrite .hallTblDef (BitVec.allOnes 64) value (s.reg .hallTblDef h n))
    let onlyDef := fun (t : State) => OnlyRegs s t ∧
      SameRegsBut (fun m i j => (m = .hallTblDef ∧ i = h ∧ j = n) ∨ (m = .hallMapStatus ∧ i = h)) s t
    let hs := s.hall h
    let staging := s.progLoad h hs.progNum hs.progSrc
    (ready [ra.val, rb.val] [] true (wzBuf x ra.val 32 true) →
      (s.inputQueue c v = none → Does (.qPop x ra rb tag) s (idle 6)) ∧
      (s.inputQueue c v = some q → unitGet [] s.leafQ q = [] → Does (.qPop x ra rb tag) s (idle 6)) ∧
      (∀ rest, s.inputQueue c v = some q → unitGet [] s.leafQ q = p.id :: rest → s.parcel p.id = some p →
        Does (.qPop x ra rb tag) s fun t => did 0 t ∧ Stores x a (popDescriptor p) s t ∧
          unitGet [] t.leafQ q = rest ∧ t.parcels = s.parcels.map (fun y => if y.id = p.id then { p with spot := .popped c } else y) ∧
          t = { turned with
            cores := t.cores, threads := t.threads, leafQ := t.leafQ, parcels := t.parcels, mem := t.mem, halls := t.halls
            nodes := t.nodes, poisoned := (s.unpoison (localBase c + a) 32).poisoned })) ∧
    (ready [ra.val, rb.val] [] true (wzBuf x ra.val 32 false) →
      (s.poppedAt c d = none → Does (.qPush x ra rb tag) s (idle 6)) ∧
      (s.poppedAt c d = some p → ¬fits ∨ s.pushSource c v = false → Does (.qPush x ra rb tag) s (idle 4)) ∧
      (s.poppedAt c d = some p → fits → s.pushSource c v = true → s.localRoom (c / 2) < new.cellCount →
        Does (.qPush x ra rb tag) s (idle 5)) ∧
      (s.poppedAt c d = some p → fits → s.pushSource c v = true → new.cellCount ≤ s.localRoom (c / 2) →
        Does (.qPush x ra rb tag) s fun t => did 0 t ∧ (∃ r, t.parcels = s.parcels.filter (fun y => y.id != p.id) ++ [r] ∧
          r.pkt = new ∧ r.src = v ∧ r.hall = c / 2 ∧ r.spot = .arrived ∧ r.loc = true ∧ r.cells = [] ∧
          r.segs.length = 4 * new.cellCount ∧
          ∀ b, (∀ g ∈ r.segs, ¬(cellAddr (c / 2) 0 + 64 * g ≤ b ∧ b < cellAddr (c / 2) 0 + 64 * g + 64)) → t.byte b = s.byte b) ∧
          SameDevices s t)) ∧
    (ready [ra.val] [] true (wzBuf x ra.val 32 false) →
      (s.poppedAt c d = none → Does (.qDrop x ra tag) s (idle 6)) ∧
      (s.poppedAt c d = some p → s.parcel p.id = some p → Does (.qDrop x ra tag) s fun t => did 0 t ∧ Dropped p 7 s t)) ∧
    (ready [rb.val] [rd.val] false noChk → Writes (.qDepth x rd rb) x rd (BitVec.ofNat 64 (match s.inputQueue c v with
      | some q => (unitGet [] s.leafQ q).length
      | none => 0)) s) ∧
    (¬defined → en → s'.tblDefOk h n = true → exec (.tableDefine hall table value) s = .next s') ∧
    (¬defined → ¬en → exec (.tableDefine hall table value) s = .next s') ∧
    (¬defined → en → s'.tblDefOk h n = false → Does (.tableDefine hall table value) s fun t => t.fld F.hallTblDefEn h n = 0 ∧
      t.fld F.hallMapStatusCfgErr h = 1 ∧ t.fld F.hallTblDefKeyBytes h n = fldGet F.hallTblDefKeyBytes value ∧ onlyDef t) ∧
    (defined → en → exec (.tableDefine hall table value) s = .next s) ∧
    (defined → ¬en → s.tblUsed h n ≠ [] ∨ s.tblBound h n = true → Does (.tableDefine hall table value) s fun t =>
      t.fld F.hallTblDefEn h n = 1 ∧ t.fld F.hallMapStatusCfgErr h = 1 ∧ onlyDef t) ∧
    (defined → ¬en → s.tblUsed h n = [] → s.tblBound h n = false → Does (.tableDefine hall table value) s fun t =>
      t.fld F.hallTblDefEn h n = 0 ∧ onlyDef t) ∧
    (hs.progBusy = true → exec (.programStage hall prog) s = .next s) ∧
    (hs.progBusy = false → Does (.programStage hall prog) s fun t => t.fld F.hallProgStageBusy h = 1 ∧
      t.fld F.hallProgStageProg h = prog.toNat ∧
      t.hall h = { hs with progBusy := true, progSrc := s.fld F.hallProgSrcSrc h, progNum := prog.toNat } ∧
      t = { s with regs := t.regs, halls := t.halls }) ∧
    (hs.progBusy = true → Does (.programStageDone hall) s fun t => t.fld F.hallProgStageBusy h = 0 ∧
      t.fld F.hallProgStageResult h = staging.1 % 2 ^ 8 ∧ (t.hall h).progBusy = false ∧
      (t.hall h).stagedProg = (match staging.2.2 with
        | some g => hs.stagedProg.filter (fun y => y.num != hs.progNum) ++ [g]
        | none => hs.stagedProg) ∧
      t.fld F.bellSrcPending 8 (120 + h) = 1 ∧ SameDevices s t ∧ SameMemory s t)

/-- sched.wr stages a checked block for its port, or in its failover set of 64, else completes REFUSED or FULL; sched.rd writes a node's block. sched.commit of a port goes in flight and ends at the boundary: every staged parameter that waits for no other port is in force with the TB as RESULT, OK or (while a move waits) BUSY, or nothing is applied and it ends BUSY or FULL. A port that may not choose does nothing; one that chooses takes the head packet of the chosen queue, charges itself and gives it to its trunk or endpoint. GUARANTEE takes effect at an epoch, with deficits 0. A failover set is applied at the boundary and emptied; CLEAR empties it. An instance adds RES_BYTES less what was overdrawn. -/
def Obligations.SchedulingCommitsAndReservations : Prop :=
  ∀ (x : Issue) (ra rb : Fin 32) (tag : Fin 16) (port : Fin 48) (trk : Fin 24) (hall : Fin 4) (sub : Fin 1024) (p : Parcel) (s : State),
    let c := x.core.val
    let a := s.wzG x ra.val
    let v := s.wzG x rb.val
    let turned := s.tookTurn c x.thread.val
    let ready := fun (srcs : List Nat) (chk : State → WzCheck) =>
      s.issues x { group := .switch, priv := true, tag := some tag.val, srcs := srcs } chk = true
    let did := fun (status result : Nat) (t : State) => Completed x tag.val status result t ∧ WentOn x s t
    let idle := fun (status : Nat) (t : State) => did status 0 t ∧ t = { turned with cores := t.cores, threads := t.threads }
    let d := s.localBytes c a 64
    let b := blockParam d
    let ok := nodeIdOk v = true ∧ paramOk v (field d 40 42) b (s.stagedParam (nodeId (nodeHall v) 2 b.parent)).level = true
    let its := nodePort (fun i => if i = v then b else s.stagedParam i) v
    let staged : Staged := { node := v, param := { b with fo := false } }
    let n := port.val
    let sp := s.port n
    let due := s.atBoundary n = true ∧ s.lockstep (n / 12) = false
    let top := nodeId (n / 12) 3 (n % 12)
    let ch := s.choose n (s.fld F.spCtrlQuantum n) 3 top
    let chosen := fun (leaf : Nat × Bool) => s.mayChoose n = true ∧ ch.1.getLast? = some leaf ∧ ch.2.headFor n (leafOf leaf.1) = some p
    let taken := fun (leaf : Nat × Bool) (t : State) => (t.port n).busy = some p.id ∧
      unitGet [] t.leafQ (leafOf leaf.1) = (unitGet [] s.leafQ (leafOf leaf.1)).drop 1 ∧
      ((s.node top).keepsP = true → (t.node top).ptok = (s.nodeNow top).ptok - s.chargedLen n p.pkt * 1024) ∧
      (∃ r, t.parcel p.id = some r ∧ r.spot = .serving ∧ r.pkt = p.pkt) ∧ SameDevices s t ∧ SameMemory s t
    let h := hall.val
    let k := trk.val
    let fp := k / 6 * 12 + k % 6
    let fo := s.port fp
    let id := nodeId h 1 sub.val
    let r := s.node id
    (ready [ra.val, rb.val] (wzBuf x ra.val 64 false) →
      (¬ok → Does (.schedWr x ra rb tag) s (idle 4)) ∧
      (ok → b.fo = false → s.livePort v = none → Does (.schedWr x ra rb tag) s fun t => did 0 0 t ∧
        (t.port its).staged = (s.port its).staged.filter (fun y => y.node != v) ++ [staged] ∧
        (t.port its).fo = (s.port its).fo ∧ t = { turned with cores := t.cores, threads := t.threads, ports := t.ports }) ∧
      (ok → b.fo = true → ((s.port its).fo.filter (fun y => y.node != v)).length < 64 → Does (.schedWr x ra rb tag) s fun t => did 0 0 t ∧
        t.port its = { s.port its with fo := (s.port its).fo.filter (fun y => y.node != v) ++ [staged] } ∧
        t = { turned with cores := t.cores, threads := t.threads, ports := t.ports }) ∧
      (ok → b.fo = true → 64 ≤ ((s.port its).fo.filter (fun y => y.node != v)).length → Does (.schedWr x ra rb tag) s (idle 5))) ∧
    (ready [ra.val, rb.val] (wzBuf x ra.val 64 true) →
      (nodeIdOk v = true → Does (.schedRd x ra rb tag) s fun t => did 0 0 t ∧ Stores x a (nodeBlock (s.nodeNow v)) s t ∧
        t = { turned with
          cores := t.cores, threads := t.threads, mem := t.mem, poisoned := (s.unpoison (localBase c + a) 64).poisoned }) ∧
      (nodeIdOk v = false → Does (.schedRd x ra rb tag) s (idle 4))) ∧
    (ready [ra.val] noChk →
      (a < 48 → Does (.schedCommit x ra tag) s fun t => InFlight x tag.val t ∧ WentOn x s t ∧
        (let q : SchedPort := { s.port a with commitAt := some ((s.port a).commitAt.getD s.tb) }
         t.port a = if s.portIdle a = true then q.reach else q) ∧
        t = { turned with cores := t.cores, threads := t.threads, ports := t.ports }) ∧
      (48 ≤ a → Does (.schedCommit x ra tag) s (idle 4))) ∧
    (due → Does (.schedCommitApply port) s fun t => (t.port n).commitAt = none ∧
      (s.commitStatus n = 0 →
        (t.port n).staged = sp.staged.foldl stagePut (sp.ready.filter (s.waits n)) ∧ ∀ y ∈ (s.commitSet n).2, (t.node y.node).param = y.param) ∧
      (s.commitStatus n ≠ 0 → (t.port n).staged = sp.staged.foldl stagePut sp.ready ∧ t.nodes = s.nodes) ∧
      (∀ e, s.otFind c x.thread.val tag.val = some e → e.done = false → e.kind = .schedCommit n → (s.at_ x).run = .running →
        Completed x tag.val (s.commitEnd n n) (if s.commitStatus n = 0 then s.tb % 2 ^ 48 else 0) t) ∧
      SameDevices s t ∧ SameMemory s t) ∧
    (sp.commitAt = none ∨ sp.boundary = false → exec (.schedCommitApply port) s = .next s) ∧
    (s.mayChoose n = false → exec (.portSchedule port) s = .next s) ∧
    (∀ leaf, chosen leaf → 6 ≤ n % 12 → s.parcel p.id = some p → Does (.portSchedule port) s (taken leaf)) ∧
    (∀ leaf m, chosen leaf → portTrunk n = some m → p.pkt.tunnelId < 0xFFE → s.tdOn m = false → s.mateOf m = none →
      s.parcel p.id = some p → Does (.portSchedule port) s fun t => taken leaf t ∧
        (let w := s.foldVc m p.pkt.vc
         (t.trk m).q w = (s.trk m).q w ++ [{ bytes := { p.pkt with psn := 0 }.toBytes, id := p.id, vc := w }])) ∧
    (s.tb % 64 ≠ 0 ∨ s.flag F.hallModeGuarantee h = s.lockstep h → exec (.lockstepSwitch hall) s = .next s) ∧
    (s.tb % 64 = 0 → s.flag F.hallModeGuarantee h = true → s.lockstep h = false → Does (.lockstepSwitch hall) s fun t =>
      t.lockstep h = true ∧ t.fld F.hallLsOriginEpoch h = s.tb / 64 % 2 ^ 58 ∧ (t.hall h).lsOffered = [] ∧ (t.hall h).lsNext = s.epochIndex ∧
      (∀ e ∈ s.nodes, nodeHall e.1 = h → (t.node e.1).deficit = 0 ∧ (t.node e.1).param = (s.node e.1).param) ∧
      t = { s with regs := t.regs, halls := t.halls, nodes := t.nodes }) ∧
    (s.tb % 64 = 0 → s.flag F.hallModeGuarantee h = false → s.lockstep h = true → Does (.lockstepSwitch hall) s fun t =>
      t.lockstep h = false ∧ OnlyField F.hallModeLsActive h 0 s t ∧
      t = { s with regs := t.regs, halls := (s.setHall h { s.hall h with lsFreed := [] }).halls }) ∧
    (∀ y, fo.foDue = true → fo.fo = [y] → fo.foAt = true → fo.commitAt = none → s.lockstep (fp / 12) = false →
      Does (.failoverCommitApply trk) s fun t => (t.node y.node).param = y.param ∧
        t.port fp = { fo with fo := [], foDue := false, foAt := false } ∧ SameDevices s t ∧ SameMemory s t) ∧
    (fo.foDue = false → exec (.failoverCommitApply trk) s = .next s) ∧
    (s.chipRuns = true → r.reserved = true → r.param.enable = true → r.grid.on = true → r.grid.next ≤ s.tb →
      r.owed ≤ 0 ∨ s.hasBelow 1 id = false → Does (.isoInstanceStart hall sub) s fun t =>
        (t.node id).owed = r.param.resBytes + min r.owed 0 ∧
        (t.node id).grid.nominal = r.grid.nominal + r.param.interval * 1000 ∧ (t.node id).param = r.param ∧
        (t.chip = s.chip ∨ t.chip = (s.wakeOn 7).chip) ∧
        t = { s with nodes := t.nodes, regs := t.regs, threads := t.threads, bellSince := t.bellSince, chip := t.chip }) ∧
    (s.tb < r.grid.next → exec (.isoInstanceStart hall sub) s = .next s) ∧
    (Does (.schedFoClear port) s fun t => t.port n = { sp with fo := [], foDue := false, foAt := false } ∧ t = { s with ports := t.ports })

/-- pwr.req refuses a bad target with unit 9 reason 1, is BUSY during another, is refused by the first refusing unit, else starts an entry with its SEQ, POLL and ENTRY_MAX. An answer of another SEQ is ignored; ACK, DELAY and REFUSE are kept or end the entry with unit and reason in PWR_STATUS and the RESULT; a delayed unit is polled again; a full ring is tried every 10 us; no answer is reason 3, the entry timeout names the slowest unit with reason 2. With every answer ACK the state is taken. An allowed, enabled source returns to RUN, and a word whose parity fails after DEEP is poisoned; in OFF SYS_PWREN rises. A tamper alarm, a rail outside its band or a die too hot or cold locks the store. -/
def Obligations.PowerStatesAreRequestedAnsweredAndLeft : Prop :=
  ∀ (x : Issue) (ra : Fin 32) (tag : Fin 16) (core : Fin 11) (unit : Fin 128) (value : BitVec 64) (sources : BitVec 8)
    (alarms : BitVec 6) (rails : List (Nat × Nat)) (elapsed : Nat) (avs : Option (Fin 5)) (parity : List Nat) (e : PwrEntry) (s : State),
    let target := s.wzG x ra.val
    let ready := s.issues x { group := .power, priv := true, tag := some tag.val, srcs := [ra.val] } noChk = true
    let did := fun (status result : Nat) (t : State) => Completed x tag.val status result t ∧ WentOn x s t
    let rest := fun (t : State) => SameDevices s t ∧ SameMemory s t ∧ t.fld F.pwrStatusState = s.fld F.pwrStatusState
    let named := fun (u reason : Nat) (t : State) => t.chip.entry = none ∧ t.fld F.pwrStatusPoll = 0 ∧
      t.fld F.pwrStatusLastUnit = u % 2 ^ 16 ∧ t.fld F.pwrStatusLastReason = reason % 2 ^ 8 ∧ rest t
    let refused := fun (u reason : Nat) (t : State) => named u reason t ∧
      ∀ o, s.otFind 9 0 e.tag = some o → o.done = false → (s.thr 9 0).run = .running →
        ∃ o', t.otFind 9 0 e.tag = some o' ∧ o'.done = true ∧ o'.status = 4 ∧ o'.result = u * 256 + reason
    let refuses := fun (u : Nat) => match s.hwAnswer target u with
      | .refuse _ => true
      | _ => false
    let under := s.chip.entry = some e
    let c := core.val
    let u := unit.val
    let answers := fun (k : Nat) (a : PwrReply) (t : State) => ∃ e', t.chip.entry = some e' ∧ e'.answer k = a ∧ e'.seq = e.seq ∧
      e'.target = e.target ∧ e'.tag = e.tag
    let mine := fldGet F.pwrAnswerSeq value = e.seq ∧ pollCores.contains c = true
    let d := 1000 * max 1 (min 10000 (fldGet F.pwrAnswerDelay value))
    let allAck := ∀ k ∈ pollCores ++ hwUnits, e.answer k = .ack
    let st := s.fld F.pwrStatusState
    let temp := signed 16 (s.fld F.newelTempNow)
    let volt := s.chip.porLow = false ∧ ∃ r ∈ rails, s.voltageBad r.1 r.2 = true
    let a := ((alarms.toNat &&& 0x27) ||| (if volt then 8 else 0) ||| (if temp < -880 ∨ 2080 < temp then 16 else 0)) &&&
      s.fld F.newelTamperCtrlEn
    let wakes := Instr.pwrWake sources { elapsed := elapsed, parity := parity } avs
    let fired := fun (i : PwrIn) => (sources.toNat ||| i.fired) &&& wakeAllowed st &&& (s.fld F.pwrWakeEnEn ||| 0x20) &&&
      (if s.fld F.pwrTimerWakeAfter ≠ 0 ∧ s.fld F.pwrTimerWakeAfter * 1000 ≤ (if st = 3 then elapsed else s.tb - i.since) then 0xFF else 0xEF)
    let locked := fun (t : State) => t.fld F.newelTamperCauseCause = (s.fld F.newelTamperCauseCause ||| a) ∧
      t.fld F.wdnStatusTampered = 1 ∧ t.fld F.wdnStatusStoreLocked = 1 ∧ t.deadline .wardenClear = some (s.tb + 100000)
    (ready →
      (target = 0 ∨ 4 < target → Does (.pwrReq x ra tag) s fun t => did 4 0x0901 t ∧ t.fld F.pwrStatusLastUnit = 9 ∧
        t.fld F.pwrStatusLastReason = 1 ∧ t.chip = s.chip ∧ rest t) ∧
      (1 ≤ target → target ≤ 4 → s.chip.entry ≠ none → Does (.pwrReq x ra tag) s fun t => did 3 0 t ∧
        t = { s with cores := t.cores, threads := t.threads, turns := t.turns }) ∧
      (1 ≤ target → target ≤ 4 → s.chip.entry = none → (∀ k ∈ hwUnits, refuses k = false) → Does (.pwrReq x ra tag) s fun t =>
        InFlight x tag.val t ∧ WentOn x s t ∧ t.fld F.pwrStatusPoll = 1 ∧ rest t ∧
        t.deadline .pwrEntry = some (s.tb + 1000000 * s.fld F.pwrCfgEntryMax) ∧
        ∃ e', t.chip.entry = some e' ∧ e'.tag = tag.val ∧ e'.target = target ∧ e'.seq = (s.chip.seq + 1) % 65536 ∧
          ∀ k ∈ pollCores, s.coreQuiet k = true → e'.answer k = .ack) ∧
      (∀ k reason, x.thread = 0 → 1 ≤ target → target ≤ 4 → s.chip.entry = none → hwUnits.find? refuses = some k →
        s.hwAnswer target k = .refuse reason → Does (.pwrReq x ra tag) s fun t => did 4 (k * 256 + reason) t ∧ named k reason t)) ∧
    (under → ¬mine → exec (.pwrAnswerWrite core value) s = .next s) ∧
    (under → mine → fldGet F.pwrAnswerAnswer value = 1 → Does (.pwrAnswerWrite core value) s fun t => answers c .ack t ∧
      t.deadline .pwrAnswer c = none ∧ t = { s with regs := t.regs, chip := t.chip, timers := t.timers }) ∧
    (under → mine → fldGet F.pwrAnswerAnswer value = 2 →
      Does (.pwrAnswerWrite core value) s (refused c (fldGet F.pwrAnswerReason value))) ∧
    (under → mine → fldGet F.pwrAnswerAnswer value = 3 → Does (.pwrAnswerWrite core value) s fun t =>
      (∃ since, answers c (.delay (s.tb + d) (fldGet F.pwrAnswerReason value) since) t) ∧
      t.deadline .pwrPoll c = some (s.tb + d) ∧ t = { s with regs := t.regs, chip := t.chip, timers := t.timers }) ∧
    (under → s.due .pwrPoll u = false → exec (.pwrPollDelay unit) s = .next s) ∧
    (under → s.due .pwrPoll u = true → 0x10 ≤ u → s.hwAnswer e.target u = .ack → Does (.pwrPollDelay unit) s fun t => answers u .ack t ∧
      t.deadline .pwrPoll u = none ∧ t = { s with chip := t.chip, timers := t.timers }) ∧
    (∀ reason, under → s.due .pwrPoll u = true → 0x10 ≤ u → s.hwAnswer e.target u = .refuse reason →
      Does (.pwrPollDelay unit) s (refused u reason)) ∧
    (under → s.due .pwrPoll u = true → u < 0x10 → s.coreQuiet u = false → Does (.pwrPollDelay unit) s fun t => answers u .none t ∧
      t.deadline .pwrAnswer u = some (s.tb + 1000000 * s.fld F.pwrCfgAnswerMax) ∧ t.deadline .pwrPoll u = none ∧ rest t) ∧
    (∀ m, s.due .pwrMsg c = true → s.chip.unsent.find? (fun y => y.1 == c) = some (c, m) → s.coreReset c = false →
      ((16 ≤ (s.wzCore c).ring.length → Does (.pwrMsgRetry core) s fun t => t.deadline .pwrMsg c = some (s.tb + 10000) ∧
        t = { s with timers := t.timers }) ∧
      ((s.wzCore c).ring.length < 16 → Does (.pwrMsgRetry core) s fun t => (t.wzCore c).ring = (s.wzCore c).ring ++ [m] ∧
        t.chip.unsent = s.chip.unsent.erase (c, m) ∧ rest t))) ∧
    (under → s.due .pwrAnswer c = true → e.answer c = .none → Does (.pwrAnswerTimeout core) s (refused c 3)) ∧
    (under → s.due .pwrAnswer c = false → exec (.pwrAnswerTimeout core) s = .next s) ∧
    (∀ k, under → s.due .pwrEntry = true → e.slowest = some k → Does .pwrEntryTimeout s (refused k 2)) ∧
    (under → s.due .pwrEntry = true → e.slowest = none → Does .pwrEntryTimeout s fun t => ∃ k, refused k 2 t) ∧
    (under → ¬allAck → exec .pwrCommit s = .next s) ∧
    (under → allAck → (∀ k ∈ hwUnits, s.hwAnswer e.target k = .ack) → 1 ≤ e.target → e.target ≤ 4 → Does .pwrCommit s fun t =>
      t.fld F.pwrStatusState = e.target ∧ t.fld F.pwrStatusPoll = 0 ∧ t.chip.entry = none ∧
      (∃ i, t.chip.inState = some i ∧ i.tag = e.tag ∧ i.since = s.tb) ∧ (e.target = 4 → t.chip.pwren = false) ∧
      (e.target ≠ 4 → t.chip.pwren = s.chip.pwren) ∧ t.deadline .wdog = none ∧ SameDevices s t ∧ SameMemory s t) ∧
    (∀ i, s.chip.inState = some i →
      ((fired i = 0 → exec wakes s = .next s) ∧
      (fired i ≠ 0 → st < 3 ∨ (avs = none ∧ parity = []) → Does wakes s fun t => t.fld F.pwrStatusState = 0 ∧
        t.chip.inState = none ∧ t.fld F.pwrStatusWakeCause = (s.fld F.pwrStatusWakeCause ||| fired i) % 2 ^ 8 ∧
        t.tb = (if st = 3 then s.tb + elapsed else s.tb) ∧ t.fld F.bellSrcPending 9 46 = 1 ∧ SameMemory s t) ∧
      (∀ w, fired i ≠ 0 → st = 3 → avs = none → parity = [w] → (sramOwner (w / 8 * 8)).isSome = true → Does wakes s fun t =>
        t.fld F.pwrStatusState = 0 ∧ t.poisonAt w 1 = true))) ∧
    (s.chip.inState = none → exec wakes s = .next s) ∧
    (s.chip.pwren = true → exec .wakeFromOff s = .next s) ∧
    (s.chip.pwren = false → Does .wakeFromOff s fun t => t.chip.pwren = true ∧ t.chip.porLow = true ∧ t.chip.wake = true ∧
      t.chip.stage = .held ∧ t.threads = [] ∧ t.pending = s.pending) ∧
    (a = 0 → exec (.tamperAlarm { sources := alarms, rails := rails } { elapsed := elapsed, parity := parity }) s = .next s) ∧
    (a ≠ 0 → st = 0 → s.chip.porLow = false → s.chip.entry = none → s.chip.inState = none → s.chip.safe = none →
      ((a &&& s.fld F.newelTamperCtrlSafe = 0 → Does (.tamperAlarm { sources := alarms, rails := rails } { elapsed := elapsed, parity := parity }) s fun t => locked t ∧ t.chip.safe = none) ∧
      (a &&& s.fld F.newelTamperCtrlSafe ≠ 0 → Does (.tamperAlarm { sources := alarms, rails := rails } { elapsed := elapsed, parity := parity }) s fun t => locked t ∧ EntersSafe 13 s t)))

/-- VDD_AON_UP leaves every register but the fuses at reset, memory zero, POR_N low. Falling POR_N holds the chip and keeps only the crash record; its rise latches the straps, sets CAUSE (33 after OFF), judges the tamper sources and starts the ROM, or test mode. RESET_N of 1 us or more is a chip reset with CAUSE 2. The ROM follows the straps: JTAG, sideband within 60 s, or flash; a bad directory is ERR 1, an entry runs when it passes, else its code and number are recorded. Sideband bytes are staged and judged as entry 0xFF. BOOT_LOAD is one at a time and ends with a RESULT. JTAG holds and frees a thread. GO of a mailbox sets BUSY and rings Bell 8. -/
def Obligations.RailsResetsBootAndMailboxes : Prop :=
  ∀ (ns : Nat) (straps : BitVec 3) (alarms : BitVec 6) (testEn fromFlash : Bool) (flash data : List Byte) (offset : BitVec 32)
    (src : BitVec 48) (core : Fin 11) (thread : Fin 8) (host : Fin 6) (e : Nat) (s : State),
    let a := alarms.toNat &&& s.fld F.newelTamperCtrlEn
    let m := s.fld F.bootStatusStraps
    let bare := fun (t : State) => t.tb = 0 ∧ t.threads = [] ∧ t.cores = [] ∧ t.parcels = [] ∧ t.lanes = [] ∧ t.trunks = [] ∧
      t.pending = s.pending ∧ t.reg .fuseSvn = s.blowCut.reg .fuseSvn
    let crash := fun (t : State) => ∀ b, t.byte b = if crashCell b then s.byte b else 0
    let fails := fun (err entry straps : Nat) (t : State) => t.fld F.bootStatusErr = err % 2 ^ 8 ∧
      t.fld F.bootStatusFailedEntry = entry % 2 ^ 8 ∧
      (if (straps = 3 ∨ straps = 4) ∧ err ≠ 8 then t.chip.stage = .sideband ∧ t.fld F.bootStatusSource = 2
        else t.chip.stage = .done ∧ t.fld F.bootStatusStage = 2 ∧ t.deadline .sidebandMax = none) ∧ SameMemory s t
    let runs := fun (b : Image) (t : State) => t.chip.stage = .done ∧ t.fld F.bootStatusStage = 1 ∧ t.deadline .sidebandMax = none ∧
      ∀ k < 2, t.thr 8 k = { pc := b.entry / 4 * 4, run := .running }
    let rom := s.chip.stage = .rom
    let s1 : State := { s with chip := { s.chip with svns := s.svnCount } }
    let dir := flashNat flash 0 4 = some 0x3144_5A57
    let off := offset.toNat
    let fits := s.chip.stage = .sideband ∧ data.length ≤ 248 ∧ off + data.length ≤ 0x180000
    let staged := s.stagedImage
    let load := s.loadImage flash fromFlash src.toNat
    let result := (s.loadResult flash fromFlash src.toNat load).1
    let th := s.thr core.val thread.val
    let onlyIt := fun (t : State) => (∀ c k, k < 8 → (c, k) ≠ (core.val, thread.val) → t.thr c k = s.thr c k) ∧
      t = { s with threads := t.threads, timers := t.timers, jtagDebug := t.jtagDebug }
    let h := host.val
    let go := fun (k bell : Nat) (b : Mailbox) (t : State) => t.mbx k = { b with busy := true } ∧ t.fld F.bellSrcPending 8 bell = 1 ∧
      (∀ j, j ≠ k → t.mbx j = s.mbx j) ∧
      t = { s with
        regs := t.regs, threads := t.threads, mailboxes := t.mailboxes, bellSince := t.bellSince, chip := (s.wakeOn 7).chip }
    let cmd : Mailbox := { s.mbx 6 with cmd := putBytes [] 0 (data.take 256) }
    let valid := fun (b : Mailbox) => 1 ≤ b.par 0 2 ∧ b.par 0 2 ≤ 0x0A
    (Does .vddAonUp s fun t => bare t ∧ t.chip.pwren = true ∧ t.chip.porLow = true ∧ t.chip.stage = .held ∧ t.chip.boots = 0 ∧
      (∀ b, t.byte b = 0) ∧ ∀ n i j, n ≠ .fuseSvn → t.reg n i j = regReset ⟨n, i, j⟩) ∧
    (Does .porNFall s fun t => bare t ∧ crash t ∧ t.chip.porLow = true ∧ t.chip.stage = .held ∧ t.chip.pwren = s.chip.pwren) ∧
    (s.chip.porLow = true → s.chip.pwren = true → Does (.powerOnReset straps alarms testEn) s fun t => bare t ∧ crash t ∧
      t.chip.porLow = false ∧ t.chip.pins = straps ∧ t.chip.stage = (if testEn then .test else .rom) ∧
      t.fld F.bootStatusCause = (if s.chip.wake then 33 else 1) ∧ t.fld F.bootStatusStraps = straps.toNat ∧
      (a = 0 → t.fld F.wdnStatusStoreLocked = 0 ∧ t.fld F.newelTamperCauseCause = 0) ∧
      (a ≠ 0 → t.fld F.wdnStatusStoreLocked = 1 ∧ t.fld F.newelTamperCauseAtBoot = 1 ∧
        t.fld F.newelTamperCauseCause = s.fld F.newelTamperCauseCause ||| a)) ∧
    (s.chip.porLow = false → exec (.powerOnReset straps alarms testEn) s = .next s) ∧
    (1000 ≤ ns → s.powered = true → Does (.resetNAssert ns straps) s fun t => ChipResets 2 s t ∧ t.chip.pins = straps) ∧
    (ns < 1000 → exec (.resetNAssert ns straps) s = .next s) ∧
    (s.chip.stage ≠ .rom → exec (.bootRomStart flash) s = .next s) ∧
    (rom → m = 7 → Does (.bootRomStart flash) s fun t => t.chip.stage = .jtag ∧ t.fld F.bootStatusStraps = 7 ∧
      t.chip.svns = s.svnCount ∧ t = { s with regs := t.regs, chip := t.chip }) ∧
    (rom → m = 2 → Does (.bootRomStart flash) s fun t => t.chip.stage = .sideband ∧ t.fld F.bootStatusStraps = 2 ∧
      t.fld F.bootStatusSource = 2 ∧ t.deadline .sidebandMax = some (s.tb + 60000000000) ∧
      t = { s with regs := t.regs, chip := t.chip, timers := t.timers }) ∧
    (∀ n, rom → m ≠ 7 → m ≠ 2 → flashNat flash 4 1 = some n → (¬dir ∧ 4 ≤ flash.length) ∨ n = 0 ∨ 31 < n →
      Does (.bootRomStart flash) s (fails 1 0 m)) ∧
    (rom → m ≠ 7 → m ≠ 2 → dir → flashNat flash 4 1 = some 1 → s1.tryEntry flash 1 = some e →
      Does (.bootRomStart flash) s fun t => if e = 0 then runs (flashImage flash (leNat ((flash.drop 16).take 8))) t else fails e 1 m t) ∧
    (fits → Does (.imageWrite offset data) s fun t => (∀ i, i < 0x180000 → t.byte (stagedAt i) =
      if off ≤ i ∧ i < off + data.length then data.getD (i - off) 0 else s.byte (stagedAt i)) ∧
      (∀ a, (∀ i, off ≤ i → i < off + data.length → a ≠ stagedAt i) → t.byte a = s.byte a) ∧ t = { s with mem := t.mem }) ∧
    (¬fits → exec (.imageWrite offset data) s = .next s) ∧
    (s.chip.stage = .sideband → staged.target.testBit 8 = true → Does .imageGo s fun t =>
      if s.imageCheck staged = 0 then runs staged t else fails (s.imageCheck staged) 0xFF (s.fld F.bootStatusStraps) t) ∧
    (s.chip.stage ≠ .sideband → exec .imageGo s = .next s) ∧
    (s.chip.stage = .sideband → s.due .sidebandMax = true → Does .sidebandTimeout s fun t => fails 8 0xFF 2 t ∧
      t = { s with regs := t.regs, chip := t.chip, timers := t.timers }) ∧
    (s.flag F.bootLoadBusy = false → Does (.bootLoadGo fromFlash src) s fun t => t.chip.loading = some (fromFlash, src.toNat) ∧
      t.fld F.bootLoadBusy = 1 ∧ t = { s with regs := t.regs, chip := t.chip }) ∧
    (s.flag F.bootLoadBusy = true → Does (.bootLoadGo fromFlash src) s fun t => t.chip = s.chip ∧ t.fld F.bootLoadBusy = 1 ∧ OnlyRegs s t) ∧
    (s.chip.loading = none → exec (.imageLoadDone flash) s = .next s) ∧
    (s.chip.loading = some (fromFlash, src.toNat) → Does (.imageLoadDone flash) s fun t => t.chip.loading = none ∧
      t.fld F.bootLoadBusy = 0 ∧ t.fld F.bootLoadResult = result % 2 ^ 8 ∧
      (result ≠ 0 → t = { s with regs := t.regs, chip := t.chip, free := t.free }) ∧
      (result = 0 → load.target.testBit 9 = true → t.thr 9 0 = { pc := load.entry / 4 * 4, run := .running })) ∧
    (th.run.live = true → Does (.jtagHalt core thread) s fun t => t.thr core.val thread.val = { th with jtag := true, run := .running } ∧
      t.jtagDebug = true ∧ onlyIt t) ∧
    (th.run.live = false → exec (.jtagHalt core thread) s = .next s) ∧
    (Does (.jtagRelease core thread) s fun t => t.thr core.val thread.val = { th with jtag := false } ∧
      t.jtagDebug = s.jtagDebug ∧ onlyIt t) ∧
    (s.flag F.hostCfgEn h = true → (s.mbx h).busy = false → valid (s.mbx h) → Does (.pf0MailboxGo host) s fun t => go h (131 + h) (s.mbx h) t ∧
      t.fld F.hostStatusMbxBusy h = 1) ∧
    (s.flag F.hostCfgEn h = false ∨ (s.mbx h).busy = true → exec (.pf0MailboxGo host) s = .next s) ∧
    ((s.mbx 6).busy = false → valid cmd → Does (.sidebandMailboxGo data) s (go 6 137 cmd)) ∧
    ((s.mbx 6).busy = true → exec (.sidebandMailboxGo data) s = .next s)

/-- With the store locked every instruction that uses a slot completes TAMPERED; a slot not free or not LIVE, not bound, without the use, of another kind, or a descriptor out of place completes REFUSED. Otherwise it is in flight: key.gen, derive, unwrap and ecdh write a free slot (WRITING) with the key made, a failed health test, tag or point completing ERROR; key.retire takes LIVE to RETIRED and an uninstalled RETIRED slot to EMPTY; the others' outputs are what the standards' functions give. The end of an operation writes them and the slot is LIVE, or BURNT when interrupted. key.zero empties every slot and abandons every operation. -/
def Obligations.WardenInstructionsUseKeySlots : Prop :=
  ∀ (x : Issue) (ra rb : Fin 32) (tag : Fin 16) (health burnt : Bool) (op : WardenOp) (s : State),
    let a := s.wzG x ra.val
    let v := s.wzG x rb.val
    let g := tag.val
    let ready := fun (srcs : List Nat) (chk : State → WzCheck) =>
      s.issues x { group := .crypto, tag := some g, srcs := srcs } chk = true
    let turned := s.tookTurn x.core.val x.thread.val
    let idle := fun (status : Nat) (t : State) => Completed x g status 0 t ∧ WentOn x s t ∧ t = { turned with cores := t.cores, threads := t.threads }
    let locked := s.storeLocked = true
    let runs := fun (o : WardenOp) (t : State) => InFlight x g t ∧ WentOn x s t ∧ t.warden.ops = s.warden.ops ++ [{ o with tag := g }] ∧
      t = { turned with cores := t.cores, threads := t.threads, regs := t.regs, warden := t.warden, free := t.free }
    let same := fun (t : State) => t.warden.slots = s.warden.slots ∧ ∀ n i j, t.reg n i j = s.reg n i j
    let outs := fun (status : Nat) (writes : List (Nat × List Byte)) (t : State) =>
      runs { tag := g, status := status, writes := writes } t ∧ same t
    let makes := fun (k : Nat) (attr : Word) (t : State) => runs { tag := g, slot := some k } t ∧ t.slotState k = 1 ∧
      (t.slot k).attr = attr ∧ ∀ j < 64, j ≠ k → t.slot j = s.slot j ∧ t.slotState j = s.slotState j
    let attr := BitVec.ofNat 64 v
    let sound := health = true ∧ s.warden.drbgFail = false
    let dd := s.localBytes 10 v 64
    let kd := (s.derive dd).1
    let head := s.localBytes 10 v 28
    let mayWrap := s.exportable a = true ∧ blobOk head = true ∧ s.wrapSlot (part head 3 1) 0 = true
    let blob := s.localBytes 10 v 128
    let d := cryptoDesc (s.localBytes 10 a 64) false
    let e := cryptoDesc (s.localBytes 10 a 64) true
    let key := (s.slot d.slot).key
    let dat := (s.slot d.slot).attr
    let iv := s.localBytes 10 d.iv 12
    let aad := s.localBytes 10 d.aad d.aadLen
    let src := s.cryptoSrc d
    let sealOk := s.gcmOk d = true ∧ s.outOk d.tagAt 16 = true ∧ s.slotUse d.slot 0 = true ∧ attrKind dat = 0
    let openOk := s.gcmOk d = true ∧ localIn 10 d.tagAt 16 = true ∧ (s.slotState d.slot = 2 ∨ s.slotState d.slot = 3) ∧
      attrBind dat = 0 ∧ attrUse dat 1 = true ∧ attrKind dat = 0
    let shaOk := fun (far : Bool) => d.srcOk far = true ∧ 48 ≤ d.dstLen ∧ s.outOk d.dst 48 = true
    let macOk := shaOk false ∧ s.slotUse d.slot 2 = true ∧ attrKind dat ≤ 2
    let signOk := d.srcOk false = true ∧ s.outOk d.tagAt 96 = true ∧ s.slotUse d.slot 4 = true ∧ attrKind dat = 4
    let memKey := d.aadLen = 97
    let verifyOk := d.srcOk false = true ∧ localIn 10 d.tagAt 96 = true ∧ (memKey → localIn 10 d.aad 97 = true) ∧
      (¬memKey → s.slotState d.slot = 2 ∧ attrKind dat = 4 ∧ attrBind dat = 0)
    let agreeOk := e.clean = true ∧ e.far = false ∧ localIn 10 e.tagAt 97 = true ∧ s.slotUse e.slot 5 = true ∧
      attrKind (s.slot e.slot).attr = 4 ∧ s.slotFree e.outSlot = true
    let w0 : Issue := { core := 10, thread := 0, pred := 0 }
    let ends := s.warden.ops.find? (fun o => o.tag == g) = some op
    let waits := ∃ o, s.otFind 10 0 op.tag = some o ∧ o.done = false ∧ (s.thr 10 0).run = .running
    (ready [ra.val, rb.val] noChk →
      (locked → Does (.keyGen x ra rb tag health) s (idle 7)) ∧
      (¬locked → s.slotFree a = false ∨ attrOk attr = false → Does (.keyGen x ra rb tag health) s (idle 4)) ∧
      (¬locked → s.slotFree a = true → attrOk attr = true → ¬sound → Does (.keyGen x ra rb tag health) s fun t =>
        Completed x g 1 0 t ∧ WentOn x s t ∧ t.warden = { s.warden with drbgFail := true }) ∧
      (¬locked → s.slotFree a = true → attrOk attr = true → sound → Does (.keyGen x ra rb tag health) s fun t =>
        makes a (attrOrigin attr 0) t ∧ (t.slot a).key.length = kindBytes (attrKind attr))) ∧
    (ready [ra.val, rb.val] (wzBuf x rb.val 64 false) →
      (locked → Does (.keyDerive x ra rb tag) s (idle 7)) ∧
      (¬locked → s.slotFree a = false ∨ kd = none → Does (.keyDerive x ra rb tag) s (idle 4)) ∧
      (¬locked → s.slotFree a = true → kd ≠ none → Does (.keyDerive x ra rb tag) s fun t =>
        makes a (attrOrigin (BitVec.ofNat 64 (part dd 32 8)) 1) t ∧ some (t.slot a).key = kd)) ∧
    (ready [ra.val] noChk →
      (locked → Does (.keyRetire x ra tag) s (idle 7)) ∧
      (¬locked → a < 64 → s.slotState a = 2 → Does (.keyRetire x ra tag) s fun t => runs { tag := g, slotTo := some (a, 3) } t ∧ same t) ∧
      (¬locked → a < 64 → s.slotState a = 3 → s.installed a = true → Does (.keyRetire x ra tag) s (idle 3)) ∧
      (¬locked → a < 64 → s.slotState a = 3 → s.installed a = false → Does (.keyRetire x ra tag) s fun t =>
        runs { tag := g, slotTo := some (a, 0) } t ∧ same t) ∧
      (¬locked → 64 ≤ a ∨ (s.slotState a ≠ 2 ∧ s.slotState a ≠ 3) → Does (.keyRetire x ra tag) s (idle 4))) ∧
    (ready [ra.val, rb.val] (wzBuf x rb.val 128 true) →
      (locked → Does (.keyWrap x ra rb tag) s (idle 7)) ∧
      (¬locked → ¬mayWrap → Does (.keyWrap x ra rb tag) s (idle 4)) ∧
      (¬locked → mayWrap → Does (.keyWrap x ra rb tag) s fun t => ∃ n, n.length = 12 ∧
        outs 0 [(v + 28, (s.wrapBlob a (part head 3 1) head n).drop 28)] t)) ∧
    (ready [ra.val, rb.val] (wzBuf x rb.val 128 false) →
      (locked → Does (.keyUnwrap x ra rb tag) s (idle 7)) ∧
      (¬locked → s.unwrapBad a blob = true → Does (.keyUnwrap x ra rb tag) s (idle 4)) ∧
      (¬locked → s.unwrapBad a blob = false → Does (.keyUnwrap x ra rb tag) s fun t => match s.unwrapBlob (part blob 3 1) blob with
        | some k => makes a k.attr t ∧ t.slot a = k
        | none => idle 1 t)) ∧
    (ready [ra.val, rb.val] (wzBuf x rb.val 97 true) →
      (locked → Does (.keyPub x ra rb tag) s (idle 7)) ∧
      (¬locked → a < 64 → s.slotState a = 2 → attrKind (s.slot a).attr = 4 → attrBind (s.slot a).attr = 0 →
        Does (.keyPub x ra rb tag) s (outs 0 [(v, p384Public (s.slot a).key)])) ∧
      (¬locked → 64 ≤ a ∨ s.slotState a ≠ 2 ∨ attrKind (s.slot a).attr ≠ 4 ∨ attrBind (s.slot a).attr ≠ 0 → Does (.keyPub x ra rb tag) s (idle 4))) ∧
    (ready [ra.val] (wzBuf x ra.val 64 false) →
      (locked → Does (.aesGcme x ra tag) s (idle 7) ∧ Does (.aesGcmd x ra tag) s (idle 7) ∧ Does (.shaHmac x ra tag) s (idle 7) ∧
        Does (.eccSign x ra tag) s (idle 7) ∧ Does (.eccEcdh x ra tag) s (idle 7)) ∧
      (¬locked → ¬sealOk → Does (.aesGcme x ra tag) s (idle 4)) ∧
      (¬locked → sealOk → Does (.aesGcme x ra tag) s
        (outs 0 [(d.dst, (gcmSeal key iv aad src).1), (d.tagAt, (gcmSeal key iv aad src).2)])) ∧
      (¬locked → ¬openOk → Does (.aesGcmd x ra tag) s (idle 4)) ∧
      (¬locked → openOk → Does (.aesGcmd x ra tag) s fun t => match gcmOpen key iv aad src (s.localBytes 10 d.tagAt 16) with
        | some p => outs 0 [(d.dst, p)] t
        | none => outs 1 [(d.dst, List.replicate d.srcLen 0)] t) ∧
      (shaOk true → Does (.sha384 x ra tag) s (outs 0 [(d.dst, sha384 src)])) ∧
      (¬shaOk true → Does (.sha384 x ra tag) s (idle 4)) ∧
      (¬locked → macOk → Does (.shaHmac x ra tag) s (outs 0 [(d.dst, hmac384 key src)])) ∧
      (¬locked → ¬macOk → Does (.shaHmac x ra tag) s (idle 4)) ∧
      (¬locked → signOk → Does (.eccSign x ra tag) s fun t => ∃ n, outs 0 [(d.tagAt, ecdsaSign key src n)] t) ∧
      (¬locked → ¬signOk → Does (.eccSign x ra tag) s (idle 4)) ∧
      (locked → ¬memKey → Does (.eccVfy x ra tag) s (idle 7)) ∧
      (¬locked ∨ memKey → ¬verifyOk → Does (.eccVfy x ra tag) s (idle 4)) ∧
      (¬locked ∨ memKey → verifyOk → Does (.eccVfy x ra tag) s (outs (if ecdsaVerify
        (if memKey then s.localBytes 10 d.aad 97 else p384Public key) src (s.localBytes 10 d.tagAt 96) then 0 else 1) [])) ∧
      (¬locked → ¬agreeOk → Does (.eccEcdh x ra tag) s (idle 4)) ∧
      (¬locked → agreeOk → Does (.eccEcdh x ra tag) s fun t => match ecdh (s.slot e.slot).key (s.localBytes 10 e.tagAt 97) with
        | some z => makes e.outSlot ecdhAttr t ∧ (t.slot e.outSlot).key = z
        | none => idle 1 t)) ∧
    (∀ k, ends → waits → op.slot = some k → k < 64 → op.writes = [] → op.slotTo = none →
      Does (.wardenOpComplete tag burnt) s fun t => Completed w0 g (if burnt then 1 else op.status) 0 t ∧
        t.slotState k = (if burnt then 4 else 2) ∧ (if burnt then t.slot k = {} else t.slot k = s.slot k) ∧
        t.warden.ops = s.warden.ops.filter (fun o => o.tag != g) ∧ SameMemory s t) ∧
    (∀ b l, ends → waits → op.slot = none → op.writes = [(b, l)] → op.slotTo = none →
      Does (.wardenOpComplete tag burnt) s fun t => Completed w0 g op.status 0 t ∧ Stores w0 b l s t ∧ same t) ∧
    (∀ k st, ends → waits → op.slot = none → op.writes = [] → op.slotTo = some (k, st) → k < 64 → st < 8 →
      Does (.wardenOpComplete tag burnt) s fun t => Completed w0 g op.status 0 t ∧ t.slotState k = st ∧
        (st = 0 → t.slot k = {}) ∧ SameMemory s t) ∧
    (s.warden.ops.find? (fun o => o.tag == g) = none → exec (.wardenOpComplete tag burnt) s = .next s) ∧
    (s.issues x { group := .crypto, priv := true, tag := some g } noChk = true → Does (.keyZero x tag) s fun t => Completed x g 0 0 t ∧
      (∀ k < 64, t.slotState k = 0 ∧ t.slot k = {}) ∧ t.warden.ops = [] ∧ t.warden.canvasPort = [] ∧
      t.fld F.wdnStatusZeroizes = min 0xFFFF (s.fld F.wdnStatusZeroizes + 1) ∧ SameDevices s t)

/-- The mailbox's oldest message, if it has the command's opcode, is taken and answered with a status: TAMPERED with the store locked, REFUSED on a bad slot, ERROR when an exchange or a tag fails. INFO gives slot states, cause and lock; an exchange puts its LINK key in a free slot and both keys of index 0 in force, a rollover the other index; CLEAR removes a trunk's keys and erases slots no unit holds; SEAL, UNSEAL and SIGN use K1 and K0; SVN_ADVANCE blows bits up to a count; ZEROIZE empties every slot. A security packet fills the receive buffer or is counted. TRK_SEC_KEY installs or removes with a RESULT. A blow sets one more bit or FAIL. The end of a tamper clearing zeroes the data memory. -/
def Obligations.WardenCommandsLinkKeysAndFuses : Prop :=
  ∀ (trk : Fin 24) (slot : Fin 64) (sends : List (List Byte)) (secret : Option (List Byte)) (ident gen value : BitVec 64)
    (blob digest payload : List Byte) (count : Fin 65) (one : Bool) (m : List Byte) (rest : List (List Byte)) (s : State),
    let n := trk.val
    let k := slot.val
    let takes := fun (op : Nat) => s.coreReset 10 = false ∧ (s.thr 10 0).run ≠ .halted ∧ (s.wzCore 10).ring = m :: rest ∧
      part m 0 1 = op
    let replies := fun (status : Nat) (data : List Byte) (t : State) =>
      t.out.head? = some (.wardenReply (part m 1 1) (part m 2 2) status data) ∧ (part m 1 1 ≠ 10 → (t.wzCore 10).ring = rest) ∧
      SameDevices s t
    let answers := fun (c : Instr) (status : Nat) (data : List Byte) => Does c s fun t => replies status data t ∧
      t.warden = s.warden ∧ SameMemory s t
    let locked := s.storeLocked = true
    let u := s.sec n
    let setup := Instr.linkSetup trk slot sends secret
    let rekey := Instr.linkRekey trk slot sends secret
    let idx := 1 - s.fld F.trkLinkStatusKidxTx n
    let agreed := fun (i : Nat) (z : List Byte) (t : State) => replies 0 [] t ∧ t.slotState k = 2 ∧ t.slot k = s.linkKey n i z ∧ SameMemory s t
    let head := leBytes 2 0x4B57 ++ [1, 1] ++ leBytes 4 0 ++ leBytes 8 ident.toNat ++ leBytes 8 gen.toNat ++ leBytes 4 0
    let low := s.warden.imageSvns = [] ∨ ∃ v ∈ s.warden.imageSvns, v < count.val
    let dir := wr F.trkSecKeyDir value
    let ki := wr F.trkSecKeyKidx value
    let kk := wr F.trkSecKeySlot value
    let result := fun (st : Nat) (t : State) => t.fld F.trkSecStatusResult n = st ∧ SameDevices s t ∧ SameMemory s t
    let busy := s.flag F.fuseSvnCtrlBusy = true
    let blows := fun (t : State) => t.fld F.fuseSvnCtrlBusy = 1 ∧ t.deadline .fuseBlow = some (s.tb + 20000000)
    let bit := s.reg .fuseSvn ||| (1#64 <<< s.svnNext)
    let c10 := s.wzCore 10
    let inData := fun (a : Nat) => localBase 10 ≤ a ∧ a < localBase 10 + localSize 10 ∧
      ∀ r ∈ c10.code, ¬(localBase 10 + r.1 ≤ a ∧ a < localBase 10 + r.1 + r.2)
    (takes 1 → answers .wardenInfo 0 ((List.range 4).flatMap (fun i => leBytes 8 (s.reg .wdnSlotstate 0 i).toNat) ++
      [BitVec.ofNat 8 (s.fld F.newelTamperCauseCause), if s.storeLocked then 1 else 0])) ∧
    (s.coreReset 10 = true → exec .wardenInfo s = .next s) ∧
    (takes 2 →
      (locked → Does setup s (replies 7 [])) ∧
      (¬locked → s.slotFree k = false → Does setup s (replies 4 [])) ∧
      (¬locked → s.slotFree k = true → secret = none → Does setup s (replies 1 [])) ∧
      (∀ z, ¬locked → s.slotFree k = true → secret = some z → Does setup s fun t => agreed 0 z t ∧
        (t.sec n).tx = some k ∧ (t.sec n).rx0 = some k ∧ t.fld F.trkLinkStatusKidxTx n = 0)) ∧
    (takes 3 →
      (u.on = false → Does rekey s (replies 4 [])) ∧
      (u.on = true → locked → Does rekey s (replies 7 [])) ∧
      (∀ z, u.on = true → ¬locked → s.slotFree k = true → secret = some z → Does rekey s fun t => agreed idx z t ∧
        (t.sec n).rx idx = some k ∧ (t.sec n).tx = (if s.requester n then some k else u.tx) ∧
        (t.sec n).rekey = some { idx := idx, slot := k, responder := !s.requester n, old := u.tx })) ∧
    (takes 4 →
      (locked → Does (.linkClear trk) s (replies 7 [])) ∧
      (¬locked → Does (.linkClear trk) s fun t => replies 0 [] t ∧ (t.sec n).tx = none ∧ (t.sec n).rx0 = none ∧ (t.sec n).rx1 = none ∧
        (∀ j < 64, (u.tx = some j ∨ u.rx0 = some j ∨ u.rx1 = some j) → s.slotState j = 2 ∨ s.slotState j = 3 →
          t.installed j = true ∨ (t.slotState j = 0 ∧ t.slot j = {})))) ∧
    (takes 5 →
      (locked → answers (.seal slot ident gen) 7 []) ∧
      (¬locked → s.exportable k = false ∨ s.wrapSlot 1 0 = false → answers (.seal slot ident gen) 4 []) ∧
      (¬locked → s.exportable k = true → s.wrapSlot 1 0 = true → Does (.seal slot ident gen) s fun t => ∃ iv, iv.length = 12 ∧
        replies 0 (s.wrapBlob k 1 head iv) t ∧ t.warden = s.warden)) ∧
    (takes 6 →
      (locked → answers (.unseal slot blob) 7 []) ∧
      (¬locked → blob.length ≠ 128 ∨ s.unwrapBad k blob = true → answers (.unseal slot blob) 4 []) ∧
      (¬locked → blob.length = 128 → s.unwrapBad k blob = false → Does (.unseal slot blob) s fun t =>
        match s.unwrapBlob (part blob 3 1) blob with
        | some v => replies 0 [] t ∧ t.slot k = v ∧ t.slotState k = 2
        | none => replies 1 [] t ∧ t.warden = s.warden)) ∧
    (takes 7 →
      (locked → answers (.sign digest) 7 []) ∧
      (¬locked → digest.length ≠ 48 ∨ s.slotUse 0 4 = false → answers (.sign digest) 4 []) ∧
      (¬locked → digest.length = 48 → s.slotUse 0 4 = true → attrKind (s.slot 0).attr = 4 → Does (.sign digest) s fun t =>
        ∃ r, replies 0 (ecdsaSign (s.slot 0).key digest r) t ∧ t.warden = s.warden)) ∧
    (takes 8 →
      (low → answers (.svnAdvance count) 4 []) ∧
      (¬low → count.val ≤ s.svnCount → answers (.svnAdvance count) 0 []) ∧
      (¬low → s.svnCount < count.val → ¬busy → Does (.svnAdvance count) s fun t => blows t ∧
        t.warden = { s.warden with svnGoal := some (count.val, part m 1 1, part m 2 2) } ∧ t.out = s.out)) ∧
    (takes 9 → Does .zeroize s fun t => replies 0 [] t ∧ (∀ j < 64, t.slotState j = 0 ∧ t.slot j = {}) ∧ t.warden.ops = []) ∧
    (payload.length ≤ 1024 → u.buf = none → Does (.secTunnelReceive trk payload) s fun t => t.sec n = { u with buf := some payload } ∧
      t.fld F.bellSrcPending 10 (16 + n) = 1 ∧ SameDevices s t ∧ SameMemory s t) ∧
    (1024 < payload.length ∨ u.buf ≠ none → Does (.secTunnelReceive trk payload) s fun t => t.warden = s.warden ∧
      t.fld F.trkCntCount n 9 = (s.fld F.trkCntCount n 9 + 1) % 2 ^ 48 ∧ t = { s with regs := t.regs, halls := t.halls }) ∧
    (locked → Does (.secKeyInstall trk value) s fun t => result 7 t ∧ t.warden = s.warden) ∧
    (¬locked → s.installBad n kk dir = true → Does (.secKeyInstall trk value) s fun t => result 4 t ∧ t.warden = s.warden) ∧
    (¬locked → s.installBad n kk dir = false → Does (.secKeyInstall trk value) s fun t => result 0 t ∧
      (dir % 2 = 1 → (t.sec n).rx ki = some kk) ∧ (dir % 2 = 0 → (t.sec n).rx ki = u.rx ki) ∧
      (2 ≤ dir → (t.sec n).tx = some kk ∧ t.fld F.trkLinkStatusKidxTx n = ki) ∧ (dir < 2 → (t.sec n).tx = u.tx)) ∧
    (Does (.secKeyClear trk value) s fun t => result 0 t ∧ (dir % 2 = 1 → (t.sec n).rx ki = none) ∧
      (2 ≤ dir → s.fld F.trkLinkStatusKidxTx n = ki → (t.sec n).tx = none) ∧ (dir < 2 → (t.sec n).tx = u.tx)) ∧
    (¬busy → Does .fuseSvnBlow s fun t => blows t ∧ OnlyField F.fuseSvnCtrlBusy 0 0 s t ∧ OnlyRegsTimers s t) ∧
    (busy → exec .fuseSvnBlow s = .next s) ∧
    (¬busy → exec (.fuseBlowDone one) s = .next s) ∧
    (busy → s.warden.svnGoal = none → Does (.fuseBlowDone one) s fun t => t.fld F.fuseSvnCtrlBusy = 0 ∧
      t.fld F.fuseSvnCtrlFail = (if one then 0 else 1) ∧ t.reg .fuseSvn = (if one then bit else s.reg .fuseSvn) ∧
      t.deadline .fuseBlow = none ∧ OnlyRegsTimers s t) ∧
    (∀ goal r g, busy → s.warden.svnGoal = some (goal, r, g) → one = true → (s.setReg .fuseSvn 0 0 bit).svnCount < goal →
      Does (.fuseBlowDone one) s fun t => t.reg .fuseSvn = bit ∧ blows t ∧ OnlyRegsTimers s t) ∧
    (s.deadline .wardenClear = none → exec .wardenClearDone s = .next s) ∧
    (s.deadline .wardenClear ≠ none → Does .wardenClearDone s fun t => t.deadline .wardenClear = none ∧ t.warden.ops = [] ∧
      (∀ a, inData a → t.byte a = 0) ∧ (∀ a, ¬inData a → t.byte a = s.byte a) ∧
      (c10.code ≠ [] → t.thr 10 0 = { pc := c10.entry / 4 * 4, run := .running }) ∧ SameDevices s t)

/-- PRTk_BRIDGE is stored while MODE is OFF (MODE 3 as 0). A write that changes a passed-through endpoint's owner hides the slot, refuses the old owner's open requests, stores MODE and HOST, drops the prefetch entries and keeps PERSTk_N low for 1 ms from 100 us on; SHARED to OFF stores MODE; any other write reaches PERST alone. At the end of the reset the link retrains; link up and down show the owner's slot with its hot-plug MSI and ring Bell 8; WAKE rings it for a port whose link is down. CLR clears VALID. An entry whose life ends goes to lost-and-found with address and mask. A vector unmasked while pending is sent. -/
def Obligations.RootPortsChangeOwnerAndLink : Prop :=
  ∀ (prt entry : Fin 8) (value : BitVec 64) (mask : BitVec 4) (host : Fin 6) (vector : Fin 65) (fn : Fin 1024) (e : PfEntry) (s : State),
    let k := prt.val
    let p := s.prt k
    let om := s.fld F.prtBridgeMode k
    let oh := s.fld F.prtBridgeHost k
    let nm := if fldGet F.prtBridgeMode value = 3 then 0 else fldGet F.prtBridgeMode value
    let nh := fldGet F.prtBridgeHost value
    let up := s.fld F.prtStatusLinkUp k = 1
    let owned := (om = 1 ∨ nm = 1) ∧ (om ≠ nm ∨ oh ≠ nh)
    let perst := fun (t : State) => t.fld F.prtBridgePerst k = fldGet F.prtBridgePerst value
    let msi := fun (h : Nat) (t : State) => (s.hostPath h).isSome = true → s.cfgGet h (2 + k) .msiEnable ≠ 0 →
      ∃ w ∈ t.waiting, w.pkt.payload = bridgePrefix (s.hostSt h).txPosted 0 0x3FF 0xF ++
        (memWrite (s.fnRid h (2 + k)) (s.cfgGet h (2 + k) .msiAddr / 4 * 4) (leBytes 4 (s.cfgGet h (2 + k) .msiData))).bytes
    let ports := fun (t : State) => t = { s with regs := t.regs, timers := t.timers, prts := t.prts }
    let rung := fun (t : State) => t.fld F.bellSrcPending 8 (138 + k) = 1
    let linkTo := fun (on : Bool) (t : State) => t.fld F.prtStatusLinkUp k = (if on then 1 else 0) ∧ rung t ∧ SameMemory s t ∧
      (om = 1 → (t.prt k).shown = on ∧ (p.shown ≠ on → msi oh t)) ∧
      (om ≠ 1 → t = { s with
        regs := t.regs, threads := t.threads, bellSince := t.bellSince, chip := t.chip, lanes := t.lanes, quads := t.quads,
        timers := t.timers, free := t.free }) ∧
      (om ≠ 1 → on = true → t.chip = (s.wakeOn 7).chip ∧ t.lanes = s.lanes ∧ t.quads = s.quads ∧ t.timers = s.timers ∧ t.free = s.free)
    let i := s.mbx host.val
    let v := vector.val
    let clear := fun (old new : UnitMap Word) => new = unitSet 0 old (2 * v + 1) (unitGet 0 old (2 * v + 1) &&& ~~~(1#64 <<< 32))
    let ctl := (unitGet 0 i.msix (2 * v + 1)).toNat
    let a := fn.val
    (om = 0 → ¬(nm = 1 ∧ up) → Does (.prtOwnerChange prt value) s fun t =>
      t.fld F.prtBridgeMode k = nm ∧ t.fld F.prtBridgeHost k = nh ∧ perst t ∧ t.fld F.prtBridgeCto k = fldGet F.prtBridgeCto value ∧
      t.fld F.prtBridgePrefetch k = fldGet F.prtBridgePrefetch value ∧ t.fld F.prtBridgePfLife k = max 1 (fldGet F.prtBridgePfLife value) ∧
      t = { s with regs := t.regs }) ∧
    (om = 0 → nm = 1 → up → Does (.prtOwnerChange prt value) s fun t => t.fld F.prtBridgeMode k = 1 ∧ t.fld F.prtBridgeHost k = nh ∧
      (t.prt k).shown = true ∧ (p.shown = false → msi nh t) ∧ SameMemory s t) ∧
    (om ≠ 0 → owned → Does (.prtOwnerChange prt value) s fun t =>
      t.fld F.prtBridgeMode k = nm ∧ t.fld F.prtBridgeHost k = nh ∧ perst t ∧ t.fld F.prtBridgeCto k = s.fld F.prtBridgeCto k ∧
      (t.prt k).handover = some (s.tb + 100000) ∧ (t.prt k).prefetch = [] ∧ (∀ j < 8, t.deadline .prefetch k j = none) ∧
      t.deadline .prtPerst k = some (s.tb + 1100000) ∧ SameMemory s t ∧
      (om = 1 → (t.prt k).shown = false ∧ (p.shown = true → msi oh t) ∧ (∀ x ∈ t.bridge, ¬(x.host = oh ∧ x.prt = k ∧ x.kind = 1)) ∧
        ∀ r ∈ t.reqs, ¬(r.toPrt = true ∧ r.unit = k ∧ r.origin = .host oh ∧ r.closed = false))) ∧
    (om ≠ 0 → ¬owned → Does (.prtOwnerChange prt value) s fun t =>
      t.fld F.prtBridgeMode k = (if om = 2 ∧ nm = 0 then 0 else om) ∧ t.fld F.prtBridgeHost k = oh ∧ perst t ∧
      t.fld F.prtBridgeCto k = s.fld F.prtBridgeCto k ∧ t = { s with regs := t.regs }) ∧
    (s.due .prtPerst k = true → Does (.prtPerstRelease prt) s fun t => (t.prt k).handover = none ∧ t.fld F.prtStatusLinkUp k = 0 ∧
      t.deadline .prtPerst k = none ∧ ports t) ∧
    (s.due .prtPerst k = false → exec (.prtPerstRelease prt) s = .next s) ∧
    (s.perstLow k = false → p.handover = none → om ≠ 0 → ¬up → Does (.prtLinkUp prt) s (linkTo true)) ∧
    (s.perstLow k = true ∨ p.handover ≠ none ∨ om = 0 ∨ up → exec (.prtLinkUp prt) s = .next s) ∧
    (up → Does (.prtLinkDown prt) s (linkTo false)) ∧ (¬up → exec (.prtLinkDown prt) s = .next s) ∧
    (¬up → Does (.pewakeAssert prt) s fun t => rung t ∧
      t = { s with regs := t.regs, threads := t.threads, bellSince := t.bellSince, chip := (s.wakeOn 7).chip }) ∧
    (up → exec (.pewakeAssert prt) s = .next s) ∧
    (Does (.lafClear prt mask) s fun t => (t.prt k).lafOrder = p.lafOrder.filter (fun j => !(decide (j < 4) && mask.toNat.testBit j)) ∧
      (∀ j < 4, if mask.toNat.testBit j then t.fld F.prtLafAddrValid k j = 0 ∧ t.fld F.prtLafAddrAddr k j = s.fld F.prtLafAddrAddr k j
        else t.reg .prtLafAddr k j = s.reg .prtLafAddr k j) ∧
      SameRegsBut (fun n a b => n = .prtLafAddr ∧ a = k ∧ b < 4) s t ∧ t = { s with regs := t.regs, prts := t.prts }) ∧
    (s.due .prefetch k entry.val = true → p.prefetch.find? (fun x => x.slot == entry.val) = some e → Does (.prefetchExpire prt entry) s fun t =>
      t.deadline .prefetch k entry.val = none ∧ (t.prt k).prefetch = p.prefetch.filter (fun x => x.slot != entry.val) ∧
      (e.unused = [] → ports t) ∧
      ∀ c j, e.unused ≠ [] → (∀ o ∈ e.unused, (e.addr + o) / 64 = c) → (List.range 4).find? (fun i => !p.lafOrder.contains i) = some j →
        t.fld F.prtLafAddrValid k j = 1 ∧ t.fld F.prtLafAddrAddr k j = c % 2 ^ 58 ∧
        (t.reg .prtLafMask k j).toNat = ((e.unused.map (fun o => 2 ^ ((e.addr + o) % 64))).sum) % 2 ^ 64 ∧
        (t.prt k).lafOrder = p.lafOrder.filter (· != j) ++ [j] ∧ (t.mbx oh).events = (s.mbx oh).events ||| 4 ∧
        t = { s with regs := t.regs, timers := t.timers, prts := t.prts, mailboxes := t.mailboxes }) ∧
    (s.due .prefetch k entry.val = false → exec (.prefetchExpire prt entry) s = .next s) ∧
    (a = 0x3FF → v < 32 → i.pba.testBit v = false → Does (.msixUnmask host fn vector) s fun t =>
      clear i.msix (t.mbx host.val).msix ∧ (t.mbx host.val).pba = i.pba ∧ t = { s with mailboxes := t.mailboxes }) ∧
    (a = 0x3FF → v < 32 → i.pba.testBit v = true → s.cfgGet host.val 10 .msixEnable ≠ 0 → s.cfgGet host.val 10 .msixMask = 0 →
      (s.hostPath host.val).isSome = true → Does (.msixUnmask host fn vector) s fun t =>
        clear i.msix (t.mbx host.val).msix ∧ (t.mbx host.val).pba.testBit v = false ∧
        ∃ w, t.waiting = s.waiting ++ [w] ∧ w.pkt.payload = bridgePrefix (s.hostSt host.val).txPosted 0 0x3FF 0xF ++
          (memWrite (s.pfBus host.val * 256) ((unitGet 0 i.msix (2 * v)).toNat / 4 * 4) (leBytes 4 (ctl % 2 ^ 32))).bytes) ∧
    (a < 0x3FF → s.fld F.alcoveCfgState a ≠ 0 → v < s.alcVectors a → (s.alc a).pba.testBit v = false →
      Does (.msixUnmask host fn vector) s fun t => clear (s.alc a).msix (t.alc a).msix ∧ t = { s with alcoves := t.alcoves })

/-- A posted TLP is held until its PSEQ is due, then counted and sent to the endpoint, cut at its payload limit; a bad CRC drops the packet. A host's read of PF0 is answered; one for a port not its own ends Unsupported Request; one for its port holds tags there with CTO running. A PASS endpoint's TLPs go upstream unchanged, cut at the host's payload limit. A completion for no open request is logged; a read's data and an error status return with the host's Requester ID and tag and free the tag; timeout gives Completer Abort, AER and a free tag. A configuration read answers the DW of the function the bus numbers name, NumVFs is written up to TotalVFs, an absent function is refused, one behind a slot is forwarded. A SHARED endpoint reads and writes what R261 opens; anything else counts in DECODE_ERR. -/
def Obligations.BridgeForwardsOrdersAndAnswers : Prop :=
  ∀ (hall : Fin 4) (prt : Fin 8) (host : Fin 6) (express : Bool) (cap : Fin 1024) (fn : HostFn) (id : Nat) (p : Parcel) (l : Tlp) (r : BridgeReq) (g : ReqPart)
    (x : HeldTlp) (s : State),
    let body := p.pkt.payload.take (p.pkt.len - (if p.pkt.e2e then 4 else 0))
    let pre := leNat (body.take 8)
    let h := host.val
    let k := prt.val
    let tx := (s.hostSt h).txPosted
    let tid := s.fld F.hostCfgTid h
    let en := s.flag F.hostCfgEn h = true
    let sent := fun (u : Tlp) (pfn pport : Nat) (w : LocalPacket) =>
      w.pkt.payload = bridgePrefix tx u.kind pfn pport ++ u.bytes ∧ w.pkt.tunnelId = tid ∧ w.pkt.type = 1 ∧
      w.pkt.vc = (if u.kind = 1 then 3 else 2)
    let sends := fun (u : Tlp) (pfn pport : Nat) (t : State) => ∃ w, t.waiting = s.waiting ++ [w] ∧ sent u pfn pport w
    let own : HeldTlp := { hall := hall.val, host := h, kind := l.kind, pseq := pre / 2 ^ 32, fn := pre / 2 ^ 20 % 1024,
                           prt := pre / 2 ^ 16 % 16, tlp := l }
    let comes := fun (kind : Nat) => s.bridgePacket hall.val = some p ∧ (own.prt < 8 → s.prtHall own.prt = hall.val) ∧ s.parcel p.id = some p ∧ p.pkt.bridgeKind = kind ∧
      p.pkt.e2eOk = true ∧ Tlp.ofBytes (body.drop 8) = some l ∧ 8 ≤ body.length ∧ l.kind = kind ∧ p.pkt.type = 1 ∧
      p.trunk.bind (fun n => s.hostOf n p.pkt.tunnelId) = some h ∧ s.bridge = []
    let took := fun (t : State) => t.parcel p.id = some { p with taken := true } ∧ t.bridge = []
    let idOf := fun (pfn pport : Nat) => s.fnRid h (s.fnOf h pfn pport)
    let answer := fun (data : List Byte) => l.answer 0 l.addr data 4 false (s.pfBus h * 256)
    let oneDw := l.dws = 1 ∧ l.be = 0xF
    let link := s.fld F.prtStatusLinkUp k = 1
    let live := link ∧ (s.prt k).handover = none
    let woken := (s.wakeOn 3).chip
    let mode := s.fld F.prtBridgeMode k
    let timed := fun (n cto : Nat) (t : State) => t.deadline .bridgeCto n = some (s.tb + 1000 * cto)
    let matched := s.reqs.find? (fun q => q.toPrt == true && q.unit == k && (true || q.tlp.reqId == l.reqId) &&
      q.parts.any (fun y => y.tag == l.tag && !y.done)) = some r
    let single := r.origin = .host h ∧ r.toPrt = true ∧ r.parts = [g] ∧ g.tag = l.tag ∧ g.done = false ∧ r.closed = false ∧ s.bridge = []
    let ended := fun (t : State) => t.reqs = s.reqs.filter (fun q => q.id != r.id) ∧ t.deadline .bridgeCto r.id = none
    let logged := fun (unit bit : Nat) (t : State) => unitGet 0 t.aer unit = unitGet 0 s.aer unit ||| 2 ^ bit
    let rung := fun (t : State) => t.fld F.bellSrcPending 8 (138 + k) = 1
    let asked := s.bridge = [x] ∧ x.host = h ∧ pseqReached x.pseq (s.hostSt h).rxPosted = true ∧ 8 ≤ x.prt
    let names := fun (type : Nat) (f : Option HostFn) => s.cfgTarget h type x.tlp = f
    let inHub := ∀ i type, fn ≠ .behind i type
    let readId := s.fnRid h fn.num
    let written := leNat x.tlp.data % 65536
    let inner := l.addr < 2 ^ 48 ∧ s.sharedTarget l.addr (4 * l.dws) = true
    let alc := l.addr / 2 ^ 52 % 1024
    let xlat := 2 ^ 63 ≤ l.addr ∧ l.addr / 2 ^ 62 % 2 = 0 ∧ alc ≠ 1023 ∧ s.flag F.alcoveCfgXlat alc = true
    let far := 2 ^ 48 ≤ l.addr ∧ l.addr < 2 ^ 63
    let shared := mode = 2 ∧ live
    (comes 0 → own.pseq ≠ (s.hostSt h).rxPosted → Does (.bridgePosted (.tunnel hall)) s fun t =>
      t.bridge = [own] ∧ t.parcel p.id = some { p with taken := true } ∧ t = { s with parcels := t.parcels, bridge := t.bridge }) ∧
    (comes 0 → own.pseq = (s.hostSt h).rxPosted → Does (.bridgePosted (.tunnel hall)) s fun t => took t ∧
      (t.hostSt h).rxPosted = ((s.hostSt h).rxPosted + 1) % 2 ^ 32 ∧ SameMemory s t ∧
      (own.prt < 8 → s.passed own.prt h = true → l.op = .memWr → ∀ u ∈ l.cutWrite (s.prt own.prt).maxPayload, .rootPort own.prt u ∈ t.out) ∧
      (own.prt < 8 → s.passed own.prt h = false → logged (aerFn h (2 + own.prt)) 0 t) ∧
      ∀ b, 8 ≤ own.prt → own.fn = 0x3FF → l.op = .memWr → l.stores = [b] → b.1 % 0x4000 < 0x100 →
        unitGet 0 (t.mbx h).cmd (b.1 % 0x4000) = b.2) ∧
    (s.bridgePacket hall.val = some p → s.parcel p.id = some p → p.pkt.bridgeKind = 0 → p.pkt.e2eOk = false →
      Does (.bridgePosted (.tunnel hall)) s (Dropped p 6 s)) ∧
    (∀ u, live → mode = 1 → s.fld F.prtBridgeHost k = h → en → l.kind = 0 → (if l.op = .memWr then l.cutWrite (s.hostMps h) else [l]) = [u] →
      Does (.bridgePosted (.port prt l)) s fun t => sends u 0x3FF k t ∧
      (t.hostSt h).txPosted = (tx + 1) % 2 ^ 32 ∧ t = { s with waiting := t.waiting, hosts := t.hosts, chip := woken }) ∧
    (comes 1 → pseqReached own.pseq (s.hostSt h).rxPosted = true → en → l.op = .memRd → oneDw → 8 ≤ own.prt → own.fn = 0x3FF →
      Does (.bridgeNonposted (.tunnel hall)) s fun t => took t ∧
        sends (answer ((List.range 4).map (fun i => s.pf0Byte h ((l.addr + i) % 0x4000)))) 0x3FF own.prt t) ∧
    (comes 1 → pseqReached own.pseq (s.hostSt h).rxPosted = true → en → l.op = .memRd → own.prt < 8 → s.passed own.prt h = false →
      Does (.bridgeNonposted (.tunnel hall)) s fun t => took t ∧ sends (l.answer cplUr l.addr [] 4 false (idOf own.fn own.prt)) own.fn own.prt t) ∧
    (comes 1 → pseqReached own.pseq (s.hostSt h).rxPosted = true → l.op = .memRd → own.prt < 8 → s.passed own.prt h = true →
      s.prefetchBlock h own.prt l = none → s.prtTags own.prt = [] → (l.cut (s.prt own.prt).maxRead).length ≤ 256 →
      Does (.bridgeNonposted (.tunnel hall)) s fun t => took t ∧ timed s.nextReq (s.fld F.prtBridgeCto own.prt) t ∧
        ∃ q, t.reqs = s.reqs ++ [q] ∧ q.id = s.nextReq ∧ q.unit = own.prt ∧ q.origin = .host h ∧
          q.parts.map (fun y => (y.addr, y.dws, y.be)) = l.cut (s.prt own.prt).maxRead ∧
          ∀ y ∈ q.parts, .rootPort own.prt (l.part y.addr y.dws y.be y.tag) ∈ t.out) ∧
    (live → mode = 1 → s.fld F.prtBridgeHost k = h → en → l.kind = 1 → Does (.bridgeNonposted (.port prt l)) s fun t => sends l 0x3FF k t ∧
      timed s.nextReq (s.fld F.hostCfgCto h) t ∧ ∃ q, t.reqs = s.reqs ++ [q] ∧ q.id = s.nextReq ∧ q.unit = h ∧ q.origin = .endpoint k ∧
        q.tlp = l) ∧
    (link → l.kind = 2 → s.reqs = [] → s.bridge = [] → Does (.bridgeCompletion (.port prt l)) s fun t => logged (aerPrt k) 3 t ∧ rung t ∧
      t = { s with aer := t.aer, regs := t.regs, threads := t.threads, bellSince := t.bellSince, chip := t.chip }) ∧
    (link → l.op = .cpl 0 → matched → single → en → r.prefetch = false → r.sent = 0 → g.got = [] → g.cpls = [] →
      g.dws = 1 → l.data.length = 4 → Does (.bridgeCompletion (.port prt l)) s fun t =>
        ended t ∧ sends { l with reqId := r.tlp.reqId, tag := r.tlp.tag, data := tdShow r.reg l.data } r.fn r.prt t) ∧
    (∀ st, link → l.op = .cpl st → st ≠ 0 → matched → single → en → Does (.bridgeCompletion (.port prt l)) s fun t => ended t ∧
      sends { l with reqId := r.tlp.reqId, tag := r.tlp.tag } r.fn r.prt t) ∧
    (s.req id = some r → s.due .bridgeCto id = true → r.origin = .host h → r.toPrt = true → r.unit = k → r.closed = false → s.bridge = [] → en →
      Does (.bridgeCompletionTimeout id) s fun t => ended t ∧ logged (aerPrt k) 2 t ∧ rung t ∧
        sends (r.tlp.answer cplCa r.tlp.addr [] 4 false (idOf r.fn r.prt)) r.fn r.prt t) ∧
    (s.due .bridgeCto id = false → exec (.bridgeCompletionTimeout id) s = .next s) ∧
    (s.bridge = [] → exec (.hostConfigRequest host express cap) s = .next s) ∧
    (∀ type, asked → x.tlp.op = .cfgRd type → names type none → en → Does (.hostConfigRequest host express cap) s fun t =>
      t.bridge = [] ∧ sends (x.tlp.answer cplUr x.tlp.addr [] 4 false (idOf x.fn x.prt)) x.fn x.prt t) ∧
    (∀ type i ty, asked → x.tlp.op = .cfgRd type → names type (some (.behind i ty)) → s.passed i h = false → en →
      Does (.hostConfigRequest host express cap) s fun t => t.bridge = [] ∧
        sends (x.tlp.answer cplUr x.tlp.addr [] 4 false (idOf x.fn x.prt)) x.fn x.prt t) ∧
    (∀ type i ty, asked → x.tlp.op = .cfgRd type → names type (some (.behind i ty)) → s.passed i h = true → s.prtTags i = [] →
      Does (.hostConfigRequest host express cap) s fun t => t.bridge = [] ∧
        ∃ q ∈ t.reqs, q.id = s.nextReq ∧ q.toPrt = true ∧ q.unit = i ∧ q.origin = .host h ∧ q.tlp = x.tlp) ∧
    (∀ type, asked → x.tlp.op = .cfgRd type → x.tlp.data = [] → names type (some fn) → inHub → en → Does (.hostConfigRequest host express cap) s fun t =>
      t.bridge = [] ∧ sends (x.tlp.answer 0 0 (leBytes 4 (s.cfgRead h fn x.tlp.cfgDw)) 4 false readId) x.fn x.prt t ∧
      t = { s with bridge := t.bridge, waiting := t.waiting }) ∧
    (∀ type, asked → x.tlp.op = .cfgWr type → x.tlp.data ≠ [] → names type (some .pf0) → en → 16 ≤ x.tlp.cfgDw →
      s.capOf h .pf0 x.tlp.cfgDw = some (.sriov, 4) → x.tlp.be % 4 = 3 → written ≤ s.fld F.hostCfgTotalvfs h → s.cfgGet h 10 .vfEnable = 0 →
      s.cfgGet h 10 .numVfs < 65536 → Does (.hostConfigRequest host express cap) s fun t => t.bridge = [] ∧ t.cfgGet h 10 .numVfs = written ∧
        t.fld F.hostStatusNumvfs h = written ∧ sends (x.tlp.answer 0 0 [] 4 false (s.fnRid h 10)) x.fn x.prt t) ∧
    (shared → l.op = .memWr → oneDw → l.data.length = 4 → inner → Does (.sharedEndpointRequest prt l) s fun t =>
      t = { s with mem := t.mem, poisoned := t.poisoned, chip := woken } ∧
      ∀ a, t.byte a = if l.addr ≤ a ∧ a < l.addr + 4 then l.data.getD (a - l.addr) 0 else s.byte a) ∧
    (shared → l.op = .memRd → oneDw → inner → Does (.sharedEndpointRequest prt l) s fun t =>
      t = { s with out := .rootPort k (l.answer 0 l.addr (s.bytes l.addr 4) 4 false 0) :: s.out, chip := woken }) ∧
    (shared → far → l.op = .memRd → Does (.sharedEndpointRequest prt l) s fun t => rung t ∧
      t.fld F.prtStatusDecodeErr k = (s.fld F.prtStatusDecodeErr k + 1) % 2 ^ 48 ∧
      t.out = .rootPort k (l.answer cplUr l.addr [] 4 false 0) :: s.out ∧ SameDevices s t ∧ SameMemory s t) ∧
    (shared → far → l.op = .memWr → Does (.sharedEndpointRequest prt l) s fun t => rung t ∧ logged (aerPrt k) 0 t ∧
      t.fld F.prtStatusDecodeErr k = (s.fld F.prtStatusDecodeErr k + 1) % 2 ^ 48 ∧ t.out = s.out ∧ SameDevices s t ∧ SameMemory s t) ∧
    (shared → xlat → s.flag F.alcoveDirtyCtlOn alc = false → l.addr % 4 = 0 → l.op = .memWr → oneDw → l.data.length = 4 → s.fld F.alcoveCfgHost alc = h → en → Does (.sharedEndpointRequest prt l) s fun t =>
      sends { l with addr := l.addr % 2 ^ 52, reqId := s.alcRid alc } alc 0xF t ∧ SameMemory s t)

/-- A write to common configuration of a READY Alcove updates the image, sets CFG_EVT and rings Bell 8; of another it is counted in DISCARDS; with BAR0 closed, or for a CANVAS Alcove, which has none, it does nothing. A notification sets its bit and, in READY, rings the serving core. Device status 0 and a Function Level Reset quiesce the Alcove (50 ms, 80 ms) and reset it. When INFLIGHT is 0 QUIESCING becomes QUIESCED and FREEZING FROZEN, and the command is answered; at TIMEOUT a quiesce sets ABORTED and closes translation 1 ms later, a freeze returns to READY with TIMEOUT. -/
def Obligations.AlcoveDeviceAndTeardown : Prop :=
  ∀ (host : Fin 6) (vf : Fin 256) (q : Fin 64) (lo hi st : Byte) (i : Fin 1023) (m : Nat) (s : State),
    let a := i.val
    let al := s.alc a
    let there := s.alcOf host.val vf.val = some a
    let ready := s.alcState a = 1
    let common := s.fld F.alcoveCfgType a ≠ 2
    let answered := fun (status infl : Nat) (t : State) => (t.mbx m).busy = false ∧ (t.mbx m).done = true ∧
      getBytes (t.mbx m).rsp 0 4 = [BitVec.ofNat 8 status, BitVec.ofNat 8 (min 255 infl)] ++ leBytes 2 a
    let event := fun (t : State) => t.fld F.alcoveEvtCfgEvt a = 1 ∧ t.fld F.bellSrcPending 8 148 = 1 ∧ SameMemory s t
    let core := s.fld F.alcoveCfgCore a
    let src := s.fld F.alcoveCfgBellSrc a
    let latched := fun (t : State) => t.reg .alcoveNotify a = s.reg .alcoveNotify a ||| BitVec.ofNat 64 (2 ^ q.val)
    let ends := fun (w : AlcoveWait) (st msec : Nat) (t : State) => t.alcState a = st ∧ (t.alc a).wait = w ∧
      t.deadline .alcQuiesce a = some (s.tb + 1000000 * msec)
    let wiped := fun (t : State) => t.alcState a = 1 ∧ t.flag F.alcoveCfgXlat a = true ∧ t.reg .alcoveNotify a = 0 ∧
      (t.alc a).status = 0 ∧ (t.alc a).driverFeatures = 0 ∧ ∀ k, (unitGet {} (t.alc a).queues k).enable = false
    let local_ := fun (t : State) => t = { s with regs := t.regs, timers := t.timers, alcoves := t.alcoves }
    (s.alcOf host.val vf.val = none → exec (.vfCommonConfigWrite host vf 20 [st]) s = .next s ∧ exec (.vfNotifyWrite host vf q) s = .next s ∧
      exec (.vfFlr host vf) s = .next s) ∧
    (there → s.barOpen a = false → exec (.vfCommonConfigWrite host vf 20 [st]) s = .next s ∧ exec (.vfNotifyWrite host vf q) s = .next s) ∧
    (there → ¬common → exec (.vfCommonConfigWrite host vf 20 [st]) s = .next s) ∧
    (there → common → s.barOpen a = true → ¬ready → Does (.vfCommonConfigWrite host vf 22 [lo, hi]) s fun t =>
      t.fld F.alcoveCfgDiscards a = min 0xFFFF (s.fld F.alcoveCfgDiscards a + 1) ∧ OnlyField F.alcoveCfgDiscards a 0 s t ∧ OnlyRegs s t) ∧
    (there → common → s.barOpen a = true → ready → al.queueSel < 65536 → Does (.vfCommonConfigWrite host vf 22 [lo, hi]) s fun t =>
      event t ∧ (t.alc a).queueSel = lo.toNat + 256 * hi.toNat ∧ (t.alc a).status = al.status ∧
      t = { s with regs := t.regs, threads := t.threads, bellSince := t.bellSince, alcoves := t.alcoves, chip := (s.wakeOn 7).chip }) ∧
    (there → common → s.barOpen a = true → ready → st ≠ 0 → Does (.vfCommonConfigWrite host vf 20 [st]) s fun t =>
      event t ∧ (t.alc a).status = st.toNat ∧ t.alcState a = 1 ∧
      t = { s with regs := t.regs, threads := t.threads, bellSince := t.bellSince, alcoves := t.alcoves, chip := (s.wakeOn 7).chip }) ∧
    (there → common → s.barOpen a = true → ready → s.inflight a ≠ 0 → Does (.vfCommonConfigWrite host vf 20 [0]) s fun t =>
      event t ∧ ends .guest 2 50 t ∧ (t.alc a).status = al.status) ∧
    (there → common → s.barOpen a = true → ready → s.inflight a = 0 → Does (.vfCommonConfigWrite host vf 20 [0]) s fun t =>
      event t ∧ wiped t) ∧
    (there → s.barOpen a = true → q.val < s.fld F.alcoveCfgNvq a → ready → Does (.vfNotifyWrite host vf q) s fun t => latched t ∧
      t.fld F.bellSrcPending core src = 1 ∧ t = { s with regs := t.regs, threads := t.threads, bellSince := t.bellSince, chip := (s.wakeOn 7).chip }) ∧
    (there → s.barOpen a = true → q.val < s.fld F.alcoveCfgNvq a → ¬ready → Does (.vfNotifyWrite host vf q) s fun t => latched t ∧
      SameRegsBut (fun n x _ => n = .alcoveNotify ∧ x = a) s t ∧ OnlyRegs s t) ∧
    (there → ready → s.inflight a ≠ 0 → Does (.vfFlr host vf) s fun t => ends .flr 2 80 t ∧ t.barOpen a = false ∧ local_ t) ∧
    (there → ready → s.inflight a = 0 → Does (.vfFlr host vf) s fun t => wiped t ∧ SameMemory s t) ∧
    (there → s.alcState a = 3 ∨ s.alcState a = 5 → Does (.vfFlr host vf) s wiped) ∧
    (s.due .alcQuiesce a = true → s.alcState a = 2 → Does (.alcoveQuiesceTimeout i) s fun t => t.flag F.alcoveCfgAborted a = true ∧
      t.alcState a = 2 ∧ t.deadline .alcQuiesce a = none ∧ t.deadline .alcXlat a = some (s.tb + 1000000) ∧
      t = { s with regs := t.regs, timers := t.timers }) ∧
    (s.due .alcQuiesce a = true → s.alcState a = 4 → al.wait = .freeze m → Does (.alcoveQuiesceTimeout i) s fun t => t.alcState a = 1 ∧
      (t.alc a).wait = .none ∧ answered 6 (s.inflight a) t ∧ SameMemory s t) ∧
    (s.due .alcQuiesce a = false → exec (.alcoveQuiesceTimeout i) s = .next s) ∧
    (s.due .alcXlat a = true → Does (.alcoveXlatClose i) s fun t => t.flag F.alcoveCfgXlat a = false ∧ t.fld F.alcoveInflightFw a = 0 ∧
      t.fld F.alcoveInflightHw a = s.fld F.alcoveInflightHw a ∧ t.alcState a = s.alcState a ∧ t.deadline .alcXlat a = none ∧
      t = { s with regs := t.regs, timers := t.timers }) ∧
    (s.due .alcXlat a = false → exec (.alcoveXlatClose i) s = .next s) ∧
    (s.inflight a ≠ 0 → exec (.alcoveInflightZero i) s = .next s) ∧
    (s.inflight a = 0 → s.alcState a = 2 → al.wait = .quiesce m → Does (.alcoveInflightZero i) s fun t => t.alcState a = 3 ∧ answered 0 0 t ∧
      t.deadline .alcQuiesce a = none ∧ t.deadline .alcXlat a = none ∧ SameMemory s t) ∧
    (s.inflight a = 0 → s.alcState a = 4 → al.wait = .freeze m → Does (.alcoveInflightZero i) s fun t => t.alcState a = 5 ∧ answered 0 0 t ∧
      t.deadline .alcQuiesce a = none ∧ SameMemory s t) ∧
    (s.inflight a = 0 → s.alcState a = 2 → al.wait = .guest ∨ al.wait = .flr → Does (.alcoveInflightZero i) s fun t => wiped t ∧ local_ t)

/-- A command that is malformed is INVALID, one for another host's Alcove NOT_OWNER, one during a teardown BUSY with INFLIGHT (SAVE and QUERY apart), one not allowed from the state STATE. CREATE takes a free index and an unused Bell source of the serving core and answers the index, or NO_RESOURCE (when the backing a BLK or CANVAS Alcove asks for is not there, too: assumption log 189). QUIESCE and FREEZE start the teardown, answered at once with nothing in flight; RESET clears the device to READY with device status 0x40; DESTROY frees; THAW returns to READY and rings for latched notifications; DIRTY starts, syncs and stops; SAVE writes the image and answers its size; RESTORE reads the image; QUERY answers state and INFLIGHT. -/
def Obligations.AlcoveCommandsCheckThenAct : Prop :=
  ∀ (mbx : Fin 7) (s : State),
    let m := mbx.val
    let b := s.mbx m
    let h := s.mbxHost m
    let a := b.par 2 4
    let al := s.alc a
    let st := s.alcState a
    let nvq := s.fld F.alcoveCfgNvq a
    let host := s.fld F.alcoveCfgHost a
    let answered := fun (status infl al : Nat) (t : State) => (t.mbx m).busy = false ∧ (t.mbx m).done = true ∧
      (t.mbx m).count = (b.count + 1) % 256 ∧ (m < 6 → (t.mbx m).events = b.events ||| 1) ∧ SameMemory s t ∧
      getBytes (t.mbx m).rsp 0 4 = [BitVec.ofNat 8 status, BitVec.ofNat 8 (min 255 infl)] ++ leBytes 2 al
    let result := fun (l : List Byte) (t : State) => getBytes (t.mbx m).rsp 16 l.length = l
    let due := fun (op : Nat) => b.busy = true ∧ b.par 0 2 = op ∧ s.mbxAtWork m = false
    let time := decide (b.par 16 20 ≤ 1000)
    let size := 4096 + 64 * nvq
    let dirtyOk := decide (b.par 16 17 ≤ 2) && (b.par 16 17 != 0 || (b.par 24 32 % 8 == 0 && b.par 32 40 % 8 == 0 && b.par 40 48 % 4096 == 0))
    let table : List (Instr × Nat × Bool × Bool × Bool) := [
      (.alcoveQuiesce mbx, 2, time, true, st == 1), (.alcoveReset mbx, 3, true, true, st == 3),
      (.alcoveDestroy mbx, 4, true, true, st == 3 || st == 5), (.alcoveFreeze mbx, 5, time, true, st == 1),
      (.alcoveSave mbx, 6, decide (size ≤ b.par 24 28), false, st == 5),
      (.alcoveRestore mbx, 7, b.par 16 18 % 4 == 0, true, st == 1 && al.status == 0),
      (.alcoveThaw mbx, 8, true, true, st == 5 || (st == 3 && !s.flag F.alcoveCfgAborted a)),
      (.alcoveDirty mbx, 9, dirtyOk, true, (st == 1 || st == 5) && (b.par 16 17 == 0 || s.flag F.alcoveDirtyCtlOn a)),
      (.alcoveQuery mbx, 10, true, false, true)]
    let good := s.headOk m = true ∧ a ≤ 1022
    let own := good ∧ host = h
    let teardown := fun (w : AlcoveWait) (dest end_ : Nat) (t : State) =>
      if s.inflight a = 0 then t.alcState a = end_ ∧ (t.alc a).wait = .none ∧ t.deadline .alcQuiesce a = none ∧ answered 0 0 a t
      else t.alcState a = dest ∧ (t.alc a).wait = w ∧
        t.deadline .alcQuiesce a = some (s.tb + 1000000 * (if b.par 16 20 = 0 then 50 else b.par 16 20)) ∧ (t.mbx m).busy = true ∧
        t = { s with regs := t.regs, timers := t.timers, alcoves := t.alcoves }
    let plain := al.dirty = [] ∧ al.dirtyBusy = [] ∧ al.saveFor = none ∧ al.syncFor = none
    let n := b.par 16 17
    let vfree := ∃ k < 1023, s.alcState k = 0
    let bell := ∃ k, 256 ≤ k ∧ k < 4096 ∧ ∀ j < 1023, s.alcState j ≠ 0 → s.fld F.alcoveCfgCore j = b.par 19 20 → s.fld F.alcoveCfgBellSrc j ≠ k
    let make := s.headOk m = true ∧ s.createOk b h = true
    (∀ c ∈ table, due c.2.1 → ¬good ∨ c.2.2.1 = false → Does c.1 s (answered 2 0 a)) ∧
    (∀ c ∈ table, due c.2.1 → good → c.2.2.1 = true → st ≠ 0 → host ≠ h → Does c.1 s (answered 5 0 a)) ∧
    (∀ c ∈ table, due c.2.1 → own → c.2.2.1 = true → c.2.2.2.1 = true → tearing st = true → Does c.1 s (answered 1 (s.inflight a) a)) ∧
    (∀ c ∈ table, due c.2.1 → own → c.2.2.1 = true → tearing st = false → c.2.2.2.2 = false → Does c.1 s (answered 4 (s.inflight a) a)) ∧
    (∀ c ∈ table, b.busy = false → exec c.1 s = .next s) ∧
    (due 1 → ¬make → Does (.alcoveCreate mbx) s (answered 2 0 a)) ∧
    (∀ k, due 1 → make → s.alcOf h n = some k → Does (.alcoveCreate mbx) s
      (answered (if tearing (s.alcState k) then 1 else 4) (s.inflight k) k)) ∧
    (due 1 → make → s.alcOf h n = none → ¬vfree ∨ s.noBacking b = true → Does (.alcoveCreate mbx) s (answered 3 0 0xFFFF)) ∧
    (due 1 → make → s.alcOf h n = none → vfree → bell → s.noBacking b = false → Does (.alcoveCreate mbx) s fun t => ∃ k < 1023, answered 0 0 k t ∧
      s.alcState k = 0 ∧ t.alcState k = 1 ∧ t.fld F.alcoveCfgHost k = h ∧ t.fld F.alcoveCfgVf k = n ∧
      t.fld F.alcoveCfgType k = b.par 17 18 ∧ t.fld F.alcoveCfgNvq k = b.par 18 19 ∧ t.fld F.alcoveCfgCore k = b.par 19 20 ∧
      t.flag F.alcoveCfgXlat k = true ∧ (t.alc k).maxSize = b.par 20 22 ∧ (t.alc k).status = 0 ∧
      ∀ j < 1023, j ≠ k → t.reg .alcoveCfg j = s.reg .alcoveCfg j ∧ (s.alcState j ≠ 0 → s.fld F.alcoveCfgCore j = b.par 19 20 →
        s.fld F.alcoveCfgBellSrc j ≠ t.fld F.alcoveCfgBellSrc k)) ∧
    (due 2 → own → time = true → st = 1 → Does (.alcoveQuiesce mbx) s fun t => teardown (.quiesce m) 2 3 t ∧
      t.flag F.alcoveCfgAborted a = false) ∧
    (due 5 → own → time = true → st = 1 → Does (.alcoveFreeze mbx) s (teardown (.freeze m) 4 5)) ∧
    (due 3 → own → st = 3 → Does (.alcoveReset mbx) s fun t => answered 0 0 a t ∧ t.alcState a = 1 ∧ t.flag F.alcoveCfgXlat a = true ∧
      t.reg .alcoveNotify a = 0 ∧ (t.alc a).status = 0x40 ∧ (t.alc a).driverFeatures = 0 ∧ (t.alc a).isr = 2 ∧
      ∀ k, (unitGet {} (t.alc a).queues k).enable = false) ∧
    (due 4 → own → st = 3 ∨ st = 5 → Does (.alcoveDestroy mbx) s fun t => answered 0 0 a t ∧ t.alcState a = 0 ∧
      t.flag F.alcoveCfgXlat a = false ∧ t.flag F.alcoveDirtyCtlOn a = false ∧ t.alc a = {}) ∧
    (due 8 → own → st = 5 ∨ (st = 3 ∧ s.flag F.alcoveCfgAborted a = false) → Does (.alcoveThaw mbx) s fun t => answered 0 (s.inflight a) a t ∧
      t.alcState a = 1 ∧ t.flag F.alcoveCfgXlat a = true ∧ t.reg .alcoveNotify a = s.reg .alcoveNotify a ∧
      (s.reg .alcoveNotify a ≠ 0 → t.fld F.bellSrcPending (s.fld F.alcoveCfgCore a) (s.fld F.alcoveCfgBellSrc a) = 1)) ∧
    (due 10 → good → st = 0 ∨ host = h → Does (.alcoveQuery mbx) s fun t => answered 0 (s.inflight a) a t ∧ result [BitVec.ofNat 8 st] t ∧
      t.alcoves = s.alcoves) ∧
    (due 9 → own → dirtyOk = true → st = 1 ∨ st = 5 → n = 0 → Does (.alcoveDirty mbx) s fun t => answered 0 (s.inflight a) a t ∧ result [1] t ∧
      t.fld F.alcoveDirtyAAddr a = b.par 24 32 / 8 ∧ t.fld F.alcoveDirtyBAddr a = b.par 32 40 / 8 ∧
      t.fld F.alcoveDirtyBaseBase a = b.par 40 48 / 4096 ∧ t.fld F.alcoveDirtyCtlPages a = b.par 48 52 ∧
      t.flag F.alcoveDirtyCtlOn a = true ∧ t.fld F.alcoveDirtyCtlActiveB a = 0) ∧
    (due 9 → own → dirtyOk = true → st = 1 ∨ st = 5 → n ≠ 0 → s.flag F.alcoveDirtyCtlOn a = true → plain → Does (.alcoveDirty mbx) s fun t =>
      answered 0 (s.inflight a) a t ∧ result [BitVec.ofNat 8 (s.fld F.alcoveDirtyCtlActiveB a)] t ∧
      t.fld F.alcoveDirtyCtlActiveB a = 1 - s.fld F.alcoveDirtyCtlActiveB a ∧ t.flag F.alcoveDirtyCtlOn a = decide (n ≠ 2)) ∧
    (due 9 → own → dirtyOk = true → st = 1 ∨ st = 5 → n ≠ 0 → s.flag F.alcoveDirtyCtlOn a = true → al.dirty ≠ [] → Does (.alcoveDirty mbx) s
      fun t => (t.alc a).syncFor = some (m, n) ∧ (t.mbx m).busy = true ∧ t = { s with alcoves := t.alcoves }) ∧
    (due 6 → own → size ≤ b.par 24 28 → st = 5 → plain → s.flag F.alcoveDirtyCtlOn a = false → Does (.alcoveSave mbx) s fun t =>
      answered 0 (s.inflight a) a t ∧ result (leBytes 16 size) t ∧ t.alcState a = 5 ∧
      ∃ rest, t.waiting = (s.hubWrite host (s.hostHall host) 49 a (s.alcRid a) (b.par 16 24) (s.alcImage a)).waiting ++ rest) ∧
    (due 7 → own → b.par 16 18 % 4 = 0 → st = 1 → al.status = 0 → Does (.alcoveRestore mbx) s fun t => (t.mbx m).busy = true ∧
      (t.alc a).restoreFor = some m ∧ t.alcState a = 1 ∧ t.deadline .bridgeCto s.nextReq = some (s.tb + 1000 * s.fld F.hostCfgCto host) ∧
      ∃ q, t.reqs = s.reqs ++ [q] ∧ q.origin = .restore a m ∧ q.unit = host ∧ q.tlp.addr = b.par 16 24 ∧
        q.tlp.dws = ceilDiv (min size (4096 - b.par 16 24 % 4096)) 4)

/-- A DHn_LINK write is stored while the live MODE is OFF and LANES and RATE fit the unit, else ignored with CFG_ERR. GO starts one AUX transaction with the request in the registers, RESULT busy, 400 us to the reply; the reply or the timeout ends it with its RESULT, AUX_DONE and Bell 8, and a read's bytes in AUX_DATA. The owner's request in PASS mode is sent on, a write to the DPCD link addresses kept and acknowledged; another host's is answered NACK. IRQ_HPD, UNPLUG and PLUG set their bits, HPD_NOW and the transmitter's idle, ring Bell 8 and in PASS mode go to the owner. -/
def Obligations.HeadsLinkAuxAndHpd : Prop :=
  ∀ (n h : Fin 6) (value : BitVec 64) (data : List Byte) (reply : AuxReply) (f : AuxFrom) (r : AuxReq) (s : State),
    let i := n.val
    let mode := s.fld F.dhCtrlLiveMode i
    let hd := s.head i
    let lanes := fldGet F.dhLinkLanes value
    let rate := fldGet F.dhLinkRate value
    let fits := ∀ x, s.headUnit i = some x → lanesOf lanes ≤ x.1 ∧ rate ≤ x.2
    let rung := fun (t : State) => t.fld F.bellSrcPending 8 (124 + i) = 1
    let kind := fldGet F.dhAuxCmdKind value
    let len := fldGet F.dhAuxCmdLen value + 1
    let addr := fldGet F.dhAuxCmdAddr value
    let bytes := leBytes 8 (s.reg .dhAuxData i 0).toNat ++ leBytes 8 (s.reg .dhAuxData i 1).toNat
    let q : AuxReq := { kind := kind, len := len, addr := addr, data := if kind % 2 = 0 then bytes.take len else [] }
    let qh : AuxReq := { kind := kind, len := len, addr := addr, data := data.take len }
    let go := fldGet F.dhAuxCmdGo value = 1
    let starts := fun (who : AuxFrom) (q : AuxReq) (t : State) => t.head i = { hd with aux := some (who, q) } ∧
      t.fld F.dhAuxStatusResult i = 1 ∧ t.deadline .dhAux i = some (s.tb + 400000) ∧ t.out = .aux i q :: s.out ∧
      t = { s with regs := t.regs, timers := t.timers, out := t.out, heads := t.heads }
    let owner := s.fld F.dhPassLiveHost i = h.val ∧ mode = 1
    let done := fun (result : Nat) (t : State) => t.fld F.dhAuxStatusResult i = result ∧ t.fld F.dhEventsAuxDone i = 1 ∧ rung t ∧
      SameMemory s t
    let ended := fun (result : Nat) (t : State) => done result t ∧ (t.head i).aux = none ∧ t.deadline .dhAux i = none
    let toHost := fun (result : Nat) (l : List Byte) (t : State) => t.out = .auxToHost h.val i result l :: s.out
    let result := match reply with
      | .ack => 2
      | .nack => 3
      | .defer => 4
    let read := reply = .ack ∧ r.kind % 2 = 1
    let run := hd.aux = some (f, r)
    let now := s.fld F.dhEventsHpdNow i = 1
    let plain := ∀ k < 12, s.isTd k = false
    let event := fun (g : Fld) (e : Nat) (t : State) => t.fld g i = 1 ∧ rung t ∧ SameMemory s t ∧ (mode ≠ 1 → t.out = s.out) ∧
      (mode = 1 → plain → t.out = .hpdToHost (s.fld F.dhPassLiveHost i) i e :: s.out)
    (mode = 0 → lanes ≠ 3 → fits → Does (.dhLinkWrite n value) s fun t => t.fld F.dhLinkLanes i = lanes ∧ t.fld F.dhLinkRate i = rate ∧
      t.fld F.dhLinkBpc i = (if 3 ≤ fldGet F.dhLinkBpc value then 1 else fldGet F.dhLinkBpc value) ∧
      SameRegsBut (fun m a _ => m = .dhLink ∧ a = i) s t ∧ OnlyRegs s t) ∧
    (mode ≠ 0 ∨ lanes = 3 ∨ ¬fits → Does (.dhLinkWrite n value) s fun t => t.fld F.dhStatusCfgErr i = 1 ∧
      OnlyField F.dhStatusCfgErr i 0 s t ∧ OnlyRegs s t) ∧
    (go → mode ≠ 0 → hd.aux = none → Does (.dhAuxStart n value none data) s (starts .firmware q)) ∧
    (¬go ∨ mode = 0 ∨ hd.aux ≠ none → Does (.dhAuxStart n value none data) s fun t => t.fld F.dhAuxCmdKind i = kind ∧
      t.fld F.dhAuxCmdLen i = fldGet F.dhAuxCmdLen value ∧ t.fld F.dhAuxCmdAddr i = addr ∧ OnlyRegs s t) ∧
    (¬owner → Does (.dhAuxStart n value (some h) data) s fun t => t = { s with out := .auxToHost h.val i 3 [] :: s.out }) ∧
    (owner → hd.aux = none → kind = 0 → dpcdKept addr = true → Does (.dhAuxStart n value (some h) data) s fun t => toHost 2 [] t ∧
      t = { s with out := t.out, heads := t.heads } ∧ ∀ b, len = 1 → data.head? = some b → unitGet 0 (t.head i).dpcd addr = b) ∧
    (owner → hd.aux = none → 1 < kind ∨ (kind = 0 ∧ dpcdKept addr = false) ∨ (kind = 1 ∧ dpcdAnswered addr = false) →
      Does (.dhAuxStart n value (some h) data) s (starts (.host h) qh)) ∧
    (run → f = .firmware → Does (.dhAuxReply n reply data) s fun t => ended result t ∧
      (read → data.take r.len ≠ [] → t.reg .dhAuxData i 0 =
        BitVec.ofNat 64 (leNat ((data.take r.len ++ List.replicate 16 0).take 16))) ∧
      (¬read → t.reg .dhAuxData i = s.reg .dhAuxData i)) ∧
    (run → f = .host h → Does (.dhAuxReply n reply data) s fun t => ended result t ∧
      (read → toHost result (data.take r.len) t) ∧ (¬read → toHost result [] t)) ∧
    (hd.aux = none → exec (.dhAuxReply n reply data) s = .next s ∧ exec (.dhAuxTimeout n) s = .next s) ∧
    (run → f = .firmware → s.due .dhAux i = true → Does (.dhAuxTimeout n) s (ended 5)) ∧
    (s.due .dhAux i = false → exec (.dhAuxTimeout n) s = .next s) ∧
    (now → Does (.irqHpd n) s fun t => event F.dhEventsIrqHpd 0 t ∧ t.fld F.dhEventsHpdNow i = 1 ∧ t.heads = s.heads) ∧
    (now → Does (.unplug n) s fun t => event F.dhEventsUnplug 1 t ∧ t.fld F.dhEventsHpdNow i = 0 ∧ t.head i = { hd with idle := true }) ∧
    (¬now → exec (.irqHpd n) s = .next s ∧ exec (.unplug n) s = .next s) ∧
    (¬now → Does (.plug n) s fun t => event F.dhEventsPlug 2 t ∧ t.fld F.dhEventsHpdNow i = 1 ∧ t.head i = { hd with idle := false }) ∧
    (now → exec (.plug n) s = .next s)

/-- A TE edge sets the next grid time, a second before its frame counted in TE_EXTRA. A FREE frame starts on its grid, a TE or STREAM frame at its grid time, at the latest after HOLD_MAX lines, or late, shortened by what catching up allows; with no grid time HOLD_MAX lines after the end TE_MISS counts and the frame starts. At the window a committed set is armed, or refused with COMMIT_ERR and Bell 8; at the blanking the armed set becomes the live one (a PASS stream's own timing stays), and retiring surfaces no set names are free. A MODE change to or from OFF takes effect at once. An underrun aborts the frame, counts it and rings Bell 8. -/
def Obligations.FramesCommitsAndUnderruns : Prop :=
  ∀ (n : Fin 6) (y : HeadSet) (g : Nat) (p : Present) (s : State),
    let i := n.val
    let x := s.liveSet i
    let hd := s.head i
    let sh := s.shadowSet i
    let rung := fun (t : State) => t.fld F.bellSrcPending 8 (124 + i) = 1
    let ended := hd.running = false ∨ (hd.frameEnd ≤ s.tb ∧ hd.blanked = true)
    let starts := fun (at_ endAt : Nat) (t : State) => (t.head i).running = true ∧ (t.head i).frameStart = at_ ∧ (t.head i).frameEnd = endAt ∧
      (t.head i).gridSet = none ∧ (t.head i).windowDone = false ∧ (t.head i).blanked = false ∧ (t.head i).aborted = false ∧
      t.fld F.dhStatusFrame i = (s.fld F.dhStatusFrame i + 1) % 2 ^ 16 ∧ (hd.presents = [] → t.waiting = s.waiting)
    let free := if hd.running = false then s.tb else if hd.fresh = true then hd.frameEnd else hd.grid.next
    let held := hd.frameEnd + x.lines (fldGet F.dhSyncHoldMax x.sync)
    let late := max hd.frameEnd (min g held)
    let lag := if late - g < x.lines 1 then 0 else late - g
    let c := canvasCmd p.hall 0 p.pkt
    let shows := ∃ l, x.layers[p.layer]? = some l ∧ fldGet F.dhLSrcEn l.1 = 1 ∧ fldGet F.dhLSrcSurface l.1 = p.surface
    let window := x.mode ≠ 0 ∧ hd.running = true ∧ hd.windowDone = false ∧ hd.frameStart + x.lines (x.vactive - 4) ≤ s.tb
    let commit := s.fld F.dhCommitCommit i = 1
    let refused := fun (e : Nat) (t : State) => t.fld F.dhStatusCommitErr i = e ∧ t.fld F.dhStatusArmed i = 0 ∧ t.fld F.dhCommitCommit i = 0 ∧
      t.liveSet i = x ∧ rung t ∧ t = { s with regs := t.regs, threads := t.threads, bellSince := t.bellSince, heads := t.heads, chip := (s.wakeOn 7).chip }
    let blank := x.mode ≠ 0 ∧ hd.running = true ∧ hd.windowDone = true ∧ hd.blanked = false ∧ hd.frameStart + x.lines x.vactive ≤ s.tb
    let frees := fun (t : State) => ∀ k < 4096, s.fld F.canvasSurfState k = 2 → t.refsOf k = 0 → t.fld F.canvasSurfState k = 0 ∧
      unitGet [] t.canvas.pages k = []
    let visible := x.mode ≠ 0 ∧ hd.running = true ∧ hd.aborted = false ∧ s.lineNow i < x.vactive
    (x.mode ≠ 0 → x.source = 1 → Does (.dhTeEdge n) s fun t => t.head i = { hd with gridSet := some (s.tb - 1000 + fldGet F.dhSyncTeDelay x.sync) } ∧
      t.fld F.dhStatusTeExtra i = (if hd.gridSet = none then s.fld F.dhStatusTeExtra i else min 255 (s.fld F.dhStatusTeExtra i + 1)) ∧
      t = { s with regs := t.regs, heads := t.heads }) ∧
    (x.mode = 0 ∨ x.source ≠ 1 → exec (.dhTeEdge n) s = .next s) ∧
    (x.mode ≠ 0 → ended → x.source = 0 → free ≤ s.tb → Does (.dhFrameStart n) s fun t => starts free (free + x.period) t ∧
      (t.head i).grid.next = free + x.period) ∧
    (x.mode ≠ 0 → ended → hd.running = true → x.source ≠ 0 → hd.gridSet = some g → late ≤ s.tb → Does (.dhFrameStart n) s fun t =>
      starts late (late + (x.period - x.shorten lag (s.fld F.chipCatchupCanvas))) t ∧ (t.head i).grid.next = g + x.period) ∧
    (x.mode ≠ 0 → hd.running = false → x.source ≠ 0 → hd.gridSet = none → Does (.dhFrameStart n) s fun t =>
      starts s.tb (s.tb + x.period) t ∧ (t.head i).grid.next = s.tb + x.period) ∧
    (x.mode ≠ 0 → ended → x.source = 0 → free ≤ s.tb → hd.presents = [p] → shows → c.flags % 2 = 1 → Does (.dhFrameStart n) s fun t =>
      (t.head i).presents = [] ∧ ∃ w, t.waiting = s.waiting ++ [w] ∧ w.pkt.type = 3 ∧ w.pkt.tunnelId = p.pkt.tunnelId ∧
        w.pkt.payload = leBytes 1 (c.op ||| 0x80) ++ leBytes 1 0 ++ leBytes 2 p.surface ++ leBytes 4 c.seq ++ leBytes 8 0) ∧
    (x.mode = 0 ∨ ¬ended ∨ (x.source ≠ 0 ∧ hd.running = true ∧ hd.gridSet = none) → exec (.dhFrameStart n) s = .next s) ∧
    (x.mode ≠ 0 → x.source ≠ 0 → hd.running = true → hd.blanked = true → hd.gridSet = none → held ≤ s.tb → Does (.teMiss n) s fun t =>
      starts held (held + x.period) t ∧ t.fld F.dhStatusTeMiss i = min 255 (s.fld F.dhStatusTeMiss i + 1) ∧
      (t.head i).grid.lag = 0 ∧ (t.head i).grid.nominal = hd.grid.nominal + x.period) ∧
    (x.source = 0 ∨ hd.gridSet ≠ none → exec (.teMiss n) s = .next s) ∧
    (Does (.dhCommitRequest n) s fun t => t.fld F.dhCommitCommit i = 1 ∧ OnlyField F.dhCommitCommit i 0 s t ∧ OnlyRegs s t) ∧
    (window → ¬commit → Does (.dhCommitWindow n) s fun t => t = s.setHead i { hd with windowDone := true }) ∧
    (window → commit → sh.mode ≠ 0 → s.armedError i sh = 0 → Does (.dhCommitWindow n) s fun t => t.fld F.dhStatusArmed i = 1 ∧
      t.fld F.dhCommitCommit i = 0 ∧ t.head i = { hd with windowDone := true, armed := some sh } ∧ t.liveSet i = x ∧
      t = { s with regs := t.regs, heads := t.heads }) ∧
    (window → commit → sh.mode ≠ 0 → s.armedError i sh ≠ 0 → Does (.dhCommitWindow n) s fun t => refused (s.armedError i sh) t ∧
      (s.timingOk i sh.h sh.v sh.clk = false → t.fld F.dhStatusCommitErr i = 1)) ∧
    (¬window → exec (.dhCommitWindow n) s = .next s) ∧
    (blank → hd.armed = none → x.mode ≠ 1 ∨ hd.msa = none → Does (.dhVblank n) s fun t => t = s.setHead i { hd with blanked := true }) ∧
    (blank → hd.armed = some y → y.layers.length = 8 → y.mode ≠ 1 ∨ (hd.msa = none ∧ (x.mode ≠ 1 ∨ hd.msaLive = none)) → Does (.dhVblank n) s fun t => t.liveSet i = y ∧
      (t.head i).armed = none ∧ (t.head i).blanked = true ∧ t.fld F.dhStatusArmed i = 0 ∧ frees t ∧ SameMemory s t) ∧
    (∀ h v clk, blank → hd.armed = some y → y.layers.length = 8 → y.mode = 1 → x.mode = 1 → hd.msa = none → hd.msaLive = some (h, v, clk) →
      Does (.dhVblank n) s fun t => t.liveSet i = { y with h := h, v := v, clk := clk } ∧ (t.head i).msaLive = hd.msaLive) ∧
    (¬blank → exec (.dhVblank n) s = .next s) ∧
    (commit → x.mode = 0 → sh.mode ≠ 0 → s.armedError i sh = 0 → Does (.dhModeChange n) s fun t => t.liveSet i = sh ∧
      t.fld F.dhCommitCommit i = 0 ∧ (t.head i).running = false ∧ (t.head i).fresh = true ∧ SameMemory s t) ∧
    (commit → x.mode ≠ 0 → sh.mode = 0 → Does (.dhModeChange n) s fun t => t.liveSet i = sh ∧ t.fld F.dhCommitCommit i = 0 ∧
      (t.head i).running = false ∧ (t.head i).armed = none ∧ frees t ∧ SameMemory s t) ∧
    (commit → x.mode = 0 → sh.mode ≠ 0 → s.armedError i sh ≠ 0 → Does (.dhModeChange n) s (refused (s.armedError i sh))) ∧
    (¬commit ∨ (x.mode = 0 ∧ sh.mode = 0) ∨ (x.mode ≠ 0 ∧ sh.mode ≠ 0) → exec (.dhModeChange n) s = .next s) ∧
    (visible → (∀ k < 12, s.isTd k = false) → Does (.dhUnderrun n) s fun t => t.head i = { hd with aborted := true } ∧
      t.fld F.dhUnderrunsCount i = (s.fld F.dhUnderrunsCount i + 1) % 2 ^ 48 ∧ t.fld F.dhStatusUnderrun i = 1 ∧ rung t ∧
      t = { s with regs := t.regs, threads := t.threads, bellSince := t.bellSince, heads := t.heads, chip := (s.wakeOn 7).chip }) ∧
    (¬visible → exec (.dhUnderrun n) s = .next s)

/-- A packet with a bad CRC is dropped; an unregistered client's is discarded and counted; a malformed or unknown command is INVALID. CREATE takes a free number and free pages within quota and pool and answers the surface; FREE frees it, or makes it RETIRING while a set names it; RECT, FILL and COPY write the rectangle; INGEST binds or unbinds; FENCE answers; PRESENT puts the surface on the slot's head and layer and commits. Each failure answers its code, a success when REPLY is set. By a DPX port a stream's MSA, first line and SDP reach its PASS head on the Hall's lanes, by a CANVAS port its pixels a bound surface. CANVAS_PAGE_OP is QUEUED, FULL or STATE. CAPACITY is at most DETECTED. -/
def Obligations.CanvasCommandsStreamsAndPages : Prop :=
  ∀ (hall : Fin 4) (slot : Option (Fin 6 × Fin 8)) (value : BitVec 64) (trained : Option (Fin 65)) (cv : Bool) (p : Parcel) (k : Nat) (s : State),
    let c : CanvasCmd := { canvasCmd hall.val 0 p.pkt with client := k }
    let served := s.servedAt hall.val 8 = some p ∧ s.parcel p.id = some p
    let sound := served ∧ p.pkt.e2eOk = true ∧ p.pkt.type = 3
    let cmd := fun (op : Nat) => sound ∧ s.clientOf p = some k ∧ 16 ≤ p.pkt.len ∧ c.op = op
    let all : List (Nat × Instr) := [(1, .canvasCreate hall), (2, .canvasFree hall), (3, .canvasRect hall), (4, .canvasFill hall),
      (5, .canvasCopy hall), (6, .canvasIngest hall), (7, .canvasFence hall), (8, .canvasPresent hall slot)]
    let taken := fun (t : State) => t.parcel p.id = some { p with taken := true }
    let reply := fun (status surface : Nat) (t : State) => ∃ w, t.waiting = s.waiting ++ [w] ∧ w.hall = hall.val ∧ w.src = 48 ∧
      w.pkt.type = 3 ∧ w.pkt.tunnelId = p.pkt.tunnelId ∧
      w.pkt.payload = leBytes 1 (c.op ||| 0x80) ++ leBytes 1 0 ++ leBytes 2 surface ++ leBytes 4 c.seq ++ leBytes 8 status
    let fails := fun (status : Nat) (t : State) => taken t ∧ reply status c.surface t ∧
      t = { s with parcels := t.parcels, waiting := t.waiting }
    let done := fun (surface : Nat) (t : State) => taken t ∧ (if c.flags % 2 = 1 then reply 0 surface t else t.waiting = s.waiting)
    let r := c.rect
    let x := r.1
    let y := r.2.1
    let w := r.2.2.1
    let h := r.2.2.2
    let f := s.fld F.canvasSurfFormat c.surface
    let own := s.ownSurface c c.surface = true
    let inside := s.inSurface c.surface x y w h = true
    let draws := fun (l : List Byte) (t : State) => done c.surface t ∧ (∀ a, t.byte a = (s.rectWrite c.surface x y w h l).byte a) ∧
      t = { s with parcels := t.parcels, waiting := t.waiting, mem := t.mem, poisoned := t.poisoned }
    let cw := c.arg % 8192 + 1
    let ch := c.arg / 2 ^ 16 % 8192 + 1
    let cf := c.arg / 2 ^ 32 % 8
    let stride := ceilDiv (cw * formatBytes cf) 256
    let n := ceilDiv (stride * 256 * ch) 65536 + 1
    let cshape := c.shaped (0x1FFF + 0x1FFF * 2 ^ 16 + 7 * 2 ^ 32) 0 = true ∧ cf ≤ 4
    let used := s.fld F.canvasClientPagesUsed k
    let quota := used + n ≤ s.fld F.canvasClientPagesQuota k
    let number := ∃ m < 4096, s.fld F.canvasSurfState m = 0
    let v := leNat c.data
    let src := v % 4096
    let sx := v / 2 ^ 16 % 8192
    let sy := v / 2 ^ 32 % 8192
    let vclean := (v &&& (0xFFF + 0x1FFF * 2 ^ 16 + 0x1FFF * 2 ^ 32)) = v
    let tid := c.arg % 4096
    let host := s.clientHost k
    let st := s.stream host tid
    let keep := s.canvas.ingests.filter (fun i => i.surface != c.surface && !(i.host == host && i.tid == tid))
    let fits := f ≠ 0 ∧ f ≠ 3 ∧ ∀ e, st.enc = some e → encFits e f = true
    let sized := st.width = 0 ∨ (st.width = s.fld F.canvasSurfW c.surface + 1 ∧ st.height = s.fld F.canvasSurfH c.surface + 1)
    let d := p.pkt.payload.take (p.pkt.len - (if p.pkt.e2e then 4 else 0))
    let stream := s.servedAt hall.val (if cv then 8 else 9) = some p ∧ s.parcel p.id = some p ∧ p.pkt.e2eOk = true ∧ p.pkt.type = 2
    let from_ := fun (m : Nat) => (List.range 6).filter (fun h => p.trunk.any (fun tr => s.carriesHost tr h)) = [m]
    let heads := (List.range 6).filter (fun i => (s.unitQuad 3 i).any (fun q => q / 3 == hall.val) && s.fld F.dhCtrlLiveMode i == 1 && s.fld F.dhPassLiveHost i == k &&
      s.fld F.dhPassLiveTid i == p.pkt.tunnelId)
    let body := d.drop 8
    let kind := field d 3 4
    let line := field d 6 8
    let bound := s.canvas.ingests.filter (fun i => i.host == k && i.tid == p.pkt.tunnelId)
    let page := fldGet F.canvasPageOpPage value
    let go := fldGet F.canvasPageOpGo value = 1
    let result := fun (z : Nat) (t : State) => t.fld F.canvasPageOpResult = z ∧ t.fld F.canvasPageOpPage = page ∧
      SameRegsBut (fun m _ _ => m = .canvasPageOp) s t
    let owner := s.canvas.pages.find? (fun e => e.2.contains page)
    let found := match trained with
      | some m => m.val
      | none => s.fld F.dramCfgDetected
    (∀ e ∈ all, served → p.pkt.e2eOk = false → Does e.2 s (Dropped p 6 s)) ∧
    (∀ e ∈ all, served → p.pkt.e2eOk = true → p.pkt.type ≠ 2 → p.pkt.type ≠ 3 → Does e.2 s (Dropped p 2 s)) ∧
    (∀ e ∈ all, sound → s.clientOf p = none → Does e.2 s fun t => taken t ∧
      t.fld F.canvasUnknownCount = (s.fld F.canvasUnknownCount + 1) % 2 ^ 48 ∧ t = { s with parcels := t.parcels, regs := t.regs }) ∧
    (∀ e ∈ all, sound → s.clientOf p = some k → c.op = 0 ∨ 8 < c.op ∨ p.pkt.len < 16 → Does e.2 s (fails 1)) ∧
    (∀ e ∈ all, s.servedAt hall.val 8 = none → exec e.2 s = .next s) ∧
    (∀ e ∈ all, cmd e.1 → ¬(c.flags < 2 ∧ c.surface < 4096) → Does e.2 s (fails 1)) ∧
    (∀ e ∈ all, cmd e.1 → e.1 ≠ 1 → e.1 ≠ 5 → e.1 ≠ 7 → c.shaped (if e.1 = 6 then 0x10FFF else if e.1 = 2 then 0 else if e.1 = 8 then 0xFF else rectMask)
      (if e.1 = 3 then c.data.length else if e.1 = 4 then 4 else 0) = true → ¬own → Does e.2 s (fails 2)) ∧
    (cmd 1 → cshape → ¬quota → Does (.canvasCreate hall) s (fails 3)) ∧
    (cmd 1 → cshape → quota → s.pagesFree.length < n ∨ ¬number → Does (.canvasCreate hall) s (fails 4)) ∧
    (cmd 1 → cshape → quota → n ≤ s.pagesFree.length → number → Does (.canvasCreate hall) s fun t => ∃ m < 4096,
      done m t ∧ s.fld F.canvasSurfState m = 0 ∧ t.fld F.canvasSurfState m = 1 ∧ t.fld F.canvasSurfFormat m = cf ∧ t.fld F.canvasSurfClient m = k ∧
      t.fld F.canvasSurfW m = cw - 1 ∧ t.fld F.canvasSurfH m = ch - 1 ∧ t.fld F.canvasSurfStride m = stride ∧
      t.fld F.canvasSurfMapPages m = n ∧ t.fld F.canvasClientPagesUsed k = used + n ∧ (unitGet [] t.canvas.pages m).length = n ∧
      (∀ q ∈ unitGet [] t.canvas.pages m, q ∈ s.pagesFree) ∧ SameDevices s { t with canvas := s.canvas }) ∧
    (cmd 2 → c.shaped 0 0 = true → own → 0 < s.refsOf c.surface → Does (.canvasFree hall) s fun t => done c.surface t ∧
      t.fld F.canvasSurfState c.surface = 2 ∧ t.canvas.ingests = s.canvas.ingests.filter (fun i => i.surface != c.surface) ∧
      OnlyField F.canvasSurfState c.surface 0 s t ∧ SameMemory s t) ∧
    (cmd 2 → c.shaped 0 0 = true → own → s.refsOf c.surface = 0 → Does (.canvasFree hall) s fun t => done c.surface t ∧
      t.fld F.canvasSurfState c.surface = 0 ∧ unitGet [] t.canvas.pages c.surface = [] ∧
      t.fld F.canvasClientPagesUsed k = used - s.fld F.canvasSurfMapPages c.surface ∧ SameMemory s t) ∧
    (cmd 3 → c.shaped rectMask c.data.length = true → own → c.data.length ≠ w * h * formatBytes f → Does (.canvasRect hall) s (fails 1)) ∧
    (cmd 3 → c.shaped rectMask c.data.length = true → own → c.data.length = w * h * formatBytes f → ¬inside →
      Does (.canvasRect hall) s (fails 6)) ∧
    (cmd 3 → c.shaped rectMask c.data.length = true → own → c.data.length = w * h * formatBytes f → inside →
      Does (.canvasRect hall) s (draws c.data)) ∧
    (cmd 4 → c.shaped rectMask 4 = true → own → ¬inside → Does (.canvasFill hall) s (fails 6)) ∧
    (cmd 4 → c.shaped rectMask 4 = true → own → inside → Does (.canvasFill hall) s
      (draws ((List.range (w * h)).flatMap (fun _ => c.data.take (formatBytes f))))) ∧
    (cmd 5 → c.shaped rectMask 8 = true → vclean → own → s.ownSurface c src = true → f ≠ s.fld F.canvasSurfFormat src →
      Does (.canvasCopy hall) s (fails 5)) ∧
    (cmd 5 → c.shaped rectMask 8 = true → vclean → own → s.ownSurface c src = true → f = s.fld F.canvasSurfFormat src → inside →
      s.inSurface src sx sy w h = true → Does (.canvasCopy hall) s (draws (s.rectRead src sx sy w h))) ∧
    (cmd 6 → c.shaped 0x10FFF 0 = true → own → c.arg / 65536 % 2 = 1 → Does (.canvasIngest hall) s fun t => done c.surface t ∧
      t.canvas = { s.canvas with ingests := keep }) ∧
    (cmd 6 → c.shaped 0x10FFF 0 = true → own → c.arg / 65536 % 2 = 0 → ¬fits → Does (.canvasIngest hall) s (fails 5)) ∧
    (cmd 6 → c.shaped 0x10FFF 0 = true → own → c.arg / 65536 % 2 = 0 → fits → ¬sized → Does (.canvasIngest hall) s (fails 6)) ∧
    (cmd 6 → c.shaped 0x10FFF 0 = true → own → c.arg / 65536 % 2 = 0 → fits → sized → Does (.canvasIngest hall) s fun t => done c.surface t ∧
      t.canvas = { s.canvas with ingests := keep ++ [{ surface := c.surface, host := host, tid := tid }] }) ∧
    (cmd 7 → c.shaped 0 0 = true → Does (.canvasFence hall) s fun t => done c.surface t ∧
      t = { s with parcels := t.parcels, waiting := t.waiting }) ∧
    (cmd 8 → c.shaped 0xFF 0 = true → own → slot = none → Does (.canvasPresent hall slot) s (fails 7)) ∧
    (∀ i l, cmd 8 → c.shaped 0xFF 0 = true → own → slot = some (i, l) → Does (.canvasPresent hall slot) s fun t => taken t ∧
      t.fld F.dhLSrcSurface i.val l.val = c.surface ∧ t.fld F.dhLSrcEn i.val l.val = 1 ∧ t.fld F.dhCommitCommit i.val = 1 ∧
      (t.head i.val).presents = (s.head i.val).presents ++ [{ layer := l.val, surface := c.surface, hall := hall.val, pkt := p.pkt }] ∧
      t = { s with parcels := t.parcels, regs := t.regs, heads := t.heads }) ∧
    (stream → d.length < 8 → Does (.dpstPacket hall cv) s (Dropped p 2 s)) ∧
    (∀ i, stream → cv = false → from_ k → 8 ≤ d.length → kind = 3 → body.length ≤ 36 → heads = [i] → Does (.dpstPacket hall cv) s fun t => taken t ∧
      t = { s with parcels := t.parcels, out := .sdp i body :: s.out }) ∧
    (∀ i, stream → cv = false → from_ k → 8 ≤ d.length → kind = 0 → body.length = 24 → heads = [i] → Does (.dpstPacket hall cv) s fun t => taken t ∧
      (t.stream k p.pkt.tunnelId).width = field body 0 2 ∧ (t.stream k p.pkt.tunnelId).height = field body 8 10 ∧
      (let m := (BitVec.ofNat 64 (field body 0 8), BitVec.ofNat 64 (field body 8 16), BitVec.ofNat 64 (field body 16 24))
       (t.head i).msa = if m = ((s.liveSet i).h, (s.liveSet i).v, (s.liveSet i).clk) then none else some m) ∧
      t = { s with parcels := t.parcels, canvas := t.canvas, heads := t.heads }) ∧
    (∀ i, stream → cv = false → from_ k → 8 ≤ d.length → kind = 1 → heads = [i] → line = 0 → (s.head i).hostFrame ≠ some (field d 0 2) →
      (s.liveSet i).source = 2 → Does (.dpstPacket hall cv) s fun t => taken t ∧
        (t.head i).gridSet = some (s.tb + fldGet F.dhSyncTeDelay (s.liveSet i).sync) ∧ (t.head i).hostFrame = some (field d 0 2) ∧
        (t.stream k p.pkt.tunnelId).enc = some (field d 2 3) ∧ SameMemory s t) ∧
    (∀ b, stream → cv = true → from_ k → 8 ≤ d.length → kind = 1 → bound = [b] → Does (.dpstPacket hall cv) s fun t => taken t ∧
      (∀ a, t.byte a = (s.ingestPixels b.surface (field d 2 3) (field d 4 6) line body).byte a) ∧
      t = { s with parcels := t.parcels, canvas := t.canvas, mem := t.mem, poisoned := t.poisoned }) ∧
    (¬go → Does (.canvasPageOp value) s fun t => t.fld F.canvasPageOpPage = page ∧ OnlyField F.canvasPageOpPage 0 0 s t ∧ OnlyRegs s t) ∧
    (go → owner = none → Does (.canvasPageOp value) s fun t => result 3 t ∧ OnlyRegs s t) ∧
    (∀ e, go → owner = some e → s.fld F.canvasSurfState e.1 ≠ 2 → Does (.canvasPageOp value) s fun t => result 3 t ∧ OnlyRegs s t) ∧
    (∀ e, go → owner = some e → s.fld F.canvasSurfState e.1 = 2 → 16 ≤ s.canvas.held.length → Does (.canvasPageOp value) s fun t =>
      result 2 t ∧ OnlyRegs s t) ∧
    (∀ e, go → owner = some e → s.fld F.canvasSurfState e.1 = 2 → s.canvas.held.length < 16 → Does (.canvasPageOp value) s fun t =>
      result 1 t ∧ t.fld F.canvasPageOpHeld = s.canvas.held.length + 1 ∧
      t = { s with regs := t.regs, canvas := { s.canvas with held := s.canvas.held ++ [page] } }) ∧
    (Does (.dramCapacityWrite trained value) s fun t => t.fld F.dramCfgDetected = found ∧
      t.fld F.dramCfgCapacity = min found (fldGet F.dramCfgCapacity value) ∧ SameRegsBut (fun m i j => m = .dramCfg ∧ i = 0 ∧ j = 0) s t ∧
      OnlyRegs s t)

/-- A retry starts ALIGN; the width is fixed 1 ms after the first aligned lane; INIT frames go every 1 us. A host INIT with both credits 255 brings UP at the smaller width with SEQ, E and USED 0, three more INITs and the window's status 0; another credit fails with CREDIT, 10 ms without one with TIMEOUT, each retried after 1 ms; one while UP restarts at INIT with HOST_INIT. A failed frame counts. A slot sends INIT, then NAK, ACK, CREDIT, resends, new DATA. The timers make NAK, ACK and CREDIT due; RETRY resends all, the eighth in a row takes the trunk down with REPLAY. -/
def Obligations.TdLinkUpSlotsAndTimers : Prop :=
  ∀ (n : Fin 12) (f : List Byte) (ended : Bool) (v q : Nat) (rest : List Nat) (x : TdOut) (s : State),
    let i := n.val
    let u := s.td i
    let st := s.fld F.trkTdStatusState i
    let due := fun (k : TimerKind) => s.due k i = true
    let good := fun (k : Nat) => tdFails f true = false ∧ tdKind f = k
    let rung := fun (t : State) => t.fld F.bellSrcPending 8 (96 + i) = 1
    let down := fun (cause wait : Nat) (t : State) => t.fld F.trkTdStatusState i = 0 ∧ t.fld F.trkTdStatusInitErr i = cause ∧
      t.fld F.trkTdStatusLanesUp i = 0 ∧ t.fld F.trkTdStatusTxUnack i = 0 ∧ (t.td i).unacked = [] ∧ (t.td i).resend = [] ∧ (t.td i).tx = [] ∧
      (t.td i).rx = [] ∧ t.deadline .tdLinkup i = some (s.tb + wait) ∧ t.deadline .tdRetry i = none ∧ rung t ∧ SameDevices s t ∧ SameMemory s t
    let init := fun (lanes : Nat) => Output.tdFrame i (tdFrame 5 0 0 0 255 255 (lanes - 1) [])
    let inits := fun (use_ : List Nat) (t : State) => t.fld F.trkTdStatusState i = 2 ∧ (t.td i).inUse = use_ ∧
      t.fld F.trkTdStatusLanesUp i = use_.length % 4 ∧ t.out = init use_.length :: s.out ∧
      t.deadline .tdTimeout i = some (s.tb + 10000000) ∧ t.deadline .tdInit i = some (s.tb + 1000)
    let cnt := fun (k : Nat) (t : State) => t.fld F.trkTdCntCount i k = (s.fld F.trkTdCntCount i k + 1) % 2 ^ 48
    let width := min u.inUse.length (tdByte f 5 + 1)
    let e := s.fld F.trkTdStatusRxExpect i
    let sends := fun (g : List Byte) (t : State) => t.out = .tdFrame i g :: s.out ∧ t.fld F.trkTdStatusRxExpect i = e ∧ SameMemory s t
    let up := st = 3
    let w := (s.tdStallCheck i).td i
    let quiet := up ∧ u.initLeft = 0
    let d := TdUnit.fill v 120 120 w []
    let seq := s.fld F.trkTdStatusTxNext i
    let retry := s.tb + s.fld F.trkTdCtrlRetry i * 100
    (due .tdLinkup → s.tdOn i = true → s.mayTrain i = true → Does (.tdLinkupRetry n) s fun t => t.fld F.trkTdStatusState i = 1 ∧
      t.fld F.trkTdStatusLanesUp i = 0 ∧ (t.td i).aligned = [] ∧ (t.td i).inUse = [] ∧ t.deadline .tdLinkup i = none ∧
      (∀ l ∈ s.trkLanes i, t.fld F.laneCtrlEn l = 1) ∧ SameDevices s t ∧ SameMemory s t) ∧
    (s.due .tdLinkup i = false ∨ s.tdOn i = false → exec (.tdLinkupRetry n) s = .next s) ∧
    (due .tdWidth → st = 1 → Does (.tdWidthDecide n) s fun t => inits (u.aligned.take (s.trkWidthCfg i)) t ∧
      t.deadline .tdWidth i = none ∧ t = { s with timers := t.timers, regs := t.regs, out := t.out, tds := t.tds }) ∧
    (s.due .tdWidth i = false ∨ st ≠ 1 → exec (.tdWidthDecide n) s = .next s) ∧
    (due .tdInit → st = 2 → Does (.tdInitSend n) s fun t => t.deadline .tdInit i = some (s.tb + 1000) ∧
      t = { s with timers := t.timers, out := init u.inUse.length :: s.out }) ∧
    (s.due .tdInit i = false ∨ st ≠ 2 → exec (.tdInitSend n) s = .next s) ∧
    (due .tdTimeout → st = 2 → Does (.tdInitTimeout n) s (down 1 1000000)) ∧
    (s.due .tdTimeout i = false ∨ st ≠ 2 → exec (.tdInitTimeout n) s = .next s) ∧
    (good 5 → st = 2 → tdByte f 3 ≠ 255 ∨ tdByte f 4 ≠ 255 → Does (.tdInitReceive n f) s (down 2 1000000)) ∧
    (good 5 → st = 2 → tdByte f 3 = 255 → tdByte f 4 = 255 → Does (.tdInitReceive n f) s fun t => t.fld F.trkTdStatusState i = 3 ∧
      (t.td i).inUse = u.inUse.take width ∧ t.fld F.trkTdStatusLanesUp i = (u.inUse.take width).length % 4 ∧ (t.td i).initLeft = 3 ∧
      t.fld F.trkTdStatusRxExpect i = 0 ∧ t.fld F.trkTdStatusTxNext i = 0 ∧ t.fld F.trkTdStatusTxUnack i = 0 ∧
      t.fld F.trkTdStatusCred0 i = 255 ∧ t.fld F.trkTdStatusCred1 i = 255 ∧ (t.td i).used = [] ∧ (t.td i).unacked = [] ∧
      (∀ r ∈ [RegName.wtdStLink, .wtdStPcie, .wtdStDisp, .wtdStHpd, .wtdStAux, .wtdCntCrc, .wtdCntReplay, .wtdCntOos], t.reg r i = 0) ∧
      t.fld F.trkTdStatusPending i = 0 ∧ t.deadline .tdInit i = none ∧ t.deadline .tdTimeout i = none ∧
      t.deadline .tdCreditAll i = some (s.tb + 10000) ∧ SameMemory s t) ∧
    (good 5 → up → Does (.tdInitReceive n f) s fun t => inits (u.aligned.take (s.trkWidthCfg i)) t ∧ t.fld F.trkTdStatusInitErr i = 6 ∧ rung t ∧
      (t.td i).unacked = [] ∧ t.deadline .tdLinkup i = none ∧ SameDevices s t ∧ SameMemory s t) ∧
    (¬good 5 ∨ st < 2 → exec (.tdInitReceive n f) s = .next s) ∧
    (tdFails f ended = true → 2 ≤ st → Does (.tdFrameFail n f ended) s fun t => cnt 3 t ∧ t.fld F.wtdStLinkCrcErr i = 1 ∧
      t.fld F.wtdCntCrcCount i = min 0xFFFF (s.fld F.wtdCntCrcCount i + 1) ∧ t.tds = s.tds ∧ SameMemory s t) ∧
    (tdFails f ended = false ∨ st < 2 → exec (.tdFrameFail n f ended) s = .next s) ∧
    (up → 0 < u.initLeft → Does (.tdFrameSlot n) s fun t => t.out = init u.inUse.length :: s.out ∧ (t.td i).initLeft = u.initLeft - 1) ∧
    (quiet → u.nakDue = true → Does (.tdFrameSlot n) s fun t => sends (tdFrame 3 0 0 e 0 0 0 []) t ∧ (t.td i).nakDue = false ∧ cnt 6 t ∧
      t.deadline .tdNak i = some (s.tb + 2000)) ∧
    (quiet → u.nakDue = false → u.ackDue = true → Does (.tdFrameSlot n) s fun t => sends (tdFrame 2 0 0 e 0 0 0 []) t ∧
      (t.td i).ackDue = false ∧ (t.td i).sinceAck = 0 ∧ t.deadline .tdAck i = none) ∧
    (quiet → u.nakDue = false → u.ackDue = false → u.creditDue = true → Does (.tdFrameSlot n) s fun t =>
      sends (tdFrame 4 0 0 0 ((255 + unitGet 0 u.granted 0) % 256) ((255 + unitGet 0 u.granted 1) % 256) 0 []) t ∧ (t.td i).creditDue = false ∧
      t.deadline .tdCredit i = none ∧ t.deadline .tdCreditAll i = some (s.tb + 10000)) ∧
    (quiet → u.nakDue = false → u.ackDue = false → u.creditDue = false → u.resend = q :: rest → u.unacked.find? (fun y => y.seq == q) = some x →
      Does (.tdFrameSlot n) s fun t => sends (tdFrame 1 x.vc x.seq x.data.length 0 0 0 x.data) t ∧ (t.td i).resend = rest ∧ cnt 1 t ∧
        t.fld F.wtdStLinkReplay i = 1) ∧
    (quiet → u.nakDue = false → u.ackDue = false → u.creditDue = false → u.resend = [] → u.unacked.length < 32 → w.nextVc = some v →
      Does (.tdFrameSlot n) s fun t => sends (tdFrame 1 v seq d.2.length 0 0 0 d.2) t ∧ d.2.length ≤ 120 ∧
        (t.td i).unacked = u.unacked ++ [{ seq := seq, vc := v, data := d.2 }] ∧ t.fld F.trkTdStatusTxNext i = (seq + 1) % 256 ∧
        t.fld F.trkTdStatusTxUnack i = u.unacked.length + 1 ∧ cnt 0 t ∧ (t.td i).cycle = (u.cycle + 1) % 5 ∧
        (u.unacked = [] → t.deadline .tdRetry i = some retry)) ∧
    (quiet → u.nakDue = false → u.ackDue = false → u.creditDue = false → u.resend = [] → 32 ≤ u.unacked.length ∨ w.nextVc = none →
      exec (.tdFrameSlot n) s = .next (s.tdStallCheck i)) ∧
    (st ≠ 3 → exec (.tdFrameSlot n) s = .next s) ∧
    (due .tdNak → Does (.tdNakRepeat n) s fun t => t.td i = { u with nakDue := true } ∧ t.deadline .tdNak i = none ∧
      t = { s with timers := t.timers, tds := t.tds }) ∧
    (due .tdAck → Does (.tdAckTimer n) s fun t => t.td i = { u with ackDue := true } ∧ t.deadline .tdAck i = none ∧
      t = { s with timers := t.timers, tds := t.tds }) ∧
    (due .tdCredit ∨ due .tdCreditAll → Does (.tdCreditTimer n) s fun t => t.td i = { u with creditDue := true } ∧
      t.deadline .tdCredit i = none ∧ t.deadline .tdCreditAll i = some (s.tb + 10000) ∧ t = { s with timers := t.timers, tds := t.tds }) ∧
    (s.due .tdNak i = false → exec (.tdNakRepeat n) s = .next s) ∧ (s.due .tdAck i = false → exec (.tdAckTimer n) s = .next s) ∧
    (s.due .tdCredit i = false → s.due .tdCreditAll i = false → exec (.tdCreditTimer n) s = .next s) ∧
    (due .tdRetry → u.expiries + 1 < 8 → Does (.tdRetryExpire n) s fun t => cnt 8 t ∧ (t.td i).expiries = u.expiries + 1 ∧
      (t.td i).resend = u.unacked.map (fun y => y.seq) ∧ t.deadline .tdRetry i = some retry ∧
      t = { s with timers := t.timers, tds := t.tds, regs := t.regs }) ∧
    (due .tdRetry → 8 ≤ u.expiries + 1 → Does (.tdRetryExpire n) s fun t => cnt 8 t ∧ down 3 0 t) ∧
    (s.due .tdRetry i = false → exec (.tdRetryExpire n) s = .next s)

/-- DATA with SEQ = E is accepted and its bytes join the VC's stream; a whole TLP becomes a PCIE packet, is answered by the window, or with PCIE_EN 0 refused; a stream packet a DPST packet; a length of 0 or above 2,048 takes the trunk down with PROTOCOL; ENC 1 sets STREAM_ERR. A later SEQ is discarded with a NAK due once, an earlier one with an ACK due. An ACK frees frames, a NAK frees and resends from it on; other numbers are ignored. CREDIT sets the limits. A window read answers and clears each RC register it touches; a bad size is Completer Abort; a write reaches RW registers' bytes alone. GO starts AUX on the head; the beacon repeats the MSI every 125 us. -/
def Obligations.TdReceivesAcknowledgesAndServesTheWindow : Prop :=
  ∀ (n : Fin 12) (f p : List Byte) (l : Tlp) (s : State),
    let i := n.val
    let u := s.td i
    let up := s.fld F.trkTdStatusState i = 3
    let good := fun (k : Nat) => tdFails f true = false ∧ tdKind f = k
    let e := s.fld F.trkTdStatusRxExpect i
    let d := (tdByte f 1 + 256 - e) % 256
    let v := tdByte f 0 / 8 % 2
    let b := unitGet [] u.rx v ++ (f.drop 6).take (tdByte f 2)
    let len := beNat (b.take 2)
    let cnt := fun (k : Nat) (t : State) => t.fld F.trkTdCntCount i k = (s.fld F.trkTdCntCount i k + 1) % 2 ^ 48
    let takes := good 1 ∧ up ∧ d = 0
    let took := fun (t : State) => t.fld F.trkTdStatusRxExpect i = (e + 1) % 256 ∧ cnt 2 t ∧ t.deadline .tdNak i = none
    let host := s.fld F.trkTdCtrlHost i
    let lands := fun (type tid vc : Nat) (payload : List Byte) (t : State) => (t.td i).rx = [] ∧ ∃ q ∈ t.parcels, q.src = i ∧ q.hall = i / 6 ∧
      q.spot = .arrived ∧ q.pkt.type = type ∧ q.pkt.tunnelId = tid ∧ q.pkt.vc = vc ∧ q.pkt.payload = payload ∧ q.tbAccept = s.tb ∧
      ∀ z, (∀ g ∈ q.segs, ¬(cellAddr (i / 6) 0 + 64 * g ≤ z ∧ z < cellAddr (i / 6) 0 + 64 * g + 64)) → t.byte z = s.byte z
    let whole := b = beBytes 2 p.length ++ p ∧ u.rx = [] ∧ 1 ≤ p.length ∧ p.length ≤ 2048
    let inside := (Tlp.ofBytes p).any (fun t => s.tdInWindow i t) = true
    let tlp := takes ∧ whole ∧ v = 0 ∧ tlpLength p = some p.length ∧ tlpData p ≤ 128
    let on := s.flag F.wtdCtrlPcieEn i = true ∧ s.flag F.trkTdCtrlPcieEn i = true
    let kind := match Tlp.ofBytes p with
      | some t => t.kind
      | none => 1
    let oos := fun (t : State) => cnt 4 t ∧ t.fld F.wtdCntOosCount i = min 0xFFFF (s.fld F.wtdCntOosCount i + 1) ∧
      t.fld F.trkTdStatusRxExpect i = e
    let a := tdByte f 2
    let mine := u.unacked.any (fun x => x.seq == a) = true
    let left := u.unacked.dropWhile (fun x => x.seq != a)
    let frees := fun (l : List TdOut) (t : State) => (t.td i).unacked = l ∧ (t.td i).expiries = 0 ∧ t.fld F.trkTdStatusTxUnack i = l.length % 256 ∧
      t.deadline .tdRetry i = if l = [] then none else some (s.tb + s.fld F.trkTdCtrlRetry i * 100)
    let base := l.addr % 4096
    let rid := s.cfgGet host 11 .primaryBus * 256
    let answers := fun (c : Tlp) (t : State) => (t.td i).txQ = u.txQ ++ [{ id := 0, vc := 0, bytes := c.bytes }] ∧ SameMemory s t
    let word := l.dws = 1 ∧ l.be = 3
    let hi := (l.data.getD 0 0).toNat
    let lo := (l.data.getD 1 0).toNat
    let h := s.fld F.trkTdCtrlHead i
    let k := s.fld F.wtdAuxCmdKind i
    let go := s.fld F.wtdAuxCmdGo i = 1
    let n' := s.fld F.wtdAuxCmdLen i + 1
    let bytes := (List.range 16).map (fun j => s.tdWindowByte i (0x030 + j))
    let req : AuxReq := { kind := k, len := n', addr := s.fld F.wtdAuxCmdAddrHi i * 2 ^ 16 + s.fld F.wtdAuxAddrAddrLo i,
                          data := if k % 2 = 0 then bytes.take n' else [] }
    let g := unitGet {} s.beacons i
    let beats := s.chipRuns = true ∧ g.on = true ∧ g.next ≤ s.tb
    (takes → b.length < 2 ∨ (1 ≤ len ∧ len ≤ 2048 ∧ b.length < 2 + len) → Does (.tdDataReceive n f) s fun t => took t ∧ unitGet [] (t.td i).rx v = b ∧
      (t.td i).sinceAck = u.sinceAck + 1 ∧ (t.td i).ackDue = (u.ackDue || decide (32 ≤ u.sinceAck + 1)) ∧ (t.td i).nakSent = false ∧
      (s.deadline .tdAck i = none → t.deadline .tdAck i = some (s.tb + 2000)) ∧
      t = { s with timers := t.timers, regs := t.regs, tds := t.tds, chip := (s.wakeOn 3).chip }) ∧
    (takes → 2 ≤ b.length → len = 0 ∨ 2048 < len → Does (.tdDataReceive n f) s fun t => t.fld F.trkTdStatusState i = 0 ∧
      t.fld F.trkTdStatusInitErr i = 5 ∧ t.fld F.bellSrcPending 8 (96 + i) = 1 ∧ t.deadline .tdLinkup i = some s.tb ∧ SameMemory s t) ∧
    (tlp → ¬inside → on → Does (.tdDataReceive n f) s fun t => took t ∧
        lands 1 1 (if kind = 1 then 3 else 2) (bridgePrefix u.pseq kind 0x3FF (s.fld F.trkTdCtrlPrt i) ++ p) t) ∧
    (∀ c, tlp → ¬inside → ¬on → Tlp.ofBytes p = some c → c.kind = 1 → Does (.tdDataReceive n f) s fun t => took t ∧
      answers (c.answer cplUr c.addr [] 4 false rid) t ∧ t.fld F.wtdStPcieUr i = 1 ∧ t.parcels = s.parcels) ∧
    (∀ c, tlp → inside → Tlp.ofBytes p = some c → c.op = .memRd → Does (.tdDataReceive n f) s fun t => took t ∧ t.parcels = s.parcels ∧
      SameMemory s t ∧ ∃ q, (t.td i).txQ = u.txQ ++ [q] ∧ q.vc = 0) ∧
    (takes → whole → v = 1 → 8 ≤ p.length → field p 2 3 = 0 ∨ field p 2 3 = 2 → field p 3 4 ≠ 0 ∨ tdMsaOk (s.fld F.trkTdStatusLanesUp i) p = true →
      s.flag F.wtdCtrlDispEn i = true → s.flag F.trkTdCtrlDispEn i = true → Does (.tdDataReceive n f) s fun t => took t ∧ lands 2 2 1 p t) ∧
    (takes → whole → v = 1 → 8 ≤ p.length → field p 2 3 = 1 → s.flag F.wtdCtrlDispEn i = true → s.flag F.trkTdCtrlDispEn i = true →
      Does (.tdDataReceive n f) s fun t => took t ∧ t.fld F.wtdStDispStreamErr i = 1 ∧ t.parcels = s.parcels ∧ SameMemory s t) ∧
    (good 1 → up → 1 ≤ d → d ≤ 31 → Does (.tdDataReceive n f) s fun t => oos t ∧
      t.td i = (if u.nakSent then u else { u with nakSent := true, nakDue := true }) ∧ t = { s with regs := t.regs, tds := t.tds }) ∧
    (good 1 → up → 224 ≤ d → Does (.tdDataReceive n f) s fun t => cnt 5 t ∧ t.td i = { u with ackDue := true } ∧
      t.fld F.trkTdStatusRxExpect i = e ∧ t = { s with regs := t.regs, tds := t.tds }) ∧
    (good 1 → up → 32 ≤ d → d < 224 → Does (.tdDataReceive n f) s fun t => oos t ∧ OnlyRegs s t) ∧
    (¬good 1 ∨ ¬up → exec (.tdDataReceive n f) s = .next s) ∧
    (good 2 → up → a = s.fld F.trkTdStatusTxNext i → u.unacked ≠ [] → Does (.tdAckReceive n f) s fun t => frees [] t ∧
      t = { s with timers := t.timers, regs := t.regs, tds := t.tds }) ∧
    (good 2 → up → a ≠ s.fld F.trkTdStatusTxNext i → mine → left.length ≠ u.unacked.length → Does (.tdAckReceive n f) s fun t => frees left t ∧
      t = { s with timers := t.timers, regs := t.regs, tds := t.tds }) ∧
    (¬good 2 ∨ ¬up ∨ (a ≠ s.fld F.trkTdStatusTxNext i ∧ ¬mine) → exec (.tdAckReceive n f) s = .next s) ∧
    (good 3 → up → mine → Does (.tdNakReceive n f) s fun t => (left.length ≠ u.unacked.length → frees left t) ∧
      (t.td i).unacked = left ∧ (t.td i).resend = left.map (fun x => x.seq) ∧ cnt 7 t ∧ t.fld F.wtdStLinkNakRx i = 1 ∧ SameMemory s t) ∧
    (¬good 3 ∨ ¬up ∨ ¬mine → exec (.tdNakReceive n f) s = .next s) ∧
    (good 4 → up → Does (.tdCreditReceive n f) s fun t =>
      t.fld F.trkTdStatusCred0 i = (tdByte f 3 + 256 - unitGet 0 u.used 0) % 256 ∧
      t.fld F.trkTdStatusCred1 i = (tdByte f 4 + 256 - unitGet 0 u.used 1) % 256 ∧ t = { s with regs := t.regs, tds := t.tds }) ∧
    (¬good 4 ∨ ¬up → exec (.tdCreditReceive n f) s = .next s) ∧
    (∀ x size, up → l.op = .memRd → tdAccess l = some (x, size) → Does (.tdWindowRead n l) s fun t =>
      answers (l.answer 0 (l.addr + (x - base))
        ((List.range 4).map (fun j => if x ≤ base + j ∧ base + j < x + size then s.tdWindowByte i (base + j) else 0)) size false rid) t ∧
      (∀ j r m, j < size → tdWindow ((x + j) / 2 * 2) = some (r, m) → tdClears r = true → t.reg r i m = 0) ∧
      ∀ r m, r ≠ .trkTdStatus → r ≠ .trkTdCnt → (∀ j < size, tdWindow ((x + j) / 2 * 2) ≠ some (r, m)) → t.reg r i m = s.reg r i m) ∧
    (up → l.op = .memRd → tdAccess l = none → Does (.tdWindowRead n l) s fun t => answers (l.answer cplCa l.addr [] 4 false rid) t ∧
      t.fld F.wtdStPcieCa i = 1 ∧ ∀ r m, r ≠ .trkTdStatus → r ≠ .trkTdCnt → r ≠ .wtdStPcie → t.reg r i m = s.reg r i m) ∧
    (¬up ∨ l.op ≠ .memRd → exec (.tdWindowRead n l) s = .next s) ∧
    (up → l.op = .memWr → word → base = 0x00C → Does (.tdWindowWrite n l) s fun t => t.fld F.wtdScratchData i = hi * 256 + lo ∧
      SameRegsBut (fun r x _ => (r = .wtdScratch ∨ r = .trkTdStatus ∨ r = .trkTdCnt) ∧ x = i) s t ∧ SameMemory s t) ∧
    (up → l.op = .memWr → l.dws = 1 → l.be = 1 → base = 0x00C → Does (.tdWindowWrite n l) s fun t =>
      t.fld F.wtdScratchData i = hi * 256 + s.fld F.wtdScratchData i % 256) ∧
    (up → l.op = .memWr → word → base = 0x008 → Does (.tdWindowWrite n l) s fun t => t.fld F.wtdCtrlPcieEn i = lo % 2 ∧
      t.fld F.wtdCtrlDispEn i = lo / 2 % 2) ∧
    (up → l.op = .memWr → word → base ∈ [0x000, 0x004, 0x006, 0x00E, 0x010, 0x012, 0x01A, 0x024, 0x026] → Does (.tdWindowWrite n l) s fun t =>
      ∀ r m, r ≠ .trkTdStatus → r ≠ .trkTdCnt → t.reg r i m = s.reg r i m) ∧
    (¬up ∨ l.op ≠ .memWr ∨ tdAccess l = none → exec (.tdWindowWrite n l) s = .next s) ∧
    (go → (s.head h).aux = none → s.fld F.dhCtrlLiveMode h ≠ 0 → 1 < k → Does (.tdAuxGo n) s fun t =>
      (t.head h).aux = some (.td n, req) ∧ t.out = .aux h req :: s.out ∧ t.fld F.wtdAuxStatusResult i = 1 ∧ t.fld F.wtdAuxCmdGo i = 1 ∧
      t.deadline .dhAux h = some (s.tb + 400000) ∧ SameMemory s t) ∧
    (¬go → exec (.tdAuxGo n) s = .next s) ∧
    (beats → Does (.tdBeacon n) s fun t => cnt 9 t ∧ (unitGet {} t.beacons i).nominal = g.nominal + 125000 ∧
      (unitGet {} t.beacons i).next = s.tb + 125000 - min (s.tb - g.nominal) 31250 ∧ SameMemory s t ∧
      (s.cfgGet host 11 .msiEnable ≠ 0 → (s.hostPath host).isSome = true → ∃ w, t.waiting = s.waiting ++ [w] ∧ w.pkt.payload =
        bridgePrefix (s.hostSt host).txPosted 0 0x3FF 0xF ++
          (memWrite (s.fnRid host 11) (s.cfgGet host 11 .msiAddr / 4 * 4) (leBytes 4 (s.cfgGet host 11 .msiData))).bytes)) ∧
    (¬beats → exec (.tdBeacon n) s = .next s)

/-- An enabled port attaches when its source reports it. Attach, detach and bus reset put the hub instance in its default state, with owned ports off and an owner's streams stopped. SET_ADDRESS, SET_CONFIGURATION, PORT_POWER, PORT_RESET and GET_STATUS act; a request the hub does not take is STALLed. A vendor setup is latched with XFER + 1 and PENDING; above 256 bytes it STALLs; DONE for the current one ends it, else STALE; at the limit it is LATE. Suspend keeps the state before; a device's K wakes an enabled host; the host's resume restores. -/
def Obligations.UsbUpstreamPortsAndVendorTransfers : Prop :=
  ∀ (h : Fin 6) (k : Fin 8) (pin : Bool) (c : Nat) (w : BitVec 64) (x : Fin 256) (s : State),
    let i := h.val
    let j := k.val
    let u := s.up i
    let st := s.upState i
    let live := st ≠ 0 ∧ st ≠ 4
    let o := s.dnOwner j
    let p := s.hubPort o (j + 1)
    let rung := fun (t : State) => t.fld F.bellSrcPending 8 130 = 1
    let quiet := fun (t : State) => t = { s with timers := t.timers, regs := t.regs, usb := t.usb }
    let fresh := fun (state : Nat) (t : State) => t.upState i = state ∧ t.up i = {} ∧ t.fld F.upStatusAddress i = 0 ∧
      t.fld F.upStatusRwakeEn i = 0 ∧ t.fld F.upMgmtCtrlPending i = 0 ∧ t.deadline .usbMgmt i = none ∧
      (∀ d, d < 8 → s.dnOwner d = i → t.fld F.dnStatusVbusOn d = 0 ∧ (t.dn d).tt = []) ∧
      (s.ownsAudio i = true → t.usb.audio.play = [] ∧ t.usb.audio.capture = [] ∧ t.fld F.usbAudioStatusPlaying = 0 ∧
        t.fld F.usbAudioStatusCapturing = 0) ∧
      t.reg .usbAssign = s.reg .usbAssign ∧ t.reg .usbAudio = s.reg .usbAudio ∧ rung t ∧ SameMemory s t
    let byte0 := setupByte w 0
    let byte1 := setupByte w 1
    let v := setupValue w
    let port := setupIndex w % 256
    let ports := 1 ≤ port ∧ port ≤ 9
    let answers := fun (a : UsbAnswer) (t : State) => t.out = .usb i a :: s.out ∧ SameMemory s t ∧
      t = { s with timers := t.timers, regs := t.regs, out := t.out, free := t.free, usb := t.usb }
    let current := s.fld F.upMgmtCtrlPending i = 1 ∧ s.fld F.upMgmtCtrlXfer i = x.val
    let ends := fun (e : MgmtEnd) (t : State) => t.fld F.upMgmtCtrlPending i = 0 ∧ (t.up i).mgmtEnd = some e ∧
      t.deadline .usbMgmt i = none ∧ quiet t
    let vendor := live ∧ (s.hubPort i 9).enabled = true
    (s.fld F.usbCtrlEn = 1 → s.fld F.upCtrlEn i = 1 → s.attachSource i pin = true → st = 0 →
      Does (.usbUpAttach h pin) s (fresh 1)) ∧
    (s.attachSource i pin = false ∨ st ≠ 0 → exec (.usbUpAttach h pin) s = .next s) ∧
    (st ≠ 0 → Does (.usbUpDetach h) s fun t => fresh 0 t ∧ t.fld F.upStatusHs i = 0) ∧
    (st = 0 → exec (.usbUpDetach h) s = .next s) ∧
    (st ≠ 0 → Does (.usbBusReset h c) s fun t => fresh 1 t ∧ t.fld F.upStatusResets i = min 0xFFFF (s.fld F.upStatusResets i + 1) ∧
      t.fld F.upStatusHs i = if s.fld F.upCtrlHsEn i = 1 ∧ 6 ≤ c then 1 else 0) ∧
    (st = 0 → exec (.usbBusReset h c) s = .next s) ∧
    (live → byte0 = 0 → byte1 = 5 → Does (.usbHubRequest h false w) s fun t => answers (.data []) t ∧
      t.fld F.upStatusAddress i = v % 128 ∧ t.upState i = if v % 128 = 0 then 1 else 2) ∧
    (live → st ≠ 1 → byte0 = 0 → byte1 = 9 → v = 1 → Does (.usbHubRequest h false w) s fun t => answers (.data []) t ∧ t.upState i = 3) ∧
    (st = 3 → byte0 = 0xA3 → byte1 = 0 → ports → Does (.usbHubRequest h false w) s fun t =>
      t = { s with out := .usb i (.data ((s.hubPort i port).words.take (setupLength w))) :: s.out }) ∧
    (st = 3 → byte0 = 0x23 → byte1 = 3 → v = 8 → ports → Does (.usbHubRequest h false w) s fun t => answers (.data []) t ∧
      (t.hubPort i port).power = true ∧
      (port ≤ 8 → s.dnOwner (port - 1) = i → t.fld F.dnStatusVbusOn (port - 1) = if t.dnPower (port - 1) = true then 1 else 0)) ∧
    (st = 3 → byte0 = 0x23 → byte1 = 3 → v = 4 → 1 ≤ port → port ≤ 8 → (s.hubPort i port).connected = true →
      Does (.usbHubRequest h false w) s fun t => answers (.data []) t ∧ (t.hubPort i port).resetting = true ∧
        (t.hubPort i port).enabled = false ∧ t.deadline .usbReset (port - 1) = some (s.tb + 15000000)) ∧
    (st = 3 → byte0 / 32 % 4 ≠ 0 → s.hubClass i w = none → Does (.usbHubRequest h false w) s (answers .stall)) ∧
    (¬live → exec (.usbHubRequest h false w) s = .next s ∧ exec (.usbHubRequest h true w) s = .next s) ∧
    (vendor → byte0 = 0 → byte1 = 5 → Does (.usbHubRequest h true w) s fun t => answers (.data []) t ∧ (t.up i).devAddr = v % 128 ∧
      t.fld F.upMgmtCtrlPending i = 0) ∧
    (vendor → setupLength w ≤ 256 → Does (.usbVendorSetup h w) s fun t => t.reg .upMgmtSetup i = w ∧
      t.fld F.upMgmtCtrlXfer i = (s.fld F.upMgmtCtrlXfer i + 1) % 256 ∧ t.fld F.upMgmtCtrlPending i = 1 ∧ t.fld F.upMgmtCtrlLen i = 0 ∧
      (t.up i).mgmtEnd = none ∧ t.deadline .usbMgmt i = some (s.tb + s.fld F.upCtrlMgmtLimit i * 10000000) ∧ rung t ∧ SameMemory s t) ∧
    (vendor → 256 < setupLength w → Does (.usbVendorSetup h w) s fun t => answers .stall t ∧ t.fld F.upMgmtCtrlPending i = 0) ∧
    (¬vendor → exec (.usbVendorSetup h w) s = .next s) ∧
    (current → Does (.usbMgmtDoneAck h x) s (ends .ack) ∧ Does (.usbMgmtDoneStall h x) s (ends .stall)) ∧
    (¬current → Does (.usbMgmtDoneAck h x) s fun t => t.fld F.upMgmtCtrlStale i = 1 ∧ OnlyRegs s t ∧ OnlyField F.upMgmtCtrlStale i 0 s t ∧
      exec (.usbMgmtDoneStall h x) s = .next t) ∧
    (s.due .usbMgmt i = true → s.fld F.upMgmtCtrlPending i = 1 → Does (.usbMgmtLate h) s fun t => ends .stall t ∧
      t.fld F.upMgmtCtrlLate i = 1) ∧
    (s.due .usbMgmt i = false ∨ s.fld F.upMgmtCtrlPending i = 0 → exec (.usbMgmtLate h) s = .next s) ∧
    (live → Does (.usbSuspend h) s fun t => t.upState i = 4 ∧ t.up i = { u with before := st } ∧
      (∀ d, d < 8 → s.dnOwner d = i → t.fld F.dnStatusSuspended d = 1) ∧ (s.ownsAudio i = true → t.usb.audio.window = none) ∧
      t = { s with regs := t.regs, usb := t.usb }) ∧
    (¬live → exec (.usbSuspend h) s = .next s) ∧
    (o < 6 → s.upState o = 4 → s.fld F.upStatusRwakeEn o = 1 → p.connected = true → p.suspended = false → (s.up o).waking = none →
      Does (.usbRemoteWake k) s fun t => t.out = .usbResume true o :: .usbResume false j :: s.out ∧ (t.up o).waking = some j ∧
        t = { s with out := t.out, usb := t.usb, chip := (s.wakeOn 1).chip }) ∧
    (o < 6 → s.upState o = 4 → s.fld F.upStatusRwakeEn o = 0 → exec (.usbRemoteWake k) s = .next s) ∧
    (o < 6 → s.upState o ≠ 4 → p.suspended = true → Does (.usbRemoteWake k) s fun t => t.out = .usbResume false j :: s.out ∧
      t.hubPort o (j + 1) = { p with suspended := false, cSuspend := true } ∧ t.fld F.dnStatusSuspended j = 0 ∧
      t = { s with regs := t.regs, out := t.out, usb := t.usb, chip := if s.ownerWakes j then (s.wakeOn 1).chip else s.chip }) ∧
    (6 ≤ o → exec (.usbRemoteWake k) s = .next s) ∧
    (st = 4 → Does (.usbHostResume h) s fun t => t.upState i = u.before % 8 ∧ (t.up i).waking = none ∧
      (∀ d, u.waking = some d → (t.hubPort i (d + 1)).cSuspend = true) ∧
      (∀ d, d < 8 → s.dnOwner d = i → (s.hubPort i (d + 1)).suspended = false →
        t.fld F.dnStatusSuspended d = 0 ∧ .usbResume false d ∈ t.out) ∧
      t = { s with regs := t.regs, out := t.out, usb := t.usb, chip := (s.wakeOn 1).chip }) ∧
    (st ≠ 4 → exec (.usbHostResume h) s = .next s)

/-- A reset ends with the port enabled at the speed negotiated. A connection is shown only to a host that powers the port. A changed USB_ASSIGN field empties the port on the old owner's hub, flushes its translator, takes it from all hosts for the gap, then shows it to the new owner; an unchanged field does nothing; 6 to 0xE count as 0xF. Over-current cuts power, counts, and clears the owner's Port Power. CYCLE takes VBUS off for 500 ms. -/
def Obligations.UsbDownstreamPortsAssignmentAndPower : Prop :=
  ∀ (k : Fin 8) (h : Fin 6) (chirp : Bool) (d : Option Bool) (w : BitVec 64) (s : State),
    let j := k.val
    let o := s.dnOwner j
    let p := s.hubPort o (j + 1)
    let x := s.dn j
    let rung := fun (t : State) => t.fld F.bellSrcPending 8 130 = 1
    let quiet := fun (t : State) => t = { s with timers := t.timers, regs := t.regs, usb := t.usb }
    let hs := chirp = true ∧ s.fld F.upStatusHs o = 1 ∧ x.device = some 2
    let speed := d.map (fun low => if low then 1 else 2)
    let vbus := fun (t : State) => t.fld F.dnStatusVbusOn j = if t.dnPower j = true then 1 else 0
    let a := w.toNat / 2 ^ (4 * j) % 16
    let want := if a < 6 then a else 15
    let now := s.assigned j
    let idle := s.fld F.dnCtrlIdlePwr j = 1 ∧ s.fld F.dnCtrlPwrEn j = 1 ∧ x.tripped = false ∧ x.cycle = false
    (s.due .usbReset j = true → o < 6 → p.resetting = true → Does (.usbDnPortReset k chirp) s fun t =>
      (hs → t.hubPort o (j + 1) = { p with resetting := false, enabled := p.connected, high := true, cReset := true } ∧
        t.fld F.dnStatusSpeed j = 3) ∧
      (¬hs → t.hubPort o (j + 1) = { p with resetting := false, enabled := p.connected, high := false, cReset := true } ∧
        t.fld F.dnStatusSpeed j = x.device.getD 0 % 4) ∧
      t.fld F.dnStatusSuspended j = 0 ∧ t.deadline .usbReset j = none ∧ quiet t) ∧
    (s.due .usbReset j = false → exec (.usbDnPortReset k chirp) s = .next s) ∧
    (speed = x.device → exec (.usbDnConnectChange k d) s = .next s) ∧
    (speed ≠ x.device → Does (.usbDnConnectChange k d) s fun t => (t.dn j).device = speed ∧ (t.dn j).tt = [] ∧
      t.fld F.dnStatusConnected j = (if d.isSome then 1 else 0) ∧ ((o < 6 → p.high = true → p.connected = true) → t.fld F.dnStatusSpeed j = speed.getD 0) ∧ t.deadline .usbReset j = none ∧
      (o < 6 → (t.hubPort o (j + 1)).connected = (s.dnPower j && d.isSome)) ∧
      (o < 6 → s.dnPower j = true → d.isSome = true → (t.hubPort o (j + 1)).cConnection = true) ∧ vbus t ∧ rung t ∧ SameMemory s t) ∧
    (now ≠ want → Does (.usbAssignWrite w) s fun t => t.assigned j = want ∧ t.dnOwner j = 7 ∧ t.fld F.dnStatusSuspended j = 1 ∧
      t.dn j = { x with tt := [] } ∧ t.deadline .usbReset j = none ∧
      t.deadline .usbGap j = some (s.tb + s.fld F.usbCtrlReassignGap * 1000000) ∧
      (o < 6 → t.hubPort o (j + 1) = p.gone true) ∧ (t.fld F.dnStatusVbusOn j = if idle then 1 else 0) ∧ quiet t) ∧
    (now = want → Does (.usbAssignWrite w) s fun t => t.assigned j = want ∧ t.reg .dnStatus j = s.reg .dnStatus j ∧ t.dn j = x ∧
      t.deadline .usbGap j = s.deadline .usbGap j ∧ (o < 6 → t.hubPort o (j + 1) = p) ∧ quiet t) ∧
    (s.due .usbGap j = true → Does (.usbReassignGapEnd (.dn k)) s fun t => t.dnOwner j = (if now < 6 then now else 7) ∧
      t.dn j = x ∧ t.deadline .usbGap j = none ∧ vbus t ∧
      (now < 6 → t.hubPort now (j + 1) = (s.hubPort now (j + 1)).shows (t.dnPower j && x.device.isSome) (x.device == some 1)) ∧ quiet t) ∧
    (s.due .usbGap j = false → exec (.usbReassignGapEnd (.dn k)) s = .next s) ∧
    (s.due .usbGap (8 + h.val) = true → Does (.usbReassignGapEnd (.nine h)) s fun t => t.deadline .usbGap (8 + h.val) = none ∧
      t.hubPort h.val 9 = (s.hubPort h.val 9).shows ((s.hubPort h.val 9).power && s.hubConfigured h.val) false ∧
      t = { s with timers := t.timers, usb := t.usb }) ∧
    (s.due .usbGap (8 + h.val) = false → exec (.usbReassignGapEnd (.nine h)) s = .next s) ∧
    (x.ocLow = false → Does (.usbDnOvercurrent k true) s fun t => t.fld F.dnStatusOc j = 1 ∧
      t.fld F.dnStatusOcCount j = min 0xFFFF (s.fld F.dnStatusOcCount j + 1) ∧ t.fld F.dnStatusVbusOn j = 0 ∧
      t.dn j = { x with ocLow := true, tripped := true } ∧
      (o < 6 → t.hubPort o (j + 1) = ({ p with overCurrent := true, cOverCurrent := true, power := false }).gone false) ∧
      rung t ∧ SameMemory s t) ∧
    (x.ocLow = true → Does (.usbDnOvercurrent k true) s fun t => t.dn j = { x with tripped := true } ∧ t = { s with usb := t.usb }) ∧
    (Does (.usbDnOvercurrent k false) s fun t => t.dn j = { x with ocLow := false } ∧
      (o < 6 → t.hubPort o (j + 1) = { p with overCurrent := false, cOverCurrent := p.cOverCurrent || p.overCurrent }) ∧
      t = { s with usb := t.usb }) ∧
    (Does (.usbDnCycle k) s fun t => t.fld F.dnStatusVbusOn j = 0 ∧ t.dn j = { x with cycle := true } ∧
      t.deadline .usbCycle j = some (s.tb + 500000000) ∧
      (o < 6 → t.hubPort o (j + 1) = p.shows false (x.device == some 1)) ∧ quiet t) ∧
    (s.due .usbCycle j = true → Does (.usbDnCycleEnd k) s fun t => t.dn j = { x with cycle := false } ∧ t.deadline .usbCycle j = none ∧
      vbus t ∧ quiet t) ∧
    (s.due .usbCycle j = false → exec (.usbDnCycleEnd k) s = .next s)

/-- A new OWNER stops both streams and disconnects port 9 of the old and new owner for the gap; nobody else sees it. SET_CUR takes 48 and 96 kHz from the owner, keeps the trim, and STALLs the rest. An SOF counts the window of 1,024, whose end moves the trim up to 1.0 ppm to minus e unless e is above 500 ppm; feedback is rounded. Playback past 4 ms is discarded, an empty FIFO sends zeros and counts, a full capture FIFO drops its oldest. High speed is repeated, splits take two buffers, later vendor stages are NAKed. -/
def Obligations.UsbAudioAndTransactions : Prop :=
  ∀ (h : Fin 6) (k : Fin 8) (owner : Fin 8) (freq e t0 c q : Nat) (missing periodic : Bool) (d : List Byte) (y : TtEntry)
    (sdi : List (BitVec 32)) (s : State),
    let i := h.val
    let j := k.val
    let st := s.upState i
    let live := st ≠ 0 ∧ st ≠ 4
    let old := s.fld F.usbAudioOwner
    let new := if owner.val = 6 then 7 else owner.val
    let a := s.usb.audio
    let stopped := fun (t : State) => t.fld F.usbAudioStatusPlaying = 0 ∧ t.fld F.usbAudioStatusCapturing = 0 ∧
      t.usb.audio.play = [] ∧ t.usb.audio.capture = []
    let answers := fun (x : UsbAnswer) (t : State) => t.out = .usb i x :: s.out
    let hs := s.fld F.upStatusHs i = 1
    let mine := live ∧ old = i
    let dev := live ∧ (s.hubPort i 9).enabled = true
    let disc := s.fld F.usbAudioDiscipline = 1
    let ticks := fun (t : State) => t = { s with regs := t.regs, usb := t.usb } ∧
      t.fld F.usbAudioStatusPlaying = s.fld F.usbAudioStatusPlaying ∧ t.usb.audio.play = a.play ∧ t.usb.audio.capture = a.capture
    let nominal : Nat := if hs then 128000000 else 1024000000
    let diff : Int := ((s.tb - t0 : Nat) : Int) - nominal
    let num : Int := -diff * 10000000 - s.trim * nominal
    let step : Int := (min 10 (num.natAbs / nominal) : Nat)
    let phase := a.phase + (s.tb - a.phaseTb) * (if s.fld F.usbAudioStatusRate = 1 then 96000 else 48000) * (10000000 + s.trim).toNat
    let fifo := s.sampleRate / 250
    let playing := s.fld F.usbAudioStatusPlaying = 1
    let capturing := s.fld F.usbAudioStatusCapturing = 1
    let n := audioSamples (s.flag F.upStatusHs i) (s.flag F.usbAudioStatusRate)
    let clock := s.fld F.usbAudioMclkEn = 1
    let slot := if s.fld F.usbAudioFormat = 1 then s.fld F.usbAudioInSlot else 0
    let lr := a.play.headD (0, 0)
    let w := fun (v : BitVec 24) => BitVec.ofNat 32 (v.toNat * 256)
    let reached := s.dnReached i j = true
    let x := s.dn j
    let waiting := (x.tt.filter (fun z => !z.periodic)).length
    let len := s.fld F.upMgmtCtrlLen i
    let kept := d.take (256 - len)
    let buf := 0x0400_1000 + 0x100 * i + len
    (new ≠ old → Does (.usbAudioOwnerChange owner) s fun t => t.fld F.usbAudioOwner = new ∧ stopped t ∧ t.usb.audio.window = none ∧
      (∀ g, g < 6 → g = old ∨ g = new → t.hubPort g 9 = (s.hubPort g 9).gone true ∧ (t.up g).devConfig = false ∧
        t.fld F.upMgmtCtrlPending g = 0 ∧ t.deadline .usbGap (8 + g) = some (s.tb + s.fld F.usbCtrlReassignGap * 1000000)) ∧
      (∀ g, g ≠ old → g ≠ new → t.up g = s.up g) ∧ t = { s with timers := t.timers, regs := t.regs, usb := t.usb }) ∧
    (new = old → exec (.usbAudioOwnerChange owner) s = .next s) ∧
    (dev → old = i → freq = 48000 ∨ freq = 96000 → Does (.usbAudioSetRate h freq) s fun t => answers (.data []) t ∧
      t.fld F.usbAudioStatusRate = (if freq = 96000 then 1 else 0) ∧ t.trim = s.trim ∧ t.usb.audio.window = none ∧
      (playing ∨ capturing → stopped t) ∧ t.fld F.upMgmtCtrlPending i = 0 ∧
      t = { s with timers := t.timers, regs := t.regs, out := t.out, usb := t.usb }) ∧
    (dev → old ≠ i ∨ (freq ≠ 48000 ∧ freq ≠ 96000) → Does (.usbAudioSetRate h freq) s fun t => answers .stall t ∧
      t.fld F.upMgmtCtrlPending i = 0 ∧ t.fld F.usbAudioStatusRate = s.fld F.usbAudioStatusRate ∧ t.usb.audio = a ∧
      t = { s with timers := t.timers, regs := t.regs, out := t.out, usb := t.usb }) ∧
    (¬dev → exec (.usbAudioSetRate h freq) s = .next s) ∧
    (mine → ¬disc → Does (.usbSof h missing) s fun t => t.usb.audio.window = none ∧ t.trim = s.trim ∧ ticks t) ∧
    (mine → disc → missing = true ∨ a.window = none → Does (.usbSof h missing) s fun t =>
      t.usb.audio.window = some (s.tb, 0) ∧ t.trim = s.trim ∧ ticks t) ∧
    (mine → disc → missing = false → a.window = some (t0, c) → c < 1023 → Does (.usbSof h missing) s fun t =>
      t.usb.audio.window = some (t0, c + 1) ∧ t.trim = s.trim ∧ ticks t) ∧
    (mine → disc → missing = false → a.window = some (t0, c) → 1023 ≤ c → Does (.usbSof h missing) s fun t =>
      t.usb.audio.window = some (s.tb, 0) ∧ ticks t ∧
      (500 * nominal < diff.natAbs * 1000000 → t.trim = s.trim ∧ t.fld F.usbAudioStatusLocked = s.fld F.usbAudioStatusLocked) ∧
      (diff.natAbs * 1000000 ≤ 500 * nominal → t.trim = (if num < 0 then s.trim - step else s.trim + step) ∧
        t.fld F.usbAudioStatusLocked = if (-diff * 10000000 - t.trim * nominal).natAbs ≤ 2 * nominal then 1 else 0)) ∧
    (mine → missing = false → a.phases[1023]? = some q → Does (.usbSof h missing) s fun t => t.fld F.usbAudioStatusFb =
      ((phase - q) * (if hs then 64 else 16) * 2 + 10 ^ 16) / (2 * 10 ^ 16) % 2 ^ 32) ∧
    (¬mine → exec (.usbSof h missing) s = .next s ∧ exec (.usbAudioPacket h (.playback d)) s = .next s ∧
      exec (.usbAudioPacket h .capture) s = .next s ∧ exec (.usbAudioPacket h .feedback) s = .next s) ∧
    (mine → playing → playbackMax (s.flag F.upStatusHs i) (s.flag F.usbAudioStatusRate) < d.length →
      exec (.usbAudioPacket h (.playback d)) s = .next s) ∧
    (mine → playing → d.length ≤ playbackMax (s.flag F.upStatusHs i) (s.flag F.usbAudioStatusRate) →
      Does (.usbAudioPacket h (.playback d)) s fun t =>
      t.usb.audio = { a with play := (a.play ++ playSamples d.length d).take fifo } ∧ t = { s with usb := t.usb }) ∧
    (mine → ¬playing → exec (.usbAudioPacket h (.playback d)) s = .next s ∧ exec (.usbAudioPacket h .feedback) s = .next s) ∧
    (mine → capturing → Does (.usbAudioPacket h .capture) s fun t => t.usb.audio = { a with capture := a.capture.drop n } ∧
      answers (.data ((a.capture.take n).flatMap (fun v => 0 :: leBytes 3 v.toNat))) t ∧ t = { s with out := t.out, usb := t.usb }) ∧
    (mine → ¬capturing → exec (.usbAudioPacket h .capture) s = .next s) ∧
    (mine → playing → exec (.usbAudioPacket h .feedback) s =
      .next (s.usbSay i (.data (leBytes (if hs then 4 else 3) (s.fld F.usbAudioStatusFb))))) ∧
    (clock → Does (.audioCodecFrame sdi) s fun t => t.usb.audio.play = a.play.drop 1 ∧
      t.usb.audio.capture = (if fifo ≤ a.capture.length then a.capture.drop 1 else a.capture) ++ [BitVec.ofNat 24 ((sdi.getD slot 0).toNat / 256)] ∧
      (s.fld F.usbAudioFormat = 0 → t.out = .codec [w lr.1, w lr.2] :: s.out) ∧
      (s.fld F.usbAudioFormat = 1 → ∃ l, t.out = .codec l :: s.out ∧ l.length = 8 ∧ (∀ b, b < 8 → l.getD b 0 =
        if b = s.fld F.usbAudioOutSlot then w lr.1 else if b = s.fld F.usbAudioOutSlot + 1 then w lr.2 else 0)) ∧
      t.fld F.usbUnderrunCount = (s.fld F.usbUnderrunCount + (if a.play = [] then 1 else 0)) % 2 ^ 48 ∧
      t.fld F.usbOverrunCount = (s.fld F.usbOverrunCount + (if fifo ≤ a.capture.length then 1 else 0)) % 2 ^ 48 ∧
      t = { s with regs := t.regs, out := t.out, usb := t.usb }) ∧
    (¬clock → exec (.audioCodecFrame sdi) s = .next s) ∧
    (live → reached → ¬hs ∨ (s.hubPort i (j + 1)).high = true →
      exec (.usbHostTransaction h (.packet k d)) s = .next { s with out := .usbDown j d :: s.out }) ∧
    (live → ¬reached → exec (.usbHostTransaction h (.packet k d)) s = .next s) ∧
    (live → hs → reached → periodic = true ∨ waiting < 2 → Does (.usbHostTransaction h (.startSplit k e periodic d)) s fun t =>
      t.dn j = { x with tt := x.tt ++ [{ endpoint := e, periodic := periodic, data := d }] } ∧
      (periodic = false → answers .ack t) ∧ (periodic = true → t.out = s.out) ∧ t = { s with out := t.out, usb := t.usb }) ∧
    (live → hs → reached → periodic = false → 2 ≤ waiting →
      exec (.usbHostTransaction h (.startSplit k e periodic d)) s = .next (s.usbSay i .nak)) ∧
    (live → hs → reached → x.tt.find? (fun z => z.endpoint == e) = some y →
      (y.result = none → exec (.usbHostTransaction h (.completeSplit k e)) s = .next (s.usbSay i .nyet)) ∧
      (y.result = some d → Does (.usbHostTransaction h (.completeSplit k e)) s fun t => answers (.data d) t ∧
        t.dn j = { x with tt := x.tt.erase y } ∧ t = { s with out := t.out, usb := t.usb })) ∧
    (live → hs → ¬reached → exec (.usbHostTransaction h (.completeSplit k e)) s = .next (s.usbSay i .stall)) ∧
    (st = 3 → (∀ p, 1 ≤ p → p ≤ 9 → (s.hubPort i p).changed = false) →
      exec (.usbHostTransaction h .statusChange) s = .next (s.usbSay i .nak)) ∧
    (live → s.fld F.upMgmtCtrlPending i = 1 → exec (.usbHostTransaction h .mgmtStage) s = .next (s.usbSay i .nak)) ∧
    (live → s.fld F.upMgmtCtrlPending i = 0 → (s.up i).mgmtEnd = some .stall → Does (.usbHostTransaction h .mgmtStage) s fun t =>
      answers .stall t ∧ (t.up i).mgmtEnd = none) ∧
    (live → s.fld F.upMgmtCtrlPending i = 1 → (s.up i).mgmtIn = false → len ≤ 256 → Does (.usbHostTransaction h (.mgmtOut d)) s fun t =>
      answers .ack t ∧ t.fld F.upMgmtCtrlLen i = len + kept.length ∧
      ∀ b, t.byte b = if buf ≤ b ∧ b < buf + kept.length then kept.getD (b - buf) 0 else s.byte b) ∧
    (¬live → exec (.usbHostTransaction h (.packet k d)) s = .next s ∧ exec (.usbHostTransaction h .mgmtStage) s = .next s)

/-- OFF and DISCHARGE clear the command and open a driven path with cause 12, a cool-down or a latch going on; DISCHARGE drives DISCH for 650 ms at most. ON is REFUSED in LATCHED, without written limits, without an allotment or with VIN above VMAX, BUSY in COOLDOWN, else begins PRECHARGE, counting an attempt after a trip; with PG it completes at once. CLEAR is REFUSED when DAMAGED. Other codes are REFUSED. A budget change the reserve cannot cover is FULL; POWER_TOTAL below the allotments sets CFG_ERR. RESULT is PPp_STATUS. -/
def Obligations.PowerPathsObeyTheirCommandsAndTheBudget : Prop :=
  ∀ (x : Issue) (ra rb : Fin 32) (tag : Fin 16) (aux : Fin 4096) (value : BitVec 32) (s : State),
    let ready := s.issues x { group := .power, priv := true, tag := some tag.val, srcs := [ra.val, rb.val] } noChk = true
    let p := s.wzG x ra.val
    let v := s.wzG x rb.val
    let cmd := v % 16
    let path := ready ∧ p ≤ 12
    let st := s.ppState p
    let did := fun (status : Nat) (t : State) => Completed x tag.val status (t.ppResult p) t ∧ WentOn x s t ∧ SameDevices s t ∧
      SameMemory s t ∧ ∀ j, t.reg .powerAllot 0 j = s.reg .powerAllot 0 j
    let low := fun (t : State) => t.fld F.ppStatusGate p = 0 ∧ t.fld F.ppStatusPrechg p = 0 ∧ t.fld F.ppStatusPg p = 0 ∧
      t.ppState p = 0 ∧ t.fld F.ppStatusCause p = 12 ∧ t.deadline .ppFault p = none ∧ t.deadline .ppHold p = none
    let opens := fun (disch : Bool) (t : State) => did 0 t ∧ t.fld F.ppStatusCmdOn p = 0 ∧ (1 ≤ st → st ≤ 3 → low t) ∧
      (3 < st → t.ppState p = st ∧ t.fld F.ppStatusCause p = s.fld F.ppStatusCause p) ∧
      (disch = true → p < 12 → st ≤ 3 → t.fld F.ppStatusDisch p = 1 ∧ t.deadline .ppDischarge p = some (s.tb + 650000000)) ∧
      (disch = false → t.fld F.ppStatusDisch p = s.fld F.ppStatusDisch p)
    let refused := st = 5 ∨ s.reg .newelPplim0 0 p = 0 ∨ (p < 12 ∧ (s.fld F.powerAllotMw 0 p = 0 ∨
      s.fld F.newelPplim0Vmax 0 p * 10 < s.fld F.ppCfgVin p))
    let counts := (s.path p).tripped = true ∧ s.fld F.ppStatusCause p ≠ 8
    let turned := s.tookTurn x.core.val x.thread.val
    let same := fun (t : State) => t.reg .ppStatus p = s.reg .ppStatus p ∧ t = { turned with cores := t.cores, threads := t.threads }
    let a := s.fld F.powerAllotMw 0 p
    let r := s.fld F.powerReserveMw
    let done := fun (status result : Nat) (t : State) => Completed x tag.val status result t ∧ WentOn x s t
    let quiet := fun (t : State) => t = { turned with cores := t.cores, threads := t.threads }
    let ledger := fun (t : State) => SameRegsBut (fun n i j => (n = .powerAllot ∧ i = 0 ∧ j = p) ∨ (n = .powerReserve ∧ i = 0 ∧ j = 0)) s t ∧
      t = { turned with cores := t.cores, threads := t.threads, regs := t.regs }
    let sum := ((List.range 13).map (fun i => s.fld F.powerAllotMw 0 i)).sum
    (path → cmd = 0 → Does (.ppCmdOff x ra rb tag) s (opens false)) ∧
    (path → cmd = 2 → Does (.ppCmdDischarge x ra rb tag) s (opens true)) ∧
    (path → cmd = 1 → refused → Does (.ppCmdOn x ra rb tag) s fun t => did 4 t ∧ same t) ∧
    (path → cmd = 1 → ¬refused → st = 4 → Does (.ppCmdOn x ra rb tag) s fun t => did 3 t ∧ same t) ∧
    (path → cmd = 1 → ¬refused → st = 0 → s.fld F.ppStatusPg p = 0 → Does (.ppCmdOn x ra rb tag) s fun t => InFlight x tag.val t ∧
      WentOn x s t ∧ t.ppState p = 1 ∧ t.fld F.ppStatusPrechg p = 1 ∧ t.fld F.ppStatusCmdOn p = 1 ∧
      t.fld F.ppStatusAttempts p = (if counts then min 5 (s.fld F.ppStatusAttempts p + 1) else s.fld F.ppStatusAttempts p) ∧
      t.deadline .ppPrecharge p = some (s.tb + s.fld F.ppCfgPrechgMax p * 1000000) ∧ SameDevices s t ∧ SameMemory s t) ∧
    (path → cmd = 1 → ¬refused → st ≠ 4 → s.fld F.ppStatusPg p = 1 → Does (.ppCmdOn x ra rb tag) s fun t => did 0 t ∧
      t.fld F.ppStatusCmdOn p = 1) ∧
    (path → cmd = 3 → s.fld F.ppStatusDamaged p = 1 → Does (.ppCmdClear x ra rb tag) s fun t => did 4 t ∧ same t) ∧
    (path → cmd = 3 → s.fld F.ppStatusDamaged p = 0 → Does (.ppCmdClear x ra rb tag) s fun t => did 0 t ∧
      t.fld F.ppStatusLockout p = 0 ∧ t.fld F.ppStatusAttempts p = 0 ∧ t.ppState p = (if st = 5 then 0 else st)) ∧
    (path → 3 < cmd → Does (.ppCmdOff x ra rb tag) s fun t => did 4 t ∧ same t) ∧
    (ready → 12 < p → Does (.ppCmdOn x ra rb tag) s fun t => done 4 0 t ∧ quiet t) ∧
    (ready → 12 < p → Does (.pwrBudget x ra rb tag) s fun t => done 4 0 t ∧ quiet t) ∧
    (path → v ≤ a → Does (.pwrBudget x ra rb tag) s fun t => done 0 0 t ∧ t.fld F.powerAllotMw 0 p = v ∧
      t.fld F.powerReserveMw = (r + (a - v)) % 2 ^ 32 ∧ ledger t) ∧
    (path → a < v → v - a ≤ r → v < 2 ^ 32 → Does (.pwrBudget x ra rb tag) s fun t => done 0 0 t ∧ t.fld F.powerAllotMw 0 p = v ∧
      t.fld F.powerReserveMw = r - (v - a) ∧ ledger t) ∧
    (path → a < v → r < v - a → Does (.pwrBudget x ra rb tag) s fun t => done 5 0 t ∧ quiet t) ∧
    (value.toNat < sum → Does (.powerTotalWrite value) s fun t => t.fld F.powerStatusCfgErr = 1 ∧ OnlyRegs s t ∧
      OnlyField F.powerStatusCfgErr 0 0 s t) ∧
    (sum ≤ value.toNat → Does (.powerTotalWrite value) s fun t => t.fld F.powerTotalMw = value.toNat ∧
      t.fld F.powerReserveMw = value.toNat - sum ∧ (∀ j, t.reg .powerAllot 0 j = s.reg .powerAllot 0 j) ∧ OnlyRegs s t) ∧
    (s.issues x { group := .power, priv := true, tag := some tag.val, srcs := [ra.val] } noChk = true →
      Does (.pwrAdc x ra tag aux) s fun t => quiet t ∧ (63 < p → done 4 0 t) ∧ (p ≤ 52 → done 0 (unitGet 0 s.power.adc p) t) ∧
        (52 < p → p ≤ 63 → done 0 aux.val t))

/-- A scan stores the codes, PPp_MEAS and the model of R365. Within 5 % of the reference PRECHARGE goes to GATE_RISE; at GATE_OK the path is ON; PG comes with 100 us below IMAX and no fault timer. OV for 20 us, two hot scans and the model trip in that order. A trip drives all low, discharges, counts, rings, and cools down; the fifth attempt or a gate that fails latches. A cool-down ends in a retry or OFF, later while still warm. A discharge ends after 1 ms low or at 650 ms with cause 7. -/
def Obligations.PowerPathsAreScannedTripAndCoolDown : Prop :=
  ∀ (codes : List Nat) (path : Fin 13) (t0 : Nat) (s : State),
    let p := path.val
    let st := s.ppState p
    let a := s.path p
    let code := fun (c : Nat) => codes.getD c 0 % 4096
    let imax := s.fld F.newelPplim0Imax 0 p * 100
    let vmax := s.fld F.newelPplim0Vmax 0 p * 100
    let vscale := s.fld F.newelPplim1Vscale 0 p
    let cur := code (4 * p) * s.fld F.newelPplim1Iscale 0 p
    let out := code (4 * p + 1) * vscale
    let ref := if p < 12 then s.fld F.ppCfgVin p * 10 else code 52 * vscale
    let near := 20 * (max out ref - min out ref) ≤ ref
    let tmax := s.fld F.newelPplim0TmaxCode 0 p
    let hot := if s.fld F.newelPplim0Ntc 0 p = 1 then code (4 * p + 3) < tmax else tmax < code (4 * p + 3)
    let driven := 1 ≤ st ∧ st ≤ 3
    let amps : Rat := (cur : Rat) / 100000
    let watts : Rat := amps * amps * ((s.fld F.newelPplim1Rds 0 p : Rat) / 1000 * (1 + ((s.fld F.newelPplim1Tref 0 p : Rat) + a.t1 + a.t2 - 25) / 250))
    let tau1 := s.fld F.newelPplim1Tau1 0 p
    let tau2 := s.fld F.newelPplim1Tau2 0 p
    let n1 : Rat := a.t1 + (watts * ((s.fld F.newelPplim1Rth1 0 p : Rat) / 4) - a.t1) / ((500 * tau1 : Nat) : Rat)
    let n2 : Rat := a.t2 + (watts * ((s.fld F.newelPplim1Rth2 0 p : Rat) * 4) - a.t2) / ((10000 * tau2 : Nat) : Rat)
    let tmaxC : Rat := s.fld F.newelPplim0TmaxC 0 p
    let rung := fun (t : State) => t.fld F.bellSrcPending 9 (32 + p) = 1
    let ovp := ∃ b, a.ovSince = some b ∧ b + 20000 ≤ s.tb ∧ vmax < out
    let burnt := hot ∧ 1 ≤ a.hot
    let steady := a.below = some t0 ∧ t0 + 100000 ≤ s.tb ∧ cur < imax
    let latch := s.fld F.ppStatusAttempts p = 5
    let trips := fun (cause : Nat) (t : State) => t.fld F.ppStatusGate p = 0 ∧ t.fld F.ppStatusPrechg p = 0 ∧ t.fld F.ppStatusPg p = 0 ∧
      t.fld F.ppStatusTripEvt p = 1 ∧ t.fld F.ppStatusCause p = cause ∧ t.fld F.ppStatusTrips p = min 255 (s.fld F.ppStatusTrips p + 1) ∧
      t.ppState p = (if cause = 6 ∨ latch then 5 else 4) ∧ (cause = 6 → t.fld F.ppStatusDamaged p = 1) ∧
      (cause ≠ 6 → latch → t.fld F.ppStatusLockout p = 1) ∧
      (cause ≠ 6 → ¬latch → t.deadline .ppCool p = some (s.tb + 10000000 * s.fld F.ppCfgCooldown p)) ∧
      (p < 12 → t.fld F.ppStatusDisch p = 1 ∧ t.deadline .ppDischarge p = some (s.tb + 650000000)) ∧
      (t.path p).tripped = true ∧ t.deadline .ppFault p = none ∧ rung t ∧ SameDevices s t ∧ SameMemory s t
    let gate := s.tb + 100000 * s.fld F.ppCfgTgate p
    let only := fun (t : State) => SameRegsBut (fun n i _ => n = .ppStatus ∧ i = p) s t ∧ OnlyRegsTimers s t
    let warm := (a.tripCause = 4 ∨ a.tripCause = 5) ∧ (s.ppHot p = true ∨ tmaxC < a.model + 10)
    let cooled := st = 4 ∧ s.due .ppCool p = true ∧ ¬warm
    (Does (.newelAdcScan codes) s fun t =>
      let calm := ¬ovp ∧ ¬burnt ∧ (t.path p).model ≤ tmaxC
      (∀ c, c < 53 → unitGet 0 t.power.adc c = code c) ∧ t.fld F.ppMeasIMa p = min 65535 (cur / 100) ∧
      t.fld F.ppMeasVoutMv p = min 65535 (out / 10) ∧ t.fld F.ppMeasTempCode p = code (4 * p + 3) ∧
      t.fld F.ppMeasGateCode p = code (4 * p + 2) ∧
      (tau1 ≠ 0 → tau2 ≠ 0 → (t.path p).t1 = n1 ∧ (t.path p).t2 = n2 ∧ (t.path p).model = s.fld F.newelPplim1Tref 0 p + n1 + n2) ∧
      t.fld F.ppStatusModelC p = min 255 (t.path p).model.floor.toNat ∧
      (driven → ovp → trips 3 t) ∧ (driven → ¬ovp → burnt → trips 4 t) ∧
      (driven → ¬ovp → ¬burnt → tmaxC < (t.path p).model → trips 5 t) ∧
      (¬driven → t.ppState p = st) ∧ (st = 1 → calm → ¬near → t.ppState p = 1) ∧
      (st = 1 → calm → near → t.ppState p = 2 ∧ t.fld F.ppStatusGate p = 1 ∧ t.deadline .ppGate p = some gate) ∧
      (st = 2 → calm → s.fld F.ppCfg2GateOk p ≤ code (4 * p + 2) → t.ppState p = 3 ∧ t.fld F.ppStatusPrechg p = 0) ∧
      (st = 2 → calm → code (4 * p + 2) < s.fld F.ppCfg2GateOk p → t.ppState p = 2) ∧
      (driven → calm → imax < cur → t.deadline .ppFault p =
        some ((s.deadline .ppFault p).getD (s.tb + 1000 * s.fld F.ppCfgFaultT p))) ∧
      (st = 3 → calm → near → steady → t.fld F.ppStatusPg p = 1 ∧ t.deadline .ppFault p = none ∧
        (s.fld F.ppStatusPg p = 0 → t.deadline .ppHold p = some (s.tb + 60000000000) ∧ rung t)) ∧
      (st = 3 → calm → ¬near ∨ imax < cur → t.fld F.ppStatusPg p = 0) ∧ SameDevices s t ∧ SameMemory s t) ∧
    (driven → Does (.ppShort path) s (trips 2)) ∧ (¬driven → exec (.ppShort path) s = .next s) ∧
    (driven → s.due .ppFault p = true → Does (.ppFaultTimer path) s (trips 1)) ∧
    (s.due .ppFault p = false → exec (.ppFaultTimer path) s = .next s) ∧
    (s.due .ppPrecharge p = true → st = 1 → Does (.ppPrechargeTimeout path) s fun t => t.ppState p = 2 ∧ t.fld F.ppStatusPrechgTo p = 1 ∧
      t.fld F.ppStatusGate p = 1 ∧ t.deadline .ppPrecharge p = none ∧ t.deadline .ppGate p = some gate ∧ rung t ∧ SameMemory s t) ∧
    (s.due .ppPrecharge p = false ∨ st ≠ 1 → exec (.ppPrechargeTimeout path) s = .next s) ∧
    (s.due .ppGate p = true → st = 2 → Does (.ppGateTimeout path) s (trips 6)) ∧
    (s.due .ppGate p = false ∨ st ≠ 2 → exec (.ppGateTimeout path) s = .next s) ∧
    (s.fld F.ppStatusDisch p = 1 → a.vlow = some t0 → t0 + 1000000 ≤ s.tb → Does (.ppDischargeDone path) s fun t =>
      t.fld F.ppStatusDisch p = 0 ∧ t.ppState p = st ∧ t.deadline .ppDischarge p = none ∧ only t) ∧
    (s.fld F.ppStatusDisch p = 0 ∨ a.vlow = none → exec (.ppDischargeDone path) s = .next s) ∧
    (s.fld F.ppStatusDisch p = 1 → s.due .ppDischarge p = true → Does (.ppDischargeFail path) s fun t => t.fld F.ppStatusDisch p = 0 ∧
      t.fld F.ppStatusCause p = 7 ∧ t.ppState p = st ∧ t.deadline .ppDischarge p = none ∧ rung t ∧ SameMemory s t) ∧
    (s.fld F.ppStatusDisch p = 0 ∨ s.due .ppDischarge p = false → exec (.ppDischargeFail path) s = .next s) ∧
    (cooled → s.fld F.ppStatusCmdOn p = 1 → Does (.ppCooldownEnd path) s fun t => t.ppState p = 1 ∧ t.fld F.ppStatusPrechg p = 1 ∧
      t.fld F.ppStatusAttempts p = min 5 (s.fld F.ppStatusAttempts p + 1) ∧
      t.deadline .ppPrecharge p = some (s.tb + s.fld F.ppCfgPrechgMax p * 1000000) ∧ t.deadline .ppCool p = none ∧ only t) ∧
    (cooled → s.fld F.ppStatusCmdOn p = 0 → Does (.ppCooldownEnd path) s fun t => t.ppState p = 0 ∧
      t.fld F.ppStatusAttempts p = s.fld F.ppStatusAttempts p ∧ t.deadline .ppCool p = none ∧ only t) ∧
    (¬cooled → exec (.ppCooldownEnd path) s = .next s) ∧
    (s.due .ppHold p = true → s.fld F.ppStatusPg p = 1 → Does (.ppAttemptsReset path) s fun t => t.fld F.ppStatusAttempts p = 0 ∧
      (t.path p).tripped = false ∧ t.ppState p = st ∧ t = { s with timers := t.timers, regs := t.regs, power := t.power }) ∧
    (s.due .ppHold p = false ∨ s.fld F.ppStatusPg p = 0 → exec (.ppAttemptsReset path) s = .next s)

/-- pwr.pdtx refuses a bad record or one above the limits, is BUSY as sink without SinkTxOk, waits 16 ms for an AMS as source, else sends; 1 ms without GoodCRC resends twice, then ERROR; GoodCRC ends it OK. A message gets GoodCRC, is kept unless a duplicate, restarts the keep-alive and overtakes requests not started; a full ring only counts. Detach, a Hard Reset received as source and keep-alive expiry open the path with discharge and return the allotment. FRS, VCONN and PFAIL_N as the spec states. -/
def Obligations.TypeCUnitsSpeakPowerDelivery : Prop :=
  ∀ (tc : Fin 12) (sop : Fin 3) (data : List Byte) (attach : Fin 6) (cc : Fin 4) (orient : Bool) (iss : Issue) (ra rb : Fin 32) (tag : Fin 16)
    (m m' : PdMsg) (x : PdTx) (rest : List PdTx) (e : PdMsg × Nat) (more : List (PdMsg × Nat)) (th g : Nat) (o : OtEntry) (s : State),
    let n := tc.val
    let u := s.tc n
    let msg : PdMsg := ⟨sop.val, data⟩
    let rung := fun (t : State) => t.fld F.bellSrcPending 9 (16 + n) = 1
    let source := s.fld F.tcCtrlPowerRole n = 1
    let a := s.fld F.powerAllotMw 0 n
    let st := s.ppState n
    let opened := fun (cause : Nat) (t : State) => t.fld F.ppStatusCmdOn n = 0 ∧ t.fld F.powerAllotMw 0 n = 0 ∧
      t.fld F.powerReserveMw = (s.fld F.powerReserveMw + a) % 2 ^ 32 ∧
      (1 ≤ st → st ≤ 3 → t.ppState n = 0 ∧ t.fld F.ppStatusCause n = cause ∧ t.fld F.ppStatusGate n = 0 ∧ t.fld F.ppStatusDisch n = 1)
    let closed := fun (t : State) => t.reg .ppStatus n = s.reg .ppStatus n ∧ t.fld F.powerAllotMw 0 n = a
    let clean := fun (t : State) => (t.tc n).tx = [] ∧ (t.tc n).txId = [] ∧ (t.tc n).rxId = [] ∧ (t.tc n).contract = .none ∧
      t.deadline .pdRetry n = none ∧ SameDevices s t ∧ SameMemory s t
    let on := s.fld F.tcCtrlEn n = 1
    let talks := s.tcTalks n = true
    let size := 2 ≤ data.length ∧ data.length ≤ 264
    let awake := s.chipDeep = false
    let heard := talks ∧ awake ∧ size ∧ msg.goodCrc = false
    let room := u.rx.length < 8
    let dup := unitGet none u.rxId sop.val = some msg.id
    let flying := u.tx = [x] ∧ x.started = true
    let ours := x.op = some (th, g) ∧ s.otFind 9 th g = some o ∧ o.done = false ∧ (s.thr 9 th).run = .running
    let ended := fun (status : Nat) (t : State) => (t.tc n).tx = [] ∧ t.deadline .pdRetry n = none ∧
      unitGet 0 (t.tc n).txId x.msg.sop = (unitGet 0 u.txId x.msg.sop + 1) % 8 ∧
      (ours → t.otFind 9 th g = some { o with done := true, status := status, result := 0 })
    let ready := s.issues iss { group := .power, priv := true, tag := some tag.val, srcs := [ra.val, rb.val] }
    let buf := s.wzG iss ra.val
    let here := s.wzG iss rb.val = n
    let record := pdRecord (s.localBytes iss.core.val buf 272)
    let asks := ready (wzBuf iss ra.val 272 false) = true ∧ here
    let did := fun (status : Nat) (t : State) => Completed iss tag.val status 0 t ∧ WentOn iss s t
    let waits := fun (t : State) => InFlight iss tag.val t ∧ WentOn iss s t
    let turned := s.tookTurn iss.core.val iss.thread.val
    let quiet := fun (t : State) => t = { turned with cores := t.cores, threads := t.threads }
    let fits := s.offersTooMuch n m = false ∧ talks ∧ m.sop < 3
    let free := u.tx = [] ∧ s.deadline .pdAms n = none
    let numbered := m.withId (unitGet 0 u.txId m.sop)
    let ok := attachOk (s.fld F.tcCtrlCcMode n) attach.val = true
    (asks → record = none → Does (.pwrPdtx iss ra rb tag) s fun t => did 4 t ∧ quiet t) ∧
    (asks → record = some (m, true) ∨ record = some (m, false) → s.offersTooMuch n m = true → Does (.pwrPdtx iss ra rb tag) s fun t =>
      did 4 t ∧ quiet t) ∧
    (asks → record = some (m, true) ∨ record = some (m, false) → s.offersTooMuch n m = false → ¬talks →
      Does (.pwrPdtx iss ra rb tag) s fun t => did 1 t ∧ quiet t) ∧
    (asks → record = some (m, false) → fits → free → Does (.pwrPdtx iss ra rb tag) s fun t => waits t ∧
      t.out = .pd (.send n numbered) :: s.out ∧ t.deadline .pdRetry n = some (s.tb + 1000000) ∧
      (t.tc n).tx = [{ msg := numbered, op := some (iss.thread.val, tag.val), started := true }]) ∧
    (asks → record = some (m, true) → fits → free → source → Does (.pwrPdtx iss ra rb tag) s fun t => waits t ∧ t.out = s.out ∧
      (t.tc n).ng = true ∧ t.deadline .pdAms n = some (s.tb + 16000000) ∧ (t.tc n).tx = [{ msg := m, op := some (iss.thread.val, tag.val) }]) ∧
    (asks → record = some (m, true) → fits → ¬source → s.fld F.tcStatusSinkTxOk n = 0 → Does (.pwrPdtx iss ra rb tag) s fun t =>
      did 3 t ∧ quiet t) ∧
    (asks → record = some (m, false) → talks → m.sop = 3 → (∀ y ∈ u.tx, y.op ≠ some (iss.thread.val, tag.val)) →
      Does (.pwrPdtx iss ra rb tag) s fun t => did 0 t ∧ clean t ∧
      t.fld F.tcStatusHardResetTx n = 1 ∧ t.out = .pd (.send n ⟨3, []⟩) :: s.out) ∧
    (ready (wzBuf iss ra.val 272 true) = true → here → u.rx = [] → Does (.pwrPdrx iss ra rb tag) s fun t => did 6 t ∧ quiet t) ∧
    (ready (wzBuf iss ra.val 272 true) = true → here → u.rx = e :: more → Does (.pwrPdrx iss ra rb tag) s fun t => did 0 t ∧
      Stores iss buf (pdRecordOf e) s t ∧ (t.tc n).rx = more ∧ t.fld F.tcStatusRxCount n = more.length % 16) ∧
    (s.due .pdAms n = true → u.tx = x :: rest → x.started = false → Does (.pdAmsStartDelay tc) s fun t =>
      let sent := x.msg.withId (unitGet 0 u.txId x.msg.sop)
      t.out = .pd (.send n sent) :: s.out ∧ (t.tc n).tx = { x with msg := sent, started := true } :: rest ∧
      t.deadline .pdAms n = none ∧ t.deadline .pdRetry n = some (s.tb + 1000000) ∧ t = { s with power := t.power, timers := t.timers, out := t.out }) ∧
    (s.due .pdAms n = false → exec (.pdAmsStartDelay tc) s = .next s) ∧
    (s.due .pdRetry n = true → flying → x.retries < 2 → Does (.pdTxRetry tc) s fun t => t.out = .pd (.send n x.msg) :: s.out ∧
      (t.tc n).tx = [{ x with retries := x.retries + 1 }] ∧ t.deadline .pdRetry n = some (s.tb + 1000000)) ∧
    (s.due .pdRetry n = true → flying → 2 ≤ x.retries → Does (.pdTxRetry tc) s fun t => ended 1 t ∧
      (x.op = none → t.fld F.tcStatusKaTxFail n = 1 ∧ rung t)) ∧
    (s.due .pdRetry n = false → exec (.pdTxRetry tc) s = .next s) ∧
    (talks → awake → size → msg.goodCrc = true → flying → x.msg.sop = sop.val → x.msg.id = msg.id → Does (.pdMessageReceive tc sop data) s (ended 0)) ∧
    (heard → ¬room → Does (.pdMessageReceive tc sop data) s fun t =>
      t.fld F.tcRxFullCount n = (s.fld F.tcRxFullCount n + 1) % 2 ^ 48 ∧ OnlyRegs s t ∧ OnlyField F.tcRxFullCount n 0 s t) ∧
    (heard → room → dup → msg.control 13 = false → exec (.pdMessageReceive tc sop data) s =
      .next { s with out := .pd (.goodCrc n sop.val msg.id) :: s.out, chip := (s.wakeOn 6).chip }) ∧
    (heard → room → ¬dup → Does (.pdMessageReceive tc sop data) s fun t => .pd (.goodCrc n sop.val msg.id) ∈ t.out ∧
      (t.tc n).rx = u.rx ++ [(msg, s.tb % 2 ^ 32)] ∧ t.fld F.tcStatusRxCount n = u.rx.length + 1 ∧
      unitGet none (t.tc n).rxId sop.val = some msg.id ∧ (∀ y ∈ (t.tc n).tx, y.started = true ∨ y.op = none) ∧
      (msg.request = true ∨ msg.eprKeepAlive = true → s.fld F.tcCtrlKaLimit n ≠ 0 →
        t.deadline .pdKa n = some (s.tb + 1000000 * s.fld F.tcCtrlKaLimit n)) ∧ rung t ∧ SameDevices s t ∧ SameMemory s t) ∧
    (¬talks ∨ ¬awake ∨ ¬size → exec (.pdMessageReceive tc sop data) s = .next s) ∧
    (talks → awake → Does (.pdHardResetReceive tc) s fun t => t.fld F.tcStatusHardResetRx n = 1 ∧ clean t ∧ rung t ∧
      (source → opened 11 t) ∧ (¬source → closed t)) ∧
    (¬talks ∨ ¬awake → exec (.pdHardResetReceive tc) s = .next s) ∧
    (s.due .pdKa n = true → Does (.pdKeepaliveExpire tc) s fun t => t.fld F.tcStatusKaExpired n = 1 ∧ t.fld F.tcStatusHardResetTx n = 1 ∧
      t.out = .pd (.send n ⟨3, []⟩) :: s.out ∧ opened 11 t ∧ t.deadline .pdKa n = none ∧ clean t ∧ rung t) ∧
    (s.due .pdKa n = false → exec (.pdKeepaliveExpire tc) s = .next s) ∧
    (u.ka.on = true → u.ka.next ≤ s.tb → on → pdRecord (s.bytes (0x0300_0100 + 0x1000 * n) 272) = some (m', false) → m'.sop < 3 → free →
      Does (.pdKeepaliveSend tc) s fun t => t.out = .pd (.send n (m'.withId (unitGet 0 u.txId m'.sop))) :: s.out ∧
        (t.tc n).ka = u.ka.start s.tb (s.fld F.tcCtrlKaTxPeriod n * 1000000) (s.fld F.chipCatchupPd) ∧ SameDevices s t ∧ SameMemory s t) ∧
    (u.ka.on = false ∨ s.tb < u.ka.next ∨ ¬on → exec (.pdKeepaliveSend tc) s = .next s) ∧
    (awake → s.fld F.tcCtrlFrsRxEn n = 1 → ¬source → s.fld F.tcStatusAttach n ≠ 0 → Does (.pdFrsReceive tc) s fun t =>
      t.fld F.tcStatusFrsRx n = 1 ∧ rung t ∧ closed t ∧ t.power = s.power ∧ SameDevices s t ∧ SameMemory s t) ∧
    (¬awake ∨ s.fld F.tcCtrlFrsRxEn n = 0 ∨ source → exec (.pdFrsReceive tc) s = .next s) ∧
    (on → ok → Does (.tcAttach tc attach cc orient) s fun t => t.fld F.tcStatusAttach n = attach.val ∧ t.fld F.tcStatusPartnerCc n = cc.val ∧
      t.fld F.tcStatusOrient n = (if orient then 1 else 0) ∧ t.fld F.tcStatusSinkTxOk n = (if attach = 3 ∧ cc = 3 then 1 else 0) ∧
      (attach = 2 ∨ attach = 3 → s.fld F.tcStatusAttach n ≠ 2 → s.fld F.tcStatusAttach n ≠ 3 →
        t.fld F.tcStatusVconnOn n = s.fld F.tcCtrlVconnEn n) ∧ rung t ∧ SameDevices s t ∧ SameMemory s t) ∧
    (¬on ∨ ¬ok → exec (.tcAttach tc attach cc orient) s = .next s) ∧
    (s.fld F.tcStatusAttach n ≠ 0 → Does (.tcDetach tc) s fun t => t.fld F.tcStatusAttach n = 0 ∧ t.fld F.tcStatusPartnerCc n = 0 ∧
      t.fld F.tcStatusVconnOn n = 0 ∧ clean t ∧ t.deadline .pdKa n = none ∧ t.out = s.out ∧ rung t ∧
      (source → opened 10 t ∧ t.fld F.tcCtrlPowerRole n = u.roles.1 % 2 ∧ t.fld F.tcCtrlDataRole n = u.roles.2 % 2) ∧
      (¬source → closed t)) ∧
    (s.fld F.tcStatusAttach n = 0 → exec (.tcDetach tc) s = .next s) ∧
    (s.fld F.tcStatusVconnOn n = 1 → Does (.vconnOvercurrent tc) s fun t => t.fld F.tcStatusVconnOn n = 0 ∧ t.fld F.tcStatusVconnOc n = 1 ∧
      rung t ∧ closed t ∧ SameDevices s t ∧ SameMemory s t) ∧
    (s.fld F.tcStatusVconnOn n = 0 → exec (.vconnOvercurrent tc) s = .next s) ∧
    (Does .pfailAccept s fun t => t.fld F.powerAllotMw 0 n = 0 ∧ t.fld F.ppStatusCmdOn n = 0 ∧
      (1 ≤ st → st ≤ 3 → t.ppState n = 0 ∧ t.fld F.ppStatusCause n = 8 ∧ t.fld F.ppStatusGate n = 0) ∧
      t.fld F.ppStatusDisch n = s.fld F.ppStatusDisch n ∧ t.reg .ppStatus 12 = s.reg .ppStatus 12 ∧
      t.fld F.powerReserveMw = (s.fld F.powerReserveMw + ((List.range 12).map (fun i => s.fld F.powerAllotMw 0 i)).sum) % 2 ^ 32 ∧
      (s.fld F.tcCtrlFrsArm n = 1 → t.fld F.tcStatusFrsTx n = 1 ∧ .pd (.frs n) ∈ t.out ∧ t.fld F.bellSrcPending 9 (16 + n) = 1) ∧
      t.fld F.bellSrcPending 9 45 = 1 ∧ SameDevices s t ∧ SameMemory s t)

/-- No command faults and none is refused, whatever the state. And when its condition holds: LANDING_ACCEPT accepts the oldest packet arrived, MAP_CLASSIFY sends one by act.queue to a leaf queue, ADMISSION_DECIDE and ADMISSION_RETRY grant it, STAIR_CROSS carries it over, QUEUE_LINK links it, PACKET_DEPART takes it out, LOCAL_PACKET_ENTER brings one in; cells are claimed and withheld, ended epochs decided, held packets go on; admission and RED registers take their values, thresholds fall, a Gallery entry is written, a ring is enabled and re-armed, and a frame is sent and received. -/
def Obligations.EveryCommandIsCarriedOut : Prop :=
  (∀ (c : Instr) (s : State), ∃ t, exec c s = .next t) ∧
  ∀ (hall : Fin 4) (src : Fin 5) (trk : Fin 24) (vc : Fin 8) (port : Fin 48) (leaf : Fin 2048) (prof : Fin 16) (colour : Fin 3)
    (ring : Fin 16) (mac : Fin 8) (value : BitVec 64) (frame : List Byte) (fixed lost : Nat) (p : Parcel) (q : Nat) (s : State),
    let h := hall.val
    let there := s.parcel p.id = some p
    let stands := fun (spot : Spot) (t : State) => ∃ r, t.parcel p.id = some r ∧ r.spot = spot
    let trunk := decide (p.src < 24) && !p.loc && !s.tdOn p.src
    let v := s.version h (s.epochNow h)
    let here := p.queue = some q ∧ q / 2048 = h ∧ s.usable q = true ∧ s.portConfigured (s.portOf q) = true
    let runs := s.chipRuns = true ∧ s.flightRuns h 3 0 = true ∧ s.hallState h = 0 ∧ s.lockstep h = false
    let j := prof.val * 3 + colour.val
    let grid := unitGet {} (s.hall h).redGrid prof.val
    let queues := s.leafQ.filter (fun e => e.1 / 2048 == h && e.2 != [] && s.fld F.hallQadmProfile h (e.1 % 2048) == prof.val)
    let delay := (queues.map (fun e => unitGet 0 (s.hall h).delayAvg (e.1 % 2048))).foldl max 0
    let others := (s.regs.map (fun e => if e.1.name = .hallQadm ∧ e.1.i = h ∧ e.1.j ≠ leaf.val then fldGet F.hallQadmReserve e.2
      else 0)).sum
    let serves := fun (at_ : Nat) => s.parcels.find? (fun x => x.hall == at_ / 12 && x.spot == .serving && !x.taken &&
      x.queue.any (fun a => s.portOf a == at_)) = some p
    let g := ring.val
    let wr := s.fld F.galWrWr g
    let m := mac.val
    let cnt := fun (t : State) (i : Nat) => t.fld F.ethCntCount m i = (s.fld F.ethCntCount m i + 1) % 2 ^ 48
    (s.hallState h = 0 → s.parcels.find? (fun x => x.hall == h && x.spot == .arrived) = some p → there →
      acceptCheck p.pkt p.poison trunk = none → Does (.landingAccept hall) s (stands .accepted)) ∧
    (∀ w e f, s.chipRuns = true → s.hallRuns h 2 p.pipe = true → s.nextToClassify h = some p → there →
      s.flag F.hallMapCtrlEn h = true → v.fld F.hallEntryValid p.src = 1 →
      v.progs.find? (fun x => x.num == v.fld F.hallEntryProg p.src) = some f → s.changesFor h (s.epochNow h) = [] → p.samples = [] →
      p.moved = false → f.words = [w, e] → wMajor w = 0x38 → wFunc4 w = 1 → wRa w = 0 → wPred w = 0 → wMajor e = 0x38 → wFunc4 e = 15 →
      wPred e = 0 → Does (.mapClassify { hall := hall }) s (stands .asking)) ∧
    (runs → s.nextAsker h src.val = some p → there → here → p.pkt.lossy = false → s.admits q p.pkt.cellCount 0 = true →
      Does (.admissionDecide hall src) s (stands .granted)) ∧
    (runs → s.parcels.filter (fun x => x.spot == .refusedOnce && x.queue.any (fun a => a / 2048 == h)) = [p] → there → here →
      heldBack (s.askers h p.hall) p = false → p.pkt.lossy = false → s.admits q p.pkt.cellCount 0 = true →
      Does (.admissionRetry hall) s (stands .granted)) ∧
    (src.val ≠ h → s.stairOpen src.val h = true → s.nextToCross src.val h = some p → there →
      Does (.stairCross src hall) s (stands .crossing)) ∧
    (s.chipRuns = true → s.hallRuns h 3 0 = true → there → p.queue = some q → q / 2048 = h → s.offer h src.val = some p →
      (s.arbiter h).map (·.1) = some src.val → p.pkt.lossy = false →
      Does (.queueLink hall src) s fun t => stands .linked t ∧ unitGet [] t.leafQ q = unitGet [] s.leafQ q ++ [p.id]) ∧
    (s.parcels.find? (fun x => x.hall == port.val / 12 && x.spot == .serving && x.queue.any (fun a => s.portOf a == port.val) &&
      s.tookLast x) = some p → Does (.packetDepart port) s fun t => t.parcel p.id = none ∧
        (t.hall (port.val / 12)).frameOut = (s.hall (port.val / 12)).frameOut + 1) ∧
    (∀ (unit : Fin 64) w, s.waiting.find? (fun x => x.hall == h && x.src == unit.val) = some w → w.queue = none → s.hallState h = 0 →
      w.pkt.cellCount ≤ s.localRoom h → Does (.localPacketEnter ⟨hall.val, by omega⟩ unit) s fun t => t.waiting = s.waiting.erase w ∧
        t.nextParcel = s.nextParcel + 1) ∧
    (s.flag F.trkCfgEn trk.val = true → s.isTd trk.val = false → (s.trk trk.val).param.isSome = true → Does (.landingCellClaim trk vc) s fun t =>
      (t.claim trk.val vc.val).length = (s.claim trk.val vc.val).length +
        min (s.vcReserve trk.val vc.val - (s.claim trk.val vc.val).length) (s.landingEmpty (trk.val / 6)).length) ∧
    (∀ c rest, s.fwPending h = c :: rest → Does (.fwCellWithhold hall) s fun t => (t.hall h).fwHeld = (s.hall h).fwHeld ++ [c]) ∧
    (s.lockstep h = true → s.chipRuns = true → s.flightRuns h 3 0 = true → s.hallState h = 0 → s.parcels = [p] → p.spot = .asking →
      p.hall = h → here → p.pkt.lossy = false → s.admits q p.pkt.cellCount 0 = true → State.presented p h < s.epochIndex →
      (s.hall h).lsNext < s.epochIndex → (s.hall h).lsFreed = [] → Does (.lockstepEpochDecide hall) s (stands .linked)) ∧
    (Does (.epochHoldRelease hall) s fun t => t.parcels = s.parcels.map (fun x =>
      if x.hall = h ∧ x.spot = .epochHeld ∧ s.olderLive h x.epoch = false then { x with spot := .asking, tbReady := s.readyAt x } else x)) ∧
    (s.heldIn h (fun e => s.due .epochHold h e && s.olderLive h e) ≠ [] → Does (.epochHoldTimeout hall) s fun t =>
      t.fld F.bellSrcPending 8 (120 + h) = 1) ∧
    (others + fldGet F.hallQadmReserve value ≤ 4096 → Does (.qadmWrite hall leaf value) s fun t =>
      t.fld F.hallQadmReserve h leaf.val = fldGet F.hallQadmReserve value) ∧
    (fldGet F.hallRedCMin value ≤ fldGet F.hallRedCMax value → Does (.redProfileWrite hall prof colour value) s fun t =>
      t.fld F.hallRedCMin h j = fldGet F.hallRedCMin value ∧ t.fld F.hallRedCMax h j = fldGet F.hallRedCMax value) ∧
    (s.chipRuns = true → s.flag F.hallRedCtrlAdapt h prof.val = true → grid.on = true → grid.next ≤ s.tb →
      s.fld F.hallRedCtrlTarget h prof.val * 65536 * 11 < delay * 10 → Does (.redAdapt hall prof) s fun t =>
      t.fld F.hallRedLiveMinNow h j = adaptValue false (s.fld F.hallRedLiveMinNow h j) (s.fld F.hallRedCMin h j)) ∧
    (∀ c, serves (12 * h + 11) → p.copy = some c → c.ring = g → s.flag F.galCtrlEn g = true → s.flag F.galStatusStopped g = false →
      (wr + 2 ^ 32 - s.fld F.galRdRd g) % 2 ^ 32 ≠ 2 ^ s.fld F.galCtrlSizeLog2 g →
      Does (.galleryWrite hall) s fun t => t.fld F.galWrWr g = (wr + 1) % 2 ^ 32) ∧
    (s.flag F.galCtrlEn g = false → fldGet F.galCtrlEn value = 1 →
      s.galRingOk (s.fld F.galBaseBase g) (2 ^ fldGet F.galCtrlSizeLog2 value) = true → Does (.galEnable ring value) s fun t =>
      t.fld F.galCtrlEn g = 1 ∧ t.fld F.galWrWr g = 0 ∧ t.fld F.galRdRd g = 0) ∧
    (Does (.galRearm ring) s fun t => t.fld F.galStatusStopped g = 0) ∧
    (∀ k, s.unitQuad 5 m = some k → s.flag F.ethCtrlEn m = true → serves (12 * (k / 3) + 7) → p.pkt.e2eOk = true →
      (s.ethFrame m p.pkt.payload).length ≤ s.fld F.ethCtrlMaxFrame m → Does (.ethFrameTransmit mac) s fun t =>
      t.out = .ethFrame m (s.ethFrame m p.pkt.payload) :: s.out ∧ cnt t 7) ∧
    (∀ k, s.unitQuad 5 m = some k → s.flag F.ethCtrlEn m = true →
      crc32 (frame.take (frame.length - 4)) ≠ leNat (frame.drop (frame.length - 4)) →
      Does (.ethFrameReceive mac { frame := frame, fixed := fixed, lost := lost }) s fun t => cnt t 2)
end

