-- ==== Sys2Proof/Laws/State.lean ====
section
/-! SUPPORT. One lemma per field per update of State: an update of one field leaves every other as it was. -/

namespace Sys2Proof.Machine

/-! `State.setReg` changes `regs` alone. -/

@[simp] theorem State.setReg_halves (s : State) (n : RegName) (i j : Nat) (v : BitVec 64) : (s.setReg n i j v).halves = s.halves := rfl
@[simp] theorem State.setReg_mem (s : State) (n : RegName) (i j : Nat) (v : BitVec 64) : (s.setReg n i j v).mem = s.mem := rfl
@[simp] theorem State.setReg_poisoned (s : State) (n : RegName) (i j : Nat) (v : BitVec 64) : (s.setReg n i j v).poisoned = s.poisoned := rfl
@[simp] theorem State.setReg_timers (s : State) (n : RegName) (i j : Nat) (v : BitVec 64) : (s.setReg n i j v).timers = s.timers := rfl
@[simp] theorem State.setReg_tb (s : State) (n : RegName) (i j : Nat) (v : BitVec 64) : (s.setReg n i j v).tb = s.tb := rfl
@[simp] theorem State.setReg_threads (s : State) (n : RegName) (i j : Nat) (v : BitVec 64) : (s.setReg n i j v).threads = s.threads := rfl
@[simp] theorem State.setReg_cores (s : State) (n : RegName) (i j : Nat) (v : BitVec 64) : (s.setReg n i j v).cores = s.cores := rfl
@[simp] theorem State.setReg_turns (s : State) (n : RegName) (i j : Nat) (v : BitVec 64) : (s.setReg n i j v).turns = s.turns := rfl
@[simp] theorem State.setReg_bellStacks (s : State) (n : RegName) (i j : Nat) (v : BitVec 64) : (s.setReg n i j v).bellStacks = s.bellStacks := rfl
@[simp] theorem State.setReg_bellFirst (s : State) (n : RegName) (i j : Nat) (v : BitVec 64) : (s.setReg n i j v).bellFirst = s.bellFirst := rfl
@[simp] theorem State.setReg_jtagDebug (s : State) (n : RegName) (i j : Nat) (v : BitVec 64) : (s.setReg n i j v).jtagDebug = s.jtagDebug := rfl
@[simp] theorem State.setReg_lanes (s : State) (n : RegName) (i j : Nat) (v : BitVec 64) : (s.setReg n i j v).lanes = s.lanes := rfl
@[simp] theorem State.setReg_quads (s : State) (n : RegName) (i j : Nat) (v : BitVec 64) : (s.setReg n i j v).quads = s.quads := rfl
@[simp] theorem State.setReg_trunks (s : State) (n : RegName) (i j : Nat) (v : BitVec 64) : (s.setReg n i j v).trunks = s.trunks := rfl
@[simp] theorem State.setReg_parcels (s : State) (n : RegName) (i j : Nat) (v : BitVec 64) : (s.setReg n i j v).parcels = s.parcels := rfl
@[simp] theorem State.setReg_waiting (s : State) (n : RegName) (i j : Nat) (v : BitVec 64) : (s.setReg n i j v).waiting = s.waiting := rfl
@[simp] theorem State.setReg_nextParcel (s : State) (n : RegName) (i j : Nat) (v : BitVec 64) : (s.setReg n i j v).nextParcel = s.nextParcel := rfl
@[simp] theorem State.setReg_claims (s : State) (n : RegName) (i j : Nat) (v : BitVec 64) : (s.setReg n i j v).claims = s.claims := rfl
@[simp] theorem State.setReg_leafQ (s : State) (n : RegName) (i j : Nat) (v : BitVec 64) : (s.setReg n i j v).leafQ = s.leafQ := rfl
@[simp] theorem State.setReg_halls (s : State) (n : RegName) (i j : Nat) (v : BitVec 64) : (s.setReg n i j v).halls = s.halls := rfl
@[simp] theorem State.setReg_galLossy (s : State) (n : RegName) (i j : Nat) (v : BitVec 64) : (s.setReg n i j v).galLossy = s.galLossy := rfl
@[simp] theorem State.setReg_galCount (s : State) (n : RegName) (i j : Nat) (v : BitVec 64) : (s.setReg n i j v).galCount = s.galCount := rfl
@[simp] theorem State.setReg_versions (s : State) (n : RegName) (i j : Nat) (v : BitVec 64) : (s.setReg n i j v).versions = s.versions := rfl
@[simp] theorem State.setReg_meters (s : State) (n : RegName) (i j : Nat) (v : BitVec 64) : (s.setReg n i j v).meters = s.meters := rfl
@[simp] theorem State.setReg_nodes (s : State) (n : RegName) (i j : Nat) (v : BitVec 64) : (s.setReg n i j v).nodes = s.nodes := rfl
@[simp] theorem State.setReg_ports (s : State) (n : RegName) (i j : Nat) (v : BitVec 64) : (s.setReg n i j v).ports = s.ports := rfl
@[simp] theorem State.setReg_hosts (s : State) (n : RegName) (i j : Nat) (v : BitVec 64) : (s.setReg n i j v).hosts = s.hosts := rfl
@[simp] theorem State.setReg_prts (s : State) (n : RegName) (i j : Nat) (v : BitVec 64) : (s.setReg n i j v).prts = s.prts := rfl
@[simp] theorem State.setReg_mailboxes (s : State) (n : RegName) (i j : Nat) (v : BitVec 64) : (s.setReg n i j v).mailboxes = s.mailboxes := rfl
@[simp] theorem State.setReg_alcoves (s : State) (n : RegName) (i j : Nat) (v : BitVec 64) : (s.setReg n i j v).alcoves = s.alcoves := rfl
@[simp] theorem State.setReg_bridge (s : State) (n : RegName) (i j : Nat) (v : BitVec 64) : (s.setReg n i j v).bridge = s.bridge := rfl
@[simp] theorem State.setReg_reqs (s : State) (n : RegName) (i j : Nat) (v : BitVec 64) : (s.setReg n i j v).reqs = s.reqs := rfl
@[simp] theorem State.setReg_nextReq (s : State) (n : RegName) (i j : Nat) (v : BitVec 64) : (s.setReg n i j v).nextReq = s.nextReq := rfl
@[simp] theorem State.setReg_heads (s : State) (n : RegName) (i j : Nat) (v : BitVec 64) : (s.setReg n i j v).heads = s.heads := rfl
@[simp] theorem State.setReg_canvas (s : State) (n : RegName) (i j : Nat) (v : BitVec 64) : (s.setReg n i j v).canvas = s.canvas := rfl
@[simp] theorem State.setReg_tds (s : State) (n : RegName) (i j : Nat) (v : BitVec 64) : (s.setReg n i j v).tds = s.tds := rfl
@[simp] theorem State.setReg_beacons (s : State) (n : RegName) (i j : Nat) (v : BitVec 64) : (s.setReg n i j v).beacons = s.beacons := rfl
@[simp] theorem State.setReg_usb (s : State) (n : RegName) (i j : Nat) (v : BitVec 64) : (s.setReg n i j v).usb = s.usb := rfl
@[simp] theorem State.setReg_power (s : State) (n : RegName) (i j : Nat) (v : BitVec 64) : (s.setReg n i j v).power = s.power := rfl
@[simp] theorem State.setReg_warden (s : State) (n : RegName) (i j : Nat) (v : BitVec 64) : (s.setReg n i j v).warden = s.warden := rfl
@[simp] theorem State.setReg_chip (s : State) (n : RegName) (i j : Nat) (v : BitVec 64) : (s.setReg n i j v).chip = s.chip := rfl
@[simp] theorem State.setReg_bellSince (s : State) (n : RegName) (i j : Nat) (v : BitVec 64) : (s.setReg n i j v).bellSince = s.bellSince := rfl
@[simp] theorem State.setReg_aer (s : State) (n : RegName) (i j : Nat) (v : BitVec 64) : (s.setReg n i j v).aer = s.aer := rfl
@[simp] theorem State.setReg_out (s : State) (n : RegName) (i j : Nat) (v : BitVec 64) : (s.setReg n i j v).out = s.out := rfl
@[simp] theorem State.setReg_reply (s : State) (n : RegName) (i j : Nat) (v : BitVec 64) : (s.setReg n i j v).reply = s.reply := rfl
@[simp] theorem State.setReg_free (s : State) (n : RegName) (i j : Nat) (v : BitVec 64) : (s.setReg n i j v).free = s.free := rfl
@[simp] theorem State.setReg_pending (s : State) (n : RegName) (i j : Nat) (v : BitVec 64) : (s.setReg n i j v).pending = s.pending := rfl

/-! `State.setFld` changes `regs` alone. -/

@[simp] theorem State.setFld_halves (s : State) (f : Fld) (i j v : Nat) : (s.setFld f i j v).halves = s.halves := rfl
@[simp] theorem State.setFld_mem (s : State) (f : Fld) (i j v : Nat) : (s.setFld f i j v).mem = s.mem := rfl
@[simp] theorem State.setFld_poisoned (s : State) (f : Fld) (i j v : Nat) : (s.setFld f i j v).poisoned = s.poisoned := rfl
@[simp] theorem State.setFld_timers (s : State) (f : Fld) (i j v : Nat) : (s.setFld f i j v).timers = s.timers := rfl
@[simp] theorem State.setFld_tb (s : State) (f : Fld) (i j v : Nat) : (s.setFld f i j v).tb = s.tb := rfl
@[simp] theorem State.setFld_threads (s : State) (f : Fld) (i j v : Nat) : (s.setFld f i j v).threads = s.threads := rfl
@[simp] theorem State.setFld_cores (s : State) (f : Fld) (i j v : Nat) : (s.setFld f i j v).cores = s.cores := rfl
@[simp] theorem State.setFld_turns (s : State) (f : Fld) (i j v : Nat) : (s.setFld f i j v).turns = s.turns := rfl
@[simp] theorem State.setFld_bellStacks (s : State) (f : Fld) (i j v : Nat) : (s.setFld f i j v).bellStacks = s.bellStacks := rfl
@[simp] theorem State.setFld_bellFirst (s : State) (f : Fld) (i j v : Nat) : (s.setFld f i j v).bellFirst = s.bellFirst := rfl
@[simp] theorem State.setFld_jtagDebug (s : State) (f : Fld) (i j v : Nat) : (s.setFld f i j v).jtagDebug = s.jtagDebug := rfl
@[simp] theorem State.setFld_lanes (s : State) (f : Fld) (i j v : Nat) : (s.setFld f i j v).lanes = s.lanes := rfl
@[simp] theorem State.setFld_quads (s : State) (f : Fld) (i j v : Nat) : (s.setFld f i j v).quads = s.quads := rfl
@[simp] theorem State.setFld_trunks (s : State) (f : Fld) (i j v : Nat) : (s.setFld f i j v).trunks = s.trunks := rfl
@[simp] theorem State.setFld_parcels (s : State) (f : Fld) (i j v : Nat) : (s.setFld f i j v).parcels = s.parcels := rfl
@[simp] theorem State.setFld_waiting (s : State) (f : Fld) (i j v : Nat) : (s.setFld f i j v).waiting = s.waiting := rfl
@[simp] theorem State.setFld_nextParcel (s : State) (f : Fld) (i j v : Nat) : (s.setFld f i j v).nextParcel = s.nextParcel := rfl
@[simp] theorem State.setFld_claims (s : State) (f : Fld) (i j v : Nat) : (s.setFld f i j v).claims = s.claims := rfl
@[simp] theorem State.setFld_leafQ (s : State) (f : Fld) (i j v : Nat) : (s.setFld f i j v).leafQ = s.leafQ := rfl
@[simp] theorem State.setFld_halls (s : State) (f : Fld) (i j v : Nat) : (s.setFld f i j v).halls = s.halls := rfl
@[simp] theorem State.setFld_galLossy (s : State) (f : Fld) (i j v : Nat) : (s.setFld f i j v).galLossy = s.galLossy := rfl
@[simp] theorem State.setFld_galCount (s : State) (f : Fld) (i j v : Nat) : (s.setFld f i j v).galCount = s.galCount := rfl
@[simp] theorem State.setFld_versions (s : State) (f : Fld) (i j v : Nat) : (s.setFld f i j v).versions = s.versions := rfl
@[simp] theorem State.setFld_meters (s : State) (f : Fld) (i j v : Nat) : (s.setFld f i j v).meters = s.meters := rfl
@[simp] theorem State.setFld_nodes (s : State) (f : Fld) (i j v : Nat) : (s.setFld f i j v).nodes = s.nodes := rfl
@[simp] theorem State.setFld_ports (s : State) (f : Fld) (i j v : Nat) : (s.setFld f i j v).ports = s.ports := rfl
@[simp] theorem State.setFld_hosts (s : State) (f : Fld) (i j v : Nat) : (s.setFld f i j v).hosts = s.hosts := rfl
@[simp] theorem State.setFld_prts (s : State) (f : Fld) (i j v : Nat) : (s.setFld f i j v).prts = s.prts := rfl
@[simp] theorem State.setFld_mailboxes (s : State) (f : Fld) (i j v : Nat) : (s.setFld f i j v).mailboxes = s.mailboxes := rfl
@[simp] theorem State.setFld_alcoves (s : State) (f : Fld) (i j v : Nat) : (s.setFld f i j v).alcoves = s.alcoves := rfl
@[simp] theorem State.setFld_bridge (s : State) (f : Fld) (i j v : Nat) : (s.setFld f i j v).bridge = s.bridge := rfl
@[simp] theorem State.setFld_reqs (s : State) (f : Fld) (i j v : Nat) : (s.setFld f i j v).reqs = s.reqs := rfl
@[simp] theorem State.setFld_nextReq (s : State) (f : Fld) (i j v : Nat) : (s.setFld f i j v).nextReq = s.nextReq := rfl
@[simp] theorem State.setFld_heads (s : State) (f : Fld) (i j v : Nat) : (s.setFld f i j v).heads = s.heads := rfl
@[simp] theorem State.setFld_canvas (s : State) (f : Fld) (i j v : Nat) : (s.setFld f i j v).canvas = s.canvas := rfl
@[simp] theorem State.setFld_tds (s : State) (f : Fld) (i j v : Nat) : (s.setFld f i j v).tds = s.tds := rfl
@[simp] theorem State.setFld_beacons (s : State) (f : Fld) (i j v : Nat) : (s.setFld f i j v).beacons = s.beacons := rfl
@[simp] theorem State.setFld_usb (s : State) (f : Fld) (i j v : Nat) : (s.setFld f i j v).usb = s.usb := rfl
@[simp] theorem State.setFld_power (s : State) (f : Fld) (i j v : Nat) : (s.setFld f i j v).power = s.power := rfl
@[simp] theorem State.setFld_warden (s : State) (f : Fld) (i j v : Nat) : (s.setFld f i j v).warden = s.warden := rfl
@[simp] theorem State.setFld_chip (s : State) (f : Fld) (i j v : Nat) : (s.setFld f i j v).chip = s.chip := rfl
@[simp] theorem State.setFld_bellSince (s : State) (f : Fld) (i j v : Nat) : (s.setFld f i j v).bellSince = s.bellSince := rfl
@[simp] theorem State.setFld_aer (s : State) (f : Fld) (i j v : Nat) : (s.setFld f i j v).aer = s.aer := rfl
@[simp] theorem State.setFld_out (s : State) (f : Fld) (i j v : Nat) : (s.setFld f i j v).out = s.out := rfl
@[simp] theorem State.setFld_reply (s : State) (f : Fld) (i j v : Nat) : (s.setFld f i j v).reply = s.reply := rfl
@[simp] theorem State.setFld_free (s : State) (f : Fld) (i j v : Nat) : (s.setFld f i j v).free = s.free := rfl
@[simp] theorem State.setFld_pending (s : State) (f : Fld) (i j v : Nat) : (s.setFld f i j v).pending = s.pending := rfl

/-! `State.addSat` changes `regs` alone. -/

@[simp] theorem State.addSat_halves (s : State) (f : Fld) (i j n top : Nat) : (s.addSat f i j n top).halves = s.halves := rfl
@[simp] theorem State.addSat_mem (s : State) (f : Fld) (i j n top : Nat) : (s.addSat f i j n top).mem = s.mem := rfl
@[simp] theorem State.addSat_poisoned (s : State) (f : Fld) (i j n top : Nat) : (s.addSat f i j n top).poisoned = s.poisoned := rfl
@[simp] theorem State.addSat_timers (s : State) (f : Fld) (i j n top : Nat) : (s.addSat f i j n top).timers = s.timers := rfl
@[simp] theorem State.addSat_tb (s : State) (f : Fld) (i j n top : Nat) : (s.addSat f i j n top).tb = s.tb := rfl
@[simp] theorem State.addSat_threads (s : State) (f : Fld) (i j n top : Nat) : (s.addSat f i j n top).threads = s.threads := rfl
@[simp] theorem State.addSat_cores (s : State) (f : Fld) (i j n top : Nat) : (s.addSat f i j n top).cores = s.cores := rfl
@[simp] theorem State.addSat_turns (s : State) (f : Fld) (i j n top : Nat) : (s.addSat f i j n top).turns = s.turns := rfl
@[simp] theorem State.addSat_bellStacks (s : State) (f : Fld) (i j n top : Nat) : (s.addSat f i j n top).bellStacks = s.bellStacks := rfl
@[simp] theorem State.addSat_bellFirst (s : State) (f : Fld) (i j n top : Nat) : (s.addSat f i j n top).bellFirst = s.bellFirst := rfl
@[simp] theorem State.addSat_jtagDebug (s : State) (f : Fld) (i j n top : Nat) : (s.addSat f i j n top).jtagDebug = s.jtagDebug := rfl
@[simp] theorem State.addSat_lanes (s : State) (f : Fld) (i j n top : Nat) : (s.addSat f i j n top).lanes = s.lanes := rfl
@[simp] theorem State.addSat_quads (s : State) (f : Fld) (i j n top : Nat) : (s.addSat f i j n top).quads = s.quads := rfl
@[simp] theorem State.addSat_trunks (s : State) (f : Fld) (i j n top : Nat) : (s.addSat f i j n top).trunks = s.trunks := rfl
@[simp] theorem State.addSat_parcels (s : State) (f : Fld) (i j n top : Nat) : (s.addSat f i j n top).parcels = s.parcels := rfl
@[simp] theorem State.addSat_waiting (s : State) (f : Fld) (i j n top : Nat) : (s.addSat f i j n top).waiting = s.waiting := rfl
@[simp] theorem State.addSat_nextParcel (s : State) (f : Fld) (i j n top : Nat) : (s.addSat f i j n top).nextParcel = s.nextParcel := rfl
@[simp] theorem State.addSat_claims (s : State) (f : Fld) (i j n top : Nat) : (s.addSat f i j n top).claims = s.claims := rfl
@[simp] theorem State.addSat_leafQ (s : State) (f : Fld) (i j n top : Nat) : (s.addSat f i j n top).leafQ = s.leafQ := rfl
@[simp] theorem State.addSat_halls (s : State) (f : Fld) (i j n top : Nat) : (s.addSat f i j n top).halls = s.halls := rfl
@[simp] theorem State.addSat_galLossy (s : State) (f : Fld) (i j n top : Nat) : (s.addSat f i j n top).galLossy = s.galLossy := rfl
@[simp] theorem State.addSat_galCount (s : State) (f : Fld) (i j n top : Nat) : (s.addSat f i j n top).galCount = s.galCount := rfl
@[simp] theorem State.addSat_versions (s : State) (f : Fld) (i j n top : Nat) : (s.addSat f i j n top).versions = s.versions := rfl
@[simp] theorem State.addSat_meters (s : State) (f : Fld) (i j n top : Nat) : (s.addSat f i j n top).meters = s.meters := rfl
@[simp] theorem State.addSat_nodes (s : State) (f : Fld) (i j n top : Nat) : (s.addSat f i j n top).nodes = s.nodes := rfl
@[simp] theorem State.addSat_ports (s : State) (f : Fld) (i j n top : Nat) : (s.addSat f i j n top).ports = s.ports := rfl
@[simp] theorem State.addSat_hosts (s : State) (f : Fld) (i j n top : Nat) : (s.addSat f i j n top).hosts = s.hosts := rfl
@[simp] theorem State.addSat_prts (s : State) (f : Fld) (i j n top : Nat) : (s.addSat f i j n top).prts = s.prts := rfl
@[simp] theorem State.addSat_mailboxes (s : State) (f : Fld) (i j n top : Nat) : (s.addSat f i j n top).mailboxes = s.mailboxes := rfl
@[simp] theorem State.addSat_alcoves (s : State) (f : Fld) (i j n top : Nat) : (s.addSat f i j n top).alcoves = s.alcoves := rfl
@[simp] theorem State.addSat_bridge (s : State) (f : Fld) (i j n top : Nat) : (s.addSat f i j n top).bridge = s.bridge := rfl
@[simp] theorem State.addSat_reqs (s : State) (f : Fld) (i j n top : Nat) : (s.addSat f i j n top).reqs = s.reqs := rfl
@[simp] theorem State.addSat_nextReq (s : State) (f : Fld) (i j n top : Nat) : (s.addSat f i j n top).nextReq = s.nextReq := rfl
@[simp] theorem State.addSat_heads (s : State) (f : Fld) (i j n top : Nat) : (s.addSat f i j n top).heads = s.heads := rfl
@[simp] theorem State.addSat_canvas (s : State) (f : Fld) (i j n top : Nat) : (s.addSat f i j n top).canvas = s.canvas := rfl
@[simp] theorem State.addSat_tds (s : State) (f : Fld) (i j n top : Nat) : (s.addSat f i j n top).tds = s.tds := rfl
@[simp] theorem State.addSat_beacons (s : State) (f : Fld) (i j n top : Nat) : (s.addSat f i j n top).beacons = s.beacons := rfl
@[simp] theorem State.addSat_usb (s : State) (f : Fld) (i j n top : Nat) : (s.addSat f i j n top).usb = s.usb := rfl
@[simp] theorem State.addSat_power (s : State) (f : Fld) (i j n top : Nat) : (s.addSat f i j n top).power = s.power := rfl
@[simp] theorem State.addSat_warden (s : State) (f : Fld) (i j n top : Nat) : (s.addSat f i j n top).warden = s.warden := rfl
@[simp] theorem State.addSat_chip (s : State) (f : Fld) (i j n top : Nat) : (s.addSat f i j n top).chip = s.chip := rfl
@[simp] theorem State.addSat_bellSince (s : State) (f : Fld) (i j n top : Nat) : (s.addSat f i j n top).bellSince = s.bellSince := rfl
@[simp] theorem State.addSat_aer (s : State) (f : Fld) (i j n top : Nat) : (s.addSat f i j n top).aer = s.aer := rfl
@[simp] theorem State.addSat_out (s : State) (f : Fld) (i j n top : Nat) : (s.addSat f i j n top).out = s.out := rfl
@[simp] theorem State.addSat_reply (s : State) (f : Fld) (i j n top : Nat) : (s.addSat f i j n top).reply = s.reply := rfl
@[simp] theorem State.addSat_free (s : State) (f : Fld) (i j n top : Nat) : (s.addSat f i j n top).free = s.free := rfl
@[simp] theorem State.addSat_pending (s : State) (f : Fld) (i j n top : Nat) : (s.addSat f i j n top).pending = s.pending := rfl

/-! `State.addFld` changes `regs` alone. -/

@[simp] theorem State.addFld_halves (s : State) (f : Fld) (i j n : Nat) : (s.addFld f i j n).halves = s.halves := rfl
@[simp] theorem State.addFld_mem (s : State) (f : Fld) (i j n : Nat) : (s.addFld f i j n).mem = s.mem := rfl
@[simp] theorem State.addFld_poisoned (s : State) (f : Fld) (i j n : Nat) : (s.addFld f i j n).poisoned = s.poisoned := rfl
@[simp] theorem State.addFld_timers (s : State) (f : Fld) (i j n : Nat) : (s.addFld f i j n).timers = s.timers := rfl
@[simp] theorem State.addFld_tb (s : State) (f : Fld) (i j n : Nat) : (s.addFld f i j n).tb = s.tb := rfl
@[simp] theorem State.addFld_threads (s : State) (f : Fld) (i j n : Nat) : (s.addFld f i j n).threads = s.threads := rfl
@[simp] theorem State.addFld_cores (s : State) (f : Fld) (i j n : Nat) : (s.addFld f i j n).cores = s.cores := rfl
@[simp] theorem State.addFld_turns (s : State) (f : Fld) (i j n : Nat) : (s.addFld f i j n).turns = s.turns := rfl
@[simp] theorem State.addFld_bellStacks (s : State) (f : Fld) (i j n : Nat) : (s.addFld f i j n).bellStacks = s.bellStacks := rfl
@[simp] theorem State.addFld_bellFirst (s : State) (f : Fld) (i j n : Nat) : (s.addFld f i j n).bellFirst = s.bellFirst := rfl
@[simp] theorem State.addFld_jtagDebug (s : State) (f : Fld) (i j n : Nat) : (s.addFld f i j n).jtagDebug = s.jtagDebug := rfl
@[simp] theorem State.addFld_lanes (s : State) (f : Fld) (i j n : Nat) : (s.addFld f i j n).lanes = s.lanes := rfl
@[simp] theorem State.addFld_quads (s : State) (f : Fld) (i j n : Nat) : (s.addFld f i j n).quads = s.quads := rfl
@[simp] theorem State.addFld_trunks (s : State) (f : Fld) (i j n : Nat) : (s.addFld f i j n).trunks = s.trunks := rfl
@[simp] theorem State.addFld_parcels (s : State) (f : Fld) (i j n : Nat) : (s.addFld f i j n).parcels = s.parcels := rfl
@[simp] theorem State.addFld_waiting (s : State) (f : Fld) (i j n : Nat) : (s.addFld f i j n).waiting = s.waiting := rfl
@[simp] theorem State.addFld_nextParcel (s : State) (f : Fld) (i j n : Nat) : (s.addFld f i j n).nextParcel = s.nextParcel := rfl
@[simp] theorem State.addFld_claims (s : State) (f : Fld) (i j n : Nat) : (s.addFld f i j n).claims = s.claims := rfl
@[simp] theorem State.addFld_leafQ (s : State) (f : Fld) (i j n : Nat) : (s.addFld f i j n).leafQ = s.leafQ := rfl
@[simp] theorem State.addFld_halls (s : State) (f : Fld) (i j n : Nat) : (s.addFld f i j n).halls = s.halls := rfl
@[simp] theorem State.addFld_galLossy (s : State) (f : Fld) (i j n : Nat) : (s.addFld f i j n).galLossy = s.galLossy := rfl
@[simp] theorem State.addFld_galCount (s : State) (f : Fld) (i j n : Nat) : (s.addFld f i j n).galCount = s.galCount := rfl
@[simp] theorem State.addFld_versions (s : State) (f : Fld) (i j n : Nat) : (s.addFld f i j n).versions = s.versions := rfl
@[simp] theorem State.addFld_meters (s : State) (f : Fld) (i j n : Nat) : (s.addFld f i j n).meters = s.meters := rfl
@[simp] theorem State.addFld_nodes (s : State) (f : Fld) (i j n : Nat) : (s.addFld f i j n).nodes = s.nodes := rfl
@[simp] theorem State.addFld_ports (s : State) (f : Fld) (i j n : Nat) : (s.addFld f i j n).ports = s.ports := rfl
@[simp] theorem State.addFld_hosts (s : State) (f : Fld) (i j n : Nat) : (s.addFld f i j n).hosts = s.hosts := rfl
@[simp] theorem State.addFld_prts (s : State) (f : Fld) (i j n : Nat) : (s.addFld f i j n).prts = s.prts := rfl
@[simp] theorem State.addFld_mailboxes (s : State) (f : Fld) (i j n : Nat) : (s.addFld f i j n).mailboxes = s.mailboxes := rfl
@[simp] theorem State.addFld_alcoves (s : State) (f : Fld) (i j n : Nat) : (s.addFld f i j n).alcoves = s.alcoves := rfl
@[simp] theorem State.addFld_bridge (s : State) (f : Fld) (i j n : Nat) : (s.addFld f i j n).bridge = s.bridge := rfl
@[simp] theorem State.addFld_reqs (s : State) (f : Fld) (i j n : Nat) : (s.addFld f i j n).reqs = s.reqs := rfl
@[simp] theorem State.addFld_nextReq (s : State) (f : Fld) (i j n : Nat) : (s.addFld f i j n).nextReq = s.nextReq := rfl
@[simp] theorem State.addFld_heads (s : State) (f : Fld) (i j n : Nat) : (s.addFld f i j n).heads = s.heads := rfl
@[simp] theorem State.addFld_canvas (s : State) (f : Fld) (i j n : Nat) : (s.addFld f i j n).canvas = s.canvas := rfl
@[simp] theorem State.addFld_tds (s : State) (f : Fld) (i j n : Nat) : (s.addFld f i j n).tds = s.tds := rfl
@[simp] theorem State.addFld_beacons (s : State) (f : Fld) (i j n : Nat) : (s.addFld f i j n).beacons = s.beacons := rfl
@[simp] theorem State.addFld_usb (s : State) (f : Fld) (i j n : Nat) : (s.addFld f i j n).usb = s.usb := rfl
@[simp] theorem State.addFld_power (s : State) (f : Fld) (i j n : Nat) : (s.addFld f i j n).power = s.power := rfl
@[simp] theorem State.addFld_warden (s : State) (f : Fld) (i j n : Nat) : (s.addFld f i j n).warden = s.warden := rfl
@[simp] theorem State.addFld_chip (s : State) (f : Fld) (i j n : Nat) : (s.addFld f i j n).chip = s.chip := rfl
@[simp] theorem State.addFld_bellSince (s : State) (f : Fld) (i j n : Nat) : (s.addFld f i j n).bellSince = s.bellSince := rfl
@[simp] theorem State.addFld_aer (s : State) (f : Fld) (i j n : Nat) : (s.addFld f i j n).aer = s.aer := rfl
@[simp] theorem State.addFld_out (s : State) (f : Fld) (i j n : Nat) : (s.addFld f i j n).out = s.out := rfl
@[simp] theorem State.addFld_reply (s : State) (f : Fld) (i j n : Nat) : (s.addFld f i j n).reply = s.reply := rfl
@[simp] theorem State.addFld_free (s : State) (f : Fld) (i j n : Nat) : (s.addFld f i j n).free = s.free := rfl
@[simp] theorem State.addFld_pending (s : State) (f : Fld) (i j n : Nat) : (s.addFld f i j n).pending = s.pending := rfl

/-! `State.storeReg` changes `regs` alone. -/

@[simp] theorem State.storeReg_halves (s : State) (n : RegName) (i j : Nat) (v mask : BitVec 64) : (s.storeReg n i j v mask).halves = s.halves := rfl
@[simp] theorem State.storeReg_mem (s : State) (n : RegName) (i j : Nat) (v mask : BitVec 64) : (s.storeReg n i j v mask).mem = s.mem := rfl
@[simp] theorem State.storeReg_poisoned (s : State) (n : RegName) (i j : Nat) (v mask : BitVec 64) : (s.storeReg n i j v mask).poisoned = s.poisoned := rfl
@[simp] theorem State.storeReg_timers (s : State) (n : RegName) (i j : Nat) (v mask : BitVec 64) : (s.storeReg n i j v mask).timers = s.timers := rfl
@[simp] theorem State.storeReg_tb (s : State) (n : RegName) (i j : Nat) (v mask : BitVec 64) : (s.storeReg n i j v mask).tb = s.tb := rfl
@[simp] theorem State.storeReg_threads (s : State) (n : RegName) (i j : Nat) (v mask : BitVec 64) : (s.storeReg n i j v mask).threads = s.threads := rfl
@[simp] theorem State.storeReg_cores (s : State) (n : RegName) (i j : Nat) (v mask : BitVec 64) : (s.storeReg n i j v mask).cores = s.cores := rfl
@[simp] theorem State.storeReg_turns (s : State) (n : RegName) (i j : Nat) (v mask : BitVec 64) : (s.storeReg n i j v mask).turns = s.turns := rfl
@[simp] theorem State.storeReg_bellStacks (s : State) (n : RegName) (i j : Nat) (v mask : BitVec 64) : (s.storeReg n i j v mask).bellStacks = s.bellStacks := rfl
@[simp] theorem State.storeReg_bellFirst (s : State) (n : RegName) (i j : Nat) (v mask : BitVec 64) : (s.storeReg n i j v mask).bellFirst = s.bellFirst := rfl
@[simp] theorem State.storeReg_jtagDebug (s : State) (n : RegName) (i j : Nat) (v mask : BitVec 64) : (s.storeReg n i j v mask).jtagDebug = s.jtagDebug := rfl
@[simp] theorem State.storeReg_lanes (s : State) (n : RegName) (i j : Nat) (v mask : BitVec 64) : (s.storeReg n i j v mask).lanes = s.lanes := rfl
@[simp] theorem State.storeReg_quads (s : State) (n : RegName) (i j : Nat) (v mask : BitVec 64) : (s.storeReg n i j v mask).quads = s.quads := rfl
@[simp] theorem State.storeReg_trunks (s : State) (n : RegName) (i j : Nat) (v mask : BitVec 64) : (s.storeReg n i j v mask).trunks = s.trunks := rfl
@[simp] theorem State.storeReg_parcels (s : State) (n : RegName) (i j : Nat) (v mask : BitVec 64) : (s.storeReg n i j v mask).parcels = s.parcels := rfl
@[simp] theorem State.storeReg_waiting (s : State) (n : RegName) (i j : Nat) (v mask : BitVec 64) : (s.storeReg n i j v mask).waiting = s.waiting := rfl
@[simp] theorem State.storeReg_nextParcel (s : State) (n : RegName) (i j : Nat) (v mask : BitVec 64) : (s.storeReg n i j v mask).nextParcel = s.nextParcel := rfl
@[simp] theorem State.storeReg_claims (s : State) (n : RegName) (i j : Nat) (v mask : BitVec 64) : (s.storeReg n i j v mask).claims = s.claims := rfl
@[simp] theorem State.storeReg_leafQ (s : State) (n : RegName) (i j : Nat) (v mask : BitVec 64) : (s.storeReg n i j v mask).leafQ = s.leafQ := rfl
@[simp] theorem State.storeReg_halls (s : State) (n : RegName) (i j : Nat) (v mask : BitVec 64) : (s.storeReg n i j v mask).halls = s.halls := rfl
@[simp] theorem State.storeReg_galLossy (s : State) (n : RegName) (i j : Nat) (v mask : BitVec 64) : (s.storeReg n i j v mask).galLossy = s.galLossy := rfl
@[simp] theorem State.storeReg_galCount (s : State) (n : RegName) (i j : Nat) (v mask : BitVec 64) : (s.storeReg n i j v mask).galCount = s.galCount := rfl
@[simp] theorem State.storeReg_versions (s : State) (n : RegName) (i j : Nat) (v mask : BitVec 64) : (s.storeReg n i j v mask).versions = s.versions := rfl
@[simp] theorem State.storeReg_meters (s : State) (n : RegName) (i j : Nat) (v mask : BitVec 64) : (s.storeReg n i j v mask).meters = s.meters := rfl
@[simp] theorem State.storeReg_nodes (s : State) (n : RegName) (i j : Nat) (v mask : BitVec 64) : (s.storeReg n i j v mask).nodes = s.nodes := rfl
@[simp] theorem State.storeReg_ports (s : State) (n : RegName) (i j : Nat) (v mask : BitVec 64) : (s.storeReg n i j v mask).ports = s.ports := rfl
@[simp] theorem State.storeReg_hosts (s : State) (n : RegName) (i j : Nat) (v mask : BitVec 64) : (s.storeReg n i j v mask).hosts = s.hosts := rfl
@[simp] theorem State.storeReg_prts (s : State) (n : RegName) (i j : Nat) (v mask : BitVec 64) : (s.storeReg n i j v mask).prts = s.prts := rfl
@[simp] theorem State.storeReg_mailboxes (s : State) (n : RegName) (i j : Nat) (v mask : BitVec 64) : (s.storeReg n i j v mask).mailboxes = s.mailboxes := rfl
@[simp] theorem State.storeReg_alcoves (s : State) (n : RegName) (i j : Nat) (v mask : BitVec 64) : (s.storeReg n i j v mask).alcoves = s.alcoves := rfl
@[simp] theorem State.storeReg_bridge (s : State) (n : RegName) (i j : Nat) (v mask : BitVec 64) : (s.storeReg n i j v mask).bridge = s.bridge := rfl
@[simp] theorem State.storeReg_reqs (s : State) (n : RegName) (i j : Nat) (v mask : BitVec 64) : (s.storeReg n i j v mask).reqs = s.reqs := rfl
@[simp] theorem State.storeReg_nextReq (s : State) (n : RegName) (i j : Nat) (v mask : BitVec 64) : (s.storeReg n i j v mask).nextReq = s.nextReq := rfl
@[simp] theorem State.storeReg_heads (s : State) (n : RegName) (i j : Nat) (v mask : BitVec 64) : (s.storeReg n i j v mask).heads = s.heads := rfl
@[simp] theorem State.storeReg_canvas (s : State) (n : RegName) (i j : Nat) (v mask : BitVec 64) : (s.storeReg n i j v mask).canvas = s.canvas := rfl
@[simp] theorem State.storeReg_tds (s : State) (n : RegName) (i j : Nat) (v mask : BitVec 64) : (s.storeReg n i j v mask).tds = s.tds := rfl
@[simp] theorem State.storeReg_beacons (s : State) (n : RegName) (i j : Nat) (v mask : BitVec 64) : (s.storeReg n i j v mask).beacons = s.beacons := rfl
@[simp] theorem State.storeReg_usb (s : State) (n : RegName) (i j : Nat) (v mask : BitVec 64) : (s.storeReg n i j v mask).usb = s.usb := rfl
@[simp] theorem State.storeReg_power (s : State) (n : RegName) (i j : Nat) (v mask : BitVec 64) : (s.storeReg n i j v mask).power = s.power := rfl
@[simp] theorem State.storeReg_warden (s : State) (n : RegName) (i j : Nat) (v mask : BitVec 64) : (s.storeReg n i j v mask).warden = s.warden := rfl
@[simp] theorem State.storeReg_chip (s : State) (n : RegName) (i j : Nat) (v mask : BitVec 64) : (s.storeReg n i j v mask).chip = s.chip := rfl
@[simp] theorem State.storeReg_bellSince (s : State) (n : RegName) (i j : Nat) (v mask : BitVec 64) : (s.storeReg n i j v mask).bellSince = s.bellSince := rfl
@[simp] theorem State.storeReg_aer (s : State) (n : RegName) (i j : Nat) (v mask : BitVec 64) : (s.storeReg n i j v mask).aer = s.aer := rfl
@[simp] theorem State.storeReg_out (s : State) (n : RegName) (i j : Nat) (v mask : BitVec 64) : (s.storeReg n i j v mask).out = s.out := rfl
@[simp] theorem State.storeReg_reply (s : State) (n : RegName) (i j : Nat) (v mask : BitVec 64) : (s.storeReg n i j v mask).reply = s.reply := rfl
@[simp] theorem State.storeReg_free (s : State) (n : RegName) (i j : Nat) (v mask : BitVec 64) : (s.storeReg n i j v mask).free = s.free := rfl
@[simp] theorem State.storeReg_pending (s : State) (n : RegName) (i j : Nat) (v mask : BitVec 64) : (s.storeReg n i j v mask).pending = s.pending := rfl

/-! `State.resetRegs` changes `regs` alone. -/

@[simp] theorem State.resetRegs_halves (s : State) (p : RegId → Bool) : (s.resetRegs p).halves = s.halves := rfl
@[simp] theorem State.resetRegs_mem (s : State) (p : RegId → Bool) : (s.resetRegs p).mem = s.mem := rfl
@[simp] theorem State.resetRegs_poisoned (s : State) (p : RegId → Bool) : (s.resetRegs p).poisoned = s.poisoned := rfl
@[simp] theorem State.resetRegs_timers (s : State) (p : RegId → Bool) : (s.resetRegs p).timers = s.timers := rfl
@[simp] theorem State.resetRegs_tb (s : State) (p : RegId → Bool) : (s.resetRegs p).tb = s.tb := rfl
@[simp] theorem State.resetRegs_threads (s : State) (p : RegId → Bool) : (s.resetRegs p).threads = s.threads := rfl
@[simp] theorem State.resetRegs_cores (s : State) (p : RegId → Bool) : (s.resetRegs p).cores = s.cores := rfl
@[simp] theorem State.resetRegs_turns (s : State) (p : RegId → Bool) : (s.resetRegs p).turns = s.turns := rfl
@[simp] theorem State.resetRegs_bellStacks (s : State) (p : RegId → Bool) : (s.resetRegs p).bellStacks = s.bellStacks := rfl
@[simp] theorem State.resetRegs_bellFirst (s : State) (p : RegId → Bool) : (s.resetRegs p).bellFirst = s.bellFirst := rfl
@[simp] theorem State.resetRegs_jtagDebug (s : State) (p : RegId → Bool) : (s.resetRegs p).jtagDebug = s.jtagDebug := rfl
@[simp] theorem State.resetRegs_lanes (s : State) (p : RegId → Bool) : (s.resetRegs p).lanes = s.lanes := rfl
@[simp] theorem State.resetRegs_quads (s : State) (p : RegId → Bool) : (s.resetRegs p).quads = s.quads := rfl
@[simp] theorem State.resetRegs_trunks (s : State) (p : RegId → Bool) : (s.resetRegs p).trunks = s.trunks := rfl
@[simp] theorem State.resetRegs_parcels (s : State) (p : RegId → Bool) : (s.resetRegs p).parcels = s.parcels := rfl
@[simp] theorem State.resetRegs_waiting (s : State) (p : RegId → Bool) : (s.resetRegs p).waiting = s.waiting := rfl
@[simp] theorem State.resetRegs_nextParcel (s : State) (p : RegId → Bool) : (s.resetRegs p).nextParcel = s.nextParcel := rfl
@[simp] theorem State.resetRegs_claims (s : State) (p : RegId → Bool) : (s.resetRegs p).claims = s.claims := rfl
@[simp] theorem State.resetRegs_leafQ (s : State) (p : RegId → Bool) : (s.resetRegs p).leafQ = s.leafQ := rfl
@[simp] theorem State.resetRegs_halls (s : State) (p : RegId → Bool) : (s.resetRegs p).halls = s.halls := rfl
@[simp] theorem State.resetRegs_galLossy (s : State) (p : RegId → Bool) : (s.resetRegs p).galLossy = s.galLossy := rfl
@[simp] theorem State.resetRegs_galCount (s : State) (p : RegId → Bool) : (s.resetRegs p).galCount = s.galCount := rfl
@[simp] theorem State.resetRegs_versions (s : State) (p : RegId → Bool) : (s.resetRegs p).versions = s.versions := rfl
@[simp] theorem State.resetRegs_meters (s : State) (p : RegId → Bool) : (s.resetRegs p).meters = s.meters := rfl
@[simp] theorem State.resetRegs_nodes (s : State) (p : RegId → Bool) : (s.resetRegs p).nodes = s.nodes := rfl
@[simp] theorem State.resetRegs_ports (s : State) (p : RegId → Bool) : (s.resetRegs p).ports = s.ports := rfl
@[simp] theorem State.resetRegs_hosts (s : State) (p : RegId → Bool) : (s.resetRegs p).hosts = s.hosts := rfl
@[simp] theorem State.resetRegs_prts (s : State) (p : RegId → Bool) : (s.resetRegs p).prts = s.prts := rfl
@[simp] theorem State.resetRegs_mailboxes (s : State) (p : RegId → Bool) : (s.resetRegs p).mailboxes = s.mailboxes := rfl
@[simp] theorem State.resetRegs_alcoves (s : State) (p : RegId → Bool) : (s.resetRegs p).alcoves = s.alcoves := rfl
@[simp] theorem State.resetRegs_bridge (s : State) (p : RegId → Bool) : (s.resetRegs p).bridge = s.bridge := rfl
@[simp] theorem State.resetRegs_reqs (s : State) (p : RegId → Bool) : (s.resetRegs p).reqs = s.reqs := rfl
@[simp] theorem State.resetRegs_nextReq (s : State) (p : RegId → Bool) : (s.resetRegs p).nextReq = s.nextReq := rfl
@[simp] theorem State.resetRegs_heads (s : State) (p : RegId → Bool) : (s.resetRegs p).heads = s.heads := rfl
@[simp] theorem State.resetRegs_canvas (s : State) (p : RegId → Bool) : (s.resetRegs p).canvas = s.canvas := rfl
@[simp] theorem State.resetRegs_tds (s : State) (p : RegId → Bool) : (s.resetRegs p).tds = s.tds := rfl
@[simp] theorem State.resetRegs_beacons (s : State) (p : RegId → Bool) : (s.resetRegs p).beacons = s.beacons := rfl
@[simp] theorem State.resetRegs_usb (s : State) (p : RegId → Bool) : (s.resetRegs p).usb = s.usb := rfl
@[simp] theorem State.resetRegs_power (s : State) (p : RegId → Bool) : (s.resetRegs p).power = s.power := rfl
@[simp] theorem State.resetRegs_warden (s : State) (p : RegId → Bool) : (s.resetRegs p).warden = s.warden := rfl
@[simp] theorem State.resetRegs_chip (s : State) (p : RegId → Bool) : (s.resetRegs p).chip = s.chip := rfl
@[simp] theorem State.resetRegs_bellSince (s : State) (p : RegId → Bool) : (s.resetRegs p).bellSince = s.bellSince := rfl
@[simp] theorem State.resetRegs_aer (s : State) (p : RegId → Bool) : (s.resetRegs p).aer = s.aer := rfl
@[simp] theorem State.resetRegs_out (s : State) (p : RegId → Bool) : (s.resetRegs p).out = s.out := rfl
@[simp] theorem State.resetRegs_reply (s : State) (p : RegId → Bool) : (s.resetRegs p).reply = s.reply := rfl
@[simp] theorem State.resetRegs_free (s : State) (p : RegId → Bool) : (s.resetRegs p).free = s.free := rfl
@[simp] theorem State.resetRegs_pending (s : State) (p : RegId → Bool) : (s.resetRegs p).pending = s.pending := rfl

/-! `State.arm` changes `timers` alone. -/

@[simp] theorem State.arm_regs (s : State) (k : TimerKind) (i j ns : Nat) : (s.arm k i j ns).regs = s.regs := rfl
@[simp] theorem State.arm_halves (s : State) (k : TimerKind) (i j ns : Nat) : (s.arm k i j ns).halves = s.halves := rfl
@[simp] theorem State.arm_mem (s : State) (k : TimerKind) (i j ns : Nat) : (s.arm k i j ns).mem = s.mem := rfl
@[simp] theorem State.arm_poisoned (s : State) (k : TimerKind) (i j ns : Nat) : (s.arm k i j ns).poisoned = s.poisoned := rfl
@[simp] theorem State.arm_tb (s : State) (k : TimerKind) (i j ns : Nat) : (s.arm k i j ns).tb = s.tb := rfl
@[simp] theorem State.arm_threads (s : State) (k : TimerKind) (i j ns : Nat) : (s.arm k i j ns).threads = s.threads := rfl
@[simp] theorem State.arm_cores (s : State) (k : TimerKind) (i j ns : Nat) : (s.arm k i j ns).cores = s.cores := rfl
@[simp] theorem State.arm_turns (s : State) (k : TimerKind) (i j ns : Nat) : (s.arm k i j ns).turns = s.turns := rfl
@[simp] theorem State.arm_bellStacks (s : State) (k : TimerKind) (i j ns : Nat) : (s.arm k i j ns).bellStacks = s.bellStacks := rfl
@[simp] theorem State.arm_bellFirst (s : State) (k : TimerKind) (i j ns : Nat) : (s.arm k i j ns).bellFirst = s.bellFirst := rfl
@[simp] theorem State.arm_jtagDebug (s : State) (k : TimerKind) (i j ns : Nat) : (s.arm k i j ns).jtagDebug = s.jtagDebug := rfl
@[simp] theorem State.arm_lanes (s : State) (k : TimerKind) (i j ns : Nat) : (s.arm k i j ns).lanes = s.lanes := rfl
@[simp] theorem State.arm_quads (s : State) (k : TimerKind) (i j ns : Nat) : (s.arm k i j ns).quads = s.quads := rfl
@[simp] theorem State.arm_trunks (s : State) (k : TimerKind) (i j ns : Nat) : (s.arm k i j ns).trunks = s.trunks := rfl
@[simp] theorem State.arm_parcels (s : State) (k : TimerKind) (i j ns : Nat) : (s.arm k i j ns).parcels = s.parcels := rfl
@[simp] theorem State.arm_waiting (s : State) (k : TimerKind) (i j ns : Nat) : (s.arm k i j ns).waiting = s.waiting := rfl
@[simp] theorem State.arm_nextParcel (s : State) (k : TimerKind) (i j ns : Nat) : (s.arm k i j ns).nextParcel = s.nextParcel := rfl
@[simp] theorem State.arm_claims (s : State) (k : TimerKind) (i j ns : Nat) : (s.arm k i j ns).claims = s.claims := rfl
@[simp] theorem State.arm_leafQ (s : State) (k : TimerKind) (i j ns : Nat) : (s.arm k i j ns).leafQ = s.leafQ := rfl
@[simp] theorem State.arm_halls (s : State) (k : TimerKind) (i j ns : Nat) : (s.arm k i j ns).halls = s.halls := rfl
@[simp] theorem State.arm_galLossy (s : State) (k : TimerKind) (i j ns : Nat) : (s.arm k i j ns).galLossy = s.galLossy := rfl
@[simp] theorem State.arm_galCount (s : State) (k : TimerKind) (i j ns : Nat) : (s.arm k i j ns).galCount = s.galCount := rfl
@[simp] theorem State.arm_versions (s : State) (k : TimerKind) (i j ns : Nat) : (s.arm k i j ns).versions = s.versions := rfl
@[simp] theorem State.arm_meters (s : State) (k : TimerKind) (i j ns : Nat) : (s.arm k i j ns).meters = s.meters := rfl
@[simp] theorem State.arm_nodes (s : State) (k : TimerKind) (i j ns : Nat) : (s.arm k i j ns).nodes = s.nodes := rfl
@[simp] theorem State.arm_ports (s : State) (k : TimerKind) (i j ns : Nat) : (s.arm k i j ns).ports = s.ports := rfl
@[simp] theorem State.arm_hosts (s : State) (k : TimerKind) (i j ns : Nat) : (s.arm k i j ns).hosts = s.hosts := rfl
@[simp] theorem State.arm_prts (s : State) (k : TimerKind) (i j ns : Nat) : (s.arm k i j ns).prts = s.prts := rfl
@[simp] theorem State.arm_mailboxes (s : State) (k : TimerKind) (i j ns : Nat) : (s.arm k i j ns).mailboxes = s.mailboxes := rfl
@[simp] theorem State.arm_alcoves (s : State) (k : TimerKind) (i j ns : Nat) : (s.arm k i j ns).alcoves = s.alcoves := rfl
@[simp] theorem State.arm_bridge (s : State) (k : TimerKind) (i j ns : Nat) : (s.arm k i j ns).bridge = s.bridge := rfl
@[simp] theorem State.arm_reqs (s : State) (k : TimerKind) (i j ns : Nat) : (s.arm k i j ns).reqs = s.reqs := rfl
@[simp] theorem State.arm_nextReq (s : State) (k : TimerKind) (i j ns : Nat) : (s.arm k i j ns).nextReq = s.nextReq := rfl
@[simp] theorem State.arm_heads (s : State) (k : TimerKind) (i j ns : Nat) : (s.arm k i j ns).heads = s.heads := rfl
@[simp] theorem State.arm_canvas (s : State) (k : TimerKind) (i j ns : Nat) : (s.arm k i j ns).canvas = s.canvas := rfl
@[simp] theorem State.arm_tds (s : State) (k : TimerKind) (i j ns : Nat) : (s.arm k i j ns).tds = s.tds := rfl
@[simp] theorem State.arm_beacons (s : State) (k : TimerKind) (i j ns : Nat) : (s.arm k i j ns).beacons = s.beacons := rfl
@[simp] theorem State.arm_usb (s : State) (k : TimerKind) (i j ns : Nat) : (s.arm k i j ns).usb = s.usb := rfl
@[simp] theorem State.arm_power (s : State) (k : TimerKind) (i j ns : Nat) : (s.arm k i j ns).power = s.power := rfl
@[simp] theorem State.arm_warden (s : State) (k : TimerKind) (i j ns : Nat) : (s.arm k i j ns).warden = s.warden := rfl
@[simp] theorem State.arm_chip (s : State) (k : TimerKind) (i j ns : Nat) : (s.arm k i j ns).chip = s.chip := rfl
@[simp] theorem State.arm_bellSince (s : State) (k : TimerKind) (i j ns : Nat) : (s.arm k i j ns).bellSince = s.bellSince := rfl
@[simp] theorem State.arm_aer (s : State) (k : TimerKind) (i j ns : Nat) : (s.arm k i j ns).aer = s.aer := rfl
@[simp] theorem State.arm_out (s : State) (k : TimerKind) (i j ns : Nat) : (s.arm k i j ns).out = s.out := rfl
@[simp] theorem State.arm_reply (s : State) (k : TimerKind) (i j ns : Nat) : (s.arm k i j ns).reply = s.reply := rfl
@[simp] theorem State.arm_free (s : State) (k : TimerKind) (i j ns : Nat) : (s.arm k i j ns).free = s.free := rfl
@[simp] theorem State.arm_pending (s : State) (k : TimerKind) (i j ns : Nat) : (s.arm k i j ns).pending = s.pending := rfl

/-! `State.disarm` changes `timers` alone. -/

@[simp] theorem State.disarm_regs (s : State) (k : TimerKind) (i j : Nat) : (s.disarm k i j).regs = s.regs := rfl
@[simp] theorem State.disarm_halves (s : State) (k : TimerKind) (i j : Nat) : (s.disarm k i j).halves = s.halves := rfl
@[simp] theorem State.disarm_mem (s : State) (k : TimerKind) (i j : Nat) : (s.disarm k i j).mem = s.mem := rfl
@[simp] theorem State.disarm_poisoned (s : State) (k : TimerKind) (i j : Nat) : (s.disarm k i j).poisoned = s.poisoned := rfl
@[simp] theorem State.disarm_tb (s : State) (k : TimerKind) (i j : Nat) : (s.disarm k i j).tb = s.tb := rfl
@[simp] theorem State.disarm_threads (s : State) (k : TimerKind) (i j : Nat) : (s.disarm k i j).threads = s.threads := rfl
@[simp] theorem State.disarm_cores (s : State) (k : TimerKind) (i j : Nat) : (s.disarm k i j).cores = s.cores := rfl
@[simp] theorem State.disarm_turns (s : State) (k : TimerKind) (i j : Nat) : (s.disarm k i j).turns = s.turns := rfl
@[simp] theorem State.disarm_bellStacks (s : State) (k : TimerKind) (i j : Nat) : (s.disarm k i j).bellStacks = s.bellStacks := rfl
@[simp] theorem State.disarm_bellFirst (s : State) (k : TimerKind) (i j : Nat) : (s.disarm k i j).bellFirst = s.bellFirst := rfl
@[simp] theorem State.disarm_jtagDebug (s : State) (k : TimerKind) (i j : Nat) : (s.disarm k i j).jtagDebug = s.jtagDebug := rfl
@[simp] theorem State.disarm_lanes (s : State) (k : TimerKind) (i j : Nat) : (s.disarm k i j).lanes = s.lanes := rfl
@[simp] theorem State.disarm_quads (s : State) (k : TimerKind) (i j : Nat) : (s.disarm k i j).quads = s.quads := rfl
@[simp] theorem State.disarm_trunks (s : State) (k : TimerKind) (i j : Nat) : (s.disarm k i j).trunks = s.trunks := rfl
@[simp] theorem State.disarm_parcels (s : State) (k : TimerKind) (i j : Nat) : (s.disarm k i j).parcels = s.parcels := rfl
@[simp] theorem State.disarm_waiting (s : State) (k : TimerKind) (i j : Nat) : (s.disarm k i j).waiting = s.waiting := rfl
@[simp] theorem State.disarm_nextParcel (s : State) (k : TimerKind) (i j : Nat) : (s.disarm k i j).nextParcel = s.nextParcel := rfl
@[simp] theorem State.disarm_claims (s : State) (k : TimerKind) (i j : Nat) : (s.disarm k i j).claims = s.claims := rfl
@[simp] theorem State.disarm_leafQ (s : State) (k : TimerKind) (i j : Nat) : (s.disarm k i j).leafQ = s.leafQ := rfl
@[simp] theorem State.disarm_halls (s : State) (k : TimerKind) (i j : Nat) : (s.disarm k i j).halls = s.halls := rfl
@[simp] theorem State.disarm_galLossy (s : State) (k : TimerKind) (i j : Nat) : (s.disarm k i j).galLossy = s.galLossy := rfl
@[simp] theorem State.disarm_galCount (s : State) (k : TimerKind) (i j : Nat) : (s.disarm k i j).galCount = s.galCount := rfl
@[simp] theorem State.disarm_versions (s : State) (k : TimerKind) (i j : Nat) : (s.disarm k i j).versions = s.versions := rfl
@[simp] theorem State.disarm_meters (s : State) (k : TimerKind) (i j : Nat) : (s.disarm k i j).meters = s.meters := rfl
@[simp] theorem State.disarm_nodes (s : State) (k : TimerKind) (i j : Nat) : (s.disarm k i j).nodes = s.nodes := rfl
@[simp] theorem State.disarm_ports (s : State) (k : TimerKind) (i j : Nat) : (s.disarm k i j).ports = s.ports := rfl
@[simp] theorem State.disarm_hosts (s : State) (k : TimerKind) (i j : Nat) : (s.disarm k i j).hosts = s.hosts := rfl
@[simp] theorem State.disarm_prts (s : State) (k : TimerKind) (i j : Nat) : (s.disarm k i j).prts = s.prts := rfl
@[simp] theorem State.disarm_mailboxes (s : State) (k : TimerKind) (i j : Nat) : (s.disarm k i j).mailboxes = s.mailboxes := rfl
@[simp] theorem State.disarm_alcoves (s : State) (k : TimerKind) (i j : Nat) : (s.disarm k i j).alcoves = s.alcoves := rfl
@[simp] theorem State.disarm_bridge (s : State) (k : TimerKind) (i j : Nat) : (s.disarm k i j).bridge = s.bridge := rfl
@[simp] theorem State.disarm_reqs (s : State) (k : TimerKind) (i j : Nat) : (s.disarm k i j).reqs = s.reqs := rfl
@[simp] theorem State.disarm_nextReq (s : State) (k : TimerKind) (i j : Nat) : (s.disarm k i j).nextReq = s.nextReq := rfl
@[simp] theorem State.disarm_heads (s : State) (k : TimerKind) (i j : Nat) : (s.disarm k i j).heads = s.heads := rfl
@[simp] theorem State.disarm_canvas (s : State) (k : TimerKind) (i j : Nat) : (s.disarm k i j).canvas = s.canvas := rfl
@[simp] theorem State.disarm_tds (s : State) (k : TimerKind) (i j : Nat) : (s.disarm k i j).tds = s.tds := rfl
@[simp] theorem State.disarm_beacons (s : State) (k : TimerKind) (i j : Nat) : (s.disarm k i j).beacons = s.beacons := rfl
@[simp] theorem State.disarm_usb (s : State) (k : TimerKind) (i j : Nat) : (s.disarm k i j).usb = s.usb := rfl
@[simp] theorem State.disarm_power (s : State) (k : TimerKind) (i j : Nat) : (s.disarm k i j).power = s.power := rfl
@[simp] theorem State.disarm_warden (s : State) (k : TimerKind) (i j : Nat) : (s.disarm k i j).warden = s.warden := rfl
@[simp] theorem State.disarm_chip (s : State) (k : TimerKind) (i j : Nat) : (s.disarm k i j).chip = s.chip := rfl
@[simp] theorem State.disarm_bellSince (s : State) (k : TimerKind) (i j : Nat) : (s.disarm k i j).bellSince = s.bellSince := rfl
@[simp] theorem State.disarm_aer (s : State) (k : TimerKind) (i j : Nat) : (s.disarm k i j).aer = s.aer := rfl
@[simp] theorem State.disarm_out (s : State) (k : TimerKind) (i j : Nat) : (s.disarm k i j).out = s.out := rfl
@[simp] theorem State.disarm_reply (s : State) (k : TimerKind) (i j : Nat) : (s.disarm k i j).reply = s.reply := rfl
@[simp] theorem State.disarm_free (s : State) (k : TimerKind) (i j : Nat) : (s.disarm k i j).free = s.free := rfl
@[simp] theorem State.disarm_pending (s : State) (k : TimerKind) (i j : Nat) : (s.disarm k i j).pending = s.pending := rfl

/-! `State.emit` changes `out` alone. -/

@[simp] theorem State.emit_regs (s : State) (o : Output) : (s.emit o).regs = s.regs := rfl
@[simp] theorem State.emit_halves (s : State) (o : Output) : (s.emit o).halves = s.halves := rfl
@[simp] theorem State.emit_mem (s : State) (o : Output) : (s.emit o).mem = s.mem := rfl
@[simp] theorem State.emit_poisoned (s : State) (o : Output) : (s.emit o).poisoned = s.poisoned := rfl
@[simp] theorem State.emit_timers (s : State) (o : Output) : (s.emit o).timers = s.timers := rfl
@[simp] theorem State.emit_tb (s : State) (o : Output) : (s.emit o).tb = s.tb := rfl
@[simp] theorem State.emit_threads (s : State) (o : Output) : (s.emit o).threads = s.threads := rfl
@[simp] theorem State.emit_cores (s : State) (o : Output) : (s.emit o).cores = s.cores := rfl
@[simp] theorem State.emit_turns (s : State) (o : Output) : (s.emit o).turns = s.turns := rfl
@[simp] theorem State.emit_bellStacks (s : State) (o : Output) : (s.emit o).bellStacks = s.bellStacks := rfl
@[simp] theorem State.emit_bellFirst (s : State) (o : Output) : (s.emit o).bellFirst = s.bellFirst := rfl
@[simp] theorem State.emit_jtagDebug (s : State) (o : Output) : (s.emit o).jtagDebug = s.jtagDebug := rfl
@[simp] theorem State.emit_lanes (s : State) (o : Output) : (s.emit o).lanes = s.lanes := rfl
@[simp] theorem State.emit_quads (s : State) (o : Output) : (s.emit o).quads = s.quads := rfl
@[simp] theorem State.emit_trunks (s : State) (o : Output) : (s.emit o).trunks = s.trunks := rfl
@[simp] theorem State.emit_parcels (s : State) (o : Output) : (s.emit o).parcels = s.parcels := rfl
@[simp] theorem State.emit_waiting (s : State) (o : Output) : (s.emit o).waiting = s.waiting := rfl
@[simp] theorem State.emit_nextParcel (s : State) (o : Output) : (s.emit o).nextParcel = s.nextParcel := rfl
@[simp] theorem State.emit_claims (s : State) (o : Output) : (s.emit o).claims = s.claims := rfl
@[simp] theorem State.emit_leafQ (s : State) (o : Output) : (s.emit o).leafQ = s.leafQ := rfl
@[simp] theorem State.emit_halls (s : State) (o : Output) : (s.emit o).halls = s.halls := rfl
@[simp] theorem State.emit_galLossy (s : State) (o : Output) : (s.emit o).galLossy = s.galLossy := rfl
@[simp] theorem State.emit_galCount (s : State) (o : Output) : (s.emit o).galCount = s.galCount := rfl
@[simp] theorem State.emit_versions (s : State) (o : Output) : (s.emit o).versions = s.versions := rfl
@[simp] theorem State.emit_meters (s : State) (o : Output) : (s.emit o).meters = s.meters := rfl
@[simp] theorem State.emit_nodes (s : State) (o : Output) : (s.emit o).nodes = s.nodes := rfl
@[simp] theorem State.emit_ports (s : State) (o : Output) : (s.emit o).ports = s.ports := rfl
@[simp] theorem State.emit_hosts (s : State) (o : Output) : (s.emit o).hosts = s.hosts := rfl
@[simp] theorem State.emit_prts (s : State) (o : Output) : (s.emit o).prts = s.prts := rfl
@[simp] theorem State.emit_mailboxes (s : State) (o : Output) : (s.emit o).mailboxes = s.mailboxes := rfl
@[simp] theorem State.emit_alcoves (s : State) (o : Output) : (s.emit o).alcoves = s.alcoves := rfl
@[simp] theorem State.emit_bridge (s : State) (o : Output) : (s.emit o).bridge = s.bridge := rfl
@[simp] theorem State.emit_reqs (s : State) (o : Output) : (s.emit o).reqs = s.reqs := rfl
@[simp] theorem State.emit_nextReq (s : State) (o : Output) : (s.emit o).nextReq = s.nextReq := rfl
@[simp] theorem State.emit_heads (s : State) (o : Output) : (s.emit o).heads = s.heads := rfl
@[simp] theorem State.emit_canvas (s : State) (o : Output) : (s.emit o).canvas = s.canvas := rfl
@[simp] theorem State.emit_tds (s : State) (o : Output) : (s.emit o).tds = s.tds := rfl
@[simp] theorem State.emit_beacons (s : State) (o : Output) : (s.emit o).beacons = s.beacons := rfl
@[simp] theorem State.emit_usb (s : State) (o : Output) : (s.emit o).usb = s.usb := rfl
@[simp] theorem State.emit_power (s : State) (o : Output) : (s.emit o).power = s.power := rfl
@[simp] theorem State.emit_warden (s : State) (o : Output) : (s.emit o).warden = s.warden := rfl
@[simp] theorem State.emit_chip (s : State) (o : Output) : (s.emit o).chip = s.chip := rfl
@[simp] theorem State.emit_bellSince (s : State) (o : Output) : (s.emit o).bellSince = s.bellSince := rfl
@[simp] theorem State.emit_aer (s : State) (o : Output) : (s.emit o).aer = s.aer := rfl
@[simp] theorem State.emit_reply (s : State) (o : Output) : (s.emit o).reply = s.reply := rfl
@[simp] theorem State.emit_free (s : State) (o : Output) : (s.emit o).free = s.free := rfl
@[simp] theorem State.emit_pending (s : State) (o : Output) : (s.emit o).pending = s.pending := rfl

/-! `State.setByte` changes `mem` alone. -/

@[simp] theorem State.setByte_regs (s : State) (a : Nat) (v : Byte) : (s.setByte a v).regs = s.regs := rfl
@[simp] theorem State.setByte_halves (s : State) (a : Nat) (v : Byte) : (s.setByte a v).halves = s.halves := rfl
@[simp] theorem State.setByte_poisoned (s : State) (a : Nat) (v : Byte) : (s.setByte a v).poisoned = s.poisoned := rfl
@[simp] theorem State.setByte_timers (s : State) (a : Nat) (v : Byte) : (s.setByte a v).timers = s.timers := rfl
@[simp] theorem State.setByte_tb (s : State) (a : Nat) (v : Byte) : (s.setByte a v).tb = s.tb := rfl
@[simp] theorem State.setByte_threads (s : State) (a : Nat) (v : Byte) : (s.setByte a v).threads = s.threads := rfl
@[simp] theorem State.setByte_cores (s : State) (a : Nat) (v : Byte) : (s.setByte a v).cores = s.cores := rfl
@[simp] theorem State.setByte_turns (s : State) (a : Nat) (v : Byte) : (s.setByte a v).turns = s.turns := rfl
@[simp] theorem State.setByte_bellStacks (s : State) (a : Nat) (v : Byte) : (s.setByte a v).bellStacks = s.bellStacks := rfl
@[simp] theorem State.setByte_bellFirst (s : State) (a : Nat) (v : Byte) : (s.setByte a v).bellFirst = s.bellFirst := rfl
@[simp] theorem State.setByte_jtagDebug (s : State) (a : Nat) (v : Byte) : (s.setByte a v).jtagDebug = s.jtagDebug := rfl
@[simp] theorem State.setByte_lanes (s : State) (a : Nat) (v : Byte) : (s.setByte a v).lanes = s.lanes := rfl
@[simp] theorem State.setByte_quads (s : State) (a : Nat) (v : Byte) : (s.setByte a v).quads = s.quads := rfl
@[simp] theorem State.setByte_trunks (s : State) (a : Nat) (v : Byte) : (s.setByte a v).trunks = s.trunks := rfl
@[simp] theorem State.setByte_parcels (s : State) (a : Nat) (v : Byte) : (s.setByte a v).parcels = s.parcels := rfl
@[simp] theorem State.setByte_waiting (s : State) (a : Nat) (v : Byte) : (s.setByte a v).waiting = s.waiting := rfl
@[simp] theorem State.setByte_nextParcel (s : State) (a : Nat) (v : Byte) : (s.setByte a v).nextParcel = s.nextParcel := rfl
@[simp] theorem State.setByte_claims (s : State) (a : Nat) (v : Byte) : (s.setByte a v).claims = s.claims := rfl
@[simp] theorem State.setByte_leafQ (s : State) (a : Nat) (v : Byte) : (s.setByte a v).leafQ = s.leafQ := rfl
@[simp] theorem State.setByte_halls (s : State) (a : Nat) (v : Byte) : (s.setByte a v).halls = s.halls := rfl
@[simp] theorem State.setByte_galLossy (s : State) (a : Nat) (v : Byte) : (s.setByte a v).galLossy = s.galLossy := rfl
@[simp] theorem State.setByte_galCount (s : State) (a : Nat) (v : Byte) : (s.setByte a v).galCount = s.galCount := rfl
@[simp] theorem State.setByte_versions (s : State) (a : Nat) (v : Byte) : (s.setByte a v).versions = s.versions := rfl
@[simp] theorem State.setByte_meters (s : State) (a : Nat) (v : Byte) : (s.setByte a v).meters = s.meters := rfl
@[simp] theorem State.setByte_nodes (s : State) (a : Nat) (v : Byte) : (s.setByte a v).nodes = s.nodes := rfl
@[simp] theorem State.setByte_ports (s : State) (a : Nat) (v : Byte) : (s.setByte a v).ports = s.ports := rfl
@[simp] theorem State.setByte_hosts (s : State) (a : Nat) (v : Byte) : (s.setByte a v).hosts = s.hosts := rfl
@[simp] theorem State.setByte_prts (s : State) (a : Nat) (v : Byte) : (s.setByte a v).prts = s.prts := rfl
@[simp] theorem State.setByte_mailboxes (s : State) (a : Nat) (v : Byte) : (s.setByte a v).mailboxes = s.mailboxes := rfl
@[simp] theorem State.setByte_alcoves (s : State) (a : Nat) (v : Byte) : (s.setByte a v).alcoves = s.alcoves := rfl
@[simp] theorem State.setByte_bridge (s : State) (a : Nat) (v : Byte) : (s.setByte a v).bridge = s.bridge := rfl
@[simp] theorem State.setByte_reqs (s : State) (a : Nat) (v : Byte) : (s.setByte a v).reqs = s.reqs := rfl
@[simp] theorem State.setByte_nextReq (s : State) (a : Nat) (v : Byte) : (s.setByte a v).nextReq = s.nextReq := rfl
@[simp] theorem State.setByte_heads (s : State) (a : Nat) (v : Byte) : (s.setByte a v).heads = s.heads := rfl
@[simp] theorem State.setByte_canvas (s : State) (a : Nat) (v : Byte) : (s.setByte a v).canvas = s.canvas := rfl
@[simp] theorem State.setByte_tds (s : State) (a : Nat) (v : Byte) : (s.setByte a v).tds = s.tds := rfl
@[simp] theorem State.setByte_beacons (s : State) (a : Nat) (v : Byte) : (s.setByte a v).beacons = s.beacons := rfl
@[simp] theorem State.setByte_usb (s : State) (a : Nat) (v : Byte) : (s.setByte a v).usb = s.usb := rfl
@[simp] theorem State.setByte_power (s : State) (a : Nat) (v : Byte) : (s.setByte a v).power = s.power := rfl
@[simp] theorem State.setByte_warden (s : State) (a : Nat) (v : Byte) : (s.setByte a v).warden = s.warden := rfl
@[simp] theorem State.setByte_chip (s : State) (a : Nat) (v : Byte) : (s.setByte a v).chip = s.chip := rfl
@[simp] theorem State.setByte_bellSince (s : State) (a : Nat) (v : Byte) : (s.setByte a v).bellSince = s.bellSince := rfl
@[simp] theorem State.setByte_aer (s : State) (a : Nat) (v : Byte) : (s.setByte a v).aer = s.aer := rfl
@[simp] theorem State.setByte_out (s : State) (a : Nat) (v : Byte) : (s.setByte a v).out = s.out := rfl
@[simp] theorem State.setByte_reply (s : State) (a : Nat) (v : Byte) : (s.setByte a v).reply = s.reply := rfl
@[simp] theorem State.setByte_free (s : State) (a : Nat) (v : Byte) : (s.setByte a v).free = s.free := rfl
@[simp] theorem State.setByte_pending (s : State) (a : Nat) (v : Byte) : (s.setByte a v).pending = s.pending := rfl

/-! `State.setThr` changes `threads` alone. -/

@[simp] theorem State.setThr_regs (s : State) (c t : Nat) (v : Thread) : (s.setThr c t v).regs = s.regs := rfl
@[simp] theorem State.setThr_halves (s : State) (c t : Nat) (v : Thread) : (s.setThr c t v).halves = s.halves := rfl
@[simp] theorem State.setThr_mem (s : State) (c t : Nat) (v : Thread) : (s.setThr c t v).mem = s.mem := rfl
@[simp] theorem State.setThr_poisoned (s : State) (c t : Nat) (v : Thread) : (s.setThr c t v).poisoned = s.poisoned := rfl
@[simp] theorem State.setThr_timers (s : State) (c t : Nat) (v : Thread) : (s.setThr c t v).timers = s.timers := rfl
@[simp] theorem State.setThr_tb (s : State) (c t : Nat) (v : Thread) : (s.setThr c t v).tb = s.tb := rfl
@[simp] theorem State.setThr_cores (s : State) (c t : Nat) (v : Thread) : (s.setThr c t v).cores = s.cores := rfl
@[simp] theorem State.setThr_turns (s : State) (c t : Nat) (v : Thread) : (s.setThr c t v).turns = s.turns := rfl
@[simp] theorem State.setThr_bellStacks (s : State) (c t : Nat) (v : Thread) : (s.setThr c t v).bellStacks = s.bellStacks := rfl
@[simp] theorem State.setThr_bellFirst (s : State) (c t : Nat) (v : Thread) : (s.setThr c t v).bellFirst = s.bellFirst := rfl
@[simp] theorem State.setThr_jtagDebug (s : State) (c t : Nat) (v : Thread) : (s.setThr c t v).jtagDebug = s.jtagDebug := rfl
@[simp] theorem State.setThr_lanes (s : State) (c t : Nat) (v : Thread) : (s.setThr c t v).lanes = s.lanes := rfl
@[simp] theorem State.setThr_quads (s : State) (c t : Nat) (v : Thread) : (s.setThr c t v).quads = s.quads := rfl
@[simp] theorem State.setThr_trunks (s : State) (c t : Nat) (v : Thread) : (s.setThr c t v).trunks = s.trunks := rfl
@[simp] theorem State.setThr_parcels (s : State) (c t : Nat) (v : Thread) : (s.setThr c t v).parcels = s.parcels := rfl
@[simp] theorem State.setThr_waiting (s : State) (c t : Nat) (v : Thread) : (s.setThr c t v).waiting = s.waiting := rfl
@[simp] theorem State.setThr_nextParcel (s : State) (c t : Nat) (v : Thread) : (s.setThr c t v).nextParcel = s.nextParcel := rfl
@[simp] theorem State.setThr_claims (s : State) (c t : Nat) (v : Thread) : (s.setThr c t v).claims = s.claims := rfl
@[simp] theorem State.setThr_leafQ (s : State) (c t : Nat) (v : Thread) : (s.setThr c t v).leafQ = s.leafQ := rfl
@[simp] theorem State.setThr_halls (s : State) (c t : Nat) (v : Thread) : (s.setThr c t v).halls = s.halls := rfl
@[simp] theorem State.setThr_galLossy (s : State) (c t : Nat) (v : Thread) : (s.setThr c t v).galLossy = s.galLossy := rfl
@[simp] theorem State.setThr_galCount (s : State) (c t : Nat) (v : Thread) : (s.setThr c t v).galCount = s.galCount := rfl
@[simp] theorem State.setThr_versions (s : State) (c t : Nat) (v : Thread) : (s.setThr c t v).versions = s.versions := rfl
@[simp] theorem State.setThr_meters (s : State) (c t : Nat) (v : Thread) : (s.setThr c t v).meters = s.meters := rfl
@[simp] theorem State.setThr_nodes (s : State) (c t : Nat) (v : Thread) : (s.setThr c t v).nodes = s.nodes := rfl
@[simp] theorem State.setThr_ports (s : State) (c t : Nat) (v : Thread) : (s.setThr c t v).ports = s.ports := rfl
@[simp] theorem State.setThr_hosts (s : State) (c t : Nat) (v : Thread) : (s.setThr c t v).hosts = s.hosts := rfl
@[simp] theorem State.setThr_prts (s : State) (c t : Nat) (v : Thread) : (s.setThr c t v).prts = s.prts := rfl
@[simp] theorem State.setThr_mailboxes (s : State) (c t : Nat) (v : Thread) : (s.setThr c t v).mailboxes = s.mailboxes := rfl
@[simp] theorem State.setThr_alcoves (s : State) (c t : Nat) (v : Thread) : (s.setThr c t v).alcoves = s.alcoves := rfl
@[simp] theorem State.setThr_bridge (s : State) (c t : Nat) (v : Thread) : (s.setThr c t v).bridge = s.bridge := rfl
@[simp] theorem State.setThr_reqs (s : State) (c t : Nat) (v : Thread) : (s.setThr c t v).reqs = s.reqs := rfl
@[simp] theorem State.setThr_nextReq (s : State) (c t : Nat) (v : Thread) : (s.setThr c t v).nextReq = s.nextReq := rfl
@[simp] theorem State.setThr_heads (s : State) (c t : Nat) (v : Thread) : (s.setThr c t v).heads = s.heads := rfl
@[simp] theorem State.setThr_canvas (s : State) (c t : Nat) (v : Thread) : (s.setThr c t v).canvas = s.canvas := rfl
@[simp] theorem State.setThr_tds (s : State) (c t : Nat) (v : Thread) : (s.setThr c t v).tds = s.tds := rfl
@[simp] theorem State.setThr_beacons (s : State) (c t : Nat) (v : Thread) : (s.setThr c t v).beacons = s.beacons := rfl
@[simp] theorem State.setThr_usb (s : State) (c t : Nat) (v : Thread) : (s.setThr c t v).usb = s.usb := rfl
@[simp] theorem State.setThr_power (s : State) (c t : Nat) (v : Thread) : (s.setThr c t v).power = s.power := rfl
@[simp] theorem State.setThr_warden (s : State) (c t : Nat) (v : Thread) : (s.setThr c t v).warden = s.warden := rfl
@[simp] theorem State.setThr_chip (s : State) (c t : Nat) (v : Thread) : (s.setThr c t v).chip = s.chip := rfl
@[simp] theorem State.setThr_bellSince (s : State) (c t : Nat) (v : Thread) : (s.setThr c t v).bellSince = s.bellSince := rfl
@[simp] theorem State.setThr_aer (s : State) (c t : Nat) (v : Thread) : (s.setThr c t v).aer = s.aer := rfl
@[simp] theorem State.setThr_out (s : State) (c t : Nat) (v : Thread) : (s.setThr c t v).out = s.out := rfl
@[simp] theorem State.setThr_reply (s : State) (c t : Nat) (v : Thread) : (s.setThr c t v).reply = s.reply := rfl
@[simp] theorem State.setThr_free (s : State) (c t : Nat) (v : Thread) : (s.setThr c t v).free = s.free := rfl
@[simp] theorem State.setThr_pending (s : State) (c t : Nat) (v : Thread) : (s.setThr c t v).pending = s.pending := rfl

/-! `State.setCore` changes `cores` alone. -/

@[simp] theorem State.setCore_regs (s : State) (c : Nat) (v : WzCore) : (s.setCore c v).regs = s.regs := rfl
@[simp] theorem State.setCore_halves (s : State) (c : Nat) (v : WzCore) : (s.setCore c v).halves = s.halves := rfl
@[simp] theorem State.setCore_mem (s : State) (c : Nat) (v : WzCore) : (s.setCore c v).mem = s.mem := rfl
@[simp] theorem State.setCore_poisoned (s : State) (c : Nat) (v : WzCore) : (s.setCore c v).poisoned = s.poisoned := rfl
@[simp] theorem State.setCore_timers (s : State) (c : Nat) (v : WzCore) : (s.setCore c v).timers = s.timers := rfl
@[simp] theorem State.setCore_tb (s : State) (c : Nat) (v : WzCore) : (s.setCore c v).tb = s.tb := rfl
@[simp] theorem State.setCore_threads (s : State) (c : Nat) (v : WzCore) : (s.setCore c v).threads = s.threads := rfl
@[simp] theorem State.setCore_turns (s : State) (c : Nat) (v : WzCore) : (s.setCore c v).turns = s.turns := rfl
@[simp] theorem State.setCore_bellStacks (s : State) (c : Nat) (v : WzCore) : (s.setCore c v).bellStacks = s.bellStacks := rfl
@[simp] theorem State.setCore_bellFirst (s : State) (c : Nat) (v : WzCore) : (s.setCore c v).bellFirst = s.bellFirst := rfl
@[simp] theorem State.setCore_jtagDebug (s : State) (c : Nat) (v : WzCore) : (s.setCore c v).jtagDebug = s.jtagDebug := rfl
@[simp] theorem State.setCore_lanes (s : State) (c : Nat) (v : WzCore) : (s.setCore c v).lanes = s.lanes := rfl
@[simp] theorem State.setCore_quads (s : State) (c : Nat) (v : WzCore) : (s.setCore c v).quads = s.quads := rfl
@[simp] theorem State.setCore_trunks (s : State) (c : Nat) (v : WzCore) : (s.setCore c v).trunks = s.trunks := rfl
@[simp] theorem State.setCore_parcels (s : State) (c : Nat) (v : WzCore) : (s.setCore c v).parcels = s.parcels := rfl
@[simp] theorem State.setCore_waiting (s : State) (c : Nat) (v : WzCore) : (s.setCore c v).waiting = s.waiting := rfl
@[simp] theorem State.setCore_nextParcel (s : State) (c : Nat) (v : WzCore) : (s.setCore c v).nextParcel = s.nextParcel := rfl
@[simp] theorem State.setCore_claims (s : State) (c : Nat) (v : WzCore) : (s.setCore c v).claims = s.claims := rfl
@[simp] theorem State.setCore_leafQ (s : State) (c : Nat) (v : WzCore) : (s.setCore c v).leafQ = s.leafQ := rfl
@[simp] theorem State.setCore_halls (s : State) (c : Nat) (v : WzCore) : (s.setCore c v).halls = s.halls := rfl
@[simp] theorem State.setCore_galLossy (s : State) (c : Nat) (v : WzCore) : (s.setCore c v).galLossy = s.galLossy := rfl
@[simp] theorem State.setCore_galCount (s : State) (c : Nat) (v : WzCore) : (s.setCore c v).galCount = s.galCount := rfl
@[simp] theorem State.setCore_versions (s : State) (c : Nat) (v : WzCore) : (s.setCore c v).versions = s.versions := rfl
@[simp] theorem State.setCore_meters (s : State) (c : Nat) (v : WzCore) : (s.setCore c v).meters = s.meters := rfl
@[simp] theorem State.setCore_nodes (s : State) (c : Nat) (v : WzCore) : (s.setCore c v).nodes = s.nodes := rfl
@[simp] theorem State.setCore_ports (s : State) (c : Nat) (v : WzCore) : (s.setCore c v).ports = s.ports := rfl
@[simp] theorem State.setCore_hosts (s : State) (c : Nat) (v : WzCore) : (s.setCore c v).hosts = s.hosts := rfl
@[simp] theorem State.setCore_prts (s : State) (c : Nat) (v : WzCore) : (s.setCore c v).prts = s.prts := rfl
@[simp] theorem State.setCore_mailboxes (s : State) (c : Nat) (v : WzCore) : (s.setCore c v).mailboxes = s.mailboxes := rfl
@[simp] theorem State.setCore_alcoves (s : State) (c : Nat) (v : WzCore) : (s.setCore c v).alcoves = s.alcoves := rfl
@[simp] theorem State.setCore_bridge (s : State) (c : Nat) (v : WzCore) : (s.setCore c v).bridge = s.bridge := rfl
@[simp] theorem State.setCore_reqs (s : State) (c : Nat) (v : WzCore) : (s.setCore c v).reqs = s.reqs := rfl
@[simp] theorem State.setCore_nextReq (s : State) (c : Nat) (v : WzCore) : (s.setCore c v).nextReq = s.nextReq := rfl
@[simp] theorem State.setCore_heads (s : State) (c : Nat) (v : WzCore) : (s.setCore c v).heads = s.heads := rfl
@[simp] theorem State.setCore_canvas (s : State) (c : Nat) (v : WzCore) : (s.setCore c v).canvas = s.canvas := rfl
@[simp] theorem State.setCore_tds (s : State) (c : Nat) (v : WzCore) : (s.setCore c v).tds = s.tds := rfl
@[simp] theorem State.setCore_beacons (s : State) (c : Nat) (v : WzCore) : (s.setCore c v).beacons = s.beacons := rfl
@[simp] theorem State.setCore_usb (s : State) (c : Nat) (v : WzCore) : (s.setCore c v).usb = s.usb := rfl
@[simp] theorem State.setCore_power (s : State) (c : Nat) (v : WzCore) : (s.setCore c v).power = s.power := rfl
@[simp] theorem State.setCore_warden (s : State) (c : Nat) (v : WzCore) : (s.setCore c v).warden = s.warden := rfl
@[simp] theorem State.setCore_chip (s : State) (c : Nat) (v : WzCore) : (s.setCore c v).chip = s.chip := rfl
@[simp] theorem State.setCore_bellSince (s : State) (c : Nat) (v : WzCore) : (s.setCore c v).bellSince = s.bellSince := rfl
@[simp] theorem State.setCore_aer (s : State) (c : Nat) (v : WzCore) : (s.setCore c v).aer = s.aer := rfl
@[simp] theorem State.setCore_out (s : State) (c : Nat) (v : WzCore) : (s.setCore c v).out = s.out := rfl
@[simp] theorem State.setCore_reply (s : State) (c : Nat) (v : WzCore) : (s.setCore c v).reply = s.reply := rfl
@[simp] theorem State.setCore_free (s : State) (c : Nat) (v : WzCore) : (s.setCore c v).free = s.free := rfl
@[simp] theorem State.setCore_pending (s : State) (c : Nat) (v : WzCore) : (s.setCore c v).pending = s.pending := rfl

/-! `State.setBellStack` changes `bellStacks` alone. -/

@[simp] theorem State.setBellStack_regs (s : State) (b t : Nat) (v : List (Nat × Nat)) : (s.setBellStack b t v).regs = s.regs := rfl
@[simp] theorem State.setBellStack_halves (s : State) (b t : Nat) (v : List (Nat × Nat)) : (s.setBellStack b t v).halves = s.halves := rfl
@[simp] theorem State.setBellStack_mem (s : State) (b t : Nat) (v : List (Nat × Nat)) : (s.setBellStack b t v).mem = s.mem := rfl
@[simp] theorem State.setBellStack_poisoned (s : State) (b t : Nat) (v : List (Nat × Nat)) : (s.setBellStack b t v).poisoned = s.poisoned := rfl
@[simp] theorem State.setBellStack_timers (s : State) (b t : Nat) (v : List (Nat × Nat)) : (s.setBellStack b t v).timers = s.timers := rfl
@[simp] theorem State.setBellStack_tb (s : State) (b t : Nat) (v : List (Nat × Nat)) : (s.setBellStack b t v).tb = s.tb := rfl
@[simp] theorem State.setBellStack_threads (s : State) (b t : Nat) (v : List (Nat × Nat)) : (s.setBellStack b t v).threads = s.threads := rfl
@[simp] theorem State.setBellStack_cores (s : State) (b t : Nat) (v : List (Nat × Nat)) : (s.setBellStack b t v).cores = s.cores := rfl
@[simp] theorem State.setBellStack_turns (s : State) (b t : Nat) (v : List (Nat × Nat)) : (s.setBellStack b t v).turns = s.turns := rfl
@[simp] theorem State.setBellStack_bellFirst (s : State) (b t : Nat) (v : List (Nat × Nat)) : (s.setBellStack b t v).bellFirst = s.bellFirst := rfl
@[simp] theorem State.setBellStack_jtagDebug (s : State) (b t : Nat) (v : List (Nat × Nat)) : (s.setBellStack b t v).jtagDebug = s.jtagDebug := rfl
@[simp] theorem State.setBellStack_lanes (s : State) (b t : Nat) (v : List (Nat × Nat)) : (s.setBellStack b t v).lanes = s.lanes := rfl
@[simp] theorem State.setBellStack_quads (s : State) (b t : Nat) (v : List (Nat × Nat)) : (s.setBellStack b t v).quads = s.quads := rfl
@[simp] theorem State.setBellStack_trunks (s : State) (b t : Nat) (v : List (Nat × Nat)) : (s.setBellStack b t v).trunks = s.trunks := rfl
@[simp] theorem State.setBellStack_parcels (s : State) (b t : Nat) (v : List (Nat × Nat)) : (s.setBellStack b t v).parcels = s.parcels := rfl
@[simp] theorem State.setBellStack_waiting (s : State) (b t : Nat) (v : List (Nat × Nat)) : (s.setBellStack b t v).waiting = s.waiting := rfl
@[simp] theorem State.setBellStack_nextParcel (s : State) (b t : Nat) (v : List (Nat × Nat)) : (s.setBellStack b t v).nextParcel = s.nextParcel := rfl
@[simp] theorem State.setBellStack_claims (s : State) (b t : Nat) (v : List (Nat × Nat)) : (s.setBellStack b t v).claims = s.claims := rfl
@[simp] theorem State.setBellStack_leafQ (s : State) (b t : Nat) (v : List (Nat × Nat)) : (s.setBellStack b t v).leafQ = s.leafQ := rfl
@[simp] theorem State.setBellStack_halls (s : State) (b t : Nat) (v : List (Nat × Nat)) : (s.setBellStack b t v).halls = s.halls := rfl
@[simp] theorem State.setBellStack_galLossy (s : State) (b t : Nat) (v : List (Nat × Nat)) : (s.setBellStack b t v).galLossy = s.galLossy := rfl
@[simp] theorem State.setBellStack_galCount (s : State) (b t : Nat) (v : List (Nat × Nat)) : (s.setBellStack b t v).galCount = s.galCount := rfl
@[simp] theorem State.setBellStack_versions (s : State) (b t : Nat) (v : List (Nat × Nat)) : (s.setBellStack b t v).versions = s.versions := rfl
@[simp] theorem State.setBellStack_meters (s : State) (b t : Nat) (v : List (Nat × Nat)) : (s.setBellStack b t v).meters = s.meters := rfl
@[simp] theorem State.setBellStack_nodes (s : State) (b t : Nat) (v : List (Nat × Nat)) : (s.setBellStack b t v).nodes = s.nodes := rfl
@[simp] theorem State.setBellStack_ports (s : State) (b t : Nat) (v : List (Nat × Nat)) : (s.setBellStack b t v).ports = s.ports := rfl
@[simp] theorem State.setBellStack_hosts (s : State) (b t : Nat) (v : List (Nat × Nat)) : (s.setBellStack b t v).hosts = s.hosts := rfl
@[simp] theorem State.setBellStack_prts (s : State) (b t : Nat) (v : List (Nat × Nat)) : (s.setBellStack b t v).prts = s.prts := rfl
@[simp] theorem State.setBellStack_mailboxes (s : State) (b t : Nat) (v : List (Nat × Nat)) : (s.setBellStack b t v).mailboxes = s.mailboxes := rfl
@[simp] theorem State.setBellStack_alcoves (s : State) (b t : Nat) (v : List (Nat × Nat)) : (s.setBellStack b t v).alcoves = s.alcoves := rfl
@[simp] theorem State.setBellStack_bridge (s : State) (b t : Nat) (v : List (Nat × Nat)) : (s.setBellStack b t v).bridge = s.bridge := rfl
@[simp] theorem State.setBellStack_reqs (s : State) (b t : Nat) (v : List (Nat × Nat)) : (s.setBellStack b t v).reqs = s.reqs := rfl
@[simp] theorem State.setBellStack_nextReq (s : State) (b t : Nat) (v : List (Nat × Nat)) : (s.setBellStack b t v).nextReq = s.nextReq := rfl
@[simp] theorem State.setBellStack_heads (s : State) (b t : Nat) (v : List (Nat × Nat)) : (s.setBellStack b t v).heads = s.heads := rfl
@[simp] theorem State.setBellStack_canvas (s : State) (b t : Nat) (v : List (Nat × Nat)) : (s.setBellStack b t v).canvas = s.canvas := rfl
@[simp] theorem State.setBellStack_tds (s : State) (b t : Nat) (v : List (Nat × Nat)) : (s.setBellStack b t v).tds = s.tds := rfl
@[simp] theorem State.setBellStack_beacons (s : State) (b t : Nat) (v : List (Nat × Nat)) : (s.setBellStack b t v).beacons = s.beacons := rfl
@[simp] theorem State.setBellStack_usb (s : State) (b t : Nat) (v : List (Nat × Nat)) : (s.setBellStack b t v).usb = s.usb := rfl
@[simp] theorem State.setBellStack_power (s : State) (b t : Nat) (v : List (Nat × Nat)) : (s.setBellStack b t v).power = s.power := rfl
@[simp] theorem State.setBellStack_warden (s : State) (b t : Nat) (v : List (Nat × Nat)) : (s.setBellStack b t v).warden = s.warden := rfl
@[simp] theorem State.setBellStack_chip (s : State) (b t : Nat) (v : List (Nat × Nat)) : (s.setBellStack b t v).chip = s.chip := rfl
@[simp] theorem State.setBellStack_bellSince (s : State) (b t : Nat) (v : List (Nat × Nat)) : (s.setBellStack b t v).bellSince = s.bellSince := rfl
@[simp] theorem State.setBellStack_aer (s : State) (b t : Nat) (v : List (Nat × Nat)) : (s.setBellStack b t v).aer = s.aer := rfl
@[simp] theorem State.setBellStack_out (s : State) (b t : Nat) (v : List (Nat × Nat)) : (s.setBellStack b t v).out = s.out := rfl
@[simp] theorem State.setBellStack_reply (s : State) (b t : Nat) (v : List (Nat × Nat)) : (s.setBellStack b t v).reply = s.reply := rfl
@[simp] theorem State.setBellStack_free (s : State) (b t : Nat) (v : List (Nat × Nat)) : (s.setBellStack b t v).free = s.free := rfl
@[simp] theorem State.setBellStack_pending (s : State) (b t : Nat) (v : List (Nat × Nat)) : (s.setBellStack b t v).pending = s.pending := rfl

/-! `State.setLane` changes `lanes` alone. -/

@[simp] theorem State.setLane_regs (s : State) (l : Nat) (v : Lane) : (s.setLane l v).regs = s.regs := rfl
@[simp] theorem State.setLane_halves (s : State) (l : Nat) (v : Lane) : (s.setLane l v).halves = s.halves := rfl
@[simp] theorem State.setLane_mem (s : State) (l : Nat) (v : Lane) : (s.setLane l v).mem = s.mem := rfl
@[simp] theorem State.setLane_poisoned (s : State) (l : Nat) (v : Lane) : (s.setLane l v).poisoned = s.poisoned := rfl
@[simp] theorem State.setLane_timers (s : State) (l : Nat) (v : Lane) : (s.setLane l v).timers = s.timers := rfl
@[simp] theorem State.setLane_tb (s : State) (l : Nat) (v : Lane) : (s.setLane l v).tb = s.tb := rfl
@[simp] theorem State.setLane_threads (s : State) (l : Nat) (v : Lane) : (s.setLane l v).threads = s.threads := rfl
@[simp] theorem State.setLane_cores (s : State) (l : Nat) (v : Lane) : (s.setLane l v).cores = s.cores := rfl
@[simp] theorem State.setLane_turns (s : State) (l : Nat) (v : Lane) : (s.setLane l v).turns = s.turns := rfl
@[simp] theorem State.setLane_bellStacks (s : State) (l : Nat) (v : Lane) : (s.setLane l v).bellStacks = s.bellStacks := rfl
@[simp] theorem State.setLane_bellFirst (s : State) (l : Nat) (v : Lane) : (s.setLane l v).bellFirst = s.bellFirst := rfl
@[simp] theorem State.setLane_jtagDebug (s : State) (l : Nat) (v : Lane) : (s.setLane l v).jtagDebug = s.jtagDebug := rfl
@[simp] theorem State.setLane_quads (s : State) (l : Nat) (v : Lane) : (s.setLane l v).quads = s.quads := rfl
@[simp] theorem State.setLane_trunks (s : State) (l : Nat) (v : Lane) : (s.setLane l v).trunks = s.trunks := rfl
@[simp] theorem State.setLane_parcels (s : State) (l : Nat) (v : Lane) : (s.setLane l v).parcels = s.parcels := rfl
@[simp] theorem State.setLane_waiting (s : State) (l : Nat) (v : Lane) : (s.setLane l v).waiting = s.waiting := rfl
@[simp] theorem State.setLane_nextParcel (s : State) (l : Nat) (v : Lane) : (s.setLane l v).nextParcel = s.nextParcel := rfl
@[simp] theorem State.setLane_claims (s : State) (l : Nat) (v : Lane) : (s.setLane l v).claims = s.claims := rfl
@[simp] theorem State.setLane_leafQ (s : State) (l : Nat) (v : Lane) : (s.setLane l v).leafQ = s.leafQ := rfl
@[simp] theorem State.setLane_halls (s : State) (l : Nat) (v : Lane) : (s.setLane l v).halls = s.halls := rfl
@[simp] theorem State.setLane_galLossy (s : State) (l : Nat) (v : Lane) : (s.setLane l v).galLossy = s.galLossy := rfl
@[simp] theorem State.setLane_galCount (s : State) (l : Nat) (v : Lane) : (s.setLane l v).galCount = s.galCount := rfl
@[simp] theorem State.setLane_versions (s : State) (l : Nat) (v : Lane) : (s.setLane l v).versions = s.versions := rfl
@[simp] theorem State.setLane_meters (s : State) (l : Nat) (v : Lane) : (s.setLane l v).meters = s.meters := rfl
@[simp] theorem State.setLane_nodes (s : State) (l : Nat) (v : Lane) : (s.setLane l v).nodes = s.nodes := rfl
@[simp] theorem State.setLane_ports (s : State) (l : Nat) (v : Lane) : (s.setLane l v).ports = s.ports := rfl
@[simp] theorem State.setLane_hosts (s : State) (l : Nat) (v : Lane) : (s.setLane l v).hosts = s.hosts := rfl
@[simp] theorem State.setLane_prts (s : State) (l : Nat) (v : Lane) : (s.setLane l v).prts = s.prts := rfl
@[simp] theorem State.setLane_mailboxes (s : State) (l : Nat) (v : Lane) : (s.setLane l v).mailboxes = s.mailboxes := rfl
@[simp] theorem State.setLane_alcoves (s : State) (l : Nat) (v : Lane) : (s.setLane l v).alcoves = s.alcoves := rfl
@[simp] theorem State.setLane_bridge (s : State) (l : Nat) (v : Lane) : (s.setLane l v).bridge = s.bridge := rfl
@[simp] theorem State.setLane_reqs (s : State) (l : Nat) (v : Lane) : (s.setLane l v).reqs = s.reqs := rfl
@[simp] theorem State.setLane_nextReq (s : State) (l : Nat) (v : Lane) : (s.setLane l v).nextReq = s.nextReq := rfl
@[simp] theorem State.setLane_heads (s : State) (l : Nat) (v : Lane) : (s.setLane l v).heads = s.heads := rfl
@[simp] theorem State.setLane_canvas (s : State) (l : Nat) (v : Lane) : (s.setLane l v).canvas = s.canvas := rfl
@[simp] theorem State.setLane_tds (s : State) (l : Nat) (v : Lane) : (s.setLane l v).tds = s.tds := rfl
@[simp] theorem State.setLane_beacons (s : State) (l : Nat) (v : Lane) : (s.setLane l v).beacons = s.beacons := rfl
@[simp] theorem State.setLane_usb (s : State) (l : Nat) (v : Lane) : (s.setLane l v).usb = s.usb := rfl
@[simp] theorem State.setLane_power (s : State) (l : Nat) (v : Lane) : (s.setLane l v).power = s.power := rfl
@[simp] theorem State.setLane_warden (s : State) (l : Nat) (v : Lane) : (s.setLane l v).warden = s.warden := rfl
@[simp] theorem State.setLane_chip (s : State) (l : Nat) (v : Lane) : (s.setLane l v).chip = s.chip := rfl
@[simp] theorem State.setLane_bellSince (s : State) (l : Nat) (v : Lane) : (s.setLane l v).bellSince = s.bellSince := rfl
@[simp] theorem State.setLane_aer (s : State) (l : Nat) (v : Lane) : (s.setLane l v).aer = s.aer := rfl
@[simp] theorem State.setLane_out (s : State) (l : Nat) (v : Lane) : (s.setLane l v).out = s.out := rfl
@[simp] theorem State.setLane_reply (s : State) (l : Nat) (v : Lane) : (s.setLane l v).reply = s.reply := rfl
@[simp] theorem State.setLane_free (s : State) (l : Nat) (v : Lane) : (s.setLane l v).free = s.free := rfl
@[simp] theorem State.setLane_pending (s : State) (l : Nat) (v : Lane) : (s.setLane l v).pending = s.pending := rfl

/-! `State.setQuad` changes `quads` alone. -/

@[simp] theorem State.setQuad_regs (s : State) (q : Nat) (v : Quad) : (s.setQuad q v).regs = s.regs := rfl
@[simp] theorem State.setQuad_halves (s : State) (q : Nat) (v : Quad) : (s.setQuad q v).halves = s.halves := rfl
@[simp] theorem State.setQuad_mem (s : State) (q : Nat) (v : Quad) : (s.setQuad q v).mem = s.mem := rfl
@[simp] theorem State.setQuad_poisoned (s : State) (q : Nat) (v : Quad) : (s.setQuad q v).poisoned = s.poisoned := rfl
@[simp] theorem State.setQuad_timers (s : State) (q : Nat) (v : Quad) : (s.setQuad q v).timers = s.timers := rfl
@[simp] theorem State.setQuad_tb (s : State) (q : Nat) (v : Quad) : (s.setQuad q v).tb = s.tb := rfl
@[simp] theorem State.setQuad_threads (s : State) (q : Nat) (v : Quad) : (s.setQuad q v).threads = s.threads := rfl
@[simp] theorem State.setQuad_cores (s : State) (q : Nat) (v : Quad) : (s.setQuad q v).cores = s.cores := rfl
@[simp] theorem State.setQuad_turns (s : State) (q : Nat) (v : Quad) : (s.setQuad q v).turns = s.turns := rfl
@[simp] theorem State.setQuad_bellStacks (s : State) (q : Nat) (v : Quad) : (s.setQuad q v).bellStacks = s.bellStacks := rfl
@[simp] theorem State.setQuad_bellFirst (s : State) (q : Nat) (v : Quad) : (s.setQuad q v).bellFirst = s.bellFirst := rfl
@[simp] theorem State.setQuad_jtagDebug (s : State) (q : Nat) (v : Quad) : (s.setQuad q v).jtagDebug = s.jtagDebug := rfl
@[simp] theorem State.setQuad_lanes (s : State) (q : Nat) (v : Quad) : (s.setQuad q v).lanes = s.lanes := rfl
@[simp] theorem State.setQuad_trunks (s : State) (q : Nat) (v : Quad) : (s.setQuad q v).trunks = s.trunks := rfl
@[simp] theorem State.setQuad_parcels (s : State) (q : Nat) (v : Quad) : (s.setQuad q v).parcels = s.parcels := rfl
@[simp] theorem State.setQuad_waiting (s : State) (q : Nat) (v : Quad) : (s.setQuad q v).waiting = s.waiting := rfl
@[simp] theorem State.setQuad_nextParcel (s : State) (q : Nat) (v : Quad) : (s.setQuad q v).nextParcel = s.nextParcel := rfl
@[simp] theorem State.setQuad_claims (s : State) (q : Nat) (v : Quad) : (s.setQuad q v).claims = s.claims := rfl
@[simp] theorem State.setQuad_leafQ (s : State) (q : Nat) (v : Quad) : (s.setQuad q v).leafQ = s.leafQ := rfl
@[simp] theorem State.setQuad_halls (s : State) (q : Nat) (v : Quad) : (s.setQuad q v).halls = s.halls := rfl
@[simp] theorem State.setQuad_galLossy (s : State) (q : Nat) (v : Quad) : (s.setQuad q v).galLossy = s.galLossy := rfl
@[simp] theorem State.setQuad_galCount (s : State) (q : Nat) (v : Quad) : (s.setQuad q v).galCount = s.galCount := rfl
@[simp] theorem State.setQuad_versions (s : State) (q : Nat) (v : Quad) : (s.setQuad q v).versions = s.versions := rfl
@[simp] theorem State.setQuad_meters (s : State) (q : Nat) (v : Quad) : (s.setQuad q v).meters = s.meters := rfl
@[simp] theorem State.setQuad_nodes (s : State) (q : Nat) (v : Quad) : (s.setQuad q v).nodes = s.nodes := rfl
@[simp] theorem State.setQuad_ports (s : State) (q : Nat) (v : Quad) : (s.setQuad q v).ports = s.ports := rfl
@[simp] theorem State.setQuad_hosts (s : State) (q : Nat) (v : Quad) : (s.setQuad q v).hosts = s.hosts := rfl
@[simp] theorem State.setQuad_prts (s : State) (q : Nat) (v : Quad) : (s.setQuad q v).prts = s.prts := rfl
@[simp] theorem State.setQuad_mailboxes (s : State) (q : Nat) (v : Quad) : (s.setQuad q v).mailboxes = s.mailboxes := rfl
@[simp] theorem State.setQuad_alcoves (s : State) (q : Nat) (v : Quad) : (s.setQuad q v).alcoves = s.alcoves := rfl
@[simp] theorem State.setQuad_bridge (s : State) (q : Nat) (v : Quad) : (s.setQuad q v).bridge = s.bridge := rfl
@[simp] theorem State.setQuad_reqs (s : State) (q : Nat) (v : Quad) : (s.setQuad q v).reqs = s.reqs := rfl
@[simp] theorem State.setQuad_nextReq (s : State) (q : Nat) (v : Quad) : (s.setQuad q v).nextReq = s.nextReq := rfl
@[simp] theorem State.setQuad_heads (s : State) (q : Nat) (v : Quad) : (s.setQuad q v).heads = s.heads := rfl
@[simp] theorem State.setQuad_canvas (s : State) (q : Nat) (v : Quad) : (s.setQuad q v).canvas = s.canvas := rfl
@[simp] theorem State.setQuad_tds (s : State) (q : Nat) (v : Quad) : (s.setQuad q v).tds = s.tds := rfl
@[simp] theorem State.setQuad_beacons (s : State) (q : Nat) (v : Quad) : (s.setQuad q v).beacons = s.beacons := rfl
@[simp] theorem State.setQuad_usb (s : State) (q : Nat) (v : Quad) : (s.setQuad q v).usb = s.usb := rfl
@[simp] theorem State.setQuad_power (s : State) (q : Nat) (v : Quad) : (s.setQuad q v).power = s.power := rfl
@[simp] theorem State.setQuad_warden (s : State) (q : Nat) (v : Quad) : (s.setQuad q v).warden = s.warden := rfl
@[simp] theorem State.setQuad_chip (s : State) (q : Nat) (v : Quad) : (s.setQuad q v).chip = s.chip := rfl
@[simp] theorem State.setQuad_bellSince (s : State) (q : Nat) (v : Quad) : (s.setQuad q v).bellSince = s.bellSince := rfl
@[simp] theorem State.setQuad_aer (s : State) (q : Nat) (v : Quad) : (s.setQuad q v).aer = s.aer := rfl
@[simp] theorem State.setQuad_out (s : State) (q : Nat) (v : Quad) : (s.setQuad q v).out = s.out := rfl
@[simp] theorem State.setQuad_reply (s : State) (q : Nat) (v : Quad) : (s.setQuad q v).reply = s.reply := rfl
@[simp] theorem State.setQuad_free (s : State) (q : Nat) (v : Quad) : (s.setQuad q v).free = s.free := rfl
@[simp] theorem State.setQuad_pending (s : State) (q : Nat) (v : Quad) : (s.setQuad q v).pending = s.pending := rfl

/-! `State.setTrk` changes `trunks` alone. -/

@[simp] theorem State.setTrk_regs (s : State) (n : Nat) (v : Trunk) : (s.setTrk n v).regs = s.regs := rfl
@[simp] theorem State.setTrk_halves (s : State) (n : Nat) (v : Trunk) : (s.setTrk n v).halves = s.halves := rfl
@[simp] theorem State.setTrk_mem (s : State) (n : Nat) (v : Trunk) : (s.setTrk n v).mem = s.mem := rfl
@[simp] theorem State.setTrk_poisoned (s : State) (n : Nat) (v : Trunk) : (s.setTrk n v).poisoned = s.poisoned := rfl
@[simp] theorem State.setTrk_timers (s : State) (n : Nat) (v : Trunk) : (s.setTrk n v).timers = s.timers := rfl
@[simp] theorem State.setTrk_tb (s : State) (n : Nat) (v : Trunk) : (s.setTrk n v).tb = s.tb := rfl
@[simp] theorem State.setTrk_threads (s : State) (n : Nat) (v : Trunk) : (s.setTrk n v).threads = s.threads := rfl
@[simp] theorem State.setTrk_cores (s : State) (n : Nat) (v : Trunk) : (s.setTrk n v).cores = s.cores := rfl
@[simp] theorem State.setTrk_turns (s : State) (n : Nat) (v : Trunk) : (s.setTrk n v).turns = s.turns := rfl
@[simp] theorem State.setTrk_bellStacks (s : State) (n : Nat) (v : Trunk) : (s.setTrk n v).bellStacks = s.bellStacks := rfl
@[simp] theorem State.setTrk_bellFirst (s : State) (n : Nat) (v : Trunk) : (s.setTrk n v).bellFirst = s.bellFirst := rfl
@[simp] theorem State.setTrk_jtagDebug (s : State) (n : Nat) (v : Trunk) : (s.setTrk n v).jtagDebug = s.jtagDebug := rfl
@[simp] theorem State.setTrk_lanes (s : State) (n : Nat) (v : Trunk) : (s.setTrk n v).lanes = s.lanes := rfl
@[simp] theorem State.setTrk_quads (s : State) (n : Nat) (v : Trunk) : (s.setTrk n v).quads = s.quads := rfl
@[simp] theorem State.setTrk_parcels (s : State) (n : Nat) (v : Trunk) : (s.setTrk n v).parcels = s.parcels := rfl
@[simp] theorem State.setTrk_waiting (s : State) (n : Nat) (v : Trunk) : (s.setTrk n v).waiting = s.waiting := rfl
@[simp] theorem State.setTrk_nextParcel (s : State) (n : Nat) (v : Trunk) : (s.setTrk n v).nextParcel = s.nextParcel := rfl
@[simp] theorem State.setTrk_claims (s : State) (n : Nat) (v : Trunk) : (s.setTrk n v).claims = s.claims := rfl
@[simp] theorem State.setTrk_leafQ (s : State) (n : Nat) (v : Trunk) : (s.setTrk n v).leafQ = s.leafQ := rfl
@[simp] theorem State.setTrk_halls (s : State) (n : Nat) (v : Trunk) : (s.setTrk n v).halls = s.halls := rfl
@[simp] theorem State.setTrk_galLossy (s : State) (n : Nat) (v : Trunk) : (s.setTrk n v).galLossy = s.galLossy := rfl
@[simp] theorem State.setTrk_galCount (s : State) (n : Nat) (v : Trunk) : (s.setTrk n v).galCount = s.galCount := rfl
@[simp] theorem State.setTrk_versions (s : State) (n : Nat) (v : Trunk) : (s.setTrk n v).versions = s.versions := rfl
@[simp] theorem State.setTrk_meters (s : State) (n : Nat) (v : Trunk) : (s.setTrk n v).meters = s.meters := rfl
@[simp] theorem State.setTrk_nodes (s : State) (n : Nat) (v : Trunk) : (s.setTrk n v).nodes = s.nodes := rfl
@[simp] theorem State.setTrk_ports (s : State) (n : Nat) (v : Trunk) : (s.setTrk n v).ports = s.ports := rfl
@[simp] theorem State.setTrk_hosts (s : State) (n : Nat) (v : Trunk) : (s.setTrk n v).hosts = s.hosts := rfl
@[simp] theorem State.setTrk_prts (s : State) (n : Nat) (v : Trunk) : (s.setTrk n v).prts = s.prts := rfl
@[simp] theorem State.setTrk_mailboxes (s : State) (n : Nat) (v : Trunk) : (s.setTrk n v).mailboxes = s.mailboxes := rfl
@[simp] theorem State.setTrk_alcoves (s : State) (n : Nat) (v : Trunk) : (s.setTrk n v).alcoves = s.alcoves := rfl
@[simp] theorem State.setTrk_bridge (s : State) (n : Nat) (v : Trunk) : (s.setTrk n v).bridge = s.bridge := rfl
@[simp] theorem State.setTrk_reqs (s : State) (n : Nat) (v : Trunk) : (s.setTrk n v).reqs = s.reqs := rfl
@[simp] theorem State.setTrk_nextReq (s : State) (n : Nat) (v : Trunk) : (s.setTrk n v).nextReq = s.nextReq := rfl
@[simp] theorem State.setTrk_heads (s : State) (n : Nat) (v : Trunk) : (s.setTrk n v).heads = s.heads := rfl
@[simp] theorem State.setTrk_canvas (s : State) (n : Nat) (v : Trunk) : (s.setTrk n v).canvas = s.canvas := rfl
@[simp] theorem State.setTrk_tds (s : State) (n : Nat) (v : Trunk) : (s.setTrk n v).tds = s.tds := rfl
@[simp] theorem State.setTrk_beacons (s : State) (n : Nat) (v : Trunk) : (s.setTrk n v).beacons = s.beacons := rfl
@[simp] theorem State.setTrk_usb (s : State) (n : Nat) (v : Trunk) : (s.setTrk n v).usb = s.usb := rfl
@[simp] theorem State.setTrk_power (s : State) (n : Nat) (v : Trunk) : (s.setTrk n v).power = s.power := rfl
@[simp] theorem State.setTrk_warden (s : State) (n : Nat) (v : Trunk) : (s.setTrk n v).warden = s.warden := rfl
@[simp] theorem State.setTrk_chip (s : State) (n : Nat) (v : Trunk) : (s.setTrk n v).chip = s.chip := rfl
@[simp] theorem State.setTrk_bellSince (s : State) (n : Nat) (v : Trunk) : (s.setTrk n v).bellSince = s.bellSince := rfl
@[simp] theorem State.setTrk_aer (s : State) (n : Nat) (v : Trunk) : (s.setTrk n v).aer = s.aer := rfl
@[simp] theorem State.setTrk_out (s : State) (n : Nat) (v : Trunk) : (s.setTrk n v).out = s.out := rfl
@[simp] theorem State.setTrk_reply (s : State) (n : Nat) (v : Trunk) : (s.setTrk n v).reply = s.reply := rfl
@[simp] theorem State.setTrk_free (s : State) (n : Nat) (v : Trunk) : (s.setTrk n v).free = s.free := rfl
@[simp] theorem State.setTrk_pending (s : State) (n : Nat) (v : Trunk) : (s.setTrk n v).pending = s.pending := rfl

/-! `State.setHall` changes `halls` alone. -/

@[simp] theorem State.setHall_regs (s : State) (h : Nat) (v : HallSw) : (s.setHall h v).regs = s.regs := rfl
@[simp] theorem State.setHall_halves (s : State) (h : Nat) (v : HallSw) : (s.setHall h v).halves = s.halves := rfl
@[simp] theorem State.setHall_mem (s : State) (h : Nat) (v : HallSw) : (s.setHall h v).mem = s.mem := rfl
@[simp] theorem State.setHall_poisoned (s : State) (h : Nat) (v : HallSw) : (s.setHall h v).poisoned = s.poisoned := rfl
@[simp] theorem State.setHall_timers (s : State) (h : Nat) (v : HallSw) : (s.setHall h v).timers = s.timers := rfl
@[simp] theorem State.setHall_tb (s : State) (h : Nat) (v : HallSw) : (s.setHall h v).tb = s.tb := rfl
@[simp] theorem State.setHall_threads (s : State) (h : Nat) (v : HallSw) : (s.setHall h v).threads = s.threads := rfl
@[simp] theorem State.setHall_cores (s : State) (h : Nat) (v : HallSw) : (s.setHall h v).cores = s.cores := rfl
@[simp] theorem State.setHall_turns (s : State) (h : Nat) (v : HallSw) : (s.setHall h v).turns = s.turns := rfl
@[simp] theorem State.setHall_bellStacks (s : State) (h : Nat) (v : HallSw) : (s.setHall h v).bellStacks = s.bellStacks := rfl
@[simp] theorem State.setHall_bellFirst (s : State) (h : Nat) (v : HallSw) : (s.setHall h v).bellFirst = s.bellFirst := rfl
@[simp] theorem State.setHall_jtagDebug (s : State) (h : Nat) (v : HallSw) : (s.setHall h v).jtagDebug = s.jtagDebug := rfl
@[simp] theorem State.setHall_lanes (s : State) (h : Nat) (v : HallSw) : (s.setHall h v).lanes = s.lanes := rfl
@[simp] theorem State.setHall_quads (s : State) (h : Nat) (v : HallSw) : (s.setHall h v).quads = s.quads := rfl
@[simp] theorem State.setHall_trunks (s : State) (h : Nat) (v : HallSw) : (s.setHall h v).trunks = s.trunks := rfl
@[simp] theorem State.setHall_parcels (s : State) (h : Nat) (v : HallSw) : (s.setHall h v).parcels = s.parcels := rfl
@[simp] theorem State.setHall_waiting (s : State) (h : Nat) (v : HallSw) : (s.setHall h v).waiting = s.waiting := rfl
@[simp] theorem State.setHall_nextParcel (s : State) (h : Nat) (v : HallSw) : (s.setHall h v).nextParcel = s.nextParcel := rfl
@[simp] theorem State.setHall_claims (s : State) (h : Nat) (v : HallSw) : (s.setHall h v).claims = s.claims := rfl
@[simp] theorem State.setHall_leafQ (s : State) (h : Nat) (v : HallSw) : (s.setHall h v).leafQ = s.leafQ := rfl
@[simp] theorem State.setHall_galLossy (s : State) (h : Nat) (v : HallSw) : (s.setHall h v).galLossy = s.galLossy := rfl
@[simp] theorem State.setHall_galCount (s : State) (h : Nat) (v : HallSw) : (s.setHall h v).galCount = s.galCount := rfl
@[simp] theorem State.setHall_versions (s : State) (h : Nat) (v : HallSw) : (s.setHall h v).versions = s.versions := rfl
@[simp] theorem State.setHall_meters (s : State) (h : Nat) (v : HallSw) : (s.setHall h v).meters = s.meters := rfl
@[simp] theorem State.setHall_nodes (s : State) (h : Nat) (v : HallSw) : (s.setHall h v).nodes = s.nodes := rfl
@[simp] theorem State.setHall_ports (s : State) (h : Nat) (v : HallSw) : (s.setHall h v).ports = s.ports := rfl
@[simp] theorem State.setHall_hosts (s : State) (h : Nat) (v : HallSw) : (s.setHall h v).hosts = s.hosts := rfl
@[simp] theorem State.setHall_prts (s : State) (h : Nat) (v : HallSw) : (s.setHall h v).prts = s.prts := rfl
@[simp] theorem State.setHall_mailboxes (s : State) (h : Nat) (v : HallSw) : (s.setHall h v).mailboxes = s.mailboxes := rfl
@[simp] theorem State.setHall_alcoves (s : State) (h : Nat) (v : HallSw) : (s.setHall h v).alcoves = s.alcoves := rfl
@[simp] theorem State.setHall_bridge (s : State) (h : Nat) (v : HallSw) : (s.setHall h v).bridge = s.bridge := rfl
@[simp] theorem State.setHall_reqs (s : State) (h : Nat) (v : HallSw) : (s.setHall h v).reqs = s.reqs := rfl
@[simp] theorem State.setHall_nextReq (s : State) (h : Nat) (v : HallSw) : (s.setHall h v).nextReq = s.nextReq := rfl
@[simp] theorem State.setHall_heads (s : State) (h : Nat) (v : HallSw) : (s.setHall h v).heads = s.heads := rfl
@[simp] theorem State.setHall_canvas (s : State) (h : Nat) (v : HallSw) : (s.setHall h v).canvas = s.canvas := rfl
@[simp] theorem State.setHall_tds (s : State) (h : Nat) (v : HallSw) : (s.setHall h v).tds = s.tds := rfl
@[simp] theorem State.setHall_beacons (s : State) (h : Nat) (v : HallSw) : (s.setHall h v).beacons = s.beacons := rfl
@[simp] theorem State.setHall_usb (s : State) (h : Nat) (v : HallSw) : (s.setHall h v).usb = s.usb := rfl
@[simp] theorem State.setHall_power (s : State) (h : Nat) (v : HallSw) : (s.setHall h v).power = s.power := rfl
@[simp] theorem State.setHall_warden (s : State) (h : Nat) (v : HallSw) : (s.setHall h v).warden = s.warden := rfl
@[simp] theorem State.setHall_chip (s : State) (h : Nat) (v : HallSw) : (s.setHall h v).chip = s.chip := rfl
@[simp] theorem State.setHall_bellSince (s : State) (h : Nat) (v : HallSw) : (s.setHall h v).bellSince = s.bellSince := rfl
@[simp] theorem State.setHall_aer (s : State) (h : Nat) (v : HallSw) : (s.setHall h v).aer = s.aer := rfl
@[simp] theorem State.setHall_out (s : State) (h : Nat) (v : HallSw) : (s.setHall h v).out = s.out := rfl
@[simp] theorem State.setHall_reply (s : State) (h : Nat) (v : HallSw) : (s.setHall h v).reply = s.reply := rfl
@[simp] theorem State.setHall_free (s : State) (h : Nat) (v : HallSw) : (s.setHall h v).free = s.free := rfl
@[simp] theorem State.setHall_pending (s : State) (h : Nat) (v : HallSw) : (s.setHall h v).pending = s.pending := rfl

/-! `State.setPort` changes `ports` alone. -/

@[simp] theorem State.setPort_regs (s : State) (p : Nat) (v : SchedPort) : (s.setPort p v).regs = s.regs := rfl
@[simp] theorem State.setPort_halves (s : State) (p : Nat) (v : SchedPort) : (s.setPort p v).halves = s.halves := rfl
@[simp] theorem State.setPort_mem (s : State) (p : Nat) (v : SchedPort) : (s.setPort p v).mem = s.mem := rfl
@[simp] theorem State.setPort_poisoned (s : State) (p : Nat) (v : SchedPort) : (s.setPort p v).poisoned = s.poisoned := rfl
@[simp] theorem State.setPort_timers (s : State) (p : Nat) (v : SchedPort) : (s.setPort p v).timers = s.timers := rfl
@[simp] theorem State.setPort_tb (s : State) (p : Nat) (v : SchedPort) : (s.setPort p v).tb = s.tb := rfl
@[simp] theorem State.setPort_threads (s : State) (p : Nat) (v : SchedPort) : (s.setPort p v).threads = s.threads := rfl
@[simp] theorem State.setPort_cores (s : State) (p : Nat) (v : SchedPort) : (s.setPort p v).cores = s.cores := rfl
@[simp] theorem State.setPort_turns (s : State) (p : Nat) (v : SchedPort) : (s.setPort p v).turns = s.turns := rfl
@[simp] theorem State.setPort_bellStacks (s : State) (p : Nat) (v : SchedPort) : (s.setPort p v).bellStacks = s.bellStacks := rfl
@[simp] theorem State.setPort_bellFirst (s : State) (p : Nat) (v : SchedPort) : (s.setPort p v).bellFirst = s.bellFirst := rfl
@[simp] theorem State.setPort_jtagDebug (s : State) (p : Nat) (v : SchedPort) : (s.setPort p v).jtagDebug = s.jtagDebug := rfl
@[simp] theorem State.setPort_lanes (s : State) (p : Nat) (v : SchedPort) : (s.setPort p v).lanes = s.lanes := rfl
@[simp] theorem State.setPort_quads (s : State) (p : Nat) (v : SchedPort) : (s.setPort p v).quads = s.quads := rfl
@[simp] theorem State.setPort_trunks (s : State) (p : Nat) (v : SchedPort) : (s.setPort p v).trunks = s.trunks := rfl
@[simp] theorem State.setPort_parcels (s : State) (p : Nat) (v : SchedPort) : (s.setPort p v).parcels = s.parcels := rfl
@[simp] theorem State.setPort_waiting (s : State) (p : Nat) (v : SchedPort) : (s.setPort p v).waiting = s.waiting := rfl
@[simp] theorem State.setPort_nextParcel (s : State) (p : Nat) (v : SchedPort) : (s.setPort p v).nextParcel = s.nextParcel := rfl
@[simp] theorem State.setPort_claims (s : State) (p : Nat) (v : SchedPort) : (s.setPort p v).claims = s.claims := rfl
@[simp] theorem State.setPort_leafQ (s : State) (p : Nat) (v : SchedPort) : (s.setPort p v).leafQ = s.leafQ := rfl
@[simp] theorem State.setPort_halls (s : State) (p : Nat) (v : SchedPort) : (s.setPort p v).halls = s.halls := rfl
@[simp] theorem State.setPort_galLossy (s : State) (p : Nat) (v : SchedPort) : (s.setPort p v).galLossy = s.galLossy := rfl
@[simp] theorem State.setPort_galCount (s : State) (p : Nat) (v : SchedPort) : (s.setPort p v).galCount = s.galCount := rfl
@[simp] theorem State.setPort_versions (s : State) (p : Nat) (v : SchedPort) : (s.setPort p v).versions = s.versions := rfl
@[simp] theorem State.setPort_meters (s : State) (p : Nat) (v : SchedPort) : (s.setPort p v).meters = s.meters := rfl
@[simp] theorem State.setPort_nodes (s : State) (p : Nat) (v : SchedPort) : (s.setPort p v).nodes = s.nodes := rfl
@[simp] theorem State.setPort_hosts (s : State) (p : Nat) (v : SchedPort) : (s.setPort p v).hosts = s.hosts := rfl
@[simp] theorem State.setPort_prts (s : State) (p : Nat) (v : SchedPort) : (s.setPort p v).prts = s.prts := rfl
@[simp] theorem State.setPort_mailboxes (s : State) (p : Nat) (v : SchedPort) : (s.setPort p v).mailboxes = s.mailboxes := rfl
@[simp] theorem State.setPort_alcoves (s : State) (p : Nat) (v : SchedPort) : (s.setPort p v).alcoves = s.alcoves := rfl
@[simp] theorem State.setPort_bridge (s : State) (p : Nat) (v : SchedPort) : (s.setPort p v).bridge = s.bridge := rfl
@[simp] theorem State.setPort_reqs (s : State) (p : Nat) (v : SchedPort) : (s.setPort p v).reqs = s.reqs := rfl
@[simp] theorem State.setPort_nextReq (s : State) (p : Nat) (v : SchedPort) : (s.setPort p v).nextReq = s.nextReq := rfl
@[simp] theorem State.setPort_heads (s : State) (p : Nat) (v : SchedPort) : (s.setPort p v).heads = s.heads := rfl
@[simp] theorem State.setPort_canvas (s : State) (p : Nat) (v : SchedPort) : (s.setPort p v).canvas = s.canvas := rfl
@[simp] theorem State.setPort_tds (s : State) (p : Nat) (v : SchedPort) : (s.setPort p v).tds = s.tds := rfl
@[simp] theorem State.setPort_beacons (s : State) (p : Nat) (v : SchedPort) : (s.setPort p v).beacons = s.beacons := rfl
@[simp] theorem State.setPort_usb (s : State) (p : Nat) (v : SchedPort) : (s.setPort p v).usb = s.usb := rfl
@[simp] theorem State.setPort_power (s : State) (p : Nat) (v : SchedPort) : (s.setPort p v).power = s.power := rfl
@[simp] theorem State.setPort_warden (s : State) (p : Nat) (v : SchedPort) : (s.setPort p v).warden = s.warden := rfl
@[simp] theorem State.setPort_chip (s : State) (p : Nat) (v : SchedPort) : (s.setPort p v).chip = s.chip := rfl
@[simp] theorem State.setPort_bellSince (s : State) (p : Nat) (v : SchedPort) : (s.setPort p v).bellSince = s.bellSince := rfl
@[simp] theorem State.setPort_aer (s : State) (p : Nat) (v : SchedPort) : (s.setPort p v).aer = s.aer := rfl
@[simp] theorem State.setPort_out (s : State) (p : Nat) (v : SchedPort) : (s.setPort p v).out = s.out := rfl
@[simp] theorem State.setPort_reply (s : State) (p : Nat) (v : SchedPort) : (s.setPort p v).reply = s.reply := rfl
@[simp] theorem State.setPort_free (s : State) (p : Nat) (v : SchedPort) : (s.setPort p v).free = s.free := rfl
@[simp] theorem State.setPort_pending (s : State) (p : Nat) (v : SchedPort) : (s.setPort p v).pending = s.pending := rfl

/-! `State.setNode` changes `nodes` alone. -/

@[simp] theorem State.setNode_regs (s : State) (id : Nat) (v : SchedNode) : (s.setNode id v).regs = s.regs := rfl
@[simp] theorem State.setNode_halves (s : State) (id : Nat) (v : SchedNode) : (s.setNode id v).halves = s.halves := rfl
@[simp] theorem State.setNode_mem (s : State) (id : Nat) (v : SchedNode) : (s.setNode id v).mem = s.mem := rfl
@[simp] theorem State.setNode_poisoned (s : State) (id : Nat) (v : SchedNode) : (s.setNode id v).poisoned = s.poisoned := rfl
@[simp] theorem State.setNode_timers (s : State) (id : Nat) (v : SchedNode) : (s.setNode id v).timers = s.timers := rfl
@[simp] theorem State.setNode_tb (s : State) (id : Nat) (v : SchedNode) : (s.setNode id v).tb = s.tb := rfl
@[simp] theorem State.setNode_threads (s : State) (id : Nat) (v : SchedNode) : (s.setNode id v).threads = s.threads := rfl
@[simp] theorem State.setNode_cores (s : State) (id : Nat) (v : SchedNode) : (s.setNode id v).cores = s.cores := rfl
@[simp] theorem State.setNode_turns (s : State) (id : Nat) (v : SchedNode) : (s.setNode id v).turns = s.turns := rfl
@[simp] theorem State.setNode_bellStacks (s : State) (id : Nat) (v : SchedNode) : (s.setNode id v).bellStacks = s.bellStacks := rfl
@[simp] theorem State.setNode_bellFirst (s : State) (id : Nat) (v : SchedNode) : (s.setNode id v).bellFirst = s.bellFirst := rfl
@[simp] theorem State.setNode_jtagDebug (s : State) (id : Nat) (v : SchedNode) : (s.setNode id v).jtagDebug = s.jtagDebug := rfl
@[simp] theorem State.setNode_lanes (s : State) (id : Nat) (v : SchedNode) : (s.setNode id v).lanes = s.lanes := rfl
@[simp] theorem State.setNode_quads (s : State) (id : Nat) (v : SchedNode) : (s.setNode id v).quads = s.quads := rfl
@[simp] theorem State.setNode_trunks (s : State) (id : Nat) (v : SchedNode) : (s.setNode id v).trunks = s.trunks := rfl
@[simp] theorem State.setNode_parcels (s : State) (id : Nat) (v : SchedNode) : (s.setNode id v).parcels = s.parcels := rfl
@[simp] theorem State.setNode_waiting (s : State) (id : Nat) (v : SchedNode) : (s.setNode id v).waiting = s.waiting := rfl
@[simp] theorem State.setNode_nextParcel (s : State) (id : Nat) (v : SchedNode) : (s.setNode id v).nextParcel = s.nextParcel := rfl
@[simp] theorem State.setNode_claims (s : State) (id : Nat) (v : SchedNode) : (s.setNode id v).claims = s.claims := rfl
@[simp] theorem State.setNode_leafQ (s : State) (id : Nat) (v : SchedNode) : (s.setNode id v).leafQ = s.leafQ := rfl
@[simp] theorem State.setNode_halls (s : State) (id : Nat) (v : SchedNode) : (s.setNode id v).halls = s.halls := rfl
@[simp] theorem State.setNode_galLossy (s : State) (id : Nat) (v : SchedNode) : (s.setNode id v).galLossy = s.galLossy := rfl
@[simp] theorem State.setNode_galCount (s : State) (id : Nat) (v : SchedNode) : (s.setNode id v).galCount = s.galCount := rfl
@[simp] theorem State.setNode_versions (s : State) (id : Nat) (v : SchedNode) : (s.setNode id v).versions = s.versions := rfl
@[simp] theorem State.setNode_meters (s : State) (id : Nat) (v : SchedNode) : (s.setNode id v).meters = s.meters := rfl
@[simp] theorem State.setNode_ports (s : State) (id : Nat) (v : SchedNode) : (s.setNode id v).ports = s.ports := rfl
@[simp] theorem State.setNode_hosts (s : State) (id : Nat) (v : SchedNode) : (s.setNode id v).hosts = s.hosts := rfl
@[simp] theorem State.setNode_prts (s : State) (id : Nat) (v : SchedNode) : (s.setNode id v).prts = s.prts := rfl
@[simp] theorem State.setNode_mailboxes (s : State) (id : Nat) (v : SchedNode) : (s.setNode id v).mailboxes = s.mailboxes := rfl
@[simp] theorem State.setNode_alcoves (s : State) (id : Nat) (v : SchedNode) : (s.setNode id v).alcoves = s.alcoves := rfl
@[simp] theorem State.setNode_bridge (s : State) (id : Nat) (v : SchedNode) : (s.setNode id v).bridge = s.bridge := rfl
@[simp] theorem State.setNode_reqs (s : State) (id : Nat) (v : SchedNode) : (s.setNode id v).reqs = s.reqs := rfl
@[simp] theorem State.setNode_nextReq (s : State) (id : Nat) (v : SchedNode) : (s.setNode id v).nextReq = s.nextReq := rfl
@[simp] theorem State.setNode_heads (s : State) (id : Nat) (v : SchedNode) : (s.setNode id v).heads = s.heads := rfl
@[simp] theorem State.setNode_canvas (s : State) (id : Nat) (v : SchedNode) : (s.setNode id v).canvas = s.canvas := rfl
@[simp] theorem State.setNode_tds (s : State) (id : Nat) (v : SchedNode) : (s.setNode id v).tds = s.tds := rfl
@[simp] theorem State.setNode_beacons (s : State) (id : Nat) (v : SchedNode) : (s.setNode id v).beacons = s.beacons := rfl
@[simp] theorem State.setNode_usb (s : State) (id : Nat) (v : SchedNode) : (s.setNode id v).usb = s.usb := rfl
@[simp] theorem State.setNode_power (s : State) (id : Nat) (v : SchedNode) : (s.setNode id v).power = s.power := rfl
@[simp] theorem State.setNode_warden (s : State) (id : Nat) (v : SchedNode) : (s.setNode id v).warden = s.warden := rfl
@[simp] theorem State.setNode_chip (s : State) (id : Nat) (v : SchedNode) : (s.setNode id v).chip = s.chip := rfl
@[simp] theorem State.setNode_bellSince (s : State) (id : Nat) (v : SchedNode) : (s.setNode id v).bellSince = s.bellSince := rfl
@[simp] theorem State.setNode_aer (s : State) (id : Nat) (v : SchedNode) : (s.setNode id v).aer = s.aer := rfl
@[simp] theorem State.setNode_out (s : State) (id : Nat) (v : SchedNode) : (s.setNode id v).out = s.out := rfl
@[simp] theorem State.setNode_reply (s : State) (id : Nat) (v : SchedNode) : (s.setNode id v).reply = s.reply := rfl
@[simp] theorem State.setNode_free (s : State) (id : Nat) (v : SchedNode) : (s.setNode id v).free = s.free := rfl
@[simp] theorem State.setNode_pending (s : State) (id : Nat) (v : SchedNode) : (s.setNode id v).pending = s.pending := rfl

/-! `State.setHostSt` changes `hosts` alone. -/

@[simp] theorem State.setHostSt_regs (s : State) (h : Nat) (v : HostSt) : (s.setHostSt h v).regs = s.regs := rfl
@[simp] theorem State.setHostSt_halves (s : State) (h : Nat) (v : HostSt) : (s.setHostSt h v).halves = s.halves := rfl
@[simp] theorem State.setHostSt_mem (s : State) (h : Nat) (v : HostSt) : (s.setHostSt h v).mem = s.mem := rfl
@[simp] theorem State.setHostSt_poisoned (s : State) (h : Nat) (v : HostSt) : (s.setHostSt h v).poisoned = s.poisoned := rfl
@[simp] theorem State.setHostSt_timers (s : State) (h : Nat) (v : HostSt) : (s.setHostSt h v).timers = s.timers := rfl
@[simp] theorem State.setHostSt_tb (s : State) (h : Nat) (v : HostSt) : (s.setHostSt h v).tb = s.tb := rfl
@[simp] theorem State.setHostSt_threads (s : State) (h : Nat) (v : HostSt) : (s.setHostSt h v).threads = s.threads := rfl
@[simp] theorem State.setHostSt_cores (s : State) (h : Nat) (v : HostSt) : (s.setHostSt h v).cores = s.cores := rfl
@[simp] theorem State.setHostSt_turns (s : State) (h : Nat) (v : HostSt) : (s.setHostSt h v).turns = s.turns := rfl
@[simp] theorem State.setHostSt_bellStacks (s : State) (h : Nat) (v : HostSt) : (s.setHostSt h v).bellStacks = s.bellStacks := rfl
@[simp] theorem State.setHostSt_bellFirst (s : State) (h : Nat) (v : HostSt) : (s.setHostSt h v).bellFirst = s.bellFirst := rfl
@[simp] theorem State.setHostSt_jtagDebug (s : State) (h : Nat) (v : HostSt) : (s.setHostSt h v).jtagDebug = s.jtagDebug := rfl
@[simp] theorem State.setHostSt_lanes (s : State) (h : Nat) (v : HostSt) : (s.setHostSt h v).lanes = s.lanes := rfl
@[simp] theorem State.setHostSt_quads (s : State) (h : Nat) (v : HostSt) : (s.setHostSt h v).quads = s.quads := rfl
@[simp] theorem State.setHostSt_trunks (s : State) (h : Nat) (v : HostSt) : (s.setHostSt h v).trunks = s.trunks := rfl
@[simp] theorem State.setHostSt_parcels (s : State) (h : Nat) (v : HostSt) : (s.setHostSt h v).parcels = s.parcels := rfl
@[simp] theorem State.setHostSt_waiting (s : State) (h : Nat) (v : HostSt) : (s.setHostSt h v).waiting = s.waiting := rfl
@[simp] theorem State.setHostSt_nextParcel (s : State) (h : Nat) (v : HostSt) : (s.setHostSt h v).nextParcel = s.nextParcel := rfl
@[simp] theorem State.setHostSt_claims (s : State) (h : Nat) (v : HostSt) : (s.setHostSt h v).claims = s.claims := rfl
@[simp] theorem State.setHostSt_leafQ (s : State) (h : Nat) (v : HostSt) : (s.setHostSt h v).leafQ = s.leafQ := rfl
@[simp] theorem State.setHostSt_halls (s : State) (h : Nat) (v : HostSt) : (s.setHostSt h v).halls = s.halls := rfl
@[simp] theorem State.setHostSt_galLossy (s : State) (h : Nat) (v : HostSt) : (s.setHostSt h v).galLossy = s.galLossy := rfl
@[simp] theorem State.setHostSt_galCount (s : State) (h : Nat) (v : HostSt) : (s.setHostSt h v).galCount = s.galCount := rfl
@[simp] theorem State.setHostSt_versions (s : State) (h : Nat) (v : HostSt) : (s.setHostSt h v).versions = s.versions := rfl
@[simp] theorem State.setHostSt_meters (s : State) (h : Nat) (v : HostSt) : (s.setHostSt h v).meters = s.meters := rfl
@[simp] theorem State.setHostSt_nodes (s : State) (h : Nat) (v : HostSt) : (s.setHostSt h v).nodes = s.nodes := rfl
@[simp] theorem State.setHostSt_ports (s : State) (h : Nat) (v : HostSt) : (s.setHostSt h v).ports = s.ports := rfl
@[simp] theorem State.setHostSt_prts (s : State) (h : Nat) (v : HostSt) : (s.setHostSt h v).prts = s.prts := rfl
@[simp] theorem State.setHostSt_mailboxes (s : State) (h : Nat) (v : HostSt) : (s.setHostSt h v).mailboxes = s.mailboxes := rfl
@[simp] theorem State.setHostSt_alcoves (s : State) (h : Nat) (v : HostSt) : (s.setHostSt h v).alcoves = s.alcoves := rfl
@[simp] theorem State.setHostSt_bridge (s : State) (h : Nat) (v : HostSt) : (s.setHostSt h v).bridge = s.bridge := rfl
@[simp] theorem State.setHostSt_reqs (s : State) (h : Nat) (v : HostSt) : (s.setHostSt h v).reqs = s.reqs := rfl
@[simp] theorem State.setHostSt_nextReq (s : State) (h : Nat) (v : HostSt) : (s.setHostSt h v).nextReq = s.nextReq := rfl
@[simp] theorem State.setHostSt_heads (s : State) (h : Nat) (v : HostSt) : (s.setHostSt h v).heads = s.heads := rfl
@[simp] theorem State.setHostSt_canvas (s : State) (h : Nat) (v : HostSt) : (s.setHostSt h v).canvas = s.canvas := rfl
@[simp] theorem State.setHostSt_tds (s : State) (h : Nat) (v : HostSt) : (s.setHostSt h v).tds = s.tds := rfl
@[simp] theorem State.setHostSt_beacons (s : State) (h : Nat) (v : HostSt) : (s.setHostSt h v).beacons = s.beacons := rfl
@[simp] theorem State.setHostSt_usb (s : State) (h : Nat) (v : HostSt) : (s.setHostSt h v).usb = s.usb := rfl
@[simp] theorem State.setHostSt_power (s : State) (h : Nat) (v : HostSt) : (s.setHostSt h v).power = s.power := rfl
@[simp] theorem State.setHostSt_warden (s : State) (h : Nat) (v : HostSt) : (s.setHostSt h v).warden = s.warden := rfl
@[simp] theorem State.setHostSt_chip (s : State) (h : Nat) (v : HostSt) : (s.setHostSt h v).chip = s.chip := rfl
@[simp] theorem State.setHostSt_bellSince (s : State) (h : Nat) (v : HostSt) : (s.setHostSt h v).bellSince = s.bellSince := rfl
@[simp] theorem State.setHostSt_aer (s : State) (h : Nat) (v : HostSt) : (s.setHostSt h v).aer = s.aer := rfl
@[simp] theorem State.setHostSt_out (s : State) (h : Nat) (v : HostSt) : (s.setHostSt h v).out = s.out := rfl
@[simp] theorem State.setHostSt_reply (s : State) (h : Nat) (v : HostSt) : (s.setHostSt h v).reply = s.reply := rfl
@[simp] theorem State.setHostSt_free (s : State) (h : Nat) (v : HostSt) : (s.setHostSt h v).free = s.free := rfl
@[simp] theorem State.setHostSt_pending (s : State) (h : Nat) (v : HostSt) : (s.setHostSt h v).pending = s.pending := rfl

/-! `State.setPrt` changes `prts` alone. -/

@[simp] theorem State.setPrt_regs (s : State) (k : Nat) (v : RootPort) : (s.setPrt k v).regs = s.regs := rfl
@[simp] theorem State.setPrt_halves (s : State) (k : Nat) (v : RootPort) : (s.setPrt k v).halves = s.halves := rfl
@[simp] theorem State.setPrt_mem (s : State) (k : Nat) (v : RootPort) : (s.setPrt k v).mem = s.mem := rfl
@[simp] theorem State.setPrt_poisoned (s : State) (k : Nat) (v : RootPort) : (s.setPrt k v).poisoned = s.poisoned := rfl
@[simp] theorem State.setPrt_timers (s : State) (k : Nat) (v : RootPort) : (s.setPrt k v).timers = s.timers := rfl
@[simp] theorem State.setPrt_tb (s : State) (k : Nat) (v : RootPort) : (s.setPrt k v).tb = s.tb := rfl
@[simp] theorem State.setPrt_threads (s : State) (k : Nat) (v : RootPort) : (s.setPrt k v).threads = s.threads := rfl
@[simp] theorem State.setPrt_cores (s : State) (k : Nat) (v : RootPort) : (s.setPrt k v).cores = s.cores := rfl
@[simp] theorem State.setPrt_turns (s : State) (k : Nat) (v : RootPort) : (s.setPrt k v).turns = s.turns := rfl
@[simp] theorem State.setPrt_bellStacks (s : State) (k : Nat) (v : RootPort) : (s.setPrt k v).bellStacks = s.bellStacks := rfl
@[simp] theorem State.setPrt_bellFirst (s : State) (k : Nat) (v : RootPort) : (s.setPrt k v).bellFirst = s.bellFirst := rfl
@[simp] theorem State.setPrt_jtagDebug (s : State) (k : Nat) (v : RootPort) : (s.setPrt k v).jtagDebug = s.jtagDebug := rfl
@[simp] theorem State.setPrt_lanes (s : State) (k : Nat) (v : RootPort) : (s.setPrt k v).lanes = s.lanes := rfl
@[simp] theorem State.setPrt_quads (s : State) (k : Nat) (v : RootPort) : (s.setPrt k v).quads = s.quads := rfl
@[simp] theorem State.setPrt_trunks (s : State) (k : Nat) (v : RootPort) : (s.setPrt k v).trunks = s.trunks := rfl
@[simp] theorem State.setPrt_parcels (s : State) (k : Nat) (v : RootPort) : (s.setPrt k v).parcels = s.parcels := rfl
@[simp] theorem State.setPrt_waiting (s : State) (k : Nat) (v : RootPort) : (s.setPrt k v).waiting = s.waiting := rfl
@[simp] theorem State.setPrt_nextParcel (s : State) (k : Nat) (v : RootPort) : (s.setPrt k v).nextParcel = s.nextParcel := rfl
@[simp] theorem State.setPrt_claims (s : State) (k : Nat) (v : RootPort) : (s.setPrt k v).claims = s.claims := rfl
@[simp] theorem State.setPrt_leafQ (s : State) (k : Nat) (v : RootPort) : (s.setPrt k v).leafQ = s.leafQ := rfl
@[simp] theorem State.setPrt_halls (s : State) (k : Nat) (v : RootPort) : (s.setPrt k v).halls = s.halls := rfl
@[simp] theorem State.setPrt_galLossy (s : State) (k : Nat) (v : RootPort) : (s.setPrt k v).galLossy = s.galLossy := rfl
@[simp] theorem State.setPrt_galCount (s : State) (k : Nat) (v : RootPort) : (s.setPrt k v).galCount = s.galCount := rfl
@[simp] theorem State.setPrt_versions (s : State) (k : Nat) (v : RootPort) : (s.setPrt k v).versions = s.versions := rfl
@[simp] theorem State.setPrt_meters (s : State) (k : Nat) (v : RootPort) : (s.setPrt k v).meters = s.meters := rfl
@[simp] theorem State.setPrt_nodes (s : State) (k : Nat) (v : RootPort) : (s.setPrt k v).nodes = s.nodes := rfl
@[simp] theorem State.setPrt_ports (s : State) (k : Nat) (v : RootPort) : (s.setPrt k v).ports = s.ports := rfl
@[simp] theorem State.setPrt_hosts (s : State) (k : Nat) (v : RootPort) : (s.setPrt k v).hosts = s.hosts := rfl
@[simp] theorem State.setPrt_mailboxes (s : State) (k : Nat) (v : RootPort) : (s.setPrt k v).mailboxes = s.mailboxes := rfl
@[simp] theorem State.setPrt_alcoves (s : State) (k : Nat) (v : RootPort) : (s.setPrt k v).alcoves = s.alcoves := rfl
@[simp] theorem State.setPrt_bridge (s : State) (k : Nat) (v : RootPort) : (s.setPrt k v).bridge = s.bridge := rfl
@[simp] theorem State.setPrt_reqs (s : State) (k : Nat) (v : RootPort) : (s.setPrt k v).reqs = s.reqs := rfl
@[simp] theorem State.setPrt_nextReq (s : State) (k : Nat) (v : RootPort) : (s.setPrt k v).nextReq = s.nextReq := rfl
@[simp] theorem State.setPrt_heads (s : State) (k : Nat) (v : RootPort) : (s.setPrt k v).heads = s.heads := rfl
@[simp] theorem State.setPrt_canvas (s : State) (k : Nat) (v : RootPort) : (s.setPrt k v).canvas = s.canvas := rfl
@[simp] theorem State.setPrt_tds (s : State) (k : Nat) (v : RootPort) : (s.setPrt k v).tds = s.tds := rfl
@[simp] theorem State.setPrt_beacons (s : State) (k : Nat) (v : RootPort) : (s.setPrt k v).beacons = s.beacons := rfl
@[simp] theorem State.setPrt_usb (s : State) (k : Nat) (v : RootPort) : (s.setPrt k v).usb = s.usb := rfl
@[simp] theorem State.setPrt_power (s : State) (k : Nat) (v : RootPort) : (s.setPrt k v).power = s.power := rfl
@[simp] theorem State.setPrt_warden (s : State) (k : Nat) (v : RootPort) : (s.setPrt k v).warden = s.warden := rfl
@[simp] theorem State.setPrt_chip (s : State) (k : Nat) (v : RootPort) : (s.setPrt k v).chip = s.chip := rfl
@[simp] theorem State.setPrt_bellSince (s : State) (k : Nat) (v : RootPort) : (s.setPrt k v).bellSince = s.bellSince := rfl
@[simp] theorem State.setPrt_aer (s : State) (k : Nat) (v : RootPort) : (s.setPrt k v).aer = s.aer := rfl
@[simp] theorem State.setPrt_out (s : State) (k : Nat) (v : RootPort) : (s.setPrt k v).out = s.out := rfl
@[simp] theorem State.setPrt_reply (s : State) (k : Nat) (v : RootPort) : (s.setPrt k v).reply = s.reply := rfl
@[simp] theorem State.setPrt_free (s : State) (k : Nat) (v : RootPort) : (s.setPrt k v).free = s.free := rfl
@[simp] theorem State.setPrt_pending (s : State) (k : Nat) (v : RootPort) : (s.setPrt k v).pending = s.pending := rfl

/-! `State.setMbx` changes `mailboxes` alone. -/

@[simp] theorem State.setMbx_regs (s : State) (m : Nat) (v : Mailbox) : (s.setMbx m v).regs = s.regs := rfl
@[simp] theorem State.setMbx_halves (s : State) (m : Nat) (v : Mailbox) : (s.setMbx m v).halves = s.halves := rfl
@[simp] theorem State.setMbx_mem (s : State) (m : Nat) (v : Mailbox) : (s.setMbx m v).mem = s.mem := rfl
@[simp] theorem State.setMbx_poisoned (s : State) (m : Nat) (v : Mailbox) : (s.setMbx m v).poisoned = s.poisoned := rfl
@[simp] theorem State.setMbx_timers (s : State) (m : Nat) (v : Mailbox) : (s.setMbx m v).timers = s.timers := rfl
@[simp] theorem State.setMbx_tb (s : State) (m : Nat) (v : Mailbox) : (s.setMbx m v).tb = s.tb := rfl
@[simp] theorem State.setMbx_threads (s : State) (m : Nat) (v : Mailbox) : (s.setMbx m v).threads = s.threads := rfl
@[simp] theorem State.setMbx_cores (s : State) (m : Nat) (v : Mailbox) : (s.setMbx m v).cores = s.cores := rfl
@[simp] theorem State.setMbx_turns (s : State) (m : Nat) (v : Mailbox) : (s.setMbx m v).turns = s.turns := rfl
@[simp] theorem State.setMbx_bellStacks (s : State) (m : Nat) (v : Mailbox) : (s.setMbx m v).bellStacks = s.bellStacks := rfl
@[simp] theorem State.setMbx_bellFirst (s : State) (m : Nat) (v : Mailbox) : (s.setMbx m v).bellFirst = s.bellFirst := rfl
@[simp] theorem State.setMbx_jtagDebug (s : State) (m : Nat) (v : Mailbox) : (s.setMbx m v).jtagDebug = s.jtagDebug := rfl
@[simp] theorem State.setMbx_lanes (s : State) (m : Nat) (v : Mailbox) : (s.setMbx m v).lanes = s.lanes := rfl
@[simp] theorem State.setMbx_quads (s : State) (m : Nat) (v : Mailbox) : (s.setMbx m v).quads = s.quads := rfl
@[simp] theorem State.setMbx_trunks (s : State) (m : Nat) (v : Mailbox) : (s.setMbx m v).trunks = s.trunks := rfl
@[simp] theorem State.setMbx_parcels (s : State) (m : Nat) (v : Mailbox) : (s.setMbx m v).parcels = s.parcels := rfl
@[simp] theorem State.setMbx_waiting (s : State) (m : Nat) (v : Mailbox) : (s.setMbx m v).waiting = s.waiting := rfl
@[simp] theorem State.setMbx_nextParcel (s : State) (m : Nat) (v : Mailbox) : (s.setMbx m v).nextParcel = s.nextParcel := rfl
@[simp] theorem State.setMbx_claims (s : State) (m : Nat) (v : Mailbox) : (s.setMbx m v).claims = s.claims := rfl
@[simp] theorem State.setMbx_leafQ (s : State) (m : Nat) (v : Mailbox) : (s.setMbx m v).leafQ = s.leafQ := rfl
@[simp] theorem State.setMbx_halls (s : State) (m : Nat) (v : Mailbox) : (s.setMbx m v).halls = s.halls := rfl
@[simp] theorem State.setMbx_galLossy (s : State) (m : Nat) (v : Mailbox) : (s.setMbx m v).galLossy = s.galLossy := rfl
@[simp] theorem State.setMbx_galCount (s : State) (m : Nat) (v : Mailbox) : (s.setMbx m v).galCount = s.galCount := rfl
@[simp] theorem State.setMbx_versions (s : State) (m : Nat) (v : Mailbox) : (s.setMbx m v).versions = s.versions := rfl
@[simp] theorem State.setMbx_meters (s : State) (m : Nat) (v : Mailbox) : (s.setMbx m v).meters = s.meters := rfl
@[simp] theorem State.setMbx_nodes (s : State) (m : Nat) (v : Mailbox) : (s.setMbx m v).nodes = s.nodes := rfl
@[simp] theorem State.setMbx_ports (s : State) (m : Nat) (v : Mailbox) : (s.setMbx m v).ports = s.ports := rfl
@[simp] theorem State.setMbx_hosts (s : State) (m : Nat) (v : Mailbox) : (s.setMbx m v).hosts = s.hosts := rfl
@[simp] theorem State.setMbx_prts (s : State) (m : Nat) (v : Mailbox) : (s.setMbx m v).prts = s.prts := rfl
@[simp] theorem State.setMbx_alcoves (s : State) (m : Nat) (v : Mailbox) : (s.setMbx m v).alcoves = s.alcoves := rfl
@[simp] theorem State.setMbx_bridge (s : State) (m : Nat) (v : Mailbox) : (s.setMbx m v).bridge = s.bridge := rfl
@[simp] theorem State.setMbx_reqs (s : State) (m : Nat) (v : Mailbox) : (s.setMbx m v).reqs = s.reqs := rfl
@[simp] theorem State.setMbx_nextReq (s : State) (m : Nat) (v : Mailbox) : (s.setMbx m v).nextReq = s.nextReq := rfl
@[simp] theorem State.setMbx_heads (s : State) (m : Nat) (v : Mailbox) : (s.setMbx m v).heads = s.heads := rfl
@[simp] theorem State.setMbx_canvas (s : State) (m : Nat) (v : Mailbox) : (s.setMbx m v).canvas = s.canvas := rfl
@[simp] theorem State.setMbx_tds (s : State) (m : Nat) (v : Mailbox) : (s.setMbx m v).tds = s.tds := rfl
@[simp] theorem State.setMbx_beacons (s : State) (m : Nat) (v : Mailbox) : (s.setMbx m v).beacons = s.beacons := rfl
@[simp] theorem State.setMbx_usb (s : State) (m : Nat) (v : Mailbox) : (s.setMbx m v).usb = s.usb := rfl
@[simp] theorem State.setMbx_power (s : State) (m : Nat) (v : Mailbox) : (s.setMbx m v).power = s.power := rfl
@[simp] theorem State.setMbx_warden (s : State) (m : Nat) (v : Mailbox) : (s.setMbx m v).warden = s.warden := rfl
@[simp] theorem State.setMbx_chip (s : State) (m : Nat) (v : Mailbox) : (s.setMbx m v).chip = s.chip := rfl
@[simp] theorem State.setMbx_bellSince (s : State) (m : Nat) (v : Mailbox) : (s.setMbx m v).bellSince = s.bellSince := rfl
@[simp] theorem State.setMbx_aer (s : State) (m : Nat) (v : Mailbox) : (s.setMbx m v).aer = s.aer := rfl
@[simp] theorem State.setMbx_out (s : State) (m : Nat) (v : Mailbox) : (s.setMbx m v).out = s.out := rfl
@[simp] theorem State.setMbx_reply (s : State) (m : Nat) (v : Mailbox) : (s.setMbx m v).reply = s.reply := rfl
@[simp] theorem State.setMbx_free (s : State) (m : Nat) (v : Mailbox) : (s.setMbx m v).free = s.free := rfl
@[simp] theorem State.setMbx_pending (s : State) (m : Nat) (v : Mailbox) : (s.setMbx m v).pending = s.pending := rfl

/-! `State.setAlc` changes `alcoves` alone. -/

@[simp] theorem State.setAlc_regs (s : State) (a : Nat) (v : Alcove) : (s.setAlc a v).regs = s.regs := rfl
@[simp] theorem State.setAlc_halves (s : State) (a : Nat) (v : Alcove) : (s.setAlc a v).halves = s.halves := rfl
@[simp] theorem State.setAlc_mem (s : State) (a : Nat) (v : Alcove) : (s.setAlc a v).mem = s.mem := rfl
@[simp] theorem State.setAlc_poisoned (s : State) (a : Nat) (v : Alcove) : (s.setAlc a v).poisoned = s.poisoned := rfl
@[simp] theorem State.setAlc_timers (s : State) (a : Nat) (v : Alcove) : (s.setAlc a v).timers = s.timers := rfl
@[simp] theorem State.setAlc_tb (s : State) (a : Nat) (v : Alcove) : (s.setAlc a v).tb = s.tb := rfl
@[simp] theorem State.setAlc_threads (s : State) (a : Nat) (v : Alcove) : (s.setAlc a v).threads = s.threads := rfl
@[simp] theorem State.setAlc_cores (s : State) (a : Nat) (v : Alcove) : (s.setAlc a v).cores = s.cores := rfl
@[simp] theorem State.setAlc_turns (s : State) (a : Nat) (v : Alcove) : (s.setAlc a v).turns = s.turns := rfl
@[simp] theorem State.setAlc_bellStacks (s : State) (a : Nat) (v : Alcove) : (s.setAlc a v).bellStacks = s.bellStacks := rfl
@[simp] theorem State.setAlc_bellFirst (s : State) (a : Nat) (v : Alcove) : (s.setAlc a v).bellFirst = s.bellFirst := rfl
@[simp] theorem State.setAlc_jtagDebug (s : State) (a : Nat) (v : Alcove) : (s.setAlc a v).jtagDebug = s.jtagDebug := rfl
@[simp] theorem State.setAlc_lanes (s : State) (a : Nat) (v : Alcove) : (s.setAlc a v).lanes = s.lanes := rfl
@[simp] theorem State.setAlc_quads (s : State) (a : Nat) (v : Alcove) : (s.setAlc a v).quads = s.quads := rfl
@[simp] theorem State.setAlc_trunks (s : State) (a : Nat) (v : Alcove) : (s.setAlc a v).trunks = s.trunks := rfl
@[simp] theorem State.setAlc_parcels (s : State) (a : Nat) (v : Alcove) : (s.setAlc a v).parcels = s.parcels := rfl
@[simp] theorem State.setAlc_waiting (s : State) (a : Nat) (v : Alcove) : (s.setAlc a v).waiting = s.waiting := rfl
@[simp] theorem State.setAlc_nextParcel (s : State) (a : Nat) (v : Alcove) : (s.setAlc a v).nextParcel = s.nextParcel := rfl
@[simp] theorem State.setAlc_claims (s : State) (a : Nat) (v : Alcove) : (s.setAlc a v).claims = s.claims := rfl
@[simp] theorem State.setAlc_leafQ (s : State) (a : Nat) (v : Alcove) : (s.setAlc a v).leafQ = s.leafQ := rfl
@[simp] theorem State.setAlc_halls (s : State) (a : Nat) (v : Alcove) : (s.setAlc a v).halls = s.halls := rfl
@[simp] theorem State.setAlc_galLossy (s : State) (a : Nat) (v : Alcove) : (s.setAlc a v).galLossy = s.galLossy := rfl
@[simp] theorem State.setAlc_galCount (s : State) (a : Nat) (v : Alcove) : (s.setAlc a v).galCount = s.galCount := rfl
@[simp] theorem State.setAlc_versions (s : State) (a : Nat) (v : Alcove) : (s.setAlc a v).versions = s.versions := rfl
@[simp] theorem State.setAlc_meters (s : State) (a : Nat) (v : Alcove) : (s.setAlc a v).meters = s.meters := rfl
@[simp] theorem State.setAlc_nodes (s : State) (a : Nat) (v : Alcove) : (s.setAlc a v).nodes = s.nodes := rfl
@[simp] theorem State.setAlc_ports (s : State) (a : Nat) (v : Alcove) : (s.setAlc a v).ports = s.ports := rfl
@[simp] theorem State.setAlc_hosts (s : State) (a : Nat) (v : Alcove) : (s.setAlc a v).hosts = s.hosts := rfl
@[simp] theorem State.setAlc_prts (s : State) (a : Nat) (v : Alcove) : (s.setAlc a v).prts = s.prts := rfl
@[simp] theorem State.setAlc_mailboxes (s : State) (a : Nat) (v : Alcove) : (s.setAlc a v).mailboxes = s.mailboxes := rfl
@[simp] theorem State.setAlc_bridge (s : State) (a : Nat) (v : Alcove) : (s.setAlc a v).bridge = s.bridge := rfl
@[simp] theorem State.setAlc_reqs (s : State) (a : Nat) (v : Alcove) : (s.setAlc a v).reqs = s.reqs := rfl
@[simp] theorem State.setAlc_nextReq (s : State) (a : Nat) (v : Alcove) : (s.setAlc a v).nextReq = s.nextReq := rfl
@[simp] theorem State.setAlc_heads (s : State) (a : Nat) (v : Alcove) : (s.setAlc a v).heads = s.heads := rfl
@[simp] theorem State.setAlc_canvas (s : State) (a : Nat) (v : Alcove) : (s.setAlc a v).canvas = s.canvas := rfl
@[simp] theorem State.setAlc_tds (s : State) (a : Nat) (v : Alcove) : (s.setAlc a v).tds = s.tds := rfl
@[simp] theorem State.setAlc_beacons (s : State) (a : Nat) (v : Alcove) : (s.setAlc a v).beacons = s.beacons := rfl
@[simp] theorem State.setAlc_usb (s : State) (a : Nat) (v : Alcove) : (s.setAlc a v).usb = s.usb := rfl
@[simp] theorem State.setAlc_power (s : State) (a : Nat) (v : Alcove) : (s.setAlc a v).power = s.power := rfl
@[simp] theorem State.setAlc_warden (s : State) (a : Nat) (v : Alcove) : (s.setAlc a v).warden = s.warden := rfl
@[simp] theorem State.setAlc_chip (s : State) (a : Nat) (v : Alcove) : (s.setAlc a v).chip = s.chip := rfl
@[simp] theorem State.setAlc_bellSince (s : State) (a : Nat) (v : Alcove) : (s.setAlc a v).bellSince = s.bellSince := rfl
@[simp] theorem State.setAlc_aer (s : State) (a : Nat) (v : Alcove) : (s.setAlc a v).aer = s.aer := rfl
@[simp] theorem State.setAlc_out (s : State) (a : Nat) (v : Alcove) : (s.setAlc a v).out = s.out := rfl
@[simp] theorem State.setAlc_reply (s : State) (a : Nat) (v : Alcove) : (s.setAlc a v).reply = s.reply := rfl
@[simp] theorem State.setAlc_free (s : State) (a : Nat) (v : Alcove) : (s.setAlc a v).free = s.free := rfl
@[simp] theorem State.setAlc_pending (s : State) (a : Nat) (v : Alcove) : (s.setAlc a v).pending = s.pending := rfl

/-! `State.setHead` changes `heads` alone. -/

@[simp] theorem State.setHead_regs (s : State) (n : Nat) (v : Head) : (s.setHead n v).regs = s.regs := rfl
@[simp] theorem State.setHead_halves (s : State) (n : Nat) (v : Head) : (s.setHead n v).halves = s.halves := rfl
@[simp] theorem State.setHead_mem (s : State) (n : Nat) (v : Head) : (s.setHead n v).mem = s.mem := rfl
@[simp] theorem State.setHead_poisoned (s : State) (n : Nat) (v : Head) : (s.setHead n v).poisoned = s.poisoned := rfl
@[simp] theorem State.setHead_timers (s : State) (n : Nat) (v : Head) : (s.setHead n v).timers = s.timers := rfl
@[simp] theorem State.setHead_tb (s : State) (n : Nat) (v : Head) : (s.setHead n v).tb = s.tb := rfl
@[simp] theorem State.setHead_threads (s : State) (n : Nat) (v : Head) : (s.setHead n v).threads = s.threads := rfl
@[simp] theorem State.setHead_cores (s : State) (n : Nat) (v : Head) : (s.setHead n v).cores = s.cores := rfl
@[simp] theorem State.setHead_turns (s : State) (n : Nat) (v : Head) : (s.setHead n v).turns = s.turns := rfl
@[simp] theorem State.setHead_bellStacks (s : State) (n : Nat) (v : Head) : (s.setHead n v).bellStacks = s.bellStacks := rfl
@[simp] theorem State.setHead_bellFirst (s : State) (n : Nat) (v : Head) : (s.setHead n v).bellFirst = s.bellFirst := rfl
@[simp] theorem State.setHead_jtagDebug (s : State) (n : Nat) (v : Head) : (s.setHead n v).jtagDebug = s.jtagDebug := rfl
@[simp] theorem State.setHead_lanes (s : State) (n : Nat) (v : Head) : (s.setHead n v).lanes = s.lanes := rfl
@[simp] theorem State.setHead_quads (s : State) (n : Nat) (v : Head) : (s.setHead n v).quads = s.quads := rfl
@[simp] theorem State.setHead_trunks (s : State) (n : Nat) (v : Head) : (s.setHead n v).trunks = s.trunks := rfl
@[simp] theorem State.setHead_parcels (s : State) (n : Nat) (v : Head) : (s.setHead n v).parcels = s.parcels := rfl
@[simp] theorem State.setHead_waiting (s : State) (n : Nat) (v : Head) : (s.setHead n v).waiting = s.waiting := rfl
@[simp] theorem State.setHead_nextParcel (s : State) (n : Nat) (v : Head) : (s.setHead n v).nextParcel = s.nextParcel := rfl
@[simp] theorem State.setHead_claims (s : State) (n : Nat) (v : Head) : (s.setHead n v).claims = s.claims := rfl
@[simp] theorem State.setHead_leafQ (s : State) (n : Nat) (v : Head) : (s.setHead n v).leafQ = s.leafQ := rfl
@[simp] theorem State.setHead_halls (s : State) (n : Nat) (v : Head) : (s.setHead n v).halls = s.halls := rfl
@[simp] theorem State.setHead_galLossy (s : State) (n : Nat) (v : Head) : (s.setHead n v).galLossy = s.galLossy := rfl
@[simp] theorem State.setHead_galCount (s : State) (n : Nat) (v : Head) : (s.setHead n v).galCount = s.galCount := rfl
@[simp] theorem State.setHead_versions (s : State) (n : Nat) (v : Head) : (s.setHead n v).versions = s.versions := rfl
@[simp] theorem State.setHead_meters (s : State) (n : Nat) (v : Head) : (s.setHead n v).meters = s.meters := rfl
@[simp] theorem State.setHead_nodes (s : State) (n : Nat) (v : Head) : (s.setHead n v).nodes = s.nodes := rfl
@[simp] theorem State.setHead_ports (s : State) (n : Nat) (v : Head) : (s.setHead n v).ports = s.ports := rfl
@[simp] theorem State.setHead_hosts (s : State) (n : Nat) (v : Head) : (s.setHead n v).hosts = s.hosts := rfl
@[simp] theorem State.setHead_prts (s : State) (n : Nat) (v : Head) : (s.setHead n v).prts = s.prts := rfl
@[simp] theorem State.setHead_mailboxes (s : State) (n : Nat) (v : Head) : (s.setHead n v).mailboxes = s.mailboxes := rfl
@[simp] theorem State.setHead_alcoves (s : State) (n : Nat) (v : Head) : (s.setHead n v).alcoves = s.alcoves := rfl
@[simp] theorem State.setHead_bridge (s : State) (n : Nat) (v : Head) : (s.setHead n v).bridge = s.bridge := rfl
@[simp] theorem State.setHead_reqs (s : State) (n : Nat) (v : Head) : (s.setHead n v).reqs = s.reqs := rfl
@[simp] theorem State.setHead_nextReq (s : State) (n : Nat) (v : Head) : (s.setHead n v).nextReq = s.nextReq := rfl
@[simp] theorem State.setHead_canvas (s : State) (n : Nat) (v : Head) : (s.setHead n v).canvas = s.canvas := rfl
@[simp] theorem State.setHead_tds (s : State) (n : Nat) (v : Head) : (s.setHead n v).tds = s.tds := rfl
@[simp] theorem State.setHead_beacons (s : State) (n : Nat) (v : Head) : (s.setHead n v).beacons = s.beacons := rfl
@[simp] theorem State.setHead_usb (s : State) (n : Nat) (v : Head) : (s.setHead n v).usb = s.usb := rfl
@[simp] theorem State.setHead_power (s : State) (n : Nat) (v : Head) : (s.setHead n v).power = s.power := rfl
@[simp] theorem State.setHead_warden (s : State) (n : Nat) (v : Head) : (s.setHead n v).warden = s.warden := rfl
@[simp] theorem State.setHead_chip (s : State) (n : Nat) (v : Head) : (s.setHead n v).chip = s.chip := rfl
@[simp] theorem State.setHead_bellSince (s : State) (n : Nat) (v : Head) : (s.setHead n v).bellSince = s.bellSince := rfl
@[simp] theorem State.setHead_aer (s : State) (n : Nat) (v : Head) : (s.setHead n v).aer = s.aer := rfl
@[simp] theorem State.setHead_out (s : State) (n : Nat) (v : Head) : (s.setHead n v).out = s.out := rfl
@[simp] theorem State.setHead_reply (s : State) (n : Nat) (v : Head) : (s.setHead n v).reply = s.reply := rfl
@[simp] theorem State.setHead_free (s : State) (n : Nat) (v : Head) : (s.setHead n v).free = s.free := rfl
@[simp] theorem State.setHead_pending (s : State) (n : Nat) (v : Head) : (s.setHead n v).pending = s.pending := rfl

/-! `State.setTd` changes `tds` alone. -/

@[simp] theorem State.setTd_regs (s : State) (n : Nat) (v : TdUnit) : (s.setTd n v).regs = s.regs := rfl
@[simp] theorem State.setTd_halves (s : State) (n : Nat) (v : TdUnit) : (s.setTd n v).halves = s.halves := rfl
@[simp] theorem State.setTd_mem (s : State) (n : Nat) (v : TdUnit) : (s.setTd n v).mem = s.mem := rfl
@[simp] theorem State.setTd_poisoned (s : State) (n : Nat) (v : TdUnit) : (s.setTd n v).poisoned = s.poisoned := rfl
@[simp] theorem State.setTd_timers (s : State) (n : Nat) (v : TdUnit) : (s.setTd n v).timers = s.timers := rfl
@[simp] theorem State.setTd_tb (s : State) (n : Nat) (v : TdUnit) : (s.setTd n v).tb = s.tb := rfl
@[simp] theorem State.setTd_threads (s : State) (n : Nat) (v : TdUnit) : (s.setTd n v).threads = s.threads := rfl
@[simp] theorem State.setTd_cores (s : State) (n : Nat) (v : TdUnit) : (s.setTd n v).cores = s.cores := rfl
@[simp] theorem State.setTd_turns (s : State) (n : Nat) (v : TdUnit) : (s.setTd n v).turns = s.turns := rfl
@[simp] theorem State.setTd_bellStacks (s : State) (n : Nat) (v : TdUnit) : (s.setTd n v).bellStacks = s.bellStacks := rfl
@[simp] theorem State.setTd_bellFirst (s : State) (n : Nat) (v : TdUnit) : (s.setTd n v).bellFirst = s.bellFirst := rfl
@[simp] theorem State.setTd_jtagDebug (s : State) (n : Nat) (v : TdUnit) : (s.setTd n v).jtagDebug = s.jtagDebug := rfl
@[simp] theorem State.setTd_lanes (s : State) (n : Nat) (v : TdUnit) : (s.setTd n v).lanes = s.lanes := rfl
@[simp] theorem State.setTd_quads (s : State) (n : Nat) (v : TdUnit) : (s.setTd n v).quads = s.quads := rfl
@[simp] theorem State.setTd_trunks (s : State) (n : Nat) (v : TdUnit) : (s.setTd n v).trunks = s.trunks := rfl
@[simp] theorem State.setTd_parcels (s : State) (n : Nat) (v : TdUnit) : (s.setTd n v).parcels = s.parcels := rfl
@[simp] theorem State.setTd_waiting (s : State) (n : Nat) (v : TdUnit) : (s.setTd n v).waiting = s.waiting := rfl
@[simp] theorem State.setTd_nextParcel (s : State) (n : Nat) (v : TdUnit) : (s.setTd n v).nextParcel = s.nextParcel := rfl
@[simp] theorem State.setTd_claims (s : State) (n : Nat) (v : TdUnit) : (s.setTd n v).claims = s.claims := rfl
@[simp] theorem State.setTd_leafQ (s : State) (n : Nat) (v : TdUnit) : (s.setTd n v).leafQ = s.leafQ := rfl
@[simp] theorem State.setTd_halls (s : State) (n : Nat) (v : TdUnit) : (s.setTd n v).halls = s.halls := rfl
@[simp] theorem State.setTd_galLossy (s : State) (n : Nat) (v : TdUnit) : (s.setTd n v).galLossy = s.galLossy := rfl
@[simp] theorem State.setTd_galCount (s : State) (n : Nat) (v : TdUnit) : (s.setTd n v).galCount = s.galCount := rfl
@[simp] theorem State.setTd_versions (s : State) (n : Nat) (v : TdUnit) : (s.setTd n v).versions = s.versions := rfl
@[simp] theorem State.setTd_meters (s : State) (n : Nat) (v : TdUnit) : (s.setTd n v).meters = s.meters := rfl
@[simp] theorem State.setTd_nodes (s : State) (n : Nat) (v : TdUnit) : (s.setTd n v).nodes = s.nodes := rfl
@[simp] theorem State.setTd_ports (s : State) (n : Nat) (v : TdUnit) : (s.setTd n v).ports = s.ports := rfl
@[simp] theorem State.setTd_hosts (s : State) (n : Nat) (v : TdUnit) : (s.setTd n v).hosts = s.hosts := rfl
@[simp] theorem State.setTd_prts (s : State) (n : Nat) (v : TdUnit) : (s.setTd n v).prts = s.prts := rfl
@[simp] theorem State.setTd_mailboxes (s : State) (n : Nat) (v : TdUnit) : (s.setTd n v).mailboxes = s.mailboxes := rfl
@[simp] theorem State.setTd_alcoves (s : State) (n : Nat) (v : TdUnit) : (s.setTd n v).alcoves = s.alcoves := rfl
@[simp] theorem State.setTd_bridge (s : State) (n : Nat) (v : TdUnit) : (s.setTd n v).bridge = s.bridge := rfl
@[simp] theorem State.setTd_reqs (s : State) (n : Nat) (v : TdUnit) : (s.setTd n v).reqs = s.reqs := rfl
@[simp] theorem State.setTd_nextReq (s : State) (n : Nat) (v : TdUnit) : (s.setTd n v).nextReq = s.nextReq := rfl
@[simp] theorem State.setTd_heads (s : State) (n : Nat) (v : TdUnit) : (s.setTd n v).heads = s.heads := rfl
@[simp] theorem State.setTd_canvas (s : State) (n : Nat) (v : TdUnit) : (s.setTd n v).canvas = s.canvas := rfl
@[simp] theorem State.setTd_beacons (s : State) (n : Nat) (v : TdUnit) : (s.setTd n v).beacons = s.beacons := rfl
@[simp] theorem State.setTd_usb (s : State) (n : Nat) (v : TdUnit) : (s.setTd n v).usb = s.usb := rfl
@[simp] theorem State.setTd_power (s : State) (n : Nat) (v : TdUnit) : (s.setTd n v).power = s.power := rfl
@[simp] theorem State.setTd_warden (s : State) (n : Nat) (v : TdUnit) : (s.setTd n v).warden = s.warden := rfl
@[simp] theorem State.setTd_chip (s : State) (n : Nat) (v : TdUnit) : (s.setTd n v).chip = s.chip := rfl
@[simp] theorem State.setTd_bellSince (s : State) (n : Nat) (v : TdUnit) : (s.setTd n v).bellSince = s.bellSince := rfl
@[simp] theorem State.setTd_aer (s : State) (n : Nat) (v : TdUnit) : (s.setTd n v).aer = s.aer := rfl
@[simp] theorem State.setTd_out (s : State) (n : Nat) (v : TdUnit) : (s.setTd n v).out = s.out := rfl
@[simp] theorem State.setTd_reply (s : State) (n : Nat) (v : TdUnit) : (s.setTd n v).reply = s.reply := rfl
@[simp] theorem State.setTd_free (s : State) (n : Nat) (v : TdUnit) : (s.setTd n v).free = s.free := rfl
@[simp] theorem State.setTd_pending (s : State) (n : Nat) (v : TdUnit) : (s.setTd n v).pending = s.pending := rfl

/-! `State.setMon` changes `chip` alone. -/

@[simp] theorem State.setMon_regs (s : State) (m : Nat) (v : MonSt) : (s.setMon m v).regs = s.regs := rfl
@[simp] theorem State.setMon_halves (s : State) (m : Nat) (v : MonSt) : (s.setMon m v).halves = s.halves := rfl
@[simp] theorem State.setMon_mem (s : State) (m : Nat) (v : MonSt) : (s.setMon m v).mem = s.mem := rfl
@[simp] theorem State.setMon_poisoned (s : State) (m : Nat) (v : MonSt) : (s.setMon m v).poisoned = s.poisoned := rfl
@[simp] theorem State.setMon_timers (s : State) (m : Nat) (v : MonSt) : (s.setMon m v).timers = s.timers := rfl
@[simp] theorem State.setMon_tb (s : State) (m : Nat) (v : MonSt) : (s.setMon m v).tb = s.tb := rfl
@[simp] theorem State.setMon_threads (s : State) (m : Nat) (v : MonSt) : (s.setMon m v).threads = s.threads := rfl
@[simp] theorem State.setMon_cores (s : State) (m : Nat) (v : MonSt) : (s.setMon m v).cores = s.cores := rfl
@[simp] theorem State.setMon_turns (s : State) (m : Nat) (v : MonSt) : (s.setMon m v).turns = s.turns := rfl
@[simp] theorem State.setMon_bellStacks (s : State) (m : Nat) (v : MonSt) : (s.setMon m v).bellStacks = s.bellStacks := rfl
@[simp] theorem State.setMon_bellFirst (s : State) (m : Nat) (v : MonSt) : (s.setMon m v).bellFirst = s.bellFirst := rfl
@[simp] theorem State.setMon_jtagDebug (s : State) (m : Nat) (v : MonSt) : (s.setMon m v).jtagDebug = s.jtagDebug := rfl
@[simp] theorem State.setMon_lanes (s : State) (m : Nat) (v : MonSt) : (s.setMon m v).lanes = s.lanes := rfl
@[simp] theorem State.setMon_quads (s : State) (m : Nat) (v : MonSt) : (s.setMon m v).quads = s.quads := rfl
@[simp] theorem State.setMon_trunks (s : State) (m : Nat) (v : MonSt) : (s.setMon m v).trunks = s.trunks := rfl
@[simp] theorem State.setMon_parcels (s : State) (m : Nat) (v : MonSt) : (s.setMon m v).parcels = s.parcels := rfl
@[simp] theorem State.setMon_waiting (s : State) (m : Nat) (v : MonSt) : (s.setMon m v).waiting = s.waiting := rfl
@[simp] theorem State.setMon_nextParcel (s : State) (m : Nat) (v : MonSt) : (s.setMon m v).nextParcel = s.nextParcel := rfl
@[simp] theorem State.setMon_claims (s : State) (m : Nat) (v : MonSt) : (s.setMon m v).claims = s.claims := rfl
@[simp] theorem State.setMon_leafQ (s : State) (m : Nat) (v : MonSt) : (s.setMon m v).leafQ = s.leafQ := rfl
@[simp] theorem State.setMon_halls (s : State) (m : Nat) (v : MonSt) : (s.setMon m v).halls = s.halls := rfl
@[simp] theorem State.setMon_galLossy (s : State) (m : Nat) (v : MonSt) : (s.setMon m v).galLossy = s.galLossy := rfl
@[simp] theorem State.setMon_galCount (s : State) (m : Nat) (v : MonSt) : (s.setMon m v).galCount = s.galCount := rfl
@[simp] theorem State.setMon_versions (s : State) (m : Nat) (v : MonSt) : (s.setMon m v).versions = s.versions := rfl
@[simp] theorem State.setMon_meters (s : State) (m : Nat) (v : MonSt) : (s.setMon m v).meters = s.meters := rfl
@[simp] theorem State.setMon_nodes (s : State) (m : Nat) (v : MonSt) : (s.setMon m v).nodes = s.nodes := rfl
@[simp] theorem State.setMon_ports (s : State) (m : Nat) (v : MonSt) : (s.setMon m v).ports = s.ports := rfl
@[simp] theorem State.setMon_hosts (s : State) (m : Nat) (v : MonSt) : (s.setMon m v).hosts = s.hosts := rfl
@[simp] theorem State.setMon_prts (s : State) (m : Nat) (v : MonSt) : (s.setMon m v).prts = s.prts := rfl
@[simp] theorem State.setMon_mailboxes (s : State) (m : Nat) (v : MonSt) : (s.setMon m v).mailboxes = s.mailboxes := rfl
@[simp] theorem State.setMon_alcoves (s : State) (m : Nat) (v : MonSt) : (s.setMon m v).alcoves = s.alcoves := rfl
@[simp] theorem State.setMon_bridge (s : State) (m : Nat) (v : MonSt) : (s.setMon m v).bridge = s.bridge := rfl
@[simp] theorem State.setMon_reqs (s : State) (m : Nat) (v : MonSt) : (s.setMon m v).reqs = s.reqs := rfl
@[simp] theorem State.setMon_nextReq (s : State) (m : Nat) (v : MonSt) : (s.setMon m v).nextReq = s.nextReq := rfl
@[simp] theorem State.setMon_heads (s : State) (m : Nat) (v : MonSt) : (s.setMon m v).heads = s.heads := rfl
@[simp] theorem State.setMon_canvas (s : State) (m : Nat) (v : MonSt) : (s.setMon m v).canvas = s.canvas := rfl
@[simp] theorem State.setMon_tds (s : State) (m : Nat) (v : MonSt) : (s.setMon m v).tds = s.tds := rfl
@[simp] theorem State.setMon_beacons (s : State) (m : Nat) (v : MonSt) : (s.setMon m v).beacons = s.beacons := rfl
@[simp] theorem State.setMon_usb (s : State) (m : Nat) (v : MonSt) : (s.setMon m v).usb = s.usb := rfl
@[simp] theorem State.setMon_power (s : State) (m : Nat) (v : MonSt) : (s.setMon m v).power = s.power := rfl
@[simp] theorem State.setMon_warden (s : State) (m : Nat) (v : MonSt) : (s.setMon m v).warden = s.warden := rfl
@[simp] theorem State.setMon_bellSince (s : State) (m : Nat) (v : MonSt) : (s.setMon m v).bellSince = s.bellSince := rfl
@[simp] theorem State.setMon_aer (s : State) (m : Nat) (v : MonSt) : (s.setMon m v).aer = s.aer := rfl
@[simp] theorem State.setMon_out (s : State) (m : Nat) (v : MonSt) : (s.setMon m v).out = s.out := rfl
@[simp] theorem State.setMon_reply (s : State) (m : Nat) (v : MonSt) : (s.setMon m v).reply = s.reply := rfl
@[simp] theorem State.setMon_free (s : State) (m : Nat) (v : MonSt) : (s.setMon m v).free = s.free := rfl
@[simp] theorem State.setMon_pending (s : State) (m : Nat) (v : MonSt) : (s.setMon m v).pending = s.pending := rfl

/-! `State.setEntry` changes `chip` alone. -/

@[simp] theorem State.setEntry_regs (s : State) (e : Option PwrEntry) : (s.setEntry e).regs = s.regs := rfl
@[simp] theorem State.setEntry_halves (s : State) (e : Option PwrEntry) : (s.setEntry e).halves = s.halves := rfl
@[simp] theorem State.setEntry_mem (s : State) (e : Option PwrEntry) : (s.setEntry e).mem = s.mem := rfl
@[simp] theorem State.setEntry_poisoned (s : State) (e : Option PwrEntry) : (s.setEntry e).poisoned = s.poisoned := rfl
@[simp] theorem State.setEntry_timers (s : State) (e : Option PwrEntry) : (s.setEntry e).timers = s.timers := rfl
@[simp] theorem State.setEntry_tb (s : State) (e : Option PwrEntry) : (s.setEntry e).tb = s.tb := rfl
@[simp] theorem State.setEntry_threads (s : State) (e : Option PwrEntry) : (s.setEntry e).threads = s.threads := rfl
@[simp] theorem State.setEntry_cores (s : State) (e : Option PwrEntry) : (s.setEntry e).cores = s.cores := rfl
@[simp] theorem State.setEntry_turns (s : State) (e : Option PwrEntry) : (s.setEntry e).turns = s.turns := rfl
@[simp] theorem State.setEntry_bellStacks (s : State) (e : Option PwrEntry) : (s.setEntry e).bellStacks = s.bellStacks := rfl
@[simp] theorem State.setEntry_bellFirst (s : State) (e : Option PwrEntry) : (s.setEntry e).bellFirst = s.bellFirst := rfl
@[simp] theorem State.setEntry_jtagDebug (s : State) (e : Option PwrEntry) : (s.setEntry e).jtagDebug = s.jtagDebug := rfl
@[simp] theorem State.setEntry_lanes (s : State) (e : Option PwrEntry) : (s.setEntry e).lanes = s.lanes := rfl
@[simp] theorem State.setEntry_quads (s : State) (e : Option PwrEntry) : (s.setEntry e).quads = s.quads := rfl
@[simp] theorem State.setEntry_trunks (s : State) (e : Option PwrEntry) : (s.setEntry e).trunks = s.trunks := rfl
@[simp] theorem State.setEntry_parcels (s : State) (e : Option PwrEntry) : (s.setEntry e).parcels = s.parcels := rfl
@[simp] theorem State.setEntry_waiting (s : State) (e : Option PwrEntry) : (s.setEntry e).waiting = s.waiting := rfl
@[simp] theorem State.setEntry_nextParcel (s : State) (e : Option PwrEntry) : (s.setEntry e).nextParcel = s.nextParcel := rfl
@[simp] theorem State.setEntry_claims (s : State) (e : Option PwrEntry) : (s.setEntry e).claims = s.claims := rfl
@[simp] theorem State.setEntry_leafQ (s : State) (e : Option PwrEntry) : (s.setEntry e).leafQ = s.leafQ := rfl
@[simp] theorem State.setEntry_halls (s : State) (e : Option PwrEntry) : (s.setEntry e).halls = s.halls := rfl
@[simp] theorem State.setEntry_galLossy (s : State) (e : Option PwrEntry) : (s.setEntry e).galLossy = s.galLossy := rfl
@[simp] theorem State.setEntry_galCount (s : State) (e : Option PwrEntry) : (s.setEntry e).galCount = s.galCount := rfl
@[simp] theorem State.setEntry_versions (s : State) (e : Option PwrEntry) : (s.setEntry e).versions = s.versions := rfl
@[simp] theorem State.setEntry_meters (s : State) (e : Option PwrEntry) : (s.setEntry e).meters = s.meters := rfl
@[simp] theorem State.setEntry_nodes (s : State) (e : Option PwrEntry) : (s.setEntry e).nodes = s.nodes := rfl
@[simp] theorem State.setEntry_ports (s : State) (e : Option PwrEntry) : (s.setEntry e).ports = s.ports := rfl
@[simp] theorem State.setEntry_hosts (s : State) (e : Option PwrEntry) : (s.setEntry e).hosts = s.hosts := rfl
@[simp] theorem State.setEntry_prts (s : State) (e : Option PwrEntry) : (s.setEntry e).prts = s.prts := rfl
@[simp] theorem State.setEntry_mailboxes (s : State) (e : Option PwrEntry) : (s.setEntry e).mailboxes = s.mailboxes := rfl
@[simp] theorem State.setEntry_alcoves (s : State) (e : Option PwrEntry) : (s.setEntry e).alcoves = s.alcoves := rfl
@[simp] theorem State.setEntry_bridge (s : State) (e : Option PwrEntry) : (s.setEntry e).bridge = s.bridge := rfl
@[simp] theorem State.setEntry_reqs (s : State) (e : Option PwrEntry) : (s.setEntry e).reqs = s.reqs := rfl
@[simp] theorem State.setEntry_nextReq (s : State) (e : Option PwrEntry) : (s.setEntry e).nextReq = s.nextReq := rfl
@[simp] theorem State.setEntry_heads (s : State) (e : Option PwrEntry) : (s.setEntry e).heads = s.heads := rfl
@[simp] theorem State.setEntry_canvas (s : State) (e : Option PwrEntry) : (s.setEntry e).canvas = s.canvas := rfl
@[simp] theorem State.setEntry_tds (s : State) (e : Option PwrEntry) : (s.setEntry e).tds = s.tds := rfl
@[simp] theorem State.setEntry_beacons (s : State) (e : Option PwrEntry) : (s.setEntry e).beacons = s.beacons := rfl
@[simp] theorem State.setEntry_usb (s : State) (e : Option PwrEntry) : (s.setEntry e).usb = s.usb := rfl
@[simp] theorem State.setEntry_power (s : State) (e : Option PwrEntry) : (s.setEntry e).power = s.power := rfl
@[simp] theorem State.setEntry_warden (s : State) (e : Option PwrEntry) : (s.setEntry e).warden = s.warden := rfl
@[simp] theorem State.setEntry_bellSince (s : State) (e : Option PwrEntry) : (s.setEntry e).bellSince = s.bellSince := rfl
@[simp] theorem State.setEntry_aer (s : State) (e : Option PwrEntry) : (s.setEntry e).aer = s.aer := rfl
@[simp] theorem State.setEntry_out (s : State) (e : Option PwrEntry) : (s.setEntry e).out = s.out := rfl
@[simp] theorem State.setEntry_reply (s : State) (e : Option PwrEntry) : (s.setEntry e).reply = s.reply := rfl
@[simp] theorem State.setEntry_free (s : State) (e : Option PwrEntry) : (s.setEntry e).free = s.free := rfl
@[simp] theorem State.setEntry_pending (s : State) (e : Option PwrEntry) : (s.setEntry e).pending = s.pending := rfl

/-! `State.setFlight` changes `chip` alone. -/

@[simp] theorem State.setFlight_regs (s : State) (k : Nat) (v : FlightSt) : (s.setFlight k v).regs = s.regs := rfl
@[simp] theorem State.setFlight_halves (s : State) (k : Nat) (v : FlightSt) : (s.setFlight k v).halves = s.halves := rfl
@[simp] theorem State.setFlight_mem (s : State) (k : Nat) (v : FlightSt) : (s.setFlight k v).mem = s.mem := rfl
@[simp] theorem State.setFlight_poisoned (s : State) (k : Nat) (v : FlightSt) : (s.setFlight k v).poisoned = s.poisoned := rfl
@[simp] theorem State.setFlight_timers (s : State) (k : Nat) (v : FlightSt) : (s.setFlight k v).timers = s.timers := rfl
@[simp] theorem State.setFlight_tb (s : State) (k : Nat) (v : FlightSt) : (s.setFlight k v).tb = s.tb := rfl
@[simp] theorem State.setFlight_threads (s : State) (k : Nat) (v : FlightSt) : (s.setFlight k v).threads = s.threads := rfl
@[simp] theorem State.setFlight_cores (s : State) (k : Nat) (v : FlightSt) : (s.setFlight k v).cores = s.cores := rfl
@[simp] theorem State.setFlight_turns (s : State) (k : Nat) (v : FlightSt) : (s.setFlight k v).turns = s.turns := rfl
@[simp] theorem State.setFlight_bellStacks (s : State) (k : Nat) (v : FlightSt) : (s.setFlight k v).bellStacks = s.bellStacks := rfl
@[simp] theorem State.setFlight_bellFirst (s : State) (k : Nat) (v : FlightSt) : (s.setFlight k v).bellFirst = s.bellFirst := rfl
@[simp] theorem State.setFlight_jtagDebug (s : State) (k : Nat) (v : FlightSt) : (s.setFlight k v).jtagDebug = s.jtagDebug := rfl
@[simp] theorem State.setFlight_lanes (s : State) (k : Nat) (v : FlightSt) : (s.setFlight k v).lanes = s.lanes := rfl
@[simp] theorem State.setFlight_quads (s : State) (k : Nat) (v : FlightSt) : (s.setFlight k v).quads = s.quads := rfl
@[simp] theorem State.setFlight_trunks (s : State) (k : Nat) (v : FlightSt) : (s.setFlight k v).trunks = s.trunks := rfl
@[simp] theorem State.setFlight_parcels (s : State) (k : Nat) (v : FlightSt) : (s.setFlight k v).parcels = s.parcels := rfl
@[simp] theorem State.setFlight_waiting (s : State) (k : Nat) (v : FlightSt) : (s.setFlight k v).waiting = s.waiting := rfl
@[simp] theorem State.setFlight_nextParcel (s : State) (k : Nat) (v : FlightSt) : (s.setFlight k v).nextParcel = s.nextParcel := rfl
@[simp] theorem State.setFlight_claims (s : State) (k : Nat) (v : FlightSt) : (s.setFlight k v).claims = s.claims := rfl
@[simp] theorem State.setFlight_leafQ (s : State) (k : Nat) (v : FlightSt) : (s.setFlight k v).leafQ = s.leafQ := rfl
@[simp] theorem State.setFlight_halls (s : State) (k : Nat) (v : FlightSt) : (s.setFlight k v).halls = s.halls := rfl
@[simp] theorem State.setFlight_galLossy (s : State) (k : Nat) (v : FlightSt) : (s.setFlight k v).galLossy = s.galLossy := rfl
@[simp] theorem State.setFlight_galCount (s : State) (k : Nat) (v : FlightSt) : (s.setFlight k v).galCount = s.galCount := rfl
@[simp] theorem State.setFlight_versions (s : State) (k : Nat) (v : FlightSt) : (s.setFlight k v).versions = s.versions := rfl
@[simp] theorem State.setFlight_meters (s : State) (k : Nat) (v : FlightSt) : (s.setFlight k v).meters = s.meters := rfl
@[simp] theorem State.setFlight_nodes (s : State) (k : Nat) (v : FlightSt) : (s.setFlight k v).nodes = s.nodes := rfl
@[simp] theorem State.setFlight_ports (s : State) (k : Nat) (v : FlightSt) : (s.setFlight k v).ports = s.ports := rfl
@[simp] theorem State.setFlight_hosts (s : State) (k : Nat) (v : FlightSt) : (s.setFlight k v).hosts = s.hosts := rfl
@[simp] theorem State.setFlight_prts (s : State) (k : Nat) (v : FlightSt) : (s.setFlight k v).prts = s.prts := rfl
@[simp] theorem State.setFlight_mailboxes (s : State) (k : Nat) (v : FlightSt) : (s.setFlight k v).mailboxes = s.mailboxes := rfl
@[simp] theorem State.setFlight_alcoves (s : State) (k : Nat) (v : FlightSt) : (s.setFlight k v).alcoves = s.alcoves := rfl
@[simp] theorem State.setFlight_bridge (s : State) (k : Nat) (v : FlightSt) : (s.setFlight k v).bridge = s.bridge := rfl
@[simp] theorem State.setFlight_reqs (s : State) (k : Nat) (v : FlightSt) : (s.setFlight k v).reqs = s.reqs := rfl
@[simp] theorem State.setFlight_nextReq (s : State) (k : Nat) (v : FlightSt) : (s.setFlight k v).nextReq = s.nextReq := rfl
@[simp] theorem State.setFlight_heads (s : State) (k : Nat) (v : FlightSt) : (s.setFlight k v).heads = s.heads := rfl
@[simp] theorem State.setFlight_canvas (s : State) (k : Nat) (v : FlightSt) : (s.setFlight k v).canvas = s.canvas := rfl
@[simp] theorem State.setFlight_tds (s : State) (k : Nat) (v : FlightSt) : (s.setFlight k v).tds = s.tds := rfl
@[simp] theorem State.setFlight_beacons (s : State) (k : Nat) (v : FlightSt) : (s.setFlight k v).beacons = s.beacons := rfl
@[simp] theorem State.setFlight_usb (s : State) (k : Nat) (v : FlightSt) : (s.setFlight k v).usb = s.usb := rfl
@[simp] theorem State.setFlight_power (s : State) (k : Nat) (v : FlightSt) : (s.setFlight k v).power = s.power := rfl
@[simp] theorem State.setFlight_warden (s : State) (k : Nat) (v : FlightSt) : (s.setFlight k v).warden = s.warden := rfl
@[simp] theorem State.setFlight_bellSince (s : State) (k : Nat) (v : FlightSt) : (s.setFlight k v).bellSince = s.bellSince := rfl
@[simp] theorem State.setFlight_aer (s : State) (k : Nat) (v : FlightSt) : (s.setFlight k v).aer = s.aer := rfl
@[simp] theorem State.setFlight_out (s : State) (k : Nat) (v : FlightSt) : (s.setFlight k v).out = s.out := rfl
@[simp] theorem State.setFlight_reply (s : State) (k : Nat) (v : FlightSt) : (s.setFlight k v).reply = s.reply := rfl
@[simp] theorem State.setFlight_free (s : State) (k : Nat) (v : FlightSt) : (s.setFlight k v).free = s.free := rfl
@[simp] theorem State.setFlight_pending (s : State) (k : Nat) (v : FlightSt) : (s.setFlight k v).pending = s.pending := rfl

/-! `State.setHallCtl` changes `chip` alone. -/

@[simp] theorem State.setHallCtl_regs (s : State) (h : Nat) (v : HallCtl) : (s.setHallCtl h v).regs = s.regs := rfl
@[simp] theorem State.setHallCtl_halves (s : State) (h : Nat) (v : HallCtl) : (s.setHallCtl h v).halves = s.halves := rfl
@[simp] theorem State.setHallCtl_mem (s : State) (h : Nat) (v : HallCtl) : (s.setHallCtl h v).mem = s.mem := rfl
@[simp] theorem State.setHallCtl_poisoned (s : State) (h : Nat) (v : HallCtl) : (s.setHallCtl h v).poisoned = s.poisoned := rfl
@[simp] theorem State.setHallCtl_timers (s : State) (h : Nat) (v : HallCtl) : (s.setHallCtl h v).timers = s.timers := rfl
@[simp] theorem State.setHallCtl_tb (s : State) (h : Nat) (v : HallCtl) : (s.setHallCtl h v).tb = s.tb := rfl
@[simp] theorem State.setHallCtl_threads (s : State) (h : Nat) (v : HallCtl) : (s.setHallCtl h v).threads = s.threads := rfl
@[simp] theorem State.setHallCtl_cores (s : State) (h : Nat) (v : HallCtl) : (s.setHallCtl h v).cores = s.cores := rfl
@[simp] theorem State.setHallCtl_turns (s : State) (h : Nat) (v : HallCtl) : (s.setHallCtl h v).turns = s.turns := rfl
@[simp] theorem State.setHallCtl_bellStacks (s : State) (h : Nat) (v : HallCtl) : (s.setHallCtl h v).bellStacks = s.bellStacks := rfl
@[simp] theorem State.setHallCtl_bellFirst (s : State) (h : Nat) (v : HallCtl) : (s.setHallCtl h v).bellFirst = s.bellFirst := rfl
@[simp] theorem State.setHallCtl_jtagDebug (s : State) (h : Nat) (v : HallCtl) : (s.setHallCtl h v).jtagDebug = s.jtagDebug := rfl
@[simp] theorem State.setHallCtl_lanes (s : State) (h : Nat) (v : HallCtl) : (s.setHallCtl h v).lanes = s.lanes := rfl
@[simp] theorem State.setHallCtl_quads (s : State) (h : Nat) (v : HallCtl) : (s.setHallCtl h v).quads = s.quads := rfl
@[simp] theorem State.setHallCtl_trunks (s : State) (h : Nat) (v : HallCtl) : (s.setHallCtl h v).trunks = s.trunks := rfl
@[simp] theorem State.setHallCtl_parcels (s : State) (h : Nat) (v : HallCtl) : (s.setHallCtl h v).parcels = s.parcels := rfl
@[simp] theorem State.setHallCtl_waiting (s : State) (h : Nat) (v : HallCtl) : (s.setHallCtl h v).waiting = s.waiting := rfl
@[simp] theorem State.setHallCtl_nextParcel (s : State) (h : Nat) (v : HallCtl) : (s.setHallCtl h v).nextParcel = s.nextParcel := rfl
@[simp] theorem State.setHallCtl_claims (s : State) (h : Nat) (v : HallCtl) : (s.setHallCtl h v).claims = s.claims := rfl
@[simp] theorem State.setHallCtl_leafQ (s : State) (h : Nat) (v : HallCtl) : (s.setHallCtl h v).leafQ = s.leafQ := rfl
@[simp] theorem State.setHallCtl_halls (s : State) (h : Nat) (v : HallCtl) : (s.setHallCtl h v).halls = s.halls := rfl
@[simp] theorem State.setHallCtl_galLossy (s : State) (h : Nat) (v : HallCtl) : (s.setHallCtl h v).galLossy = s.galLossy := rfl
@[simp] theorem State.setHallCtl_galCount (s : State) (h : Nat) (v : HallCtl) : (s.setHallCtl h v).galCount = s.galCount := rfl
@[simp] theorem State.setHallCtl_versions (s : State) (h : Nat) (v : HallCtl) : (s.setHallCtl h v).versions = s.versions := rfl
@[simp] theorem State.setHallCtl_meters (s : State) (h : Nat) (v : HallCtl) : (s.setHallCtl h v).meters = s.meters := rfl
@[simp] theorem State.setHallCtl_nodes (s : State) (h : Nat) (v : HallCtl) : (s.setHallCtl h v).nodes = s.nodes := rfl
@[simp] theorem State.setHallCtl_ports (s : State) (h : Nat) (v : HallCtl) : (s.setHallCtl h v).ports = s.ports := rfl
@[simp] theorem State.setHallCtl_hosts (s : State) (h : Nat) (v : HallCtl) : (s.setHallCtl h v).hosts = s.hosts := rfl
@[simp] theorem State.setHallCtl_prts (s : State) (h : Nat) (v : HallCtl) : (s.setHallCtl h v).prts = s.prts := rfl
@[simp] theorem State.setHallCtl_mailboxes (s : State) (h : Nat) (v : HallCtl) : (s.setHallCtl h v).mailboxes = s.mailboxes := rfl
@[simp] theorem State.setHallCtl_alcoves (s : State) (h : Nat) (v : HallCtl) : (s.setHallCtl h v).alcoves = s.alcoves := rfl
@[simp] theorem State.setHallCtl_bridge (s : State) (h : Nat) (v : HallCtl) : (s.setHallCtl h v).bridge = s.bridge := rfl
@[simp] theorem State.setHallCtl_reqs (s : State) (h : Nat) (v : HallCtl) : (s.setHallCtl h v).reqs = s.reqs := rfl
@[simp] theorem State.setHallCtl_nextReq (s : State) (h : Nat) (v : HallCtl) : (s.setHallCtl h v).nextReq = s.nextReq := rfl
@[simp] theorem State.setHallCtl_heads (s : State) (h : Nat) (v : HallCtl) : (s.setHallCtl h v).heads = s.heads := rfl
@[simp] theorem State.setHallCtl_canvas (s : State) (h : Nat) (v : HallCtl) : (s.setHallCtl h v).canvas = s.canvas := rfl
@[simp] theorem State.setHallCtl_tds (s : State) (h : Nat) (v : HallCtl) : (s.setHallCtl h v).tds = s.tds := rfl
@[simp] theorem State.setHallCtl_beacons (s : State) (h : Nat) (v : HallCtl) : (s.setHallCtl h v).beacons = s.beacons := rfl
@[simp] theorem State.setHallCtl_usb (s : State) (h : Nat) (v : HallCtl) : (s.setHallCtl h v).usb = s.usb := rfl
@[simp] theorem State.setHallCtl_power (s : State) (h : Nat) (v : HallCtl) : (s.setHallCtl h v).power = s.power := rfl
@[simp] theorem State.setHallCtl_warden (s : State) (h : Nat) (v : HallCtl) : (s.setHallCtl h v).warden = s.warden := rfl
@[simp] theorem State.setHallCtl_bellSince (s : State) (h : Nat) (v : HallCtl) : (s.setHallCtl h v).bellSince = s.bellSince := rfl
@[simp] theorem State.setHallCtl_aer (s : State) (h : Nat) (v : HallCtl) : (s.setHallCtl h v).aer = s.aer := rfl
@[simp] theorem State.setHallCtl_out (s : State) (h : Nat) (v : HallCtl) : (s.setHallCtl h v).out = s.out := rfl
@[simp] theorem State.setHallCtl_reply (s : State) (h : Nat) (v : HallCtl) : (s.setHallCtl h v).reply = s.reply := rfl
@[simp] theorem State.setHallCtl_free (s : State) (h : Nat) (v : HallCtl) : (s.setHallCtl h v).free = s.free := rfl
@[simp] theorem State.setHallCtl_pending (s : State) (h : Nat) (v : HallCtl) : (s.setHallCtl h v).pending = s.pending := rfl

/-! `State.setWarden` changes `warden` alone. -/

@[simp] theorem State.setWarden_regs (s : State) (w : Warden) : (s.setWarden w).regs = s.regs := rfl
@[simp] theorem State.setWarden_halves (s : State) (w : Warden) : (s.setWarden w).halves = s.halves := rfl
@[simp] theorem State.setWarden_mem (s : State) (w : Warden) : (s.setWarden w).mem = s.mem := rfl
@[simp] theorem State.setWarden_poisoned (s : State) (w : Warden) : (s.setWarden w).poisoned = s.poisoned := rfl
@[simp] theorem State.setWarden_timers (s : State) (w : Warden) : (s.setWarden w).timers = s.timers := rfl
@[simp] theorem State.setWarden_tb (s : State) (w : Warden) : (s.setWarden w).tb = s.tb := rfl
@[simp] theorem State.setWarden_threads (s : State) (w : Warden) : (s.setWarden w).threads = s.threads := rfl
@[simp] theorem State.setWarden_cores (s : State) (w : Warden) : (s.setWarden w).cores = s.cores := rfl
@[simp] theorem State.setWarden_turns (s : State) (w : Warden) : (s.setWarden w).turns = s.turns := rfl
@[simp] theorem State.setWarden_bellStacks (s : State) (w : Warden) : (s.setWarden w).bellStacks = s.bellStacks := rfl
@[simp] theorem State.setWarden_bellFirst (s : State) (w : Warden) : (s.setWarden w).bellFirst = s.bellFirst := rfl
@[simp] theorem State.setWarden_jtagDebug (s : State) (w : Warden) : (s.setWarden w).jtagDebug = s.jtagDebug := rfl
@[simp] theorem State.setWarden_lanes (s : State) (w : Warden) : (s.setWarden w).lanes = s.lanes := rfl
@[simp] theorem State.setWarden_quads (s : State) (w : Warden) : (s.setWarden w).quads = s.quads := rfl
@[simp] theorem State.setWarden_trunks (s : State) (w : Warden) : (s.setWarden w).trunks = s.trunks := rfl
@[simp] theorem State.setWarden_parcels (s : State) (w : Warden) : (s.setWarden w).parcels = s.parcels := rfl
@[simp] theorem State.setWarden_waiting (s : State) (w : Warden) : (s.setWarden w).waiting = s.waiting := rfl
@[simp] theorem State.setWarden_nextParcel (s : State) (w : Warden) : (s.setWarden w).nextParcel = s.nextParcel := rfl
@[simp] theorem State.setWarden_claims (s : State) (w : Warden) : (s.setWarden w).claims = s.claims := rfl
@[simp] theorem State.setWarden_leafQ (s : State) (w : Warden) : (s.setWarden w).leafQ = s.leafQ := rfl
@[simp] theorem State.setWarden_halls (s : State) (w : Warden) : (s.setWarden w).halls = s.halls := rfl
@[simp] theorem State.setWarden_galLossy (s : State) (w : Warden) : (s.setWarden w).galLossy = s.galLossy := rfl
@[simp] theorem State.setWarden_galCount (s : State) (w : Warden) : (s.setWarden w).galCount = s.galCount := rfl
@[simp] theorem State.setWarden_versions (s : State) (w : Warden) : (s.setWarden w).versions = s.versions := rfl
@[simp] theorem State.setWarden_meters (s : State) (w : Warden) : (s.setWarden w).meters = s.meters := rfl
@[simp] theorem State.setWarden_nodes (s : State) (w : Warden) : (s.setWarden w).nodes = s.nodes := rfl
@[simp] theorem State.setWarden_ports (s : State) (w : Warden) : (s.setWarden w).ports = s.ports := rfl
@[simp] theorem State.setWarden_hosts (s : State) (w : Warden) : (s.setWarden w).hosts = s.hosts := rfl
@[simp] theorem State.setWarden_prts (s : State) (w : Warden) : (s.setWarden w).prts = s.prts := rfl
@[simp] theorem State.setWarden_mailboxes (s : State) (w : Warden) : (s.setWarden w).mailboxes = s.mailboxes := rfl
@[simp] theorem State.setWarden_alcoves (s : State) (w : Warden) : (s.setWarden w).alcoves = s.alcoves := rfl
@[simp] theorem State.setWarden_bridge (s : State) (w : Warden) : (s.setWarden w).bridge = s.bridge := rfl
@[simp] theorem State.setWarden_reqs (s : State) (w : Warden) : (s.setWarden w).reqs = s.reqs := rfl
@[simp] theorem State.setWarden_nextReq (s : State) (w : Warden) : (s.setWarden w).nextReq = s.nextReq := rfl
@[simp] theorem State.setWarden_heads (s : State) (w : Warden) : (s.setWarden w).heads = s.heads := rfl
@[simp] theorem State.setWarden_canvas (s : State) (w : Warden) : (s.setWarden w).canvas = s.canvas := rfl
@[simp] theorem State.setWarden_tds (s : State) (w : Warden) : (s.setWarden w).tds = s.tds := rfl
@[simp] theorem State.setWarden_beacons (s : State) (w : Warden) : (s.setWarden w).beacons = s.beacons := rfl
@[simp] theorem State.setWarden_usb (s : State) (w : Warden) : (s.setWarden w).usb = s.usb := rfl
@[simp] theorem State.setWarden_power (s : State) (w : Warden) : (s.setWarden w).power = s.power := rfl
@[simp] theorem State.setWarden_chip (s : State) (w : Warden) : (s.setWarden w).chip = s.chip := rfl
@[simp] theorem State.setWarden_bellSince (s : State) (w : Warden) : (s.setWarden w).bellSince = s.bellSince := rfl
@[simp] theorem State.setWarden_aer (s : State) (w : Warden) : (s.setWarden w).aer = s.aer := rfl
@[simp] theorem State.setWarden_out (s : State) (w : Warden) : (s.setWarden w).out = s.out := rfl
@[simp] theorem State.setWarden_reply (s : State) (w : Warden) : (s.setWarden w).reply = s.reply := rfl
@[simp] theorem State.setWarden_free (s : State) (w : Warden) : (s.setWarden w).free = s.free := rfl
@[simp] theorem State.setWarden_pending (s : State) (w : Warden) : (s.setWarden w).pending = s.pending := rfl

/-! `State.tookTurn` changes `turns` alone. -/

@[simp] theorem State.tookTurn_regs (s : State) (c t : Nat) : (s.tookTurn c t).regs = s.regs := rfl
@[simp] theorem State.tookTurn_halves (s : State) (c t : Nat) : (s.tookTurn c t).halves = s.halves := rfl
@[simp] theorem State.tookTurn_mem (s : State) (c t : Nat) : (s.tookTurn c t).mem = s.mem := rfl
@[simp] theorem State.tookTurn_poisoned (s : State) (c t : Nat) : (s.tookTurn c t).poisoned = s.poisoned := rfl
@[simp] theorem State.tookTurn_timers (s : State) (c t : Nat) : (s.tookTurn c t).timers = s.timers := rfl
@[simp] theorem State.tookTurn_tb (s : State) (c t : Nat) : (s.tookTurn c t).tb = s.tb := rfl
@[simp] theorem State.tookTurn_threads (s : State) (c t : Nat) : (s.tookTurn c t).threads = s.threads := rfl
@[simp] theorem State.tookTurn_cores (s : State) (c t : Nat) : (s.tookTurn c t).cores = s.cores := rfl
@[simp] theorem State.tookTurn_bellStacks (s : State) (c t : Nat) : (s.tookTurn c t).bellStacks = s.bellStacks := rfl
@[simp] theorem State.tookTurn_bellFirst (s : State) (c t : Nat) : (s.tookTurn c t).bellFirst = s.bellFirst := rfl
@[simp] theorem State.tookTurn_jtagDebug (s : State) (c t : Nat) : (s.tookTurn c t).jtagDebug = s.jtagDebug := rfl
@[simp] theorem State.tookTurn_lanes (s : State) (c t : Nat) : (s.tookTurn c t).lanes = s.lanes := rfl
@[simp] theorem State.tookTurn_quads (s : State) (c t : Nat) : (s.tookTurn c t).quads = s.quads := rfl
@[simp] theorem State.tookTurn_trunks (s : State) (c t : Nat) : (s.tookTurn c t).trunks = s.trunks := rfl
@[simp] theorem State.tookTurn_parcels (s : State) (c t : Nat) : (s.tookTurn c t).parcels = s.parcels := rfl
@[simp] theorem State.tookTurn_waiting (s : State) (c t : Nat) : (s.tookTurn c t).waiting = s.waiting := rfl
@[simp] theorem State.tookTurn_nextParcel (s : State) (c t : Nat) : (s.tookTurn c t).nextParcel = s.nextParcel := rfl
@[simp] theorem State.tookTurn_claims (s : State) (c t : Nat) : (s.tookTurn c t).claims = s.claims := rfl
@[simp] theorem State.tookTurn_leafQ (s : State) (c t : Nat) : (s.tookTurn c t).leafQ = s.leafQ := rfl
@[simp] theorem State.tookTurn_halls (s : State) (c t : Nat) : (s.tookTurn c t).halls = s.halls := rfl
@[simp] theorem State.tookTurn_galLossy (s : State) (c t : Nat) : (s.tookTurn c t).galLossy = s.galLossy := rfl
@[simp] theorem State.tookTurn_galCount (s : State) (c t : Nat) : (s.tookTurn c t).galCount = s.galCount := rfl
@[simp] theorem State.tookTurn_versions (s : State) (c t : Nat) : (s.tookTurn c t).versions = s.versions := rfl
@[simp] theorem State.tookTurn_meters (s : State) (c t : Nat) : (s.tookTurn c t).meters = s.meters := rfl
@[simp] theorem State.tookTurn_nodes (s : State) (c t : Nat) : (s.tookTurn c t).nodes = s.nodes := rfl
@[simp] theorem State.tookTurn_ports (s : State) (c t : Nat) : (s.tookTurn c t).ports = s.ports := rfl
@[simp] theorem State.tookTurn_hosts (s : State) (c t : Nat) : (s.tookTurn c t).hosts = s.hosts := rfl
@[simp] theorem State.tookTurn_prts (s : State) (c t : Nat) : (s.tookTurn c t).prts = s.prts := rfl
@[simp] theorem State.tookTurn_mailboxes (s : State) (c t : Nat) : (s.tookTurn c t).mailboxes = s.mailboxes := rfl
@[simp] theorem State.tookTurn_alcoves (s : State) (c t : Nat) : (s.tookTurn c t).alcoves = s.alcoves := rfl
@[simp] theorem State.tookTurn_bridge (s : State) (c t : Nat) : (s.tookTurn c t).bridge = s.bridge := rfl
@[simp] theorem State.tookTurn_reqs (s : State) (c t : Nat) : (s.tookTurn c t).reqs = s.reqs := rfl
@[simp] theorem State.tookTurn_nextReq (s : State) (c t : Nat) : (s.tookTurn c t).nextReq = s.nextReq := rfl
@[simp] theorem State.tookTurn_heads (s : State) (c t : Nat) : (s.tookTurn c t).heads = s.heads := rfl
@[simp] theorem State.tookTurn_canvas (s : State) (c t : Nat) : (s.tookTurn c t).canvas = s.canvas := rfl
@[simp] theorem State.tookTurn_tds (s : State) (c t : Nat) : (s.tookTurn c t).tds = s.tds := rfl
@[simp] theorem State.tookTurn_beacons (s : State) (c t : Nat) : (s.tookTurn c t).beacons = s.beacons := rfl
@[simp] theorem State.tookTurn_usb (s : State) (c t : Nat) : (s.tookTurn c t).usb = s.usb := rfl
@[simp] theorem State.tookTurn_power (s : State) (c t : Nat) : (s.tookTurn c t).power = s.power := rfl
@[simp] theorem State.tookTurn_warden (s : State) (c t : Nat) : (s.tookTurn c t).warden = s.warden := rfl
@[simp] theorem State.tookTurn_chip (s : State) (c t : Nat) : (s.tookTurn c t).chip = s.chip := rfl
@[simp] theorem State.tookTurn_bellSince (s : State) (c t : Nat) : (s.tookTurn c t).bellSince = s.bellSince := rfl
@[simp] theorem State.tookTurn_aer (s : State) (c t : Nat) : (s.tookTurn c t).aer = s.aer := rfl
@[simp] theorem State.tookTurn_out (s : State) (c t : Nat) : (s.tookTurn c t).out = s.out := rfl
@[simp] theorem State.tookTurn_reply (s : State) (c t : Nat) : (s.tookTurn c t).reply = s.reply := rfl
@[simp] theorem State.tookTurn_free (s : State) (c t : Nat) : (s.tookTurn c t).free = s.free := rfl
@[simp] theorem State.tookTurn_pending (s : State) (c t : Nat) : (s.tookTurn c t).pending = s.pending := rfl

/-! `State.yieldTurn` changes `turns` alone. -/

@[simp] theorem State.yieldTurn_regs (s : State) (c t : Nat) : (s.yieldTurn c t).regs = s.regs := rfl
@[simp] theorem State.yieldTurn_halves (s : State) (c t : Nat) : (s.yieldTurn c t).halves = s.halves := rfl
@[simp] theorem State.yieldTurn_mem (s : State) (c t : Nat) : (s.yieldTurn c t).mem = s.mem := rfl
@[simp] theorem State.yieldTurn_poisoned (s : State) (c t : Nat) : (s.yieldTurn c t).poisoned = s.poisoned := rfl
@[simp] theorem State.yieldTurn_timers (s : State) (c t : Nat) : (s.yieldTurn c t).timers = s.timers := rfl
@[simp] theorem State.yieldTurn_tb (s : State) (c t : Nat) : (s.yieldTurn c t).tb = s.tb := rfl
@[simp] theorem State.yieldTurn_threads (s : State) (c t : Nat) : (s.yieldTurn c t).threads = s.threads := rfl
@[simp] theorem State.yieldTurn_cores (s : State) (c t : Nat) : (s.yieldTurn c t).cores = s.cores := rfl
@[simp] theorem State.yieldTurn_bellStacks (s : State) (c t : Nat) : (s.yieldTurn c t).bellStacks = s.bellStacks := rfl
@[simp] theorem State.yieldTurn_bellFirst (s : State) (c t : Nat) : (s.yieldTurn c t).bellFirst = s.bellFirst := rfl
@[simp] theorem State.yieldTurn_jtagDebug (s : State) (c t : Nat) : (s.yieldTurn c t).jtagDebug = s.jtagDebug := rfl
@[simp] theorem State.yieldTurn_lanes (s : State) (c t : Nat) : (s.yieldTurn c t).lanes = s.lanes := rfl
@[simp] theorem State.yieldTurn_quads (s : State) (c t : Nat) : (s.yieldTurn c t).quads = s.quads := rfl
@[simp] theorem State.yieldTurn_trunks (s : State) (c t : Nat) : (s.yieldTurn c t).trunks = s.trunks := rfl
@[simp] theorem State.yieldTurn_parcels (s : State) (c t : Nat) : (s.yieldTurn c t).parcels = s.parcels := rfl
@[simp] theorem State.yieldTurn_waiting (s : State) (c t : Nat) : (s.yieldTurn c t).waiting = s.waiting := rfl
@[simp] theorem State.yieldTurn_nextParcel (s : State) (c t : Nat) : (s.yieldTurn c t).nextParcel = s.nextParcel := rfl
@[simp] theorem State.yieldTurn_claims (s : State) (c t : Nat) : (s.yieldTurn c t).claims = s.claims := rfl
@[simp] theorem State.yieldTurn_leafQ (s : State) (c t : Nat) : (s.yieldTurn c t).leafQ = s.leafQ := rfl
@[simp] theorem State.yieldTurn_halls (s : State) (c t : Nat) : (s.yieldTurn c t).halls = s.halls := rfl
@[simp] theorem State.yieldTurn_galLossy (s : State) (c t : Nat) : (s.yieldTurn c t).galLossy = s.galLossy := rfl
@[simp] theorem State.yieldTurn_galCount (s : State) (c t : Nat) : (s.yieldTurn c t).galCount = s.galCount := rfl
@[simp] theorem State.yieldTurn_versions (s : State) (c t : Nat) : (s.yieldTurn c t).versions = s.versions := rfl
@[simp] theorem State.yieldTurn_meters (s : State) (c t : Nat) : (s.yieldTurn c t).meters = s.meters := rfl
@[simp] theorem State.yieldTurn_nodes (s : State) (c t : Nat) : (s.yieldTurn c t).nodes = s.nodes := rfl
@[simp] theorem State.yieldTurn_ports (s : State) (c t : Nat) : (s.yieldTurn c t).ports = s.ports := rfl
@[simp] theorem State.yieldTurn_hosts (s : State) (c t : Nat) : (s.yieldTurn c t).hosts = s.hosts := rfl
@[simp] theorem State.yieldTurn_prts (s : State) (c t : Nat) : (s.yieldTurn c t).prts = s.prts := rfl
@[simp] theorem State.yieldTurn_mailboxes (s : State) (c t : Nat) : (s.yieldTurn c t).mailboxes = s.mailboxes := rfl
@[simp] theorem State.yieldTurn_alcoves (s : State) (c t : Nat) : (s.yieldTurn c t).alcoves = s.alcoves := rfl
@[simp] theorem State.yieldTurn_bridge (s : State) (c t : Nat) : (s.yieldTurn c t).bridge = s.bridge := rfl
@[simp] theorem State.yieldTurn_reqs (s : State) (c t : Nat) : (s.yieldTurn c t).reqs = s.reqs := rfl
@[simp] theorem State.yieldTurn_nextReq (s : State) (c t : Nat) : (s.yieldTurn c t).nextReq = s.nextReq := rfl
@[simp] theorem State.yieldTurn_heads (s : State) (c t : Nat) : (s.yieldTurn c t).heads = s.heads := rfl
@[simp] theorem State.yieldTurn_canvas (s : State) (c t : Nat) : (s.yieldTurn c t).canvas = s.canvas := rfl
@[simp] theorem State.yieldTurn_tds (s : State) (c t : Nat) : (s.yieldTurn c t).tds = s.tds := rfl
@[simp] theorem State.yieldTurn_beacons (s : State) (c t : Nat) : (s.yieldTurn c t).beacons = s.beacons := rfl
@[simp] theorem State.yieldTurn_usb (s : State) (c t : Nat) : (s.yieldTurn c t).usb = s.usb := rfl
@[simp] theorem State.yieldTurn_power (s : State) (c t : Nat) : (s.yieldTurn c t).power = s.power := rfl
@[simp] theorem State.yieldTurn_warden (s : State) (c t : Nat) : (s.yieldTurn c t).warden = s.warden := rfl
@[simp] theorem State.yieldTurn_chip (s : State) (c t : Nat) : (s.yieldTurn c t).chip = s.chip := rfl
@[simp] theorem State.yieldTurn_bellSince (s : State) (c t : Nat) : (s.yieldTurn c t).bellSince = s.bellSince := rfl
@[simp] theorem State.yieldTurn_aer (s : State) (c t : Nat) : (s.yieldTurn c t).aer = s.aer := rfl
@[simp] theorem State.yieldTurn_out (s : State) (c t : Nat) : (s.yieldTurn c t).out = s.out := rfl
@[simp] theorem State.yieldTurn_reply (s : State) (c t : Nat) : (s.yieldTurn c t).reply = s.reply := rfl
@[simp] theorem State.yieldTurn_free (s : State) (c t : Nat) : (s.yieldTurn c t).free = s.free := rfl
@[simp] theorem State.yieldTurn_pending (s : State) (c t : Nat) : (s.yieldTurn c t).pending = s.pending := rfl

/-! `State.setMeter` changes `meters` alone. -/

@[simp] theorem State.setMeter_regs (s : State) (h m : Nat) (v : Meter) : (s.setMeter h m v).regs = s.regs := rfl
@[simp] theorem State.setMeter_halves (s : State) (h m : Nat) (v : Meter) : (s.setMeter h m v).halves = s.halves := rfl
@[simp] theorem State.setMeter_mem (s : State) (h m : Nat) (v : Meter) : (s.setMeter h m v).mem = s.mem := rfl
@[simp] theorem State.setMeter_poisoned (s : State) (h m : Nat) (v : Meter) : (s.setMeter h m v).poisoned = s.poisoned := rfl
@[simp] theorem State.setMeter_timers (s : State) (h m : Nat) (v : Meter) : (s.setMeter h m v).timers = s.timers := rfl
@[simp] theorem State.setMeter_tb (s : State) (h m : Nat) (v : Meter) : (s.setMeter h m v).tb = s.tb := rfl
@[simp] theorem State.setMeter_threads (s : State) (h m : Nat) (v : Meter) : (s.setMeter h m v).threads = s.threads := rfl
@[simp] theorem State.setMeter_cores (s : State) (h m : Nat) (v : Meter) : (s.setMeter h m v).cores = s.cores := rfl
@[simp] theorem State.setMeter_turns (s : State) (h m : Nat) (v : Meter) : (s.setMeter h m v).turns = s.turns := rfl
@[simp] theorem State.setMeter_bellStacks (s : State) (h m : Nat) (v : Meter) : (s.setMeter h m v).bellStacks = s.bellStacks := rfl
@[simp] theorem State.setMeter_bellFirst (s : State) (h m : Nat) (v : Meter) : (s.setMeter h m v).bellFirst = s.bellFirst := rfl
@[simp] theorem State.setMeter_jtagDebug (s : State) (h m : Nat) (v : Meter) : (s.setMeter h m v).jtagDebug = s.jtagDebug := rfl
@[simp] theorem State.setMeter_lanes (s : State) (h m : Nat) (v : Meter) : (s.setMeter h m v).lanes = s.lanes := rfl
@[simp] theorem State.setMeter_quads (s : State) (h m : Nat) (v : Meter) : (s.setMeter h m v).quads = s.quads := rfl
@[simp] theorem State.setMeter_trunks (s : State) (h m : Nat) (v : Meter) : (s.setMeter h m v).trunks = s.trunks := rfl
@[simp] theorem State.setMeter_parcels (s : State) (h m : Nat) (v : Meter) : (s.setMeter h m v).parcels = s.parcels := rfl
@[simp] theorem State.setMeter_waiting (s : State) (h m : Nat) (v : Meter) : (s.setMeter h m v).waiting = s.waiting := rfl
@[simp] theorem State.setMeter_nextParcel (s : State) (h m : Nat) (v : Meter) : (s.setMeter h m v).nextParcel = s.nextParcel := rfl
@[simp] theorem State.setMeter_claims (s : State) (h m : Nat) (v : Meter) : (s.setMeter h m v).claims = s.claims := rfl
@[simp] theorem State.setMeter_leafQ (s : State) (h m : Nat) (v : Meter) : (s.setMeter h m v).leafQ = s.leafQ := rfl
@[simp] theorem State.setMeter_halls (s : State) (h m : Nat) (v : Meter) : (s.setMeter h m v).halls = s.halls := rfl
@[simp] theorem State.setMeter_galLossy (s : State) (h m : Nat) (v : Meter) : (s.setMeter h m v).galLossy = s.galLossy := rfl
@[simp] theorem State.setMeter_galCount (s : State) (h m : Nat) (v : Meter) : (s.setMeter h m v).galCount = s.galCount := rfl
@[simp] theorem State.setMeter_versions (s : State) (h m : Nat) (v : Meter) : (s.setMeter h m v).versions = s.versions := rfl
@[simp] theorem State.setMeter_nodes (s : State) (h m : Nat) (v : Meter) : (s.setMeter h m v).nodes = s.nodes := rfl
@[simp] theorem State.setMeter_ports (s : State) (h m : Nat) (v : Meter) : (s.setMeter h m v).ports = s.ports := rfl
@[simp] theorem State.setMeter_hosts (s : State) (h m : Nat) (v : Meter) : (s.setMeter h m v).hosts = s.hosts := rfl
@[simp] theorem State.setMeter_prts (s : State) (h m : Nat) (v : Meter) : (s.setMeter h m v).prts = s.prts := rfl
@[simp] theorem State.setMeter_mailboxes (s : State) (h m : Nat) (v : Meter) : (s.setMeter h m v).mailboxes = s.mailboxes := rfl
@[simp] theorem State.setMeter_alcoves (s : State) (h m : Nat) (v : Meter) : (s.setMeter h m v).alcoves = s.alcoves := rfl
@[simp] theorem State.setMeter_bridge (s : State) (h m : Nat) (v : Meter) : (s.setMeter h m v).bridge = s.bridge := rfl
@[simp] theorem State.setMeter_reqs (s : State) (h m : Nat) (v : Meter) : (s.setMeter h m v).reqs = s.reqs := rfl
@[simp] theorem State.setMeter_nextReq (s : State) (h m : Nat) (v : Meter) : (s.setMeter h m v).nextReq = s.nextReq := rfl
@[simp] theorem State.setMeter_heads (s : State) (h m : Nat) (v : Meter) : (s.setMeter h m v).heads = s.heads := rfl
@[simp] theorem State.setMeter_canvas (s : State) (h m : Nat) (v : Meter) : (s.setMeter h m v).canvas = s.canvas := rfl
@[simp] theorem State.setMeter_tds (s : State) (h m : Nat) (v : Meter) : (s.setMeter h m v).tds = s.tds := rfl
@[simp] theorem State.setMeter_beacons (s : State) (h m : Nat) (v : Meter) : (s.setMeter h m v).beacons = s.beacons := rfl
@[simp] theorem State.setMeter_usb (s : State) (h m : Nat) (v : Meter) : (s.setMeter h m v).usb = s.usb := rfl
@[simp] theorem State.setMeter_power (s : State) (h m : Nat) (v : Meter) : (s.setMeter h m v).power = s.power := rfl
@[simp] theorem State.setMeter_warden (s : State) (h m : Nat) (v : Meter) : (s.setMeter h m v).warden = s.warden := rfl
@[simp] theorem State.setMeter_chip (s : State) (h m : Nat) (v : Meter) : (s.setMeter h m v).chip = s.chip := rfl
@[simp] theorem State.setMeter_bellSince (s : State) (h m : Nat) (v : Meter) : (s.setMeter h m v).bellSince = s.bellSince := rfl
@[simp] theorem State.setMeter_aer (s : State) (h m : Nat) (v : Meter) : (s.setMeter h m v).aer = s.aer := rfl
@[simp] theorem State.setMeter_out (s : State) (h m : Nat) (v : Meter) : (s.setMeter h m v).out = s.out := rfl
@[simp] theorem State.setMeter_reply (s : State) (h m : Nat) (v : Meter) : (s.setMeter h m v).reply = s.reply := rfl
@[simp] theorem State.setMeter_free (s : State) (h m : Nat) (v : Meter) : (s.setMeter h m v).free = s.free := rfl
@[simp] theorem State.setMeter_pending (s : State) (h m : Nat) (v : Meter) : (s.setMeter h m v).pending = s.pending := rfl

/-! `State.openValue` changes `free` alone. -/

@[simp] theorem State.openValue_regs (s : State) : s.openValue.2.regs = s.regs := rfl
@[simp] theorem State.openValue_halves (s : State) : s.openValue.2.halves = s.halves := rfl
@[simp] theorem State.openValue_mem (s : State) : s.openValue.2.mem = s.mem := rfl
@[simp] theorem State.openValue_poisoned (s : State) : s.openValue.2.poisoned = s.poisoned := rfl
@[simp] theorem State.openValue_timers (s : State) : s.openValue.2.timers = s.timers := rfl
@[simp] theorem State.openValue_tb (s : State) : s.openValue.2.tb = s.tb := rfl
@[simp] theorem State.openValue_threads (s : State) : s.openValue.2.threads = s.threads := rfl
@[simp] theorem State.openValue_cores (s : State) : s.openValue.2.cores = s.cores := rfl
@[simp] theorem State.openValue_turns (s : State) : s.openValue.2.turns = s.turns := rfl
@[simp] theorem State.openValue_bellStacks (s : State) : s.openValue.2.bellStacks = s.bellStacks := rfl
@[simp] theorem State.openValue_bellFirst (s : State) : s.openValue.2.bellFirst = s.bellFirst := rfl
@[simp] theorem State.openValue_jtagDebug (s : State) : s.openValue.2.jtagDebug = s.jtagDebug := rfl
@[simp] theorem State.openValue_lanes (s : State) : s.openValue.2.lanes = s.lanes := rfl
@[simp] theorem State.openValue_quads (s : State) : s.openValue.2.quads = s.quads := rfl
@[simp] theorem State.openValue_trunks (s : State) : s.openValue.2.trunks = s.trunks := rfl
@[simp] theorem State.openValue_parcels (s : State) : s.openValue.2.parcels = s.parcels := rfl
@[simp] theorem State.openValue_waiting (s : State) : s.openValue.2.waiting = s.waiting := rfl
@[simp] theorem State.openValue_nextParcel (s : State) : s.openValue.2.nextParcel = s.nextParcel := rfl
@[simp] theorem State.openValue_claims (s : State) : s.openValue.2.claims = s.claims := rfl
@[simp] theorem State.openValue_leafQ (s : State) : s.openValue.2.leafQ = s.leafQ := rfl
@[simp] theorem State.openValue_halls (s : State) : s.openValue.2.halls = s.halls := rfl
@[simp] theorem State.openValue_galLossy (s : State) : s.openValue.2.galLossy = s.galLossy := rfl
@[simp] theorem State.openValue_galCount (s : State) : s.openValue.2.galCount = s.galCount := rfl
@[simp] theorem State.openValue_versions (s : State) : s.openValue.2.versions = s.versions := rfl
@[simp] theorem State.openValue_meters (s : State) : s.openValue.2.meters = s.meters := rfl
@[simp] theorem State.openValue_nodes (s : State) : s.openValue.2.nodes = s.nodes := rfl
@[simp] theorem State.openValue_ports (s : State) : s.openValue.2.ports = s.ports := rfl
@[simp] theorem State.openValue_hosts (s : State) : s.openValue.2.hosts = s.hosts := rfl
@[simp] theorem State.openValue_prts (s : State) : s.openValue.2.prts = s.prts := rfl
@[simp] theorem State.openValue_mailboxes (s : State) : s.openValue.2.mailboxes = s.mailboxes := rfl
@[simp] theorem State.openValue_alcoves (s : State) : s.openValue.2.alcoves = s.alcoves := rfl
@[simp] theorem State.openValue_bridge (s : State) : s.openValue.2.bridge = s.bridge := rfl
@[simp] theorem State.openValue_reqs (s : State) : s.openValue.2.reqs = s.reqs := rfl
@[simp] theorem State.openValue_nextReq (s : State) : s.openValue.2.nextReq = s.nextReq := rfl
@[simp] theorem State.openValue_heads (s : State) : s.openValue.2.heads = s.heads := rfl
@[simp] theorem State.openValue_canvas (s : State) : s.openValue.2.canvas = s.canvas := rfl
@[simp] theorem State.openValue_tds (s : State) : s.openValue.2.tds = s.tds := rfl
@[simp] theorem State.openValue_beacons (s : State) : s.openValue.2.beacons = s.beacons := rfl
@[simp] theorem State.openValue_usb (s : State) : s.openValue.2.usb = s.usb := rfl
@[simp] theorem State.openValue_power (s : State) : s.openValue.2.power = s.power := rfl
@[simp] theorem State.openValue_warden (s : State) : s.openValue.2.warden = s.warden := rfl
@[simp] theorem State.openValue_chip (s : State) : s.openValue.2.chip = s.chip := rfl
@[simp] theorem State.openValue_bellSince (s : State) : s.openValue.2.bellSince = s.bellSince := rfl
@[simp] theorem State.openValue_aer (s : State) : s.openValue.2.aer = s.aer := rfl
@[simp] theorem State.openValue_out (s : State) : s.openValue.2.out = s.out := rfl
@[simp] theorem State.openValue_reply (s : State) : s.openValue.2.reply = s.reply := rfl
@[simp] theorem State.openValue_pending (s : State) : s.openValue.2.pending = s.pending := rfl

end Sys2Proof.Machine
end

