-- ==== Sys2Proof/Laws/Reads.lean ====
section
/-! SUPPORT. Reads of registers, memory, timers, threads and cores through an update of another field. -/

namespace Sys2Proof.Machine

@[simp] theorem State.byte_setReg (s : State) (n : RegName) (i j : Nat) (v : BitVec 64) (a' : Nat) : (s.setReg n i j v).byte a' = s.byte a' := rfl
@[simp] theorem State.deadline_setReg (s : State) (n : RegName) (i j : Nat) (v : BitVec 64) (k' : TimerKind) (i' j' : Nat) : (s.setReg n i j v).deadline k' i' j' = s.deadline k' i' j' := rfl
@[simp] theorem State.thr_setReg (s : State) (n : RegName) (i j : Nat) (v : BitVec 64) (c' t' : Nat) : (s.setReg n i j v).thr c' t' = s.thr c' t' := rfl
@[simp] theorem State.wzCore_setReg (s : State) (n : RegName) (i j : Nat) (v : BitVec 64) (c' : Nat) : (s.setReg n i j v).wzCore c' = s.wzCore c' := rfl
@[simp] theorem State.byte_setFld (s : State) (f : Fld) (i j v : Nat) (a' : Nat) : (s.setFld f i j v).byte a' = s.byte a' := rfl
@[simp] theorem State.deadline_setFld (s : State) (f : Fld) (i j v : Nat) (k' : TimerKind) (i' j' : Nat) : (s.setFld f i j v).deadline k' i' j' = s.deadline k' i' j' := rfl
@[simp] theorem State.thr_setFld (s : State) (f : Fld) (i j v : Nat) (c' t' : Nat) : (s.setFld f i j v).thr c' t' = s.thr c' t' := rfl
@[simp] theorem State.wzCore_setFld (s : State) (f : Fld) (i j v : Nat) (c' : Nat) : (s.setFld f i j v).wzCore c' = s.wzCore c' := rfl
@[simp] theorem State.byte_addSat (s : State) (f : Fld) (i j n top : Nat) (a' : Nat) : (s.addSat f i j n top).byte a' = s.byte a' := rfl
@[simp] theorem State.deadline_addSat (s : State) (f : Fld) (i j n top : Nat) (k' : TimerKind) (i' j' : Nat) : (s.addSat f i j n top).deadline k' i' j' = s.deadline k' i' j' := rfl
@[simp] theorem State.thr_addSat (s : State) (f : Fld) (i j n top : Nat) (c' t' : Nat) : (s.addSat f i j n top).thr c' t' = s.thr c' t' := rfl
@[simp] theorem State.wzCore_addSat (s : State) (f : Fld) (i j n top : Nat) (c' : Nat) : (s.addSat f i j n top).wzCore c' = s.wzCore c' := rfl
@[simp] theorem State.byte_addFld (s : State) (f : Fld) (i j n : Nat) (a' : Nat) : (s.addFld f i j n).byte a' = s.byte a' := rfl
@[simp] theorem State.deadline_addFld (s : State) (f : Fld) (i j n : Nat) (k' : TimerKind) (i' j' : Nat) : (s.addFld f i j n).deadline k' i' j' = s.deadline k' i' j' := rfl
@[simp] theorem State.thr_addFld (s : State) (f : Fld) (i j n : Nat) (c' t' : Nat) : (s.addFld f i j n).thr c' t' = s.thr c' t' := rfl
@[simp] theorem State.wzCore_addFld (s : State) (f : Fld) (i j n : Nat) (c' : Nat) : (s.addFld f i j n).wzCore c' = s.wzCore c' := rfl
@[simp] theorem State.byte_storeReg (s : State) (n : RegName) (i j : Nat) (v mask : BitVec 64) (a' : Nat) : (s.storeReg n i j v mask).byte a' = s.byte a' := rfl
@[simp] theorem State.deadline_storeReg (s : State) (n : RegName) (i j : Nat) (v mask : BitVec 64) (k' : TimerKind) (i' j' : Nat) : (s.storeReg n i j v mask).deadline k' i' j' = s.deadline k' i' j' := rfl
@[simp] theorem State.thr_storeReg (s : State) (n : RegName) (i j : Nat) (v mask : BitVec 64) (c' t' : Nat) : (s.storeReg n i j v mask).thr c' t' = s.thr c' t' := rfl
@[simp] theorem State.wzCore_storeReg (s : State) (n : RegName) (i j : Nat) (v mask : BitVec 64) (c' : Nat) : (s.storeReg n i j v mask).wzCore c' = s.wzCore c' := rfl
@[simp] theorem State.byte_resetRegs (s : State) (p : RegId → Bool) (a' : Nat) : (s.resetRegs p).byte a' = s.byte a' := rfl
@[simp] theorem State.deadline_resetRegs (s : State) (p : RegId → Bool) (k' : TimerKind) (i' j' : Nat) : (s.resetRegs p).deadline k' i' j' = s.deadline k' i' j' := rfl
@[simp] theorem State.thr_resetRegs (s : State) (p : RegId → Bool) (c' t' : Nat) : (s.resetRegs p).thr c' t' = s.thr c' t' := rfl
@[simp] theorem State.wzCore_resetRegs (s : State) (p : RegId → Bool) (c' : Nat) : (s.resetRegs p).wzCore c' = s.wzCore c' := rfl
@[simp] theorem State.reg_arm (s : State) (k : TimerKind) (i j ns : Nat) (n' : RegName) (i' j' : Nat) : (s.arm k i j ns).reg n' i' j' = s.reg n' i' j' := rfl
@[simp] theorem State.fld_arm (s : State) (k : TimerKind) (i j ns : Nat) (f' : Fld) (i' j' : Nat) : (s.arm k i j ns).fld f' i' j' = s.fld f' i' j' := rfl
@[simp] theorem State.flag_arm (s : State) (k : TimerKind) (i j ns : Nat) (f' : Fld) (i' j' : Nat) : (s.arm k i j ns).flag f' i' j' = s.flag f' i' j' := rfl
@[simp] theorem State.byte_arm (s : State) (k : TimerKind) (i j ns : Nat) (a' : Nat) : (s.arm k i j ns).byte a' = s.byte a' := rfl
@[simp] theorem State.thr_arm (s : State) (k : TimerKind) (i j ns : Nat) (c' t' : Nat) : (s.arm k i j ns).thr c' t' = s.thr c' t' := rfl
@[simp] theorem State.wzCore_arm (s : State) (k : TimerKind) (i j ns : Nat) (c' : Nat) : (s.arm k i j ns).wzCore c' = s.wzCore c' := rfl
@[simp] theorem State.reg_disarm (s : State) (k : TimerKind) (i j : Nat) (n' : RegName) (i' j' : Nat) : (s.disarm k i j).reg n' i' j' = s.reg n' i' j' := rfl
@[simp] theorem State.fld_disarm (s : State) (k : TimerKind) (i j : Nat) (f' : Fld) (i' j' : Nat) : (s.disarm k i j).fld f' i' j' = s.fld f' i' j' := rfl
@[simp] theorem State.flag_disarm (s : State) (k : TimerKind) (i j : Nat) (f' : Fld) (i' j' : Nat) : (s.disarm k i j).flag f' i' j' = s.flag f' i' j' := rfl
@[simp] theorem State.byte_disarm (s : State) (k : TimerKind) (i j : Nat) (a' : Nat) : (s.disarm k i j).byte a' = s.byte a' := rfl
@[simp] theorem State.thr_disarm (s : State) (k : TimerKind) (i j : Nat) (c' t' : Nat) : (s.disarm k i j).thr c' t' = s.thr c' t' := rfl
@[simp] theorem State.wzCore_disarm (s : State) (k : TimerKind) (i j : Nat) (c' : Nat) : (s.disarm k i j).wzCore c' = s.wzCore c' := rfl
@[simp] theorem State.reg_emit (s : State) (o : Output) (n' : RegName) (i' j' : Nat) : (s.emit o).reg n' i' j' = s.reg n' i' j' := rfl
@[simp] theorem State.fld_emit (s : State) (o : Output) (f' : Fld) (i' j' : Nat) : (s.emit o).fld f' i' j' = s.fld f' i' j' := rfl
@[simp] theorem State.flag_emit (s : State) (o : Output) (f' : Fld) (i' j' : Nat) : (s.emit o).flag f' i' j' = s.flag f' i' j' := rfl
@[simp] theorem State.byte_emit (s : State) (o : Output) (a' : Nat) : (s.emit o).byte a' = s.byte a' := rfl
@[simp] theorem State.deadline_emit (s : State) (o : Output) (k' : TimerKind) (i' j' : Nat) : (s.emit o).deadline k' i' j' = s.deadline k' i' j' := rfl
@[simp] theorem State.thr_emit (s : State) (o : Output) (c' t' : Nat) : (s.emit o).thr c' t' = s.thr c' t' := rfl
@[simp] theorem State.wzCore_emit (s : State) (o : Output) (c' : Nat) : (s.emit o).wzCore c' = s.wzCore c' := rfl
@[simp] theorem State.reg_setByte (s : State) (a : Nat) (v : Byte) (n' : RegName) (i' j' : Nat) : (s.setByte a v).reg n' i' j' = s.reg n' i' j' := rfl
@[simp] theorem State.fld_setByte (s : State) (a : Nat) (v : Byte) (f' : Fld) (i' j' : Nat) : (s.setByte a v).fld f' i' j' = s.fld f' i' j' := rfl
@[simp] theorem State.flag_setByte (s : State) (a : Nat) (v : Byte) (f' : Fld) (i' j' : Nat) : (s.setByte a v).flag f' i' j' = s.flag f' i' j' := rfl
@[simp] theorem State.deadline_setByte (s : State) (a : Nat) (v : Byte) (k' : TimerKind) (i' j' : Nat) : (s.setByte a v).deadline k' i' j' = s.deadline k' i' j' := rfl
@[simp] theorem State.thr_setByte (s : State) (a : Nat) (v : Byte) (c' t' : Nat) : (s.setByte a v).thr c' t' = s.thr c' t' := rfl
@[simp] theorem State.wzCore_setByte (s : State) (a : Nat) (v : Byte) (c' : Nat) : (s.setByte a v).wzCore c' = s.wzCore c' := rfl
@[simp] theorem State.reg_setThr (s : State) (c t : Nat) (v : Thread) (n' : RegName) (i' j' : Nat) : (s.setThr c t v).reg n' i' j' = s.reg n' i' j' := rfl
@[simp] theorem State.fld_setThr (s : State) (c t : Nat) (v : Thread) (f' : Fld) (i' j' : Nat) : (s.setThr c t v).fld f' i' j' = s.fld f' i' j' := rfl
@[simp] theorem State.flag_setThr (s : State) (c t : Nat) (v : Thread) (f' : Fld) (i' j' : Nat) : (s.setThr c t v).flag f' i' j' = s.flag f' i' j' := rfl
@[simp] theorem State.byte_setThr (s : State) (c t : Nat) (v : Thread) (a' : Nat) : (s.setThr c t v).byte a' = s.byte a' := rfl
@[simp] theorem State.deadline_setThr (s : State) (c t : Nat) (v : Thread) (k' : TimerKind) (i' j' : Nat) : (s.setThr c t v).deadline k' i' j' = s.deadline k' i' j' := rfl
@[simp] theorem State.wzCore_setThr (s : State) (c t : Nat) (v : Thread) (c' : Nat) : (s.setThr c t v).wzCore c' = s.wzCore c' := rfl
@[simp] theorem State.reg_setCore (s : State) (c : Nat) (v : WzCore) (n' : RegName) (i' j' : Nat) : (s.setCore c v).reg n' i' j' = s.reg n' i' j' := rfl
@[simp] theorem State.fld_setCore (s : State) (c : Nat) (v : WzCore) (f' : Fld) (i' j' : Nat) : (s.setCore c v).fld f' i' j' = s.fld f' i' j' := rfl
@[simp] theorem State.flag_setCore (s : State) (c : Nat) (v : WzCore) (f' : Fld) (i' j' : Nat) : (s.setCore c v).flag f' i' j' = s.flag f' i' j' := rfl
@[simp] theorem State.byte_setCore (s : State) (c : Nat) (v : WzCore) (a' : Nat) : (s.setCore c v).byte a' = s.byte a' := rfl
@[simp] theorem State.deadline_setCore (s : State) (c : Nat) (v : WzCore) (k' : TimerKind) (i' j' : Nat) : (s.setCore c v).deadline k' i' j' = s.deadline k' i' j' := rfl
@[simp] theorem State.thr_setCore (s : State) (c : Nat) (v : WzCore) (c' t' : Nat) : (s.setCore c v).thr c' t' = s.thr c' t' := rfl
@[simp] theorem State.reg_setBellStack (s : State) (b t : Nat) (v : List (Nat × Nat)) (n' : RegName) (i' j' : Nat) : (s.setBellStack b t v).reg n' i' j' = s.reg n' i' j' := rfl
@[simp] theorem State.fld_setBellStack (s : State) (b t : Nat) (v : List (Nat × Nat)) (f' : Fld) (i' j' : Nat) : (s.setBellStack b t v).fld f' i' j' = s.fld f' i' j' := rfl
@[simp] theorem State.flag_setBellStack (s : State) (b t : Nat) (v : List (Nat × Nat)) (f' : Fld) (i' j' : Nat) : (s.setBellStack b t v).flag f' i' j' = s.flag f' i' j' := rfl
@[simp] theorem State.byte_setBellStack (s : State) (b t : Nat) (v : List (Nat × Nat)) (a' : Nat) : (s.setBellStack b t v).byte a' = s.byte a' := rfl
@[simp] theorem State.deadline_setBellStack (s : State) (b t : Nat) (v : List (Nat × Nat)) (k' : TimerKind) (i' j' : Nat) : (s.setBellStack b t v).deadline k' i' j' = s.deadline k' i' j' := rfl
@[simp] theorem State.thr_setBellStack (s : State) (b t : Nat) (v : List (Nat × Nat)) (c' t' : Nat) : (s.setBellStack b t v).thr c' t' = s.thr c' t' := rfl
@[simp] theorem State.wzCore_setBellStack (s : State) (b t : Nat) (v : List (Nat × Nat)) (c' : Nat) : (s.setBellStack b t v).wzCore c' = s.wzCore c' := rfl
@[simp] theorem State.reg_setLane (s : State) (l : Nat) (v : Lane) (n' : RegName) (i' j' : Nat) : (s.setLane l v).reg n' i' j' = s.reg n' i' j' := rfl
@[simp] theorem State.fld_setLane (s : State) (l : Nat) (v : Lane) (f' : Fld) (i' j' : Nat) : (s.setLane l v).fld f' i' j' = s.fld f' i' j' := rfl
@[simp] theorem State.flag_setLane (s : State) (l : Nat) (v : Lane) (f' : Fld) (i' j' : Nat) : (s.setLane l v).flag f' i' j' = s.flag f' i' j' := rfl
@[simp] theorem State.byte_setLane (s : State) (l : Nat) (v : Lane) (a' : Nat) : (s.setLane l v).byte a' = s.byte a' := rfl
@[simp] theorem State.deadline_setLane (s : State) (l : Nat) (v : Lane) (k' : TimerKind) (i' j' : Nat) : (s.setLane l v).deadline k' i' j' = s.deadline k' i' j' := rfl
@[simp] theorem State.thr_setLane (s : State) (l : Nat) (v : Lane) (c' t' : Nat) : (s.setLane l v).thr c' t' = s.thr c' t' := rfl
@[simp] theorem State.wzCore_setLane (s : State) (l : Nat) (v : Lane) (c' : Nat) : (s.setLane l v).wzCore c' = s.wzCore c' := rfl
@[simp] theorem State.reg_setQuad (s : State) (q : Nat) (v : Quad) (n' : RegName) (i' j' : Nat) : (s.setQuad q v).reg n' i' j' = s.reg n' i' j' := rfl
@[simp] theorem State.fld_setQuad (s : State) (q : Nat) (v : Quad) (f' : Fld) (i' j' : Nat) : (s.setQuad q v).fld f' i' j' = s.fld f' i' j' := rfl
@[simp] theorem State.flag_setQuad (s : State) (q : Nat) (v : Quad) (f' : Fld) (i' j' : Nat) : (s.setQuad q v).flag f' i' j' = s.flag f' i' j' := rfl
@[simp] theorem State.byte_setQuad (s : State) (q : Nat) (v : Quad) (a' : Nat) : (s.setQuad q v).byte a' = s.byte a' := rfl
@[simp] theorem State.deadline_setQuad (s : State) (q : Nat) (v : Quad) (k' : TimerKind) (i' j' : Nat) : (s.setQuad q v).deadline k' i' j' = s.deadline k' i' j' := rfl
@[simp] theorem State.thr_setQuad (s : State) (q : Nat) (v : Quad) (c' t' : Nat) : (s.setQuad q v).thr c' t' = s.thr c' t' := rfl
@[simp] theorem State.wzCore_setQuad (s : State) (q : Nat) (v : Quad) (c' : Nat) : (s.setQuad q v).wzCore c' = s.wzCore c' := rfl
@[simp] theorem State.reg_setTrk (s : State) (n : Nat) (v : Trunk) (n' : RegName) (i' j' : Nat) : (s.setTrk n v).reg n' i' j' = s.reg n' i' j' := rfl
@[simp] theorem State.fld_setTrk (s : State) (n : Nat) (v : Trunk) (f' : Fld) (i' j' : Nat) : (s.setTrk n v).fld f' i' j' = s.fld f' i' j' := rfl
@[simp] theorem State.flag_setTrk (s : State) (n : Nat) (v : Trunk) (f' : Fld) (i' j' : Nat) : (s.setTrk n v).flag f' i' j' = s.flag f' i' j' := rfl
@[simp] theorem State.byte_setTrk (s : State) (n : Nat) (v : Trunk) (a' : Nat) : (s.setTrk n v).byte a' = s.byte a' := rfl
@[simp] theorem State.deadline_setTrk (s : State) (n : Nat) (v : Trunk) (k' : TimerKind) (i' j' : Nat) : (s.setTrk n v).deadline k' i' j' = s.deadline k' i' j' := rfl
@[simp] theorem State.thr_setTrk (s : State) (n : Nat) (v : Trunk) (c' t' : Nat) : (s.setTrk n v).thr c' t' = s.thr c' t' := rfl
@[simp] theorem State.wzCore_setTrk (s : State) (n : Nat) (v : Trunk) (c' : Nat) : (s.setTrk n v).wzCore c' = s.wzCore c' := rfl
@[simp] theorem State.reg_setHall (s : State) (h : Nat) (v : HallSw) (n' : RegName) (i' j' : Nat) : (s.setHall h v).reg n' i' j' = s.reg n' i' j' := rfl
@[simp] theorem State.fld_setHall (s : State) (h : Nat) (v : HallSw) (f' : Fld) (i' j' : Nat) : (s.setHall h v).fld f' i' j' = s.fld f' i' j' := rfl
@[simp] theorem State.flag_setHall (s : State) (h : Nat) (v : HallSw) (f' : Fld) (i' j' : Nat) : (s.setHall h v).flag f' i' j' = s.flag f' i' j' := rfl
@[simp] theorem State.byte_setHall (s : State) (h : Nat) (v : HallSw) (a' : Nat) : (s.setHall h v).byte a' = s.byte a' := rfl
@[simp] theorem State.deadline_setHall (s : State) (h : Nat) (v : HallSw) (k' : TimerKind) (i' j' : Nat) : (s.setHall h v).deadline k' i' j' = s.deadline k' i' j' := rfl
@[simp] theorem State.thr_setHall (s : State) (h : Nat) (v : HallSw) (c' t' : Nat) : (s.setHall h v).thr c' t' = s.thr c' t' := rfl
@[simp] theorem State.wzCore_setHall (s : State) (h : Nat) (v : HallSw) (c' : Nat) : (s.setHall h v).wzCore c' = s.wzCore c' := rfl
@[simp] theorem State.reg_setPort (s : State) (p : Nat) (v : SchedPort) (n' : RegName) (i' j' : Nat) : (s.setPort p v).reg n' i' j' = s.reg n' i' j' := rfl
@[simp] theorem State.fld_setPort (s : State) (p : Nat) (v : SchedPort) (f' : Fld) (i' j' : Nat) : (s.setPort p v).fld f' i' j' = s.fld f' i' j' := rfl
@[simp] theorem State.flag_setPort (s : State) (p : Nat) (v : SchedPort) (f' : Fld) (i' j' : Nat) : (s.setPort p v).flag f' i' j' = s.flag f' i' j' := rfl
@[simp] theorem State.byte_setPort (s : State) (p : Nat) (v : SchedPort) (a' : Nat) : (s.setPort p v).byte a' = s.byte a' := rfl
@[simp] theorem State.deadline_setPort (s : State) (p : Nat) (v : SchedPort) (k' : TimerKind) (i' j' : Nat) : (s.setPort p v).deadline k' i' j' = s.deadline k' i' j' := rfl
@[simp] theorem State.thr_setPort (s : State) (p : Nat) (v : SchedPort) (c' t' : Nat) : (s.setPort p v).thr c' t' = s.thr c' t' := rfl
@[simp] theorem State.wzCore_setPort (s : State) (p : Nat) (v : SchedPort) (c' : Nat) : (s.setPort p v).wzCore c' = s.wzCore c' := rfl
@[simp] theorem State.reg_setNode (s : State) (id : Nat) (v : SchedNode) (n' : RegName) (i' j' : Nat) : (s.setNode id v).reg n' i' j' = s.reg n' i' j' := rfl
@[simp] theorem State.fld_setNode (s : State) (id : Nat) (v : SchedNode) (f' : Fld) (i' j' : Nat) : (s.setNode id v).fld f' i' j' = s.fld f' i' j' := rfl
@[simp] theorem State.flag_setNode (s : State) (id : Nat) (v : SchedNode) (f' : Fld) (i' j' : Nat) : (s.setNode id v).flag f' i' j' = s.flag f' i' j' := rfl
@[simp] theorem State.byte_setNode (s : State) (id : Nat) (v : SchedNode) (a' : Nat) : (s.setNode id v).byte a' = s.byte a' := rfl
@[simp] theorem State.deadline_setNode (s : State) (id : Nat) (v : SchedNode) (k' : TimerKind) (i' j' : Nat) : (s.setNode id v).deadline k' i' j' = s.deadline k' i' j' := rfl
@[simp] theorem State.thr_setNode (s : State) (id : Nat) (v : SchedNode) (c' t' : Nat) : (s.setNode id v).thr c' t' = s.thr c' t' := rfl
@[simp] theorem State.wzCore_setNode (s : State) (id : Nat) (v : SchedNode) (c' : Nat) : (s.setNode id v).wzCore c' = s.wzCore c' := rfl
@[simp] theorem State.reg_setHostSt (s : State) (h : Nat) (v : HostSt) (n' : RegName) (i' j' : Nat) : (s.setHostSt h v).reg n' i' j' = s.reg n' i' j' := rfl
@[simp] theorem State.fld_setHostSt (s : State) (h : Nat) (v : HostSt) (f' : Fld) (i' j' : Nat) : (s.setHostSt h v).fld f' i' j' = s.fld f' i' j' := rfl
@[simp] theorem State.flag_setHostSt (s : State) (h : Nat) (v : HostSt) (f' : Fld) (i' j' : Nat) : (s.setHostSt h v).flag f' i' j' = s.flag f' i' j' := rfl
@[simp] theorem State.byte_setHostSt (s : State) (h : Nat) (v : HostSt) (a' : Nat) : (s.setHostSt h v).byte a' = s.byte a' := rfl
@[simp] theorem State.deadline_setHostSt (s : State) (h : Nat) (v : HostSt) (k' : TimerKind) (i' j' : Nat) : (s.setHostSt h v).deadline k' i' j' = s.deadline k' i' j' := rfl
@[simp] theorem State.thr_setHostSt (s : State) (h : Nat) (v : HostSt) (c' t' : Nat) : (s.setHostSt h v).thr c' t' = s.thr c' t' := rfl
@[simp] theorem State.wzCore_setHostSt (s : State) (h : Nat) (v : HostSt) (c' : Nat) : (s.setHostSt h v).wzCore c' = s.wzCore c' := rfl
@[simp] theorem State.reg_setPrt (s : State) (k : Nat) (v : RootPort) (n' : RegName) (i' j' : Nat) : (s.setPrt k v).reg n' i' j' = s.reg n' i' j' := rfl
@[simp] theorem State.fld_setPrt (s : State) (k : Nat) (v : RootPort) (f' : Fld) (i' j' : Nat) : (s.setPrt k v).fld f' i' j' = s.fld f' i' j' := rfl
@[simp] theorem State.flag_setPrt (s : State) (k : Nat) (v : RootPort) (f' : Fld) (i' j' : Nat) : (s.setPrt k v).flag f' i' j' = s.flag f' i' j' := rfl
@[simp] theorem State.byte_setPrt (s : State) (k : Nat) (v : RootPort) (a' : Nat) : (s.setPrt k v).byte a' = s.byte a' := rfl
@[simp] theorem State.deadline_setPrt (s : State) (k : Nat) (v : RootPort) (k' : TimerKind) (i' j' : Nat) : (s.setPrt k v).deadline k' i' j' = s.deadline k' i' j' := rfl
@[simp] theorem State.thr_setPrt (s : State) (k : Nat) (v : RootPort) (c' t' : Nat) : (s.setPrt k v).thr c' t' = s.thr c' t' := rfl
@[simp] theorem State.wzCore_setPrt (s : State) (k : Nat) (v : RootPort) (c' : Nat) : (s.setPrt k v).wzCore c' = s.wzCore c' := rfl
@[simp] theorem State.reg_setMbx (s : State) (m : Nat) (v : Mailbox) (n' : RegName) (i' j' : Nat) : (s.setMbx m v).reg n' i' j' = s.reg n' i' j' := rfl
@[simp] theorem State.fld_setMbx (s : State) (m : Nat) (v : Mailbox) (f' : Fld) (i' j' : Nat) : (s.setMbx m v).fld f' i' j' = s.fld f' i' j' := rfl
@[simp] theorem State.flag_setMbx (s : State) (m : Nat) (v : Mailbox) (f' : Fld) (i' j' : Nat) : (s.setMbx m v).flag f' i' j' = s.flag f' i' j' := rfl
@[simp] theorem State.byte_setMbx (s : State) (m : Nat) (v : Mailbox) (a' : Nat) : (s.setMbx m v).byte a' = s.byte a' := rfl
@[simp] theorem State.deadline_setMbx (s : State) (m : Nat) (v : Mailbox) (k' : TimerKind) (i' j' : Nat) : (s.setMbx m v).deadline k' i' j' = s.deadline k' i' j' := rfl
@[simp] theorem State.thr_setMbx (s : State) (m : Nat) (v : Mailbox) (c' t' : Nat) : (s.setMbx m v).thr c' t' = s.thr c' t' := rfl
@[simp] theorem State.wzCore_setMbx (s : State) (m : Nat) (v : Mailbox) (c' : Nat) : (s.setMbx m v).wzCore c' = s.wzCore c' := rfl
@[simp] theorem State.reg_setAlc (s : State) (a : Nat) (v : Alcove) (n' : RegName) (i' j' : Nat) : (s.setAlc a v).reg n' i' j' = s.reg n' i' j' := rfl
@[simp] theorem State.fld_setAlc (s : State) (a : Nat) (v : Alcove) (f' : Fld) (i' j' : Nat) : (s.setAlc a v).fld f' i' j' = s.fld f' i' j' := rfl
@[simp] theorem State.flag_setAlc (s : State) (a : Nat) (v : Alcove) (f' : Fld) (i' j' : Nat) : (s.setAlc a v).flag f' i' j' = s.flag f' i' j' := rfl
@[simp] theorem State.byte_setAlc (s : State) (a : Nat) (v : Alcove) (a' : Nat) : (s.setAlc a v).byte a' = s.byte a' := rfl
@[simp] theorem State.deadline_setAlc (s : State) (a : Nat) (v : Alcove) (k' : TimerKind) (i' j' : Nat) : (s.setAlc a v).deadline k' i' j' = s.deadline k' i' j' := rfl
@[simp] theorem State.thr_setAlc (s : State) (a : Nat) (v : Alcove) (c' t' : Nat) : (s.setAlc a v).thr c' t' = s.thr c' t' := rfl
@[simp] theorem State.wzCore_setAlc (s : State) (a : Nat) (v : Alcove) (c' : Nat) : (s.setAlc a v).wzCore c' = s.wzCore c' := rfl
@[simp] theorem State.reg_setHead (s : State) (n : Nat) (v : Head) (n' : RegName) (i' j' : Nat) : (s.setHead n v).reg n' i' j' = s.reg n' i' j' := rfl
@[simp] theorem State.fld_setHead (s : State) (n : Nat) (v : Head) (f' : Fld) (i' j' : Nat) : (s.setHead n v).fld f' i' j' = s.fld f' i' j' := rfl
@[simp] theorem State.flag_setHead (s : State) (n : Nat) (v : Head) (f' : Fld) (i' j' : Nat) : (s.setHead n v).flag f' i' j' = s.flag f' i' j' := rfl
@[simp] theorem State.byte_setHead (s : State) (n : Nat) (v : Head) (a' : Nat) : (s.setHead n v).byte a' = s.byte a' := rfl
@[simp] theorem State.deadline_setHead (s : State) (n : Nat) (v : Head) (k' : TimerKind) (i' j' : Nat) : (s.setHead n v).deadline k' i' j' = s.deadline k' i' j' := rfl
@[simp] theorem State.thr_setHead (s : State) (n : Nat) (v : Head) (c' t' : Nat) : (s.setHead n v).thr c' t' = s.thr c' t' := rfl
@[simp] theorem State.wzCore_setHead (s : State) (n : Nat) (v : Head) (c' : Nat) : (s.setHead n v).wzCore c' = s.wzCore c' := rfl
@[simp] theorem State.reg_setTd (s : State) (n : Nat) (v : TdUnit) (n' : RegName) (i' j' : Nat) : (s.setTd n v).reg n' i' j' = s.reg n' i' j' := rfl
@[simp] theorem State.fld_setTd (s : State) (n : Nat) (v : TdUnit) (f' : Fld) (i' j' : Nat) : (s.setTd n v).fld f' i' j' = s.fld f' i' j' := rfl
@[simp] theorem State.flag_setTd (s : State) (n : Nat) (v : TdUnit) (f' : Fld) (i' j' : Nat) : (s.setTd n v).flag f' i' j' = s.flag f' i' j' := rfl
@[simp] theorem State.byte_setTd (s : State) (n : Nat) (v : TdUnit) (a' : Nat) : (s.setTd n v).byte a' = s.byte a' := rfl
@[simp] theorem State.deadline_setTd (s : State) (n : Nat) (v : TdUnit) (k' : TimerKind) (i' j' : Nat) : (s.setTd n v).deadline k' i' j' = s.deadline k' i' j' := rfl
@[simp] theorem State.thr_setTd (s : State) (n : Nat) (v : TdUnit) (c' t' : Nat) : (s.setTd n v).thr c' t' = s.thr c' t' := rfl
@[simp] theorem State.wzCore_setTd (s : State) (n : Nat) (v : TdUnit) (c' : Nat) : (s.setTd n v).wzCore c' = s.wzCore c' := rfl
@[simp] theorem State.reg_setMon (s : State) (m : Nat) (v : MonSt) (n' : RegName) (i' j' : Nat) : (s.setMon m v).reg n' i' j' = s.reg n' i' j' := rfl
@[simp] theorem State.fld_setMon (s : State) (m : Nat) (v : MonSt) (f' : Fld) (i' j' : Nat) : (s.setMon m v).fld f' i' j' = s.fld f' i' j' := rfl
@[simp] theorem State.flag_setMon (s : State) (m : Nat) (v : MonSt) (f' : Fld) (i' j' : Nat) : (s.setMon m v).flag f' i' j' = s.flag f' i' j' := rfl
@[simp] theorem State.byte_setMon (s : State) (m : Nat) (v : MonSt) (a' : Nat) : (s.setMon m v).byte a' = s.byte a' := rfl
@[simp] theorem State.deadline_setMon (s : State) (m : Nat) (v : MonSt) (k' : TimerKind) (i' j' : Nat) : (s.setMon m v).deadline k' i' j' = s.deadline k' i' j' := rfl
@[simp] theorem State.thr_setMon (s : State) (m : Nat) (v : MonSt) (c' t' : Nat) : (s.setMon m v).thr c' t' = s.thr c' t' := rfl
@[simp] theorem State.wzCore_setMon (s : State) (m : Nat) (v : MonSt) (c' : Nat) : (s.setMon m v).wzCore c' = s.wzCore c' := rfl
@[simp] theorem State.reg_setEntry (s : State) (e : Option PwrEntry) (n' : RegName) (i' j' : Nat) : (s.setEntry e).reg n' i' j' = s.reg n' i' j' := rfl
@[simp] theorem State.fld_setEntry (s : State) (e : Option PwrEntry) (f' : Fld) (i' j' : Nat) : (s.setEntry e).fld f' i' j' = s.fld f' i' j' := rfl
@[simp] theorem State.flag_setEntry (s : State) (e : Option PwrEntry) (f' : Fld) (i' j' : Nat) : (s.setEntry e).flag f' i' j' = s.flag f' i' j' := rfl
@[simp] theorem State.byte_setEntry (s : State) (e : Option PwrEntry) (a' : Nat) : (s.setEntry e).byte a' = s.byte a' := rfl
@[simp] theorem State.deadline_setEntry (s : State) (e : Option PwrEntry) (k' : TimerKind) (i' j' : Nat) : (s.setEntry e).deadline k' i' j' = s.deadline k' i' j' := rfl
@[simp] theorem State.thr_setEntry (s : State) (e : Option PwrEntry) (c' t' : Nat) : (s.setEntry e).thr c' t' = s.thr c' t' := rfl
@[simp] theorem State.wzCore_setEntry (s : State) (e : Option PwrEntry) (c' : Nat) : (s.setEntry e).wzCore c' = s.wzCore c' := rfl
@[simp] theorem State.reg_setFlight (s : State) (k : Nat) (v : FlightSt) (n' : RegName) (i' j' : Nat) : (s.setFlight k v).reg n' i' j' = s.reg n' i' j' := rfl
@[simp] theorem State.fld_setFlight (s : State) (k : Nat) (v : FlightSt) (f' : Fld) (i' j' : Nat) : (s.setFlight k v).fld f' i' j' = s.fld f' i' j' := rfl
@[simp] theorem State.flag_setFlight (s : State) (k : Nat) (v : FlightSt) (f' : Fld) (i' j' : Nat) : (s.setFlight k v).flag f' i' j' = s.flag f' i' j' := rfl
@[simp] theorem State.byte_setFlight (s : State) (k : Nat) (v : FlightSt) (a' : Nat) : (s.setFlight k v).byte a' = s.byte a' := rfl
@[simp] theorem State.deadline_setFlight (s : State) (k : Nat) (v : FlightSt) (k' : TimerKind) (i' j' : Nat) : (s.setFlight k v).deadline k' i' j' = s.deadline k' i' j' := rfl
@[simp] theorem State.thr_setFlight (s : State) (k : Nat) (v : FlightSt) (c' t' : Nat) : (s.setFlight k v).thr c' t' = s.thr c' t' := rfl
@[simp] theorem State.wzCore_setFlight (s : State) (k : Nat) (v : FlightSt) (c' : Nat) : (s.setFlight k v).wzCore c' = s.wzCore c' := rfl
@[simp] theorem State.reg_setHallCtl (s : State) (h : Nat) (v : HallCtl) (n' : RegName) (i' j' : Nat) : (s.setHallCtl h v).reg n' i' j' = s.reg n' i' j' := rfl
@[simp] theorem State.fld_setHallCtl (s : State) (h : Nat) (v : HallCtl) (f' : Fld) (i' j' : Nat) : (s.setHallCtl h v).fld f' i' j' = s.fld f' i' j' := rfl
@[simp] theorem State.flag_setHallCtl (s : State) (h : Nat) (v : HallCtl) (f' : Fld) (i' j' : Nat) : (s.setHallCtl h v).flag f' i' j' = s.flag f' i' j' := rfl
@[simp] theorem State.byte_setHallCtl (s : State) (h : Nat) (v : HallCtl) (a' : Nat) : (s.setHallCtl h v).byte a' = s.byte a' := rfl
@[simp] theorem State.deadline_setHallCtl (s : State) (h : Nat) (v : HallCtl) (k' : TimerKind) (i' j' : Nat) : (s.setHallCtl h v).deadline k' i' j' = s.deadline k' i' j' := rfl
@[simp] theorem State.thr_setHallCtl (s : State) (h : Nat) (v : HallCtl) (c' t' : Nat) : (s.setHallCtl h v).thr c' t' = s.thr c' t' := rfl
@[simp] theorem State.wzCore_setHallCtl (s : State) (h : Nat) (v : HallCtl) (c' : Nat) : (s.setHallCtl h v).wzCore c' = s.wzCore c' := rfl
@[simp] theorem State.reg_setWarden (s : State) (w : Warden) (n' : RegName) (i' j' : Nat) : (s.setWarden w).reg n' i' j' = s.reg n' i' j' := rfl
@[simp] theorem State.fld_setWarden (s : State) (w : Warden) (f' : Fld) (i' j' : Nat) : (s.setWarden w).fld f' i' j' = s.fld f' i' j' := rfl
@[simp] theorem State.flag_setWarden (s : State) (w : Warden) (f' : Fld) (i' j' : Nat) : (s.setWarden w).flag f' i' j' = s.flag f' i' j' := rfl
@[simp] theorem State.byte_setWarden (s : State) (w : Warden) (a' : Nat) : (s.setWarden w).byte a' = s.byte a' := rfl
@[simp] theorem State.deadline_setWarden (s : State) (w : Warden) (k' : TimerKind) (i' j' : Nat) : (s.setWarden w).deadline k' i' j' = s.deadline k' i' j' := rfl
@[simp] theorem State.thr_setWarden (s : State) (w : Warden) (c' t' : Nat) : (s.setWarden w).thr c' t' = s.thr c' t' := rfl
@[simp] theorem State.wzCore_setWarden (s : State) (w : Warden) (c' : Nat) : (s.setWarden w).wzCore c' = s.wzCore c' := rfl
@[simp] theorem State.reg_tookTurn (s : State) (c t : Nat) (n' : RegName) (i' j' : Nat) : (s.tookTurn c t).reg n' i' j' = s.reg n' i' j' := rfl
@[simp] theorem State.fld_tookTurn (s : State) (c t : Nat) (f' : Fld) (i' j' : Nat) : (s.tookTurn c t).fld f' i' j' = s.fld f' i' j' := rfl
@[simp] theorem State.flag_tookTurn (s : State) (c t : Nat) (f' : Fld) (i' j' : Nat) : (s.tookTurn c t).flag f' i' j' = s.flag f' i' j' := rfl
@[simp] theorem State.byte_tookTurn (s : State) (c t : Nat) (a' : Nat) : (s.tookTurn c t).byte a' = s.byte a' := rfl
@[simp] theorem State.deadline_tookTurn (s : State) (c t : Nat) (k' : TimerKind) (i' j' : Nat) : (s.tookTurn c t).deadline k' i' j' = s.deadline k' i' j' := rfl
@[simp] theorem State.thr_tookTurn (s : State) (c t : Nat) (c' t' : Nat) : (s.tookTurn c t).thr c' t' = s.thr c' t' := rfl
@[simp] theorem State.wzCore_tookTurn (s : State) (c t : Nat) (c' : Nat) : (s.tookTurn c t).wzCore c' = s.wzCore c' := rfl
@[simp] theorem State.reg_yieldTurn (s : State) (c t : Nat) (n' : RegName) (i' j' : Nat) : (s.yieldTurn c t).reg n' i' j' = s.reg n' i' j' := rfl
@[simp] theorem State.fld_yieldTurn (s : State) (c t : Nat) (f' : Fld) (i' j' : Nat) : (s.yieldTurn c t).fld f' i' j' = s.fld f' i' j' := rfl
@[simp] theorem State.flag_yieldTurn (s : State) (c t : Nat) (f' : Fld) (i' j' : Nat) : (s.yieldTurn c t).flag f' i' j' = s.flag f' i' j' := rfl
@[simp] theorem State.byte_yieldTurn (s : State) (c t : Nat) (a' : Nat) : (s.yieldTurn c t).byte a' = s.byte a' := rfl
@[simp] theorem State.deadline_yieldTurn (s : State) (c t : Nat) (k' : TimerKind) (i' j' : Nat) : (s.yieldTurn c t).deadline k' i' j' = s.deadline k' i' j' := rfl
@[simp] theorem State.thr_yieldTurn (s : State) (c t : Nat) (c' t' : Nat) : (s.yieldTurn c t).thr c' t' = s.thr c' t' := rfl
@[simp] theorem State.wzCore_yieldTurn (s : State) (c t : Nat) (c' : Nat) : (s.yieldTurn c t).wzCore c' = s.wzCore c' := rfl
@[simp] theorem State.reg_setMeter (s : State) (h m : Nat) (v : Meter) (n' : RegName) (i' j' : Nat) : (s.setMeter h m v).reg n' i' j' = s.reg n' i' j' := rfl
@[simp] theorem State.fld_setMeter (s : State) (h m : Nat) (v : Meter) (f' : Fld) (i' j' : Nat) : (s.setMeter h m v).fld f' i' j' = s.fld f' i' j' := rfl
@[simp] theorem State.flag_setMeter (s : State) (h m : Nat) (v : Meter) (f' : Fld) (i' j' : Nat) : (s.setMeter h m v).flag f' i' j' = s.flag f' i' j' := rfl
@[simp] theorem State.byte_setMeter (s : State) (h m : Nat) (v : Meter) (a' : Nat) : (s.setMeter h m v).byte a' = s.byte a' := rfl
@[simp] theorem State.deadline_setMeter (s : State) (h m : Nat) (v : Meter) (k' : TimerKind) (i' j' : Nat) : (s.setMeter h m v).deadline k' i' j' = s.deadline k' i' j' := rfl
@[simp] theorem State.thr_setMeter (s : State) (h m : Nat) (v : Meter) (c' t' : Nat) : (s.setMeter h m v).thr c' t' = s.thr c' t' := rfl
@[simp] theorem State.wzCore_setMeter (s : State) (h m : Nat) (v : Meter) (c' : Nat) : (s.setMeter h m v).wzCore c' = s.wzCore c' := rfl

end Sys2Proof.Machine
end

