-- ==== Sys2Proof/Laws/Tab.lean ====
section
/-! SUPPORT. Sparse tables: what a read after a write gives, and that every operation keeps the canonical form. -/

namespace Sys2Proof.Machine

variable {κ α : Type}

/-! Reads. -/

theorem tabGet_erase_same [DecidableEq κ] (d : κ → α) (t : Tab κ α) (k : κ) : tabGet d (tabErase t k) k = d k := by
  induction t with
  | nil => rfl
  | cons e t ih =>
    obtain ⟨k', v⟩ := e
    by_cases h : k' = k
    · simpa [tabErase, h] using ih
    · simpa [tabErase, tabGet, h] using ih

theorem tabGet_erase_other [DecidableEq κ] (d : κ → α) (t : Tab κ α) {k j : κ} (h : j ≠ k) : tabGet d (tabErase t k) j = tabGet d t j := by
  induction t with
  | nil => rfl
  | cons e t ih =>
    obtain ⟨k', v⟩ := e
    by_cases h' : k' = k
    · subst h'; simpa [tabErase, tabGet, Ne.symm h] using ih
    · by_cases h'' : k' = j
      · subst h''; simp [tabErase, tabGet, h']
      · simp [tabErase, tabGet, h', h'', ih]

theorem tabGet_insert [DecidableEq κ] (rank : κ → Nat) (d : κ → α) (t : Tab κ α) (k j : κ) (v : α) (h : ∀ e ∈ t, e.1 ≠ k) :
    tabGet d (tabInsert rank k v t) j = if k = j then v else tabGet d t j := by
  induction t with
  | nil => rfl
  | cons e t ih =>
    obtain ⟨k', v'⟩ := e
    have h0 : k' ≠ k := h (k', v') (by simp)
    have ih := ih (fun e he => h e (by simp [he]))
    simp only [tabInsert]
    split
    · rfl
    · by_cases hj : k' = j
      · subst hj; simp [tabGet, Ne.symm h0]
      · simp [tabGet, hj, ih]

theorem tabErase_absent [DecidableEq κ] (t : Tab κ α) (k : κ) : ∀ e ∈ tabErase t k, e.1 ≠ k := by
  induction t with
  | nil => simp [tabErase]
  | cons e t ih =>
    obtain ⟨k', v⟩ := e
    by_cases h : k' = k
    · simpa [tabErase, h] using ih
    · simp only [tabErase, h, if_false]
      intro e he
      rcases List.mem_cons.1 he with rfl | he
      · exact h
      · exact ih e he

/-- Read after write: the key written reads the value written, every other key reads as before. -/
theorem tabGet_set [DecidableEq κ] [DecidableEq α] (rank : κ → Nat) (d : κ → α) (t : Tab κ α) (k j : κ) (v : α) :
    tabGet d (tabSet rank d t k v) j = if k = j then v else tabGet d t j := by
  unfold tabSet
  split
  · rename_i hv
    by_cases h : k = j
    · subst h; simp [tabGet_erase_same, hv]
    · simp [h, tabGet_erase_other d t (Ne.symm h)]
  · rw [tabGet_insert rank d _ k j v (tabErase_absent t k)]
    by_cases h : k = j
    · simp [h]
    · simp [h, tabGet_erase_other d t (Ne.symm h)]

@[simp] theorem tabGet_set_same [DecidableEq κ] [DecidableEq α] (rank : κ → Nat) (d : κ → α) (t : Tab κ α) (k : κ) (v : α) :
    tabGet d (tabSet rank d t k v) k = v := by simp [tabGet_set]

theorem tabGet_set_other [DecidableEq κ] [DecidableEq α] (rank : κ → Nat) (d : κ → α) (t : Tab κ α) {k j : κ} (v : α) (h : j ≠ k) :
    tabGet d (tabSet rank d t k v) j = tabGet d t j := by simp [tabGet_set, Ne.symm h]

@[simp] theorem unitGet_set_same [DecidableEq α] (d : α) (t : UnitMap α) (n : Nat) (v : α) : unitGet d (unitSet d t n v) n = v := by
  simp [unitGet, unitSet]

theorem unitGet_set [DecidableEq α] (d : α) (t : UnitMap α) (n m : Nat) (v : α) :
    unitGet d (unitSet d t n v) m = if n = m then v else unitGet d t m := by
  simp [unitGet, unitSet, tabGet_set]

theorem unitGet_set_other [DecidableEq α] (d : α) (t : UnitMap α) {n m : Nat} (v : α) (h : m ≠ n) :
    unitGet d (unitSet d t n v) m = unitGet d t m := by simp [unitGet_set, Ne.symm h]

/-! The canonical form. -/

theorem tabRising_mono (rank : κ → Nat) {n m : Nat} {t : Tab κ α} (h : tabRising rank n t = true) (hm : m ≤ n) :
    tabRising rank m t = true := by
  cases t with
  | nil => rfl
  | cons e t =>
    simp only [tabRising, Bool.and_eq_true, decide_eq_true_eq] at h ⊢
    exact ⟨le_trans hm h.1, h.2⟩

theorem tabRising_erase [DecidableEq κ] (rank : κ → Nat) {n : Nat} {t : Tab κ α} (k : κ) (h : tabRising rank n t = true) :
    tabRising rank n (tabErase t k) = true := by
  induction t generalizing n with
  | nil => rfl
  | cons e t ih =>
    obtain ⟨k', v⟩ := e
    simp only [tabRising, Bool.and_eq_true, decide_eq_true_eq] at h
    by_cases hk : k' = k
    · simpa [tabErase, hk] using tabRising_mono rank (ih h.2) (by omega)
    · simpa [tabErase, hk, tabRising, h.1] using ih h.2

theorem tabRising_insert {rank : κ → Nat} (hr : Function.Injective rank) {n : Nat} {t : Tab κ α} {k : κ} (v : α)
    (ha : ∀ e ∈ t, e.1 ≠ k) (hn : n ≤ rank k) (h : tabRising rank n t = true) :
    tabRising rank n (tabInsert rank k v t) = true := by
  induction t generalizing n with
  | nil => simpa [tabInsert, tabRising] using hn
  | cons e t ih =>
    obtain ⟨k', v'⟩ := e
    simp only [tabRising, Bool.and_eq_true, decide_eq_true_eq] at h
    have h0 : rank k' ≠ rank k := fun h' => ha (k', v') (by simp) (hr h')
    simp only [tabInsert]
    split
    · simp only [tabRising, Bool.and_eq_true, decide_eq_true_eq]; exact ⟨hn, by omega, h.2⟩
    · simp only [tabRising, Bool.and_eq_true, decide_eq_true_eq]
      exact ⟨h.1, ih (fun e he => ha e (by simp [he])) (by omega) h.2⟩

theorem mem_tabInsert {rank : κ → Nat} {k : κ} {v : α} {t : Tab κ α} {e : κ × α} (h : e ∈ tabInsert rank k v t) :
    e = (k, v) ∨ e ∈ t := by
  induction t with
  | nil => simpa [tabInsert] using h
  | cons e' t ih =>
    simp only [tabInsert] at h
    split at h <;> simp only [List.mem_cons] at h ⊢ <;> grind

theorem mem_tabErase [DecidableEq κ] {t : Tab κ α} {k : κ} {e : κ × α} (h : e ∈ tabErase t k) : e ∈ t := by
  induction t with
  | nil => exact h
  | cons e' t ih =>
    simp only [tabErase] at h
    split at h <;> simp only [List.mem_cons] at h ⊢ <;> grind

theorem tabNoDefault_iff [DecidableEq α] {d : κ → α} {t : Tab κ α} : tabNoDefault d t = true ↔ ∀ e ∈ t, e.2 ≠ d e.1 := by
  simp [tabNoDefault, List.all_eq_true]

/-- A write keeps the canonical form. -/
theorem tabWf_set [DecidableEq κ] [DecidableEq α] {rank : κ → Nat} (hr : Function.Injective rank) {d : κ → α} {t : Tab κ α} (k : κ) (v : α)
    (h : tabWf rank d t = true) : tabWf rank d (tabSet rank d t k v) = true := by
  simp only [tabWf, Bool.and_eq_true, tabNoDefault_iff] at h ⊢
  unfold tabSet
  split
  · exact ⟨tabRising_erase rank k h.1, fun e he => h.2 e (mem_tabErase he)⟩
  · rename_i hv
    refine ⟨tabRising_insert hr v (tabErase_absent t k) (Nat.zero_le _) (tabRising_erase rank k h.1), fun e he => ?_⟩
    rcases mem_tabInsert he with rfl | he
    · exact hv
    · exact h.2 e (mem_tabErase he)

theorem tabRising_filter (rank : κ → Nat) {n : Nat} {t : Tab κ α} (p : κ × α → Bool) (h : tabRising rank n t = true) :
    tabRising rank n (t.filter p) = true := by
  induction t generalizing n with
  | nil => rfl
  | cons e t ih =>
    simp only [tabRising, Bool.and_eq_true, decide_eq_true_eq] at h
    simp only [List.filter_cons]
    split
    · simp only [tabRising, Bool.and_eq_true, decide_eq_true_eq]; exact ⟨h.1, ih h.2⟩
    · cases hh : t.filter p with
      | nil => rfl
      | cons e' t' =>
        have := ih h.2
        rw [hh] at this
        simp only [tabRising, Bool.and_eq_true, decide_eq_true_eq] at this ⊢
        exact ⟨by omega, this.2⟩

/-- Dropping entries keeps the canonical form. -/
theorem tabWf_filter [DecidableEq α] {rank : κ → Nat} {d : κ → α} {t : Tab κ α} (p : κ × α → Bool) (h : tabWf rank d t = true) :
    tabWf rank d (t.filter p) = true := by
  simp only [tabWf, Bool.and_eq_true, tabNoDefault_iff] at h ⊢
  exact ⟨tabRising_filter rank p h.1, fun e he => h.2 e (List.mem_filter.1 he).1⟩

end Sys2Proof.Machine
end

