-- ==== Sys2Proof/Laws/Ops.lean ====
section
/-! SUPPORT. What the named operations do: registers and fields read back, timers, memory, and the canonical forms. -/

namespace Sys2Proof.Machine

/-! Ranks. -/

theorem pairNum_inj {a b c d : Nat} (h : pairNum a b = pairNum c d) : a = c ∧ b = d := by
  unfold pairNum at h
  have h1 : a + b = c + d := by
    rcases lt_trichotomy (a + b) (c + d) with h' | h' | h'
    · nlinarith
    · exact h'
    · nlinarith
  rw [h1] at h
  omega

theorem regNum_eq : ∀ n, regNum n = n.ctorIdx := by intro n; cases n <;> rfl

theorem regNum_inj : Function.Injective regNum := by
  intro a b h
  rw [regNum_eq, regNum_eq] at h
  rw [← RegName.ofNat_ctorIdx a, ← RegName.ofNat_ctorIdx b, h]

theorem regRank_inj : Function.Injective regRank := by
  intro a b h
  obtain ⟨h1, h2⟩ := pairNum_inj h
  obtain ⟨h3, h4⟩ := pairNum_inj h1
  have h5 := regNum_inj h3
  cases a; cases b
  simp_all

theorem timerRank_inj : Function.Injective timerRank := by
  intro a b h
  obtain ⟨h1, h2⟩ := pairNum_inj h
  obtain ⟨h3, h4⟩ := pairNum_inj h1
  have h5 : a.kind = b.kind := by rw [← TimerKind.ofNat_ctorIdx a.kind, ← TimerKind.ofNat_ctorIdx b.kind, h3]
  cases a; cases b
  simp_all

/-! Registers. -/

@[simp] theorem State.reg_setReg_same (s : State) (n : RegName) (i j : Nat) (v : BitVec 64) :
    (s.setReg n i j v).reg n i j = v := by simp [State.reg, State.setReg]

theorem State.reg_setReg (s : State) (n m : RegName) (i j k l : Nat) (v : BitVec 64) :
    (s.setReg n i j v).reg m k l = if n = m ∧ i = k ∧ j = l then v else s.reg m k l := by
  simp [State.reg, State.setReg, tabGet_set, RegId.mk.injEq]

theorem State.reg_setFld (s : State) (f : Fld) (m : RegName) (i j k l v : Nat) :
    (s.setFld f i j v).reg m k l = if f.reg = m ∧ i = k ∧ j = l then fldPut f v (s.reg f.reg i j) else s.reg m k l :=
  State.reg_setReg ..

/-- A write of one register leaves every other as it was. -/
theorem State.reg_setReg_other (s : State) {n m : RegName} {i j k l : Nat} (v : BitVec 64)
    (h : ¬(n = m ∧ i = k ∧ j = l)) : (s.setReg n i j v).reg m k l = s.reg m k l := by simp [State.reg_setReg, h]

/-- What a field reads depends on its bits alone. -/
theorem fldGet_eq_testBit (f : Fld) (w : BitVec 64) (n : Nat) :
    (fldGet f w).testBit n = (decide (n < f.hi - f.lo + 1) && w.toNat.testBit (f.lo + n)) := by
  simp only [fldGet, Nat.testBit_mod_two_pow, Nat.testBit_div_two_pow, Nat.add_comm]

/-- The bits of a field's mask. -/
theorem fldMask_testBit (f : Fld) (n : Nat) :
    (fldMask f).toNat.testBit n = (decide (n < 64) && decide (f.lo ≤ n) && decide (n ≤ f.lo + (f.hi - f.lo))) := by
  simp only [fldMask, BitVec.toNat_ofNat, Nat.testBit_mod_two_pow, Nat.testBit_mul_two_pow, Nat.testBit_two_pow_sub_one]
  by_cases h1 : n < 64 <;> by_cases h2 : f.lo ≤ n <;> simp [h1, h2]
  omega

/-- The bits of a register value with a field replaced. -/
theorem fldPut_testBit (f : Fld) (v : Nat) (w : BitVec 64) (n : Nat) (hn : n < 64) :
    (fldPut f v w).toNat.testBit n =
      (if f.lo ≤ n ∧ n ≤ f.lo + (f.hi - f.lo) then v.testBit (n - f.lo) else w.toNat.testBit n) := by
  have h0 : ∀ (a : BitVec 64), a.toNat.testBit n = a.getLsbD n := fun a => rfl
  rw [h0, h0]
  have hm : (fldMask f).getLsbD n = (decide (f.lo ≤ n) && decide (n ≤ f.lo + (f.hi - f.lo))) := by
    rw [← h0, fldMask_testBit]; simp [hn]
  simp only [fldPut, BitVec.getLsbD_or, BitVec.getLsbD_and, BitVec.getLsbD_not, hm, hn, decide_true, Bool.true_and]
  have hv : (BitVec.ofNat 64 (v % 2 ^ (f.hi - f.lo + 1) * 2 ^ f.lo)).getLsbD n =
      (decide (f.lo ≤ n) && (decide (n - f.lo < f.hi - f.lo + 1) && v.testBit (n - f.lo))) := by
    rw [BitVec.getLsbD_ofNat, Nat.testBit_mul_two_pow, Nat.testBit_mod_two_pow]; simp [hn]
  rw [hv]
  by_cases h1 : f.lo ≤ n <;> by_cases h2 : n ≤ f.lo + (f.hi - f.lo) <;> simp [h1, h2] <;> omega

/-- A field reads back what was put into it, in the field's width. -/
theorem fldGet_fldPut_same (f : Fld) (v : Nat) (w : BitVec 64) (h : f.hi < 64) (h' : f.lo ≤ f.hi) :
    fldGet f (fldPut f v w) = v % 2 ^ (f.hi - f.lo + 1) := by
  apply Nat.eq_of_testBit_eq
  intro n
  rw [fldGet_eq_testBit, Nat.testBit_mod_two_pow]
  by_cases hn : n < f.hi - f.lo + 1
  · rw [fldPut_testBit _ _ _ _ (by omega)]
    simp [hn]; omega
  · simp [hn]

/-- Two fields that share no bit do not touch each other. -/
theorem fldGet_fldPut_apart (f g : Fld) (v : Nat) (w : BitVec 64) (hg : g.hi < 64) (hg' : g.lo ≤ g.hi)
    (h : g.hi < f.lo ∨ f.lo + (f.hi - f.lo) < g.lo) : fldGet g (fldPut f v w) = fldGet g w := by
  apply Nat.eq_of_testBit_eq
  intro n
  rw [fldGet_eq_testBit, fldGet_eq_testBit]
  by_cases hn : n < g.hi - g.lo + 1
  · rw [fldPut_testBit _ _ _ _ (by omega)]
    have : ¬(f.lo ≤ g.lo + n ∧ g.lo + n ≤ f.lo + (f.hi - f.lo)) := by omega
    simp [this]
  · simp [hn]

/-- A field that was written reads back the value in its width. -/
theorem State.fld_setFld_same (s : State) (f : Fld) (i j v : Nat) (h : f.hi < 64) (h' : f.lo ≤ f.hi) :
    (s.setFld f i j v).fld f i j = v % 2 ^ (f.hi - f.lo + 1) := by
  simp [State.fld, State.setFld, fldGet_fldPut_same f v _ h h']

/-- A field of another register, or of the same register with no bit in common, reads as before. -/
theorem State.fld_setFld_other (s : State) (f g : Fld) (i j k l v : Nat) (hg : g.hi < 64) (hg' : g.lo ≤ g.hi)
    (h : ¬(f.reg = g.reg ∧ i = k ∧ j = l) ∨ g.hi < f.lo ∨ f.lo + (f.hi - f.lo) < g.lo) :
    (s.setFld f i j v).fld g k l = s.fld g k l := by
  by_cases hs : f.reg = g.reg ∧ i = k ∧ j = l
  · obtain ⟨h1, rfl, rfl⟩ := hs
    simp only [State.fld, State.setFld, ← h1, State.reg_setReg_same]
    exact fldGet_fldPut_apart f g v _ hg hg' (by tauto)
  · simp [State.fld, State.reg_setFld, hs]

/-! Timers. -/

@[simp] theorem State.deadline_arm_same (s : State) (k : TimerKind) (i j ns : Nat) :
    (s.arm k i j ns).deadline k i j = some (s.tb + ns) := by simp [State.deadline, State.arm]

@[simp] theorem State.deadline_disarm_same (s : State) (k : TimerKind) (i j : Nat) :
    (s.disarm k i j).deadline k i j = none := by simp [State.deadline, State.disarm]

theorem State.deadline_arm (s : State) (k l : TimerKind) (i j a b ns : Nat) :
    (s.arm k i j ns).deadline l a b = if k = l ∧ i = a ∧ j = b then some (s.tb + ns) else s.deadline l a b := by
  simp [State.deadline, State.arm, tabGet_set, TimerId.mk.injEq]

theorem State.deadline_disarm (s : State) (k l : TimerKind) (i j a b : Nat) :
    (s.disarm k i j).deadline l a b = if k = l ∧ i = a ∧ j = b then none else s.deadline l a b := by
  simp [State.deadline, State.disarm, tabGet_set, TimerId.mk.injEq]

/-! Memory. -/

@[simp] theorem State.byte_setByte_same (s : State) (a : Nat) (v : Byte) : (s.setByte a v).byte a = v := by
  simp [State.byte, State.setByte]

theorem State.byte_setByte (s : State) (a b : Nat) (v : Byte) :
    (s.setByte a v).byte b = if a = b then v else s.byte b := by simp [State.byte, State.setByte, tabGet_set]

/-- A store of a list of bytes: inside it each address reads its byte, outside it as before. -/
theorem State.byte_setBytes (s : State) (a b : Nat) (l : List Byte) :
    (s.setBytes a l).byte b = if a ≤ b ∧ b < a + l.length then l.getD (b - a) 0 else s.byte b := by
  induction l generalizing s a with
  | nil =>
    have : ¬(a ≤ b ∧ b < a) := by omega
    simp [State.setBytes, this]
  | cons v l ih =>
    rw [State.setBytes, ih, State.byte_setByte]
    by_cases h : a = b
    · subst h; simp
    · by_cases h2 : a + 1 ≤ b ∧ b < a + 1 + l.length
      · have h3 : a ≤ b ∧ b < a + (v :: l).length := by simp; omega
        have h4 : b - a = (b - (a + 1)) + 1 := by omega
        simp only [h2, h3, and_self, if_true, h4, List.getD_cons_succ]
      · have h3 : ¬(a ≤ b ∧ b < a + (v :: l).length) := by simp; omega
        simp only [h2, h3, if_false, h]

/-- A store of bytes changes memory alone. -/
theorem State.setBytes_eq (s : State) (a : Nat) (l : List Byte) : s.setBytes a l = { s with mem := (s.setBytes a l).mem } := by
  induction l generalizing s a with
  | nil => rfl
  | cons v l ih => rw [State.setBytes, ih]; rfl

/-! Canonical forms (INVENTORY.md, State). -/

theorem State.setReg_wf {s : State} (n : RegName) (i j : Nat) (v : BitVec 64) (h : tabWf regRank regReset s.regs = true) :
    tabWf regRank regReset (s.setReg n i j v).regs = true := tabWf_set regRank_inj _ _ h

theorem State.resetRegs_wf {s : State} (p : RegId → Bool) (h : tabWf regRank regReset s.regs = true) :
    tabWf regRank regReset (s.resetRegs p).regs = true := tabWf_filter _ h

theorem State.arm_wf {s : State} (k : TimerKind) (i j ns : Nat)
    (h : tabWf timerRank (fun _ => (none : Option Nat)) s.timers = true) :
    tabWf timerRank (fun _ => (none : Option Nat)) (s.arm k i j ns).timers = true := tabWf_set timerRank_inj ⟨k, i, j⟩ (some (s.tb + ns)) h

theorem State.disarm_wf {s : State} (k : TimerKind) (i j : Nat)
    (h : tabWf timerRank (fun _ => (none : Option Nat)) s.timers = true) :
    tabWf timerRank (fun _ => (none : Option Nat)) (s.disarm k i j).timers = true := tabWf_set timerRank_inj ⟨k, i, j⟩ none h

theorem State.setByte_wf {s : State} (a : Nat) (v : Byte) (h : Memory.wf s.mem = true) : Memory.wf (s.setByte a v).mem = true :=
  tabWf_set Function.injective_id _ _ h

theorem State.setBytes_wf {s : State} (a : Nat) (l : List Byte) (h : Memory.wf s.mem = true) :
    Memory.wf (s.setBytes a l).mem = true := by
  induction l generalizing s a with
  | nil => exact h
  | cons v l ih => exact ih (a + 1) (State.setByte_wf a v h)

theorem Memory.wf_filter {m : List Host.Cell} (p : Host.Cell → Bool) (h : Memory.wf m = true) : Memory.wf (m.filter p) = true :=
  tabWf_filter p h

end Sys2Proof.Machine
end

