-- ==== Sys2Proof/Laws/Threads.lean ====
section
/-! SUPPORT. What issue does with an instruction that passes every check, and reads of a thread after a write of it. -/

namespace Sys2Proof.Machine

@[simp] theorem State.thr_setThr_same (s : State) (c t : Nat) (v : Thread) : (s.setThr c t v).thr c t = v := by
  simp [State.thr, State.setThr]

theorem State.threads_setThr_other (s : State) (c t k : Nat) (v : Thread) (h : k ≠ c * 8 + t) :
    unitGet {} (s.setThr c t v).threads k = unitGet {} s.threads k := unitGet_set_other _ _ _ h

/-- An instruction that passes every check has its own effect and no other. -/
theorem State.wzIssue_issues {s : State} {x : Issue} {q : WzReq} {chk : State → WzCheck} (body : State → State)
    (h : s.issues x q chk = true) :
    s.wzIssue x q chk body = body (s.tookTurn x.core.val x.thread.val) := by
  simp only [State.issues, State.at_, Bool.and_eq_true, Bool.not_eq_true'] at h
  obtain ⟨⟨⟨⟨⟨⟨⟨⟨⟨⟨⟨⟨h1, h2⟩, h3⟩, h4⟩, h5⟩, h6⟩, hu⟩, h7⟩, h8⟩, h9⟩, h10⟩, h11⟩, h12⟩ := h
  have h10' := List.any_eq_false.1 h10
  have hf : s.faultFor x.core.val x.thread.val q = none := by
    unfold State.faultFor
    have h1 : (s.wzCore x.core.val).ot.find? (fun e => e.faultsFor x.thread.val q && e.status != 2) = none := by
      rw [List.find?_eq_none]; intro e he; simp [h10' e he]
    rw [h1]
    show (s.wzCore x.core.val).ot.find? (fun e => e.faultsFor x.thread.val q) = none
    rw [List.find?_eq_none]; exact h10'
  have hc : chk s = none := by simpa using h11
  unfold State.wzIssue
  simp only [h1, h2, h3, h4, h5, h6, hu, h7, h8, h9, hf, hc, Bool.not_true, Bool.or_false, if_false,
    Bool.false_eq_true]
  cases hq : q.tag with
  | none => rfl
  | some g =>
    simp only [hq, Bool.and_eq_true, decide_eq_true_eq] at h12
    have h13 : (s.otFind x.core.val x.thread.val g).isSome = false := by simpa using h12.1
    have h14 : ¬otSize x.core.val ≤ (s.wzCore x.core.val).ot.length := by omega
    simp [h13, h14]

/-- g0 reads 0 (03 R74). -/
@[simp] theorem Thread.g_zero (th : Thread) : th.g 0 = 0 := rfl

@[simp] theorem Thread.g_setG_same (th : Thread) (r : Nat) (v : Word) : (th.setG r v).g r = if r = 0 then 0 else v := by
  by_cases h : r = 0 <;> simp [Thread.g, Thread.setG, h]

theorem Thread.g_setG_other (th : Thread) {r k : Nat} (v : Word) (h : k ≠ r) : (th.setG r v).g k = th.g k := by
  by_cases h0 : r = 0
  · simp [Thread.setG, h0]
  · simp [Thread.g, Thread.setG, h0, unitGet_set_other _ _ _ h]

@[simp] theorem Thread.next_g (th : Thread) (r : Nat) : th.next.g r = th.g r := rfl
@[simp] theorem Thread.next_p (th : Thread) (i : Nat) : th.next.p i = th.p i := rfl

theorem Thread.setG_eq (th : Thread) (r : Nat) (v : Word) : th.setG r v = { th with gpr := (th.setG r v).gpr } := by
  unfold Thread.setG; split <;> rfl

theorem Thread.setP_eq (th : Thread) (i : Nat) (v : Bool) : th.setP i v = { th with preds := (th.setP i v).preds } := by
  unfold Thread.setP; split <;> rfl

end Sys2Proof.Machine
end

