-- ==== Sys2Proof/Machine/Pins.lean ====
section
/-! DEFINITION. Balls, signals and what the hub drives on its pins (spec/20_balls_and_signals.md R442 to R448, R454, R456). -/

namespace Sys2Proof.Machine

/-! The array (R442). -/

/-- A ball: row index and column, each 1 to 38. -/
structure Ball where
  row : Nat
  col : Nat
  deriving DecidableEq, Repr

/-- *Row letters*. -/
def rowNames : List String := ["A", "B", "C", "D", "E", "F", "G", "H", "J", "K", "L", "M", "N", "P", "T", "U", "V", "W", "Y"] ++
  ["AA", "AB", "AC", "AD", "AE", "AF", "AG", "AH", "AJ", "AK", "AL", "AM", "AN", "AP", "AT", "AU", "AV", "AW", "AY"]

/-- The name of a ball. -/
def Ball.name (b : Ball) : String := rowNames.getD (b.row - 1) "" ++ toString b.col

/-- Supplies of the part. -/
inductive Rail where
  | vddH (h : Nat) | vddS | vddAon | vddaSd | vddhSd | vddqx | vdd2x | vddio18 | vddio33 | vddCc
  deriving DecidableEq, Repr

/-- Signals, by the rows of *Signal properties*. Power paths are numbered 0 to 12, 12 being PPIN. -/
inductive Sig where
  | laneTxP (l : Nat) | laneTxN (l : Nat) | laneRxP (l : Nat) | laneRxN (l : Nat)
  | refclkP (h : Nat) | refclkN (h : Nat) | pcierefP (k : Nat) | pcierefN (k : Nat) | lcal (h : Nat)
  | dsDq (s i : Nat) | dsDmi (s i : Nat) | dsRdqsT (s i : Nat) | dsRdqsC (s i : Nat) | dsWckT (s i : Nat) | dsWckC (s i : Nat)
  | dsCkT (s : Nat) | dsCkC (s : Nat) | dsCa (s i : Nat) | dsCs (s i : Nat) | dramResetN | dramZq
  | upDp (h : Nat) | upDm (h : Nat) | dnDp (k : Nat) | dnDm (k : Nat) | usbRcal
  | upVbus (h : Nat) | dnPwren (k : Nat) | dnOcN (k : Nat)
  | audMclk | audBclk | audLrck | audSdo | audSdi
  | tcCc1 (n : Nat) | tcCc2 (n : Nat)
  | ppGate (p : Nat) | ppPrechg (p : Nat) | ppDisch (p : Nat)
  | ppIsns (p : Nat) | ppVsns (p : Nat) | ppGsns (p : Nat) | ppTsns (p : Nat)
  | pfailN | adcVref | vinSns | aux (i : Nat)
  | dhAuxp (n : Nat) | dhAuxn (n : Nat) | dhHpd (n : Nat) | dhTe (n : Nat)
  | perstN (k : Nat) | pewakeN (k : Nat)
  | spiClk | spiCsN | spiDqs | spiResetN | spiIo (i : Nat)
  | smbScl | smbSda | smbAlertN | tck | tms | tdi | tdo | trstN
  | tamperN (i : Nat) | meshOut | meshIn
  | porN | resetN | bootMode (i : Nat) | wakeN | sysPwren | testEn
  | avsClk (n : Nat) | avsMdata (n : Nat) | avsSdata (n : Nat) | gpio (i : Nat)
  deriving DecidableEq, Repr

/-- What a ball carries. -/
inductive BallUse where
  | signal (x : Sig)
  | shield
  | vss
  | supply (r : Rail)
  deriving DecidableEq, Repr

/-! Lane bands (R443). -/

/-- The ball at depth d and position p of Hall h's band. -/
def bandBall (h d p : Nat) : Ball :=
  match h with
  | 0 => ⟨d, p⟩
  | 1 => ⟨p, 39 - d⟩
  | 2 => ⟨39 - d, 39 - p⟩
  | _ => ⟨39 - p, d⟩

/-- The ball of a lane's pin: `rx` its receive pair, `neg` the N of the pair. -/
def laneBall (l : Nat) (rx neg : Bool) : Ball :=
  bandBall (l / 12) (if rx then 3 else 1) (3 * (l % 12) + if neg then 2 else 1)

/-- What depth d and position p of Hall h's band carry. -/
def bandUse (h d p : Nat) : BallUse :=
  let l := 12 * h + (p - 1) / 3
  if d = 2 then (if p % 3 = 0 then .vss else .shield)
  else match p % 3, decide (d = 1) with
    | 1, true => .signal (.laneTxP l)
    | 2, true => .signal (.laneTxN l)
    | 1, false => .signal (.laneRxP l)
    | 2, false => .signal (.laneRxN l)
    | _, _ => .shield

/-! The interior (R444 to R446). -/

/-- *DRAM block*: sub-channel s, row D (0) to H (4), column offset 0 to 7. -/
def dramUse (s row off : Nat) : BallUse :=
  match row with
  | 0 => .signal (.dsDq s off)
  | 4 => .signal (.dsDq s (8 + off))
  | 2 => if off = 7 then .vss else .signal (.dsCa s off)
  | r =>
    let i := if r = 1 then 0 else 1
    match off with
    | 0 => .signal (.dsDmi s i)
    | 1 => .signal (.dsRdqsT s i)
    | 2 => .signal (.dsRdqsC s i)
    | 3 => .signal (.dsWckT s i)
    | 4 => .signal (.dsWckC s i)
    | 5 => .vss
    | 6 => .signal (if r = 1 then .dsCkT s else .dsCs s 0)
    | _ => .signal (if r = 1 then .dsCkC s else .dsCs s 1)

/-- The same signals for a range of units. -/
def sigs (n : Nat) (f : Nat → List Sig) : List BallUse := ((List.range n).flatMap f).map .signal

/-- The four ADC channels of path p. -/
def ppSense (p : Nat) : List Sig := [.ppIsns p, .ppVsns p, .ppGsns p, .ppTsns p]

/-- Balls of one supply. -/
def rails (n : Nat) (r : Rail) : List BallUse := List.replicate n (.supply r)

/-- *Interior placement*: the balls of rows J (9) to AA (20) from column 4 on. -/
def interiorRow : Nat → List BallUse
  | 9 => sigs 6 (fun h => [.upDp h, .upDm h]) ++ sigs 8 (fun k => [.dnDp k, .dnDm k]) ++ [.signal .usbRcal] ++ rails 3 .vddio33
  | 10 => sigs 6 (fun h => [.upVbus h]) ++ sigs 8 (fun k => [.dnPwren k]) ++ sigs 8 (fun k => [.dnOcN k]) ++
    [.signal .audMclk, .signal .audBclk, .signal .audLrck, .signal .audSdo, .signal .audSdi] ++ rails 5 .vddio18
  | 11 => sigs 12 (fun n => [.tcCc1 n, .tcCc2 n]) ++ rails 4 .vddCc
  | 12 => sigs 13 (fun p => [.ppGate p, .ppPrechg p]) ++ sigs 6 (fun p => [.ppDisch p])
  | 13 => sigs 6 (fun p => [.ppDisch (6 + p)]) ++ [.signal .pfailN, .signal .adcVref, .signal .vinSns] ++ sigs 11 (fun i => [.aux i])
  | 14 => sigs 8 ppSense
  | 15 => sigs 5 (fun p => ppSense (8 + p))
  | 16 => sigs 6 (fun n => [.dhAuxp n, .dhAuxn n, .dhHpd n, .dhTe n])
  | 17 => sigs 8 (fun k => [.perstN k]) ++ sigs 8 (fun k => [.pewakeN k])
  | 18 => [.signal .spiClk, .signal .spiCsN, .signal .spiDqs, .signal .spiResetN] ++ sigs 8 (fun i => [.spiIo i]) ++
    [.signal .smbScl, .signal .smbSda, .signal .smbAlertN, .signal .tck, .signal .tms, .signal .tdi, .signal .tdo, .signal .trstN] ++
    sigs 2 (fun i => [.tamperN i]) ++ [.signal .meshOut, .signal .meshIn, .signal .porN, .signal .resetN] ++
    sigs 3 (fun i => [.bootMode i]) ++ [.signal .wakeN, .signal .sysPwren, .signal .testEn]
  | 19 => sigs 5 (fun n => [.avsClk n, .avsMdata n, .avsSdata n]) ++ sigs 16 (fun i => [.gpio i])
  | 20 => (List.range 4).flatMap (fun h => [.signal (.refclkP h), .signal (.refclkN h), .shield]) ++
    (List.range 2).flatMap (fun k => [.signal (.pcierefP k), .signal (.pcierefN k), .shield]) ++
    sigs 4 (fun h => [.lcal h]) ++ [.signal .dramResetN, .signal .dramZq]
  | _ => []

/-- *Supply rows*: the rail of a ball of rows AB (21) to AU (35) that is not VSS. -/
def supplyRow (row col : Nat) : Rail :=
  if row = 21 then .vddqx
  else if row = 22 then .vdd2x
  else if row ≤ 24 then .vddaSd
  else if row = 25 then .vddhSd
  else if row ≤ 33 then .vddH ((row - 26) / 2)
  else if row = 34 then (if col ≤ 27 then .vddS else .vddAon)
  else if col ≤ 19 then .vddS
  else if col ≤ 27 then .vddio18
  else .vddio33

/-- What a ball carries. -/
def Ball.use (b : Ball) : BallUse :=
  if b.row ≤ 3 ∧ b.col ≤ 35 then bandUse 0 b.row b.col
  else if 36 ≤ b.col ∧ b.row ≤ 35 then bandUse 1 (39 - b.col) b.row
  else if 36 ≤ b.row ∧ 4 ≤ b.col then bandUse 2 (39 - b.row) (39 - b.col)
  else if b.col ≤ 3 then bandUse 3 b.col (39 - b.row)
  else if b.row ≤ 8 then dramUse ((b.col - 4) / 8) (b.row - 4) ((b.col - 4) % 8)
  else if b.row ≤ 20 then (interiorRow b.row).getD (b.col - 4) .vss
  else if (b.row + b.col) % 2 = 0 then .vss
  else .supply (supplyRow b.row b.col)

/-! Signal properties (R448). -/

/-- Directions. -/
inductive Dir where
  | input | output | both | openDrain | analogue
  deriving DecidableEq, Repr

/-- Reset states; `input` also stands for a signal with none of its own. -/
inductive PadState where
  | idle                          -- electrical idle
  | terminated | off | low | high | hiZ | pullUp | pullDown | input | released | rd | openCc | mesh | vref
  deriving DecidableEq, Repr

/-- *Signal properties*: direction, pad supply, reset state. SYS_PWREN is low until R426. -/
def Sig.props : Sig → Dir × Rail × PadState
  | .laneTxP _ | .laneTxN _ => (.output, .vddhSd, .idle)
  | .laneRxP _ | .laneRxN _ => (.input, .vddaSd, .terminated)
  | .refclkP _ | .refclkN _ => (.input, .vddaSd, .input)
  | .pcierefP _ | .pcierefN _ => (.output, .vddaSd, .off)
  | .lcal _ => (.analogue, .vddaSd, .input)
  | .dsCkT _ | .dsCkC _ | .dsCs _ _ => (.output, .vddqx, .low)
  | .dsCa _ _ => (.output, .vddqx, .hiZ)
  | .dsDq _ _ | .dsDmi _ _ | .dsRdqsT _ _ | .dsRdqsC _ _ | .dsWckT _ _ | .dsWckC _ _ => (.both, .vddqx, .hiZ)
  | .dramResetN => (.output, .vdd2x, .low)
  | .dramZq => (.analogue, .vdd2x, .input)
  | .upDp _ | .upDm _ => (.both, .vddio33, .hiZ)
  | .dnDp _ | .dnDm _ => (.both, .vddio33, .pullDown)
  | .usbRcal => (.analogue, .vddio33, .input)
  | .upVbus _ => (.input, .vddio33, .input)
  | .dnPwren _ => (.output, .vddio33, .low)
  | .dnOcN _ => (.input, .vddio33, .pullUp)
  | .audMclk | .audBclk | .audLrck | .audSdo => (.output, .vddio18, .low)
  | .audSdi => (.input, .vddio18, .pullDown)
  | .tcCc1 n | .tcCc2 n => (.both, .vddCc, if n = 0 then .rd else .openCc)
  | .ppGate _ | .ppPrechg _ | .ppDisch _ => (.output, .vddio18, .low)
  | .ppIsns _ | .ppVsns _ | .ppGsns _ | .ppTsns _ | .vinSns | .aux _ => (.analogue, .vddio18, .input)
  | .adcVref => (.analogue, .vddio18, .vref)
  | .pfailN => (.input, .vddio18, .input)
  | .dhAuxp _ | .dhAuxn _ => (.both, .vddio33, .hiZ)
  | .dhHpd _ => (.input, .vddio33, .pullDown)
  | .dhTe _ => (.input, .vddio18, .pullDown)
  | .perstN _ => (.output, .vddio18, .low)
  | .pewakeN _ => (.input, .vddio18, .pullUp)
  | .spiClk | .spiResetN => (.output, .vddio18, .low)
  | .spiCsN => (.output, .vddio18, .high)
  | .spiIo _ | .spiDqs => (.both, .vddio18, .pullUp)
  | .smbScl | .smbSda | .smbAlertN => (.openDrain, .vddio18, .released)
  | .tck | .tms | .tdi => (.input, .vddio18, .pullUp)
  | .trstN => (.input, .vddio18, .pullDown)
  | .tdo => (.output, .vddio18, .hiZ)
  | .tamperN _ | .meshIn => (.input, .vddio18, .input)
  | .meshOut => (.output, .vddio18, .mesh)
  | .avsClk _ | .avsMdata _ => (.output, .vddio18, .high)
  | .avsSdata _ => (.input, .vddio18, .input)
  | .gpio _ => (.both, .vddio18, .pullDown)
  | .porN => (.input, .vddAon, .input)
  | .wakeN => (.input, .vddAon, .pullUp)
  | .sysPwren => (.openDrain, .vddAon, .low)
  | .resetN => (.input, .vddio18, .pullUp)
  | .bootMode _ | .testEn => (.input, .vddio18, .pullDown)

/-- A level driven. -/
def level (b : Bool) : PadState := if b then .high else .low

/-- What the hub does with a GPIO pin (R456): an output while OE is 1, else its pulls, the pull-up winning. -/
def State.gpioPin (s : State) (i : Nat) : PadState :=
  let bit := fun (f : Fld) => (s.fld f).testBit i
  if bit F.gpioCtrlOe then level (bit F.gpioCtrlOut)
  else if bit F.gpioPullUp then .pullUp
  else if bit F.gpioPullDown then .pullDown
  else .hiZ

/-- What the hub does with a pin (R448, R454, R456), where the state alone says it: the reset state while POR_N is low, nothing
but SYS_PWREN in manufacturing test and in OFF. None for the pins whose signalling is that of a protocol. -/
def State.pin (s : State) (x : Sig) : Option PadState :=
  if x = .sysPwren then some (if s.chip.pwren then .released else .low)
  else if s.chip.porLow then some x.props.2.2
  else if s.chip.stage = .test ∨ s.chip.pwren = false then
    match x.props.1 with
    | .input => some x.props.2.2
    | .analogue => some x.props.2.2
    | _ => some .hiZ
  else match x with
    | .gpio i => some (s.gpioPin i)
    | .ppGate p => some (level (s.flag F.ppStatusGate p))
    | .ppPrechg p => some (level (s.flag F.ppStatusPrechg p))
    | .ppDisch p => some (level (s.flag F.ppStatusDisch p))
    | .dnPwren k => some (level (s.dnPower k))
    | .perstN k => some (level (!s.perstLow k))
    | .laneTxP l => if (s.lane l).txIdle then some .idle else none
    | .laneTxN l => if (s.lane l).txIdle then some .idle else none
    | _ => match x.props.1 with
      | .input => some x.props.2.2
      | .analogue => some x.props.2.2
      | _ => none

end Sys2Proof.Machine
end

