-- ==== Sys2Proof/Machine/Limits.lean ====
section
/-! DEFINITION. Electrical and thermal limits, as the tables give them (spec/21_electrical.md R457 to R467): voltages in mV,
currents in mA, times in ns, temperatures in °C. -/

namespace Sys2Proof.Machine

/-- *Absolute maximum ratings* of the supplies (R457). -/
def Rail.absMax : Rail → Int × Int
  | .vddH _ | .vddS | .vddAon => (-300, 1000)
  | .vddaSd => (-300, 1050)
  | .vddhSd => (-300, 1400)
  | .vddqx => (-300, 650)
  | .vdd2x => (-300, 1300)
  | .vddio18 => (-300, 2100)
  | .vddio33 | .vddCc => (-300, 3900)

/-- The voltage of an AVSBus code (02 R48). -/
def codeMv (code : Nat) : Nat := 620 + 5 * code

/-- The loop of a core rail; none for a supply that has no loop. -/
def Rail.loop : Rail → Option Nat
  | .vddH h => some h
  | .vddS => some 4
  | _ => none

/-- *Recommended supply conditions* (R458): a core rail follows the voltage last commanded, or retention in DEEP. -/
def State.recommended (s : State) (r : Rail) : Nat × Nat :=
  match r.loop with
  | some n => if s.chipDeep then (425, 475) else (codeMv (s.vnow n) - 25, codeMv (s.vnow n) + 25)
  | none => match r with
    | .vddAon => (776, 824)
    | .vddaSd => (873, 927)
    | .vddhSd => (1164, 1236)
    | .vddqx => (485, 525)
    | .vdd2x => (1018, 1082)
    | .vddio18 => (1710, 1890)
    | _ => (3135, 3465)

/-- Is a supply within its recommended conditions? -/
def State.supplyOk (s : State) (r : Rail) (mv : Nat) : Bool := decide ((s.recommended r).1 ≤ mv ∧ mv ≤ (s.recommended r).2)

/-- Ripple and noise, mV peak-to-peak; VDDQX as JESD209-5B. -/
def Rail.ripple : Rail → Option Nat
  | .vddH _ | .vddS | .vddhSd | .vdd2x => some 15
  | .vddAon | .vddaSd => some 10
  | .vddqx => none
  | .vddio18 | .vddio33 | .vddCc => some 50

/-- Maximum current, without the VCONN current of VDD_CC, and the typical one (R462). -/
def Rail.current : Rail → Nat × Nat
  | .vddH _ => (5500, 3600)
  | .vddS => (5500, 4000)
  | .vddaSd => (12000, 7600)
  | .vddhSd => (5000, 3000)
  | .vddqx => (1500, 800)
  | .vdd2x => (1500, 1000)
  | .vddio18 => (400, 250)
  | .vddio33 => (300, 200)
  | .vddCc => (100, 50)
  | .vddAon => (20, 10)

/-- The orderable variants (00 R1, R2). -/
inductive Variant where
  | ce | ie
  deriving DecidableEq, Repr

/-- The junction range over which the figures hold (R461). -/
def Variant.junction : Variant → Int × Int
  | .ce => (0, 105)
  | .ie => (-40, 105)

/-- *Sequencing timing* (R463): the shortest pulses and waits, and the longest. -/
structure Sequencing where
  rampMin : Nat := 50000
  rampMax : Nat := 10000000
  pwrenMax : Nat := 1000000       -- VDD_AON in range to SYS_PWREN high
  porHoldMin : Nat := 1000000     -- step 4 in range to POR_N rising
  porFallMin : Nat := 10000       -- POR_N falling to a rail leaving its range
  porLowMin : Nat := 10000
  resetLowMin : Nat := 1000
  romMax : Nat := 2000000         -- POR_N rising to the boot ROM
  deriving DecidableEq, Repr

/-- *Reference clock input* (R464): kHz, ppm, and the time to detect absence. -/
structure RefClock where
  khz : Nat := 156250
  ppm : Nat := 50
  absent : Nat := 1000
  deriving DecidableEq, Repr

/-- Is a measured REFCLK, in Hz, within tolerance? -/
def RefClock.ok (c : RefClock) (hz : Nat) : Bool :=
  let nominal := c.khz * 1000
  decide (nominal * (1000000 - c.ppm) ≤ hz * 1000000 ∧ hz * 1000000 ≤ nominal * (1000000 + c.ppm))

/-- *Native lane characteristics* (R466): swing at C(0) = 64, mV differential peak-to-peak, and the signal-detect threshold. -/
def laneSwing (td : Bool) : Nat × Nat := if td then (800, 1200) else (800, 1100)
def laneDetect : Nat × Nat := (65, 175)

/-- *Pad DC characteristics* (R467): VIL max and VIH min of a pad class at a supply voltage; SMBus pads are open drain. -/
def padLevels (r : Rail) (smbus : Bool) (supply : Nat) : Nat × Nat :=
  if smbus then (600, 1200)
  else match r with
    | .vddio18 => (supply * 35 / 100, supply * 65 / 100)
    | .vddAon => (250, 550)
    | _ => (800, 2000)

end Sys2Proof.Machine
end

