-- ==== Sys2Proof/WellFormed.lean ====
section
/-! DEFINITION. Which terms of `Instr` a sender can form: what an operand must be for the command to be one of the block's
at all. A meaning does not depend on it. -/

namespace Sys2Proof

open Machine

/-- An access has 1, 2, 4 or 8 bytes (01 R31). -/
def sizeOk (n : Nat) : Bool := n == 1 || n == 2 || n == 4 || n == 8

/-- An access lies within the 48-bit internal address space (01 R27). -/
def addrOk (a n : Nat) : Bool := decide (a + n ≤ 2 ^ 48)

/-- The longest frame a sender can offer a MAC: any length field the hub can count (07 R207 drops those above its MTU). -/
def frameMax : Nat := 2 ^ 16

/-- The fields of a marker fit their widths (04 *Landing marker*). -/
def markerOk (m : Marker) : Bool :=
  decide (m.flitCount < 2 ^ 64) && decide (m.session < 2 ^ 32) && decide (m.lane < 64) && decide (m.trunk < 32) &&
    decide (m.txeqTap < 8)

/-- The fields of a PARAM fit their widths (06 *PARAM link packet payload*). -/
def paramOk (p : Param) : Bool :=
  decide (p.lanes < 256) && decide (p.nvc < 256) && decide (p.version < 256) && decide (p.reorder < 2 ^ 16) &&
  decide (p.replay < 2 ^ 16)

/-- A TLP's Length field and data agree (10 R263; assumption log 30). -/
def tlpOk (t : Tlp) : Bool := decide (t.dws ≤ 1024) && (t.data == [] || t.data.length == 4 * t.dws)

/-- What comes to the bridge from a root port or from Usher firmware is a TLP. -/
def fromOk : BridgeFrom → Bool
  | .tunnel _ => true
  | .port _ t => tlpOk t
  | .usher _ _ t => tlpOk t

/-- Is a term a command that a sender can form? A word of a form without a field that must be 0 has none that is not (03 *Instruction
formats*). -/
def Instr.wf : Instr → Bool
  | .registerWrite _ addr size _ => sizeOk size && addrOk addr size
  | .stuckTread .. => true
  | .treadError .. => true
  | .flightFenced .. => true
  | .drainTimeout .. => true
  | .hallIsolation .. => true
  | .quarDone .. => true
  | .quarTimeout .. => true
  | .stairFault .. => true
  | .safeHoldExpire .. => true
  | .landingAccept .. => true
  | .mapClassify .. => true
  | .admissionDecide .. => true
  | .admissionRetry .. => true
  | .stairCross .. => true
  | .queueLink .. => true
  | .portSchedule .. => true
  | .packetDepart .. => true
  | .localPacketEnter .. => true
  | .landingCellClaim .. => true
  | .fwCellWithhold .. => true
  | .epochHoldRelease .. => true
  | .epochHoldTimeout .. => true
  | .lockstepEpochDecide .. => true
  | .lockstepSwitch .. => true
  | .tbHoldover .. => true
  | .tbRelock .. => true
  | .riserUpdate .. => true
  | .auditSweepEnd .. => true
  | .add x .. => !x.unused
  | .sub x .. => !x.unused
  | .and x .. => !x.unused
  | .or x .. => !x.unused
  | .xor x .. => !x.unused
  | .sll x .. => !x.unused
  | .srl x .. => !x.unused
  | .sra x .. => !x.unused
  | .mul x .. => !x.unused
  | .mulhu x .. => !x.unused
  | .divu x .. => !x.unused
  | .remu x .. => !x.unused
  | .div x .. => !x.unused
  | .rem x .. => !x.unused
  | .min x .. => !x.unused
  | .max x .. => !x.unused
  | .minu x .. => !x.unused
  | .maxu x .. => !x.unused
  | .clz x .. => !x.unused
  | .popc x .. => !x.unused
  | .bswap x .. => !x.unused
  | .addi x .. => !x.unused
  | .andi x .. => !x.unused
  | .ori x .. => !x.unused
  | .xori x .. => !x.unused
  | .slli .. => true
  | .srli .. => true
  | .srai .. => true
  | .movi x .. => !x.unused
  | .movk x .. => !x.unused
  | .cmp .. => true
  | .cmpi x .. => !x.unused
  | .pand .. => true
  | .por .. => true
  | .pxor .. => true
  | .pandn .. => true
  | .pnot .. => true
  | .ptst .. => true
  | .ldB x .. => !x.unused
  | .ldH x .. => !x.unused
  | .ldW x .. => !x.unused
  | .ldD x .. => !x.unused
  | .ldBu x .. => !x.unused
  | .ldHu x .. => !x.unused
  | .ldWu x .. => !x.unused
  | .stB x .. => !x.unused
  | .stH x .. => !x.unused
  | .stW x .. => !x.unused
  | .stD x .. => !x.unused
  | .ldf x .. => !x.unused
  | .stf .. => true
  | .amoAdd x .. => !x.unused
  | .amoAnd x .. => !x.unused
  | .amoOr x .. => !x.unused
  | .amoXor x .. => !x.unused
  | .amoSwap x .. => !x.unused
  | .amoUmin x .. => !x.unused
  | .amoUmax x .. => !x.unused
  | .amoCas x .. => !x.unused
  | .farResponse .. => true
  | .farLoadTimeout .. => true
  | .farStoreError .. => true
  | .fenceRw x .. => !x.unused
  | .fenceW x .. => !x.unused
  | .fenceR x .. => !x.unused
  | .fenceOt x .. => !x.unused
  | .fenceIo x .. => !x.unused
  | .br x .. => !x.unused
  | .call x .. => !x.unused
  | .jr x .. => !x.unused
  | .jalr x .. => !x.unused
  | .sysRd .. => true
  | .sysWr .. => true
  | .sysEret .. => true
  | .sysTrap .. => true
  | .sysBrk .. => true
  | .sysYield .. => true
  | .sysHalt .. => true
  | .interruptEntry .. => true
  | .otWait .. => true
  | .otWaitany .. => true
  | .otPoll .. => true
  | .otMask .. => true
  | .bellRing .. => true
  | .bellTake .. => true
  | .bellEoi .. => true
  | .bellWait .. => true
  | .tblIns .. => true
  | .tblDel .. => true
  | .tblFind .. => true
  | .tblCnt .. => true
  | .tblCntc .. => true
  | .tblMtr .. => true
  | .epochPub .. => true
  | .epochDrain .. => true
  | .epochCur .. => true
  | .qPop .. => true
  | .qPush .. => true
  | .qDrop .. => true
  | .qDepth .. => true
  | .schedWr .. => true
  | .schedRd .. => true
  | .schedCommit .. => true
  | .schedCommitApply .. => true
  | .ledgAudit .. => true
  | .ledgRd .. => true
  | .dmaCp .. => true
  | .dmaChain .. => true
  | .dmaComplete _ _ _ poison => poison.all (fun p => decide (0 < p.2))
  | .stairMsg .. => true
  | .stairRcv .. => true
  | .pwrReq .. => true
  | .ppCmdOff .. => true
  | .ppCmdOn .. => true
  | .ppCmdDischarge .. => true
  | .ppCmdClear .. => true
  | .pwrAdc .. => true
  | .pwrPdtx .. => true
  | .pwrPdrx .. => true
  | .pwrBudget .. => true
  | .keyGen .. => true
  | .keyDerive .. => true
  | .keyRetire .. => true
  | .keyWrap .. => true
  | .keyUnwrap .. => true
  | .keyZero .. => true
  | .keyPub .. => true
  | .aesGcme .. => true
  | .aesGcmd .. => true
  | .sha384 .. => true
  | .shaHmac .. => true
  | .eccSign .. => true
  | .eccVfy .. => true
  | .eccEcdh .. => true
  | .wardenOpComplete .. => true
  | .usherResetSet .. => true
  | .usherResetDone .. => true
  | .usherResetClear .. => true
  | .usherHaltSet .. => true
  | .usherHaltClear .. => true
  | .bootLoadGo .. => true
  | .imageLoadDone .. => true
  | .quadPersonalityWrite .. => true
  | .quadReady .. => true
  | .refclkLoss .. => true
  | .refclkReturn .. => true
  | .laneEnable .. => true
  | .laneDisable .. => true
  | .laneTxeqWrite .. => true
  | .landingMarkerSend .. => true
  | .landingMarkerReceive _ m _ => markerOk m
  | .markerLossAlign .. => true
  | .laneLos .. => true
  | .laneIdleEntry .. => true
  | .laneIdleExit .. => true
  | .fastExitFail .. => true
  | .laneRefreshTimeout .. => true
  | .laneTrainTimeout .. => true
  | .laneTrained .. => true
  | .td212CommaAlign .. => true
  | .td212AlignLoss .. => true
  | .lanePrbsCtrl .. => true
  | .laneCounterSnap .. => true
  | .laneCounterClr .. => true
  | .laneSnrUpdate _ _ bits errs levels => decide (errs ≤ bits) && decide (levels.length ≤ errs)
  | .eyeScanStart .. => true
  | .eyeScanPointDone .. => true
  | .eyeScanAbort .. => true
  | .flitSlot .. => true
  | .flitReceive _ block => decide (block.length = 512)
  | .ackTimer .. => true
  | .lossReportRepeat .. => true
  | .retryTimerExpire .. => true
  | .creditAdvertiseTimer .. => true
  | .heartbeat .. => true
  | .trunkHeartbeatLoss .. => true
  | .trunkFlush .. => true
  | .trunkLinkCounterClr .. => true
  | .trkVcCfgWrite .. => true
  | .trunkEnable .. => true
  | .trunkDisable .. => true
  | .trunkTargetWrite .. => true
  | .paramReceive _ p _ => paramOk p
  | .trunkTrainTimeout .. => true
  | .trunkTrainRetry .. => true
  | .widthPropose .. => true
  | .widthAbandon .. => true
  | .trunkRetrainRequest .. => true
  | .laneDrainIdle .. => true
  | .badLaneRetrain .. => true
  | .failoverTransferDone .. => true
  | .failoverCommitApply .. => true
  | .spliceEndReceive .. => true
  | .resyncReceive .. => true
  | .psnGapHoldExpire .. => true
  | .qadmWrite .. => true
  | .redProfileWrite .. => true
  | .redAdapt .. => true
  | .galleryWrite .. => true
  | .galEnable .. => true
  | .galRearm .. => true
  | .ethFrameReceive _ rx => decide (rx.frame.length ≤ frameMax)
  | .ethFrameTransmit .. => true
  | .isoInstanceStart .. => true
  | .schedFoClear .. => true
  | .queueSamplePass .. => true
  | .qsampClrPeak .. => true
  | .tableDefine .. => true
  | .programStage .. => true
  | .programStageDone .. => true
  | .hostConfigRequest .. => true
  | .bridgePosted src => fromOk src
  | .bridgeNonposted src => fromOk src
  | .bridgeCompletion src => fromOk src
  | .bridgeCompletionTimeout .. => true
  | .prefetchExpire .. => true
  | .lafClear .. => true
  | .sharedEndpointRequest _ tlp => tlpOk tlp
  | .prtOwnerChange .. => true
  | .prtPerstRelease .. => true
  | .prtLinkUp .. => true
  | .pewakeAssert .. => true
  | .vfCommonConfigWrite _ _ offset data => sizeOk data.length && decide (offset.val + data.length ≤ 64)
  | .vfNotifyWrite .. => true
  | .vfFlr .. => true
  | .alcoveCreate .. => true
  | .alcoveQuiesce .. => true
  | .alcoveReset .. => true
  | .alcoveDestroy .. => true
  | .alcoveFreeze .. => true
  | .alcoveSave .. => true
  | .alcoveRestore .. => true
  | .alcoveThaw .. => true
  | .alcoveDirty .. => true
  | .alcoveQuery .. => true
  | .alcoveQuiesceTimeout .. => true
  | .alcoveXlatClose .. => true
  | .alcoveInflightZero .. => true
  | .dhLinkWrite .. => true
  | .dhAuxStart _ _ _ data => decide (data.length ≤ 16)
  | .dhAuxReply _ _ data => decide (data.length ≤ 16)
  | .dhAuxTimeout .. => true
  | .irqHpd .. => true
  | .unplug .. => true
  | .plug .. => true
  | .dhTeEdge .. => true
  | .dhFrameStart .. => true
  | .teMiss .. => true
  | .dhCommitRequest .. => true
  | .dhCommitWindow .. => true
  | .dhVblank .. => true
  | .dhModeChange .. => true
  | .dhUnderrun .. => true
  | .canvasPageOp .. => true
  | .canvasCreate .. => true
  | .canvasFree .. => true
  | .canvasRect .. => true
  | .canvasFill .. => true
  | .canvasCopy .. => true
  | .canvasIngest .. => true
  | .canvasFence .. => true
  | .canvasPresent .. => true
  | .dpstPacket .. => true
  | .dramCapacityWrite .. => true
  | .tdInitSend .. => true
  | .tdInitReceive .. => true
  | .tdInitTimeout .. => true
  | .tdWidthDecide .. => true
  | .tdLinkupRetry .. => true
  | .tdFrameSlot .. => true
  | .tdFrameFail .. => true
  | .tdDataReceive .. => true
  | .tdAckReceive .. => true
  | .tdNakReceive .. => true
  | .tdCreditReceive .. => true
  | .tdNakRepeat .. => true
  | .tdAckTimer .. => true
  | .tdRetryExpire .. => true
  | .tdCreditTimer .. => true
  | .tdWindowRead _ t => tlpOk t
  | .tdWindowWrite _ t => tlpOk t
  | .tdAuxGo .. => true
  | .tdBeacon .. => true
  | .usbUpAttach .. => true
  | .usbUpDetach .. => true
  | .usbBusReset .. => true
  | .usbHubRequest .. => true
  | .usbDnPortReset .. => true
  | .usbDnConnectChange .. => true
  | .usbAssignWrite .. => true
  | .usbReassignGapEnd .. => true
  | .usbDnOvercurrent .. => true
  | .usbDnCycle .. => true
  | .usbDnCycleEnd .. => true
  | .usbVendorSetup .. => true
  | .usbMgmtDoneAck .. => true
  | .usbMgmtDoneStall .. => true
  | .usbMgmtLate .. => true
  | .usbSuspend .. => true
  | .usbRemoteWake .. => true
  | .usbHostResume .. => true
  | .usbAudioOwnerChange .. => true
  | .usbAudioSetRate _ freq => decide (freq < 2 ^ 32)
  | .usbSof .. => true
  | .usbAudioPacket .. => true
  | .tcAttach .. => true
  | .tcDetach .. => true
  | .pdMessageReceive _ _ msg => decide (2 ≤ msg.length) && decide (msg.length ≤ 264)
  | .pdTxRetry .. => true
  | .pdHardResetReceive .. => true
  | .pdKeepaliveExpire .. => true
  | .pdKeepaliveSend .. => true
  | .pdFrsReceive .. => true
  | .newelAdcScan codes => decide (codes.length = 53) && codes.all (fun c => decide (c < 4096))
  | .ppShort .. => true
  | .ppFaultTimer .. => true
  | .ppPrechargeTimeout .. => true
  | .ppGateTimeout .. => true
  | .ppDischargeDone .. => true
  | .ppDischargeFail .. => true
  | .ppCooldownEnd .. => true
  | .ppAttemptsReset .. => true
  | .pfailAccept .. => true
  | .powerTotalWrite .. => true
  | .wardenInfo .. => true
  | .linkSetup .. => true
  | .linkRekey .. => true
  | .linkClear .. => true
  | .seal .. => true
  | .unseal .. => true
  | .sign digest => decide (digest.length = 48)
  | .svnAdvance .. => true
  | .zeroize .. => true
  | .secTunnelReceive .. => true
  | .secKeyInstall .. => true
  | .secKeyClear .. => true
  | .fuseSvnBlow .. => true
  | .fuseBlowDone .. => true
  | .tamperAlarm .. => true
  | .wardenClearDone .. => true
  | .bellDoorbell _ _ _ size => size == 4 || size == 8
  | .bellEoiStore .. => true
  | .bellHostmsg .. => true
  | .pwrAnswerWrite .. => true
  | .pwrPollDelay .. => true
  | .pwrMsgRetry .. => true
  | .pwrAnswerTimeout .. => true
  | .pwrEntryTimeout .. => true
  | .pwrCommit .. => true
  | .pwrWake .. => true
  | .wakeFromOff .. => true
  | .monCtrlWrite .. => true
  | .monSnap .. => true
  | .monClr .. => true
  | .monPeriodSample .. => true
  | .flightFence .. => true
  | .flightUnfence .. => true
  | .flightReset .. => true
  | .flightResetDone .. => true
  | .hallQuarCmd .. => true
  | .stairOpen .. => true
  | .hallReset .. => true
  | .hallResetDone .. => true
  | .safeEnterCmd .. => true
  | .chipResetCmd .. => true
  | .wdogKick .. => true
  | .wdogKickLapse .. => true
  | .wdogExpire .. => true
  | .crashRead .. => true
  | .crashrd .. => true
  | .crashClear .. => true
  | .sidebandMailboxGo cmd => decide (cmd.length ≤ 256)
  | .vddAonUp .. => true
  | .powerOnReset .. => true
  | .resetNAssert .. => true
  | .bootRomStart .. => true
  | .imageWrite .. => true
  | .imageGo .. => true
  | .sidebandTimeout .. => true
  | .tempUpdate .. => true
  | .laneSignalDetect .. => true
  | .prbsChkLock .. => true
  | .prbsChkLoss _ bits w => decide (w.errs ≤ bits) && decide (w.levels.length ≤ w.errs)
  | .registerHalfRead _ addr => addrOk addr 4
  | .usbHostTransaction .. => true
  | .audioCodecFrame .. => true
  | .vconnOvercurrent .. => true
  | .pdAmsStartDelay .. => true
  | .pf0MailboxGo .. => true
  | .msixUnmask .. => true
  | .prtLinkDown .. => true
  | .porNFall .. => true
  | .jtagHalt .. => true
  | .jtagRelease .. => true
  | .jtagChipReset .. => true

end Sys2Proof
end

