-- ==== Sys2Proof/Tests/Slice0.lean ====
section
/-! SUPPORT. Tests of single commands on small states, terms the well-formedness check refuses, and states that meet the
hypotheses of the statements. -/

namespace Sys2Proof.Tests

open Sys2Proof Sys2Proof.Machine

/-! Small states. -/

/-- Core 0 with thread 0 running at address 0. -/
def wz0 : State := (State.reset.setFld F.usherCtlReset 0 0 0).setThr 0 0 { run := .running }

/-- Its thread, under predicate p0. -/
def x0 : Issue := ⟨0, 0, 0, false⟩

/-! Terms that the well-formedness check refuses: one for each check of it. -/

/-- A thread of core 0 as a master. -/
def core0 : Master := .core 0 0 true

/-- A marker whose fields fit. -/
def marker0 : Marker := { crcOk := true, flitCount := 0, session := 0, lane := 0, trunk := 0, txeqLimit := false, txeqAck := false, txeqUp := false, txeqTap := 0, spread := false, precodeOn := false, precodeReq := false, rxReady := true, training := false, idleNext := false }

/-- A flit with one data byte, and its block. -/
def flit0 : Flit := { seq := 0, vc := 0, type := .data, pktOff := 0, rcnt := 0, rs := false, enc := false, kidx := 0, words := [], len := 1, data := [1] }
def block0 : List Byte := flit0.block flit0.data []

/-- A PARAM whose fields fit. -/
def param0 : Param := { peerId := 0, nonce := 0, secRequired := false, pairing := false, lanes := 1, reorder := 0, replay := 0, nvc := 2, loop := false, version := 1, reservedZero := true }

/-- A memory write whose Length says two DWs and which carries one. -/
def tlpShort : Tlp := { op := .memWr, dws := 2, data := [1, 2, 3, 4] }

set_option maxRecDepth 100000 in
theorem test_wf_accepts : ([.registerWrite core0 0 8 0, .landingMarkerReceive 0 marker0 0, .flitReceive 0 (List.replicate 512 0), .paramReceive 0 param0 0,
    .bridgePosted (.tunnel 0), .bellDoorbell 0 core0 1 4, .newelAdcScan (List.replicate 53 4095), .sign (List.replicate 48 0)] : List Instr).all
      Instr.wf = true := by decide

set_option maxRecDepth 100000 in
theorem test_wf_refuses_accesses : ([.registerWrite core0 0 3 0, .registerWrite core0 (2 ^ 48 - 1) 2 0, .registerWrite core0 0 16 0,
    .registerHalfRead core0 (2 ^ 48 - 3), .bellDoorbell 0 core0 1 2, .vfCommonConfigWrite 0 0 63 [1, 2], .vfCommonConfigWrite 0 0 0 [1, 2, 3],
    .dmaComplete 0 0 0 [(0, 0)]] : List Instr).all (fun c => !c.wf) = true := by decide

set_option maxRecDepth 100000 in
theorem test_wf_refuses_lanes_and_links : ([.landingMarkerReceive 0 { marker0 with flitCount := 2 ^ 64 } 0,
    .landingMarkerReceive 0 { marker0 with session := 2 ^ 32 } 0, .landingMarkerReceive 0 { marker0 with lane := 64 } 0,
    .landingMarkerReceive 0 { marker0 with trunk := 32 } 0, .landingMarkerReceive 0 { marker0 with txeqTap := 8 } 0,
    .laneSnrUpdate 0 0 1 2 [], .laneSnrUpdate 0 0 1 0 [0, 0, 0, 0, 0], .prbsChkLoss 0 1 { errs := 2 },
    .flitReceive 0 (List.replicate 511 0), .flitReceive 0 (List.replicate 513 0),
    .paramReceive 0 { param0 with lanes := 256 } 0, .paramReceive 0 { param0 with nvc := 256 } 0, .paramReceive 0 { param0 with version := 256 } 0,
    .paramReceive 0 { param0 with reorder := 2 ^ 16 } 0, .paramReceive 0 { param0 with replay := 2 ^ 16 } 0] : List Instr).all
      (fun c => !c.wf) = true := by decide

set_option maxRecDepth 100000 in
theorem test_wf_refuses_packets_and_buses : ([.bridgePosted (.port 0 tlpShort), .bridgeNonposted (.port 0 tlpShort),
    .bridgeCompletion (.port 0 tlpShort), .sharedEndpointRequest 0 { tlpShort with dws := 1025 }, .tdWindowRead 0 tlpShort, .tdWindowWrite 0 tlpShort,
    .dhAuxStart 0 0 none (List.replicate 17 0), .dhAuxReply 0 .ack (List.replicate 17 0), .usbAudioSetRate 0 (2 ^ 32),
    .pdMessageReceive 0 0 [1], .pdMessageReceive 0 0 (List.replicate 265 0), .newelAdcScan [1], .newelAdcScan (List.replicate 53 4096),
    .sign [1], .sidebandMailboxGo (List.replicate 257 0)] : List Instr).all (fun c => !c.wf) = true := by decide

set_option maxRecDepth 100000 in
/-- No row of the table gives bits: no word spells a command. -/
theorem test_no_word_is_a_command : decodeTableWord 32 0 = none ∧ State.reset.withFetchWord 32 0 = State.reset := ⟨rfl, rfl⟩

/-! Single commands, with results worked out from the spec. -/

/-- What `f` reads in the state a command leaves. -/
def after (c : Instr) (s : State) (f : State → Nat) : Option Nat :=
  match exec c s with
  | .next t => some (f t)
  | _ => none

/-- The digits 1 to 9, over which check values are given. -/
def digits : List Byte := [0x31, 0x32, 0x33, 0x34, 0x35, 0x36, 0x37, 0x38, 0x39]

set_option maxRecDepth 100000 in
/-- The public check values of CRC-32C (07 R186), of the Ethernet FCS (07 R210) and of CRC-16-CCITT from 0xFFFF (12 R305). -/
theorem test_crc_check_values : crc32c digits = 0xE3069283 ∧ crc32 digits = 0xCBF43926 ∧ crc16 digits = 0x29B1 := by decide

set_option maxRecDepth 100000 in
/-- 03 *ALU functions*: an add wraps at 64 bits; a write of g0 is discarded. -/
theorem test_add_wraps :
    let s := wz0.setThr 0 0 { run := .running, gpr := [(1, BitVec.allOnes 64), (2, 3)] }
    after (.add x0 3 1 2) s (fun t => ((t.at_ x0).g 3).toNat) = some 2 ∧
    after (.add x0 0 1 2) s (fun t => ((t.at_ x0).g 0).toNat) = some 0 := by decide

set_option maxRecDepth 100000 in
/-- 03 *ALU functions*: the signed shift keeps the sign. -/
theorem test_sra_keeps_the_sign :
    let s := wz0.setThr 0 0 { run := .running, gpr := [(1, 0x8000_0000_0000_0000), (2, 63)] }
    after (.sra x0 3 1 2) s (fun t => ((t.at_ x0).g 3).toNat) = some 0xFFFF_FFFF_FFFF_FFFF := by decide

set_option maxRecDepth 100000 in
/-- 13 *USB_CTRL*: REASSIGN_GAP outside 1 to 1,000 is stored as the nearer bound; it is reset to 50. -/
theorem test_usb_ctrl_gap :
    let w := fun (v : BitVec 64) => after (.registerWrite (.core 8 0 true) 0x04000000 4 v) State.reset (fun t => t.fld F.usbCtrlReassignGap)
    w 0x00000001 = some 1 ∧ w 0xFFFF0001 = some 1000 ∧ State.reset.fld F.usbCtrlReassignGap = 50 := by decide

set_option maxRecDepth 100000 in
/-- 13 R328: a field of 6 to 0xE is stored as 0xF; a change opens the gap. -/
theorem test_usb_assign :
    after (.usbAssignWrite 0xFFFFFF62) State.reset (fun t => (t.reg .usbAssign).toNat) = some 0xFFFFFFF2 ∧
    after (.usbAssignWrite 0xFFFFFF62) State.reset (fun t => (t.deadline .usbGap 0).getD 0) = some 50000000 := by decide

set_option maxRecDepth 100000 in
/-- The worked example of 13 R339: after a bus reset, DONE of transfer 17 is discarded and sets STALE. -/
theorem test_usb_mgmt_stale :
    let s := ((State.reset.setFld F.upStatusState 0 0 3).setFld F.upMgmtCtrlXfer 0 0 17).setFld F.upMgmtCtrlPending 0 0 1
    after (.usbBusReset 0 6) s (fun t => t.fld F.upMgmtCtrlPending 0 * 2 + t.fld F.upStatusHs 0) = some 1 ∧
    after (.usbMgmtDoneAck 0 17) (s.mgmtAbandon 0) (fun t => t.fld F.upMgmtCtrlStale 0) = some 1 := by decide

set_option maxRecDepth 100000 in
/-- The worked example of 13 R345: 6,143.6928 samples of 1,024 microframes read 393,196 in units of 1/64. -/
theorem test_usb_feedback :
    let s := (State.reset.setFld F.usbAudioOwner 0 0 0).setFld F.upStatusHs 0 0 1
    ((s.setAudio { phases := 61436928000000000000 :: List.replicate 1024 0, phase := 61436928000000000000 }).feedback 0).fld
      F.usbAudioStatusFb = 393196 := by decide

set_option maxRecDepth 100000 in
/-- 14 R357: POWER_TOTAL 800,000 mW with 70,000 mW at index 12 leaves 730,000 mW for the host ports. -/
theorem test_power_total :
    after (.powerTotalWrite 800000) (State.reset.setFld F.powerAllotMw 0 12 70000) (fun t => t.fld F.powerReserveMw) = some 730000 := by decide

set_option maxRecDepth 100000 in
/-- 14 R349: at reset TC0 presents Rd and every other unit open CC pins. -/
theorem test_cc_pins_at_reset : State.reset.fld F.tcCtrlCcMode 0 = 1 ∧ State.reset.fld F.tcCtrlCcMode 1 = 0 := by decide

set_option maxRecDepth 100000 in
/-- 07 R189: FW_CELLS above 1,024 is stored as 1,024. -/
theorem test_fw_cells_bound :
    ((State.reset.storeReg .hallBufCtrl 0 0 (2000 * 2 ^ 16)).fld F.hallBufCtrlFwCells 0) = 1024 := by decide

set_option maxRecDepth 100000 in
/-- 05 *TRKn_LINK_CTRL*: RETRY 1 to 99 is stored as 100, above 2,000 as 2,000, and 0 stays 0. -/
theorem test_retry_bounds :
    let w := fun (r : Nat) => (State.reset.linkCtrlWrite 0 (BitVec.ofNat 64 (r * 2 ^ 48)) (BitVec.allOnes 64)).fld F.trkLinkCtrlRetry 0
    w 5 = 100 ∧ w 2001 = 2000 ∧ w 0 = 0 := by decide

set_option maxRecDepth 100000 in
/-- With no command waiting, one nanosecond of TB passes. -/
theorem test_idle_step : (match step State.reset with
    | .next t => t.tb
    | _ => 0) = 1 := by decide

set_option maxRecDepth 100000 in
/-- The worked example of 20 R443: L44 transmits on P1 and N1, L47 receives on E3 and D3, with shields on T1 and J3. -/
theorem test_ball_map :
    (laneBall 44 false false).name = "P1" ∧ (laneBall 44 false true).name = "N1" ∧ (laneBall 47 true false).name = "E3" ∧
    (laneBall 47 true true).name = "D3" ∧ (Ball.mk 15 1).use = .shield ∧ (Ball.mk 9 3).use = .shield ∧
    (laneBall 44 false false).use = .signal (.laneTxP 44) := by decide

set_option maxRecDepth 100000 in
/-- 21 R458: a core rail follows the voltage commanded (at reset code 36, 0.80 V) within 25 mV; VDD_AON 0.776 to 0.824 V. -/
theorem test_supplies :
    State.reset.recommended (.vddH 0) = (775, 825) ∧ State.reset.supplyOk .vddAon 776 = true ∧
    State.reset.supplyOk .vddAon 825 = false := by decide
/-! Witnesses of `Obligations.StepRunsFrontCommand`. -/

theorem witness_StepRunsFrontCommand :
    ({ State.reset with pending := [.tbHoldover, .tbRelock] } : State).pending = .tbHoldover :: [.tbRelock] := by decide

/-! Witnesses of `Obligations.IdleStepCountsTimebase`. -/

theorem witness_IdleStepCountsTimebase :
    State.reset.pending = [] ∧ (∀ c t, (State.reset.thr c t).posted = []) := ⟨rfl, fun _ _ => rfl⟩

/-! Witnesses of `Obligations.StepKeepsCanonicalForm`. -/

theorem witness_StepKeepsCanonicalForm : State.reset.canonical = true := by decide

/-! Witnesses of `Obligations.AluResults`. -/

theorem witness_AluResults : wz0.issues x0 { srcs := [1, 2], dsts := [3] } noChk = true := by decide

/-! Witnesses of `Obligations.BitCountsAndByteReversal`. -/

theorem witness_BitCountsAndByteReversal : wz0.issues x0 { srcs := [1], dsts := [3] } noChk = true := by decide

/-! Witnesses of `Obligations.ImmediateResults`. -/

theorem witness_ImmediateResults : wz0.issues x0 { srcs := [1], dsts := [3] } noChk = true ∧
    wz0.issues x0 { srcs := [], dsts := [3] } noChk = true ∧
    wz0.issues x0 { srcs := [3], dsts := [3] } noChk = true := by decide

/-! Witnesses of `Obligations.ComparesAndPredicateLogic`. -/

theorem witness_ComparesAndPredicateLogic : wz0.issues x0 { srcs := [1, 2] } noChk = true ∧
    wz0.issues x0 { srcs := [1] } noChk = true ∧ wz0.issues x0 {} noChk = true := by decide

/-! Witnesses of `Obligations.LocalLoadsExtend`. -/

theorem witness_LocalLoadsExtend : wz0.issues x0 { srcs := [1], dsts := [3] } noChk = true ∧
    ((wz0.at_ x0).g 1 + (8 : BitVec 13).signExtend 64).toNat = 8 ∧ 8 + 8 ≤ localSize 0 := by decide

/-! Witnesses of `Obligations.LocalStoresWriteTheirBytes`. -/

theorem witness_LocalStoresWriteTheirBytes :
    let s := wz0.setThr 0 0 ((wz0.thr 0 0).setG 1 0x10008)
    s.issues x0 { srcs := [1, 2] } noChk = true ∧ ((s.at_ x0).g 1 + (0 : BitVec 13).signExtend 64).toNat = 0x10008 ∧
      0x10008 % 8 = 0 ∧ 0x10008 + 8 ≤ localSize 0 ∧ s.inCode 0 0x10008 8 = false := by decide

/-! Witnesses of `Obligations.MisalignedAndOutOfRangeAccessesFault`. -/

theorem witness_MisalignedAndOutOfRangeAccessesFault :
    wz0.issues x0 { srcs := [1], dsts := [3] } noChk = true ∧ wz0.issues x0 { srcs := [1] } noChk = true ∧
    wz0.issues x0 { srcs := [1, 3] } noChk = true ∧ wz0.issues x0 { group := .system, srcs := [1, 3] } noChk = true ∧
    wz0.issues x0 { group := .system, tag := some 0, srcs := [1], dsts := [3] } noChk = true ∧
    wz0.issues x0 { group := .system, tag := some 0, srcs := [1, 2], dsts := [3] } noChk = true ∧
    wz0.issues x0 { group := .system, tag := some 0, srcs := [1, 2, 3], dsts := [3] } noChk = true ∧
    ((wz0.at_ x0).g 1 + (1 : BitVec 13).signExtend 64).toNat % 2 ≠ 0 ∧ wz0.inCode 0 0 1 = true ∧
    (((wz0.setThr 0 0 ((wz0.thr 0 0).setG 1 2)).at_ x0).g 1).toNat % 4 ≠ 0 := by decide

/-! Witnesses of `Obligations.BranchesSetThePc`. -/

theorem witness_BranchesSetThePc : wz0.issues x0 {} noChk = true ∧ wz0.issues x0 { dsts := [31] } noChk = true ∧
    wz0.issues x0 { srcs := [1] } noChk = true ∧ wz0.issues x0 { srcs := [1], dsts := [1] } noChk = true ∧
    ((wz0.at_ x0).g 1).toNat % 4 = 0 := by decide

/-! Witnesses of `Obligations.SystemRegisterAccess`. -/

theorem witness_SystemRegisterAccess :
    let u := wz0.setThr 0 0 { run := .running, status := 1 }
    wz0.issues x0 { group := .system, dsts := [3] } noChk = true ∧
    wz0.issues x0 { group := .system, srcs := [3] } noChk = true ∧
    u.issues x0 { group := .system, dsts := [3] } noChk = true ∧ u.issues x0 { group := .system, srcs := [3] } noChk = true ∧
    (u.at_ x0).task = true ∧ (wz0.at_ x0).task = false := by decide

/-! Witnesses of `Obligations.FaultEntryAndReturn`. -/

theorem witness_FaultEntryAndReturn :
    let u := { wz0.setThr 0 0 { run := .running, status := 4 } with jtagDebug := true, regs := (⟨.fuseCfg, 0, 0⟩, 0) :: wz0.regs }
    let v := (((((wz0.setThr 0 0 { run := .waitBell, status := 2 }).setFld F.bellSrcEnable 0 300 1).setFld
      F.bellSrcPending 0 300 1).setFld F.bellSrcPriority 0 300 5))
    wz0.issues x0 { group := .system } noChk = true ∧ (wz0.at_ x0).run = .running ∧ (wz0.at_ x0).fip = false ∧
    wz0.jtagDebug = false ∧ u.issues x0 { group := .system } noChk = true ∧ (u.at_ x0).fip = true ∧
    u.jtagDebug = true ∧ u.flag F.fuseCfgDebugLock = false ∧
    wz0.issues x0 { group := .system, priv := true } noChk = true ∧
    v.coreIssues 0 = true ∧ (v.at_ x0).run.live = true ∧ (v.at_ x0).jtag = false ∧ (v.at_ x0).ie = true ∧
    (v.at_ x0).afp = false ∧ (v.at_ x0).fip = false ∧ v.fetchOk 0 (v.at_ x0).pc = true ∧ (v.bellBest 0 0).isSome = true := by decide

/-! Witnesses of `Obligations.OperationTableCollection`. -/

theorem witness_OperationTableCollection :
    let e : OtEntry := { thread := 0, tag := 2, kind := .atOnce, done := true, status := 5, result := 9 }
    let s := wz0.setCore 0 { wz0.wzCore 0 with ot := [e] }
    let u := wz0.setCore 0 { wz0.wzCore 0 with ot := [{ e with done := false }] }
    s.issues x0 { group := .system, dsts := [3] } noChk = true ∧ tagIllegal 0 (some 2) = false ∧
    s.otFind 0 0 2 = some e ∧ e.done = true ∧ e.faultDue = false ∧ s.otLowest 0 0 = some e ∧
    u.issues x0 { group := .system, dsts := [3] } noChk = true ∧ u.otFind 0 0 2 = some { e with done := false } ∧
    u.otLowest 0 0 = none ∧ wz0.otFind 0 0 2 = none ∧ (wz0.wzCore 0).ot = [] := by decide

/-! Witnesses of `Obligations.FencesWaitForTheirCondition`. -/

theorem witness_FencesWaitForTheirCondition : wz0.issues x0 { group := .system } noChk = true ∧
    (wz0.at_ x0).posted = [] ∧ (wz0.wzCore 0).ot = [] ∧ (wz0.at_ x0).storeErrs = [] := by decide

/-! Witnesses of `Obligations.FarAccessesAndAtomicsIssue`. -/

theorem witness_FarAccessesAndAtomicsIssue :
    let s := wz0.setThr 0 0 ((wz0.thr 0 0).setG 1 0x1_0800_0000)
    s.issues x0 { group := .system, tag := some 0, srcs := [1], dsts := [3] } noChk = true ∧
    s.issues x0 { group := .system, srcs := [1, 3] } noChk = true ∧
    s.issues x0 { group := .system, tag := some 0, srcs := [1, 2], dsts := [3] } noChk = true ∧
    s.issues x0 { group := .system, tag := some 0, srcs := [1, 2, 3], dsts := [3] } noChk = true ∧
    s.issues x0 { group := .system, srcs := [0, 2] } noChk = true ∧ (s.at_ x0).task = false ∧
    ((s.at_ x0).g 1).toNat % 8 = 0 ∧ (hallCellAt ((s.at_ x0).g 1).toNat).isSome = true := by decide

/-! Witnesses of `Obligations.FarResultsArrive`. -/

theorem witness_FarResultsArrive :
    let e : OtEntry := { thread := 0, tag := 2, kind := .farLoad 0x2_0001_0000 8 3 true }
    let d : OtEntry := { thread := 0, tag := 2, kind := .atomic .add 0x1_085F_FF00 3 1 0 }
    let s := (wz0.setCore 0 { wz0.wzCore 0 with ot := [e] }).arm .farLoad 0 2 0
    let h := wz0.hall 0
    let u := ((wz0.setCore 0 { wz0.wzCore 0 with ot := [d] }).setHall 0 { h with fwHeld := [24575] }).setFld F.hallBufCtrlFwCells 0 0 1
    s.otFind 0 0 2 = some e ∧ e.done = false ∧ (s.at_ x0).posted = [] ∧ (s.at_ x0).run = .running ∧
    s.accessBad (.core 0 0 true) false 0x2_0001_0000 8 = false ∧ s.ramAt 0x2_0001_0000 = true ∧ s.poisonAt 0x2_0001_0000 8 = false ∧ u.poisonAt 0x1_085F_FF00 8 = false ∧ s.due .farLoad 0 2 = true ∧
    u.otFind 0 0 2 = some d ∧ u.accessBad (.core 0 0 true) true 0x1_085F_FF00 8 = false ∧
    ((wz0.setThr 0 0 { run := .running, storeErrs := [5] }).at_ x0).storeErrs = [5] := by decide

/-! Witnesses of `Obligations.BellTakeCompleteAndWait`. -/

theorem witness_BellTakeCompleteAndWait :
    let v := ((wz0.setFld F.bellSrcEnable 0 300 1).setFld F.bellSrcPending 0 300 1).setFld F.bellSrcPriority 0 300 5
    let u := wz0.setBellStack 0 0 [(5, 0)]
    let w := wz0.setBellStack 0 0 [(5, 300)]
    v.issues x0 { group := .system, dsts := [3] } noChk = true ∧ v.bellBest 0 0 = some (5, 300) ∧ wz0.bellBest 0 0 = none ∧
    u.issues x0 { group := .system, srcs := [1] } noChk = true ∧ ((u.at_ x0).g 1).toNat % 4096 = 0 ∧
    u.bellStack 0 0 = [(5, 0)] ∧ w.bellStack 0 0 = [(5, 300)] ∧ w.issues x0 { group := .system, srcs := [1] } noChk = true ∧
    wz0.issues x0 { group := .system } noChk = true := by decide

/-! Witnesses of `Obligations.DoorbellsCompletionsAndHostMessages`. -/

theorem witness_DoorbellsCompletionsAndHostMessages :
    let w : State := (State.reset.cfgSet 0 10 .msixEnable 1).cfgSet 0 10 .msixMask 1
    State.reset.fld F.bellSrcPending 0 300 = 0 ∧ (State.reset.setFld F.bellSrcPending 0 300 1).fld F.bellSrcPending 0 300 = 1 ∧
    (State.reset.setBellStack 0 0 [(5, 300)]).bellStack 0 0 = [(5, 300)] ∧ wr F.bellHostmsgFn 0xFFC0000000 = 0x3FF ∧ wr F.bellHostmsgHost 0xFFC0000000 = 0 ∧
    wr F.bellHostmsgVector 0xFFC0000000 = 0 ∧
    w.cfgGet 0 10 .msixEnable ≠ 0 ∧ w.cfgGet 0 10 .msixMask ≠ 0 := by decide

/-! Witnesses of `Obligations.UsherControl`. -/

theorem witness_UsherControl :
    let e : OtEntry := { thread := 0, tag := 2, kind := .farLoad 0x2_0001_0000 8 3 true }
    let s := State.reset.setCore 0 { resetWait := true }
    State.reset.usherQuiet 0 = true ∧ (State.reset.setCore 0 { ot := [e] }).usherQuiet 0 = false ∧
    (s.wzCore 0).resetWait = true ∧ s.usherQuiet 0 = true ∧ (s.wzCore 0).release = false ∧
    State.reset.fld F.usherCtlReset 0 = 1 ∧ (State.reset.wzCore 0).resetWait = false := by decide

/-! Witnesses of `Obligations.DmaAndMessages`. -/

theorem witness_DmaAndMessages :
    let d : DmaDesc := { dst := 0x2_0001_0000, src := 7, len := 8, fill := true, dstHost := false, srcHost := false, fn := 0, bad := false }
    let e : OtEntry := { thread := 0, tag := 2, kind := .dma [d] false {} }
    let s := wz0.setCore 0 { wz0.wzCore 0 with ot := [e] }
    let m : List Byte := [1]
    let p := wz0.setCore 0 { wz0.wzCore 0 with ring := [m], ringFrom := [1] }
    (wz0.at_ x0).posted = [] ∧ wz0.issues x0 { group := .switch, tag := some 2, srcs := [1] } noChk = true ∧
    (dmaDesc (wz0.localBytes 0 0 32)).bad = true ∧
    (dmaDesc ((wz0.setByte (localBase 0 + 16) 8).localBytes 0 0 32)).bad = false ∧ (wz0.at_ x0).task = false ∧
    s.otFind 0 0 2 = some e ∧ e.done = false ∧ s.ramAt d.dst = true ∧ s.accessBad (.dma 0) true d.dst 8 = false ∧
    (s.at_ x0).run = .running ∧ wz0.issues x0 { group := .system, tag := some 2, srcs := [1, 2] } noChk = true ∧
    wz0.coreReset 0 = false ∧ wz0.coreReset 1 = true ∧ (wz0.wzCore 0).ring.length < 16 ∧
    16 ≤ ((wz0.setCore 0 { ring := List.replicate 16 m }).wzCore 0).ring.length ∧
    wz0.issues x0 { group := .system, srcs := [1], dsts := [3] } noChk = true ∧ (p.wzCore 0).ring = [m] ∧
    wz0.inCode 0 0x10000 64 = false := by decide

/-! Witnesses of `Obligations.RegisterAccesses`. -/

set_option maxRecDepth 40000 in
theorem witness_RegisterAccesses :
    let s := State.reset
    let m := Master.core 8 0 true
    let l := s.setReg .newelVceil 0 0 (fldPut F.newelVceilLock 1 0)
    s.accessBad m true 3 4 = true ∧ s.accessBad m false 3 4 = true ∧
    s.accessBad m true 0x700_9F00 8 = false ∧ s.regAt 0x700_9F00 = none ∧ s.ramAt 0x700_9F00 = false ∧
    s.accessBad m true 0x2_0001_0000 8 = false ∧ s.ramAt 0x2_0001_0000 = true ∧
    s.accessBad m true 0x700_9000 8 = false ∧ s.regAt 0x700_9000 = some (⟨.svcErrCtrl, 0, 0⟩, 0) ∧
    s.ramAt 0x700_9000 = false ∧ RegName.svcErrCtrl ∉ specialRegs ∧ s.locked .svcErrCtrl = false ∧
    l.locked .newelVceil = true ∧ (regDesc .monSum).width = 64 ∧ s.regAt 0x700_0028 = some (⟨.monSum, 0, 0⟩, 0) ∧
    s.regAt 0x700_002C = some (⟨.monSum, 0, 0⟩, 4) ∧ s.accessBad m false 0x700_0028 4 = false := by decide

/-! Witnesses of `Obligations.FieldsFollowAccessCodes`. -/

theorem witness_FieldsFollowAccessCodes :
    (regDesc .svcErrCtrl).fields ≠ [] ∧ slotGet 31 16 (BitVec.allOnes 64) = 2 ^ (31 - 16 + 1) - 1 ∧
    (∀ f ∈ (regDesc .svcErrCtrl).fields, ¬(f.lo ≤ 9 ∧ 9 ≤ f.hi)) := by decide

/-! Witnesses of `Obligations.FlightsFenceAndReturn`. -/

theorem witness_FlightsFenceAndReturn :
    let s := State.reset
    let f := s.setFlightState 1 5 0 1
    let g := s.setFlightState 4 0x14 0 1
    let due : State := { (f.arm .drain (flightKey 1 5 0) 0 0) with tb := 0 }
    flightIs 1 5 0 = true ∧ flightIs 4 0x14 0 = true ∧ s.flightActs 1 5 0 = true ∧ f.flightActs 1 5 0 = false ∧
    s.parcel 0 = none ∧ f.flightState 1 5 0 = 1 ∧ (f.flight (flightKey 1 5 0)).cause ≠ 3 ∧
    due.due .drain (flightKey 1 5 0) = true ∧ due.chip.safe = none ∧ due.hallState 1 = 0 ∧ g.flightState 4 0x14 0 = 1 ∧
    (g.arm .drain (flightKey 4 0x14 0) 0 0).due .drain (flightKey 4 0x14 0) = true ∧
    (s.setFlightState 1 5 0 2).flightState 1 5 0 = 2 ∧ (s.setFlightState 1 5 0 3).flightState 1 5 0 = 3 ∧
    (1 : Nat) = (s.setFld F.hallErrCtrlFenceThresh 1 0 1).fld F.hallErrCtrlFenceThresh 1 := by decide

/-! Witnesses of `Obligations.HallQuarantineAndReset`. -/

theorem witness_HallQuarantineAndReset :
    let s := State.reset
    let q := (s.setHallState 2 1).setHallCtl 2 { since := 0 }
    let d := (s.setHallState 2 2).setHallCtl 2 { resetDone := true }
    s.hallState 2 = 0 ∧ s.chip.safe = none ∧ q.hallState 2 = 1 ∧ (q.arm .quarIso 2 0 0).due .quarIso 2 = true ∧
    (q.hallCtl 2).idle = false ∧ q.quarLogicOk 2 = true ∧ (q.arm .quarMax 2 0 0).due .quarMax 2 = true ∧
    d.hallState 2 = 2 ∧ (d.hallCtl 2).resetDone = true ∧ (s.setHallState 2 3).hallState 2 = 3 := by decide

/-! Witnesses of `Obligations.SafeWatchdogAndCrashRecord`. -/

theorem witness_SafeWatchdogAndCrashRecord :
    let s := State.reset
    let f : State := { s with chip := { s.chip with safe := some 0 } }
    let k : State := { s with chip := { s.chip with kickAt := some 0 } }
    let l : State := { k with tb := 1000000 }
    s.chip.safe = none ∧ (s.arm .wdog 0 0 0).due .wdog = true ∧ f.chip.safe ≠ none ∧
    (f.arm .safeHold 0 0 0).due .safeHold = true ∧ s.powered = true ∧ s.chip.kickAt = none ∧ k.tb ≤ 0 + 1000000 ∧
    0 + 1000000 ≤ l.tb ∧ s.byte (crashBase + 4) = 0 ∧ (f.setByte (crashBase + 4) 1).byte (crashBase + 4) = 1 := by decide

/-! Witnesses of `Obligations.MonitorsAndQueueSamples`. -/

theorem witness_MonitorsAndQueueSamples :
    let s := State.reset
    let on : BitVec 64 := BitVec.ofNat 64 (2 ^ 63 + 7 * 2 ^ 56)
    let bad : BitVec 64 := BitVec.ofNat 64 (2 ^ 63 + 12 * 2 ^ 56)
    let r := (s.setReg .monCtrl 5 0 on).setMon 5 { grid := Grid.fresh 0 }
    let p := (s.setFld F.hallSampleCtrlEn 1 0 1).setHall 1 { s.hall 1 with sampleGrid := Grid.fresh 0 }
    wr F.monCtrlSnap on = 0 ∧ wr F.monCtrlClr on = 0 ∧ s.monCfgOk 5 on = true ∧ s.monCfgOk 5 bad = false ∧
    s.fld F.monCtrlEn 5 = 0 ∧ r.fld F.monCtrlEn 5 = 1 ∧ fldGet F.monCtrlEn on = 1 ∧ r.chipRuns = true ∧
    (r.mon 5).grid.on = true ∧ (r.mon 5).grid.next ≤ r.tb ∧ r.monValue 5 = some 0 ∧ r.fld F.monCountSat 5 = 0 ∧
    r.fld F.monCountCount 5 < 2 ^ 48 - 2 ∧ p.chipRuns = true ∧ p.flag F.hallSampleCtrlEn 1 = true ∧
    (p.hall 1).sampleGrid.on = true ∧ (p.hall 1).sampleGrid.next ≤ p.tb := by decide

/-! Witnesses of `Obligations.TimebaseRisersAndLedgers`. -/

set_option maxRecDepth 100000 in
theorem witness_TimebaseRisersAndLedgers :
    let s := State.reset
    let r := (s.setFld F.hallRiserCtrlMode 1 0 0).setRiserGrid 1 (Grid.fresh 0)
    let q : State := { r with chip := { r.chip with noAck := unitSet 0 r.chip.noAck 1 2 } }
    let u := wz0.setThr 0 0 ((wz0.thr 0 0).setG 1 0x2_0001_0000)
    let v := wz0.setThr 0 0 ((wz0.thr 0 0).setG 1 8)
    let w : Sweep := { core := 0, thread := 0, tag := 2, buf := 0x2_0001_0000, at_ := 0 }
    let e : OtEntry := { thread := 0, tag := 2, kind := .audit 0x2_0001_0000 }
    let z := u.setCore 0 { ot := [e], issuedOps := 1 }
    let y : State := { z with chip := { z.chip with sweep := some w } }
    let broken : LedgerError := { ledger := 0, scope := 2, unit := 0, left := 1, right := 2 }
    s.fld F.tbStatusHoldover = 0 ∧ r.chipRuns = true ∧ r.demand 1 = true ∧ (r.riserGrid 1).on = true ∧
    (r.riserGrid 1).next ≤ r.tb ∧ r.avsOk 1 = true ∧ unitGet 0 q.chip.noAck 1 = 2 ∧
    u.issues x0 { group := .switch, priv := true, srcs := [1, 2], dsts := [3] } noChk = true ∧
    u.issues x0 { group := .switch, priv := true, tag := some 2, srcs := [1] } noChk = true ∧
    v.issues x0 { group := .switch, priv := true, tag := some 2, srcs := [1] } noChk = true ∧
    ((u.at_ x0).g 1).toNat % 64 = 0 ∧ ((v.at_ x0).g 1).toNat % 64 ≠ 0 ∧ u.chip.sweep = none ∧ y.chip.sweep = some w ∧
    (y.at_ x0).run = .running ∧ y.otFind 0 0 2 = some e ∧ y.sweepBuffer w.buf = true ∧ (∀ i ∈ auditInstances, ∀ u ∈ y.sweptAll [] i, u.left = u.right) ∧
    (∃ i ∈ auditInstances, broken ∈ y.sweptAll [broken] i) ∧
    (∀ i ∈ auditInstances, ∀ u ∈ y.sweptAll [broken] i, u = broken ∨ u.left = u.right) ∧ y.hallState 2 = 0 ∧
    y.incomplete 2 = false ∧ y.chip.safe = none := by decide

/-! Witnesses of `Obligations.QuadsLanesAndClocks`. -/

theorem witness_QuadsLanesAndClocks :
    let s := State.reset
    let r := (s.setFld F.quadPersonalityMode 0 0 1).setFld F.quadStatusReady 0 0 0
    let u := r.setFld F.quadStatusReady 0 0 1
    let lost := s.setQuad 3 { s.quad 3 with refPresent := false }
    s.personalityError 0 6 = some (2, 0x7F) ∧ s.personalityError 0 1 = none ∧ r.fld F.quadStatusReady 0 = 0 ∧
    (r.quad 0).refPresent = true ∧ r.fld F.quadPersonalityMode 0 ≠ 0 ∧ (s.quad (3 * 1)).refPresent = true ∧
    (lost.quad (3 * 1)).refPresent = false ∧ s.fld F.laneCtrlEn 2 = 0 ∧ u.fld F.quadStatusReady (2 / 4) = 1 ∧ u.laneMode 2 ≠ 0 ∧
    (s.setFld F.laneCtrlEn 2 0 1).fld F.laneCtrlEn 2 = 1 ∧ (s.setFld F.laneCtrlEn 2 0 1).trkOf 2 = none ∧
    txeqOk (BitVec.ofNat 64 (64 * 2 ^ 14)) = false ∧ txeqOk (BitVec.ofNat 64 (63 * 2 ^ 14)) = true ∧
    ((s.setFld F.laneStatusState 2 0 1).arm .laneTrain 2 0 0).due .laneTrain 2 = true ∧
    (s.setFld F.laneStatusState 2 0 1).fld F.laneStatusState 2 = 1 := by decide

/-! Witnesses of `Obligations.MarkersIdleAndTraining`. -/

theorem witness_MarkersIdleAndTraining :
    let r := State.reset.setFld F.quadPersonalityMode 0 0 1
    let d := State.reset.setFld F.quadPersonalityMode 0 0 2
    let at_ := fun (s : State) (n : Nat) (k : Lane) => (s.setFld F.laneStatusState 2 0 n).setLane 2 k
    let ok : Marker := { crcOk := true, flitCount := 5, session := 7, lane := 2, trunk := 0, txeqLimit := false, txeqAck := false, txeqUp := false, txeqTap := 0, spread := false, precodeOn := false, precodeReq := false, rxReady := false, training := false, idleNext := false }
    let on : Lane := { txIdle := false, rxSessionKnown := true, rxSession := 7, flitsRx := 5, crcFailTb := some 0 }
    let idle : Lane := { txIdle := true, idleAnnounced := true }
    let late : State := { (at_ r 2 idle) with tb := 10000001 }
    (at_ r 1 on).laneMode 2 = 1 ∧ ((at_ r 1 on).lane 2).txIdle = false ∧ (at_ r 1 on).fld F.laneStatusState 2 = 1 ∧
    (at_ r 2 on).fld F.laneStatusState 2 = 2 ∧ (at_ r 2 on).laneOn 2 = true ∧ ok.session = on.rxSession ∧ ok.txeqTap = 0 ∧
    ok.flitCount = on.flitsRx ∧ { ok with session := 8 }.session ≠ on.rxSession ∧
    ((at_ r 2 on).setFld F.laneStatusAligned 2 0 1).fld F.laneStatusAligned 2 = 1 ∧ (at_ r 2 idle).tb ≤ idle.idleSince + 10000000 ∧
    idle.idleSince + 10000000 < late.tb ∧ late.deadline .laneRefresh 2 = none ∧ (at_ r 3 on).fld F.laneStatusState 2 = 3 ∧
    ((at_ r 4 on).arm .laneExit 2 0 0).due .laneExit 2 = true ∧ ((at_ r 5 on).arm .laneRefresh 2 0 0).due .laneRefresh 2 = true ∧
    (at_ r 5 on).fld F.laneStatusState 2 = 5 ∧ (at_ r 2 on).tb ≤ 0 + 84 ∧ (at_ d 1 on).laneMode 2 = 2 ∧
    (at_ d 2 on).fld F.laneStatusState 2 = 2 := by decide

/-! Witnesses of `Obligations.PatternsCountersAndEyeScans`. -/

theorem witness_PatternsCountersAndEyeScans :
    let s := State.reset
    let t7 := (s.setFld F.laneStatusState 2 0 7)
    let c := (t7.setFld F.lanePrbsChkEn 2 0 1).setFld F.lanePrbsChkLock 2 0 1
    let w := (s.setFld F.monCtrlQuantity 3 0 5).setFld F.monCtrlSelect 3 0 2
    let ctrl : BitVec 64 := BitVec.ofNat 64 (3 * 2 ^ 56 + 2 ^ 40)
    let r := (w.setFld F.laneEyeStatusResult 2 0 1).setFld F.monCtrlEn 3 0 1
    s.laneInUse 2 = false ∧ wr F.laneEyeCtrlAbort ctrl = 0 ∧ t7.fld F.laneStatusState 2 = 7 ∧ t7.fld F.laneCtrlEn 2 = 0 ∧
    c.checking 2 = true ∧ c.fld F.lanePrbsChkLock 2 = 1 ∧ c.fld F.lanePrbsSat 2 = 0 ∧
    (s.setFld F.laneStatusState 2 0 2).fld F.laneStatusState 2 = 2 ∧ s.fld F.laneEyeStatusResult 2 ≠ 1 ∧
    w.eyeOk 2 (regWrite .laneEyeCtrl (BitVec.allOnes 64) ctrl (w.reg .laneEyeCtrl 2)) = true ∧
    s.eyeOk 2 (regWrite .laneEyeCtrl (BitVec.allOnes 64) ctrl (s.reg .laneEyeCtrl 2)) = false ∧
    r.fld F.laneEyeStatusResult 2 = 1 ∧ (r.setFld F.laneEyeCtrlMon 2 0 3).monWatches 3 5 2 = true := by decide

/-! Witnesses of `Obligations.LinkFlitsAndTimers`. -/

/-- A trunk in UP on lane 0, ACTIVE. -/
def trk0 : State :=
  let s := (State.reset.setFld F.quadPersonalityMode 0 0 1).setFld F.trkCfgEn 0 0 1
  let s := ((s.setFld F.laneCtrlEn 0 0 1).setFld F.laneStatusState 0 0 2).setLane 0 { txIdle := false, peerReady := true }
  let s := (s.setFld F.trkLinkStatusState 0 0 2).setFld F.trkLinkStatusActive 0 0 1
  s.setTrk 0 { rxLists := [(1, 0)] }

theorem witness_LinkFlitsAndTimers :
    let e : ReplayEntry := { seq := 5, vc := 0, pktOff := 0, data := [1], copies := [{ lane := 0 }] }
    let k : Trunk := { rxLists := [(1, 0)] }
    let r := trk0.setTrk 0 { k with replay := [e], resends := [(5, 0)] }
    let d := trk0.setTrk 0 (k.setQ 0 [linkPacket 0 [2]])
    let f := flit0
    let g : Flit := { f with seq := 1 }
    let x : LossReport := { resend := false, seq := 3 }
    let o : State := { (trk0.setTrk 0 { k with losses := [x] }) with tb := 100000 }
    trk0.trkOf 0 = some 0 ∧ trk0.laneMode 0 = 1 ∧ trk0.laneOn 0 = true ∧ (trk0.lane 0).sinceTx < 4096 ∧ trk0.trkState 0 = 2 ∧
    (trk0.trk 0).retrainDue = false ∧ (r.trk 0).replay.find? (fun e => (r.trk 0).resends.contains (e.seq, 0)) = some e ∧
    e.copies.length < 16 ∧ d.newDataOk 0 0 = true ∧ d.pickVc 0 = some 0 ∧ (trk0.setTrk 0 { k with retrainDue := true }).newDataOk 0 0 = false ∧ trk0.pickVc 0 = none ∧
    (trk0.active 0).testBit 0 = true ∧ k.widthWord = none ∧ k.due = [] ∧ k.resumeSay = false ∧ trk0.fld F.laneStatusState 0 = 2 ∧ trk0.flitValid 0 f = true ∧
    trk0.flitValid 0 g = true ∧ k.rowApplies 0 f = true ∧ k.rowApplies 0 g = true ∧ trk0.rcvNext 0 = 0 ∧ seqDist 0 1 < k.rxWindow ∧
    firstStart [] f.data = 0 ∧ splitPackets 1 f.data = ([], f.data) ∧ trk0.fld F.trkPosRun 0 0 ≠ 7 ∧
    (trk0.arm .trkAck 0 0 0).due .trkAck 0 = true ∧ o.missing 0 3 = true ∧ x.at_ + o.retryNs 0 ≤ o.tb ∧
    (r.arm .trkRetry 0 0 0).due .trkRetry 0 = true ∧ (trk0.arm .trkCredit 0 0 0).due .trkCredit 0 0 = true ∧
    (trk0.arm .trkBeat 0 0 0).due .trkBeat 0 = true ∧ 0 ∈ trk0.trkLanes 0 ∧ (trk0.lane 0).txIdle = false ∧ (trk0.lane 0).rxIdle = false ∧
    (trk0.arm .trkSilence 0 0 0).due .trkSilence 0 = true ∧ State.reset.trkState 0 = 0 := by decide

set_option maxRecDepth 100000 in
/-- The blocks of two such flits, as the receiver takes them, and a block beyond correction. -/
theorem witness_LinkFlitsAndTimers_blocks :
    let g : Flit := { flit0 with seq := 1 }
    trk0.rxFlit 0 0 block0 = { flit := flit0 } ∧ trk0.rxFlit 0 0 (g.block g.data []) = { flit := g } ∧
    (trk0.rxFlit 0 0 (List.replicate 500 0 ++ [1, 0, 0, 0, 2, 0, 0, 0, 4, 0, 0, 0])).fecU ≠ 0 := by decide +kernel

/-! Witnesses of `Obligations.TrunkTrainingAndWidth`. -/

theorem witness_TrunkTrainingAndWidth :
    let s := State.reset.setFld F.quadPersonalityMode 0 0 1
    let w : BitVec 64 := fldPut F.trkCfgEn 1 0
    let p : Param := { peerId := 1, nonce := 5, secRequired := false, pairing := false, lanes := 1, reorder := 64, replay := 64, nvc := 2, loop := true, version := 1, reservedZero := true }
    let t := (trk0.setFld F.trkLinkStatusState 0 0 1).setTrk 0 { training := .fromDown, echoesLeft := 8 }
    let j := (trk0.setFld F.trkCfgTarget 0 0 0).setFld F.trkLinkStatusActive 0 0 3
    let o := trk0.setTrk 0 { own := some { mask := 1, txn := 1, base := 0 } }
    let d := trk0.setTrk 0 { txLeft := unitSet none [] 0 (some { seq := 0, done := true }) }
    s.laneSetOk 0 w = true ∧ s.hostOk 0 w = true ∧ s.hostOk 0 (fldPut F.trkCfgHost 7 w) = false ∧ s.fld F.trkCfgEn 0 = 0 ∧
    s.fld F.quadPersonalityMode (wr F.trkCfgFirst w / 4) = 1 ∧ s.mayTrain 0 = true ∧ trk0.fld F.trkCfgEn 0 = 1 ∧ trk0.isTd 0 = false ∧
    t.trkState 0 = 1 ∧ (t.trk 0).training = .fromDown ∧ (t.trk 0).param = none ∧ (t.setReg .trkNonce 0 0 5).reg .trkNonce 0 = p.nonce ∧
    p.nonce ≠ t.reg .trkNonce 0 ∧ t.fld F.trkCfgRole 0 = 0 ∧ (t.setFld F.trkCfgRole 0 0 1).fld F.trkCfgRole 0 = 1 ∧
    (t.arm .trkTrain 0 0 0).due .trkTrain 0 = true ∧ (trk0.arm .trkTrainRetry 0 0 0).due .trkTrainRetry 0 = true ∧
    (trk0.setFld F.trkLinkStatusState 0 0 3).trkState 0 = 3 ∧ (trk0.sec 0).dropped = false ∧ j.wantedList 0 ≠ j.active 0 ∧ j.wantedList 0 ≠ 0 ∧
    (trk0.setFld F.trkCfgTarget 0 0 1).wantedList 0 = trk0.active 0 ∧ (o.arm .trkWidth 0 0 0).due .trkWidth 0 = true ∧
    (d.setFld F.trkLinkStatusActive 0 0 2).drainedNow 0 0 = true ∧ (trk0.trk 0).widthFree = true ∧ (o.trk 0).widthFree = false ∧ trk0.trkOf 0 = some 0 ∧ (trk0.arm .badLane 0 0 0).due .badLane 0 = true ∧
    trk0.fld F.laneCtrlEn 0 = 1 := by decide

/-! Witnesses of `Obligations.PairsAndFailover`. -/

/-- A pair: trunk 0, the primary, on lane 0 and trunk 1 on lane 1. -/
def pair0 : State :=
  let q : Param := { peerId := 0, nonce := 5, secRequired := false, pairing := true, lanes := 1, reorder := 64, replay := 64, nvc := 2, loop := true, version := 1, reservedZero := true }
  let s := ((trk0.setFld F.trkPairEn 0 0 1).setFld F.trkPairEn 1 0 1).setFld F.trkPairMate 0 0 1
  let s := (s.setFld F.trkPairMate 1 0 0).setFld F.trkPairPrimary 0 0 1
  (s.setTrk 0 { param := some q, paired := some true, held := true, contRx := unitSet none [] 0 (some [1]) }).setTrk 1 { param := some q, paired := some true, covering := true }

theorem witness_PairsAndFailover :
    let l := pair0.setFld F.trkLinkStatusState 0 0 3
    let p : Packet := { type := 1, tunnelId := 0, vc := 0, len := 0, payload := [] }
    let k : Parcel := { id := 1, pkt := p, src := 0, hall := 0, spot := .psnHeld 0 4 }
    let h : State := { pair0 with parcels := [k] }
    pair0.mateOf 0 = some 1 ∧ trk0.mateOf 0 = none ∧ (l.trk 0).held = true ∧ l.trkState 0 = 3 ∧ (l.trk 1).covering = true ∧
    unitGet none (trk0.trk 0).contRx 0 = none ∧ unitGet none (pair0.trk 0).contRx 0 = some [1] ∧
    (unitGet [] (pair0.trk 1).strad 0).length < 4 ∧ (pair0.arm .psnGap 0 4 0).due .psnGap 0 4 = true ∧
    pair0.psnWaiting 0 4 0 = [] ∧ h.psnWaiting 0 4 0 ≠ [] := by decide

/-! Witnesses of `Obligations.PacketsThroughTheHub`. -/

/-- A Hall 0 whose leaf queue 0 is usable and leads to trunk 0. -/
def hub0 : State :=
  let on : SchedNode := { param := { enable := true } }
  let s := (((State.reset.setNode (nodeId 0 0 0) on).setNode (nodeId 0 1 0) on).setNode (nodeId 0 2 0) on).setNode (nodeId 0 3 0) on
  s.setFld F.trkCfgEn 0 0 1

/-- A packet of the least length, of TYPE t. -/
def pkt0 (t : Nat) : Packet := { type := t, tunnelId := 1, vc := 0, hops := 5, len := 0, payload := [] }

/-- That packet at a spot in Hall 0, bound for leaf queue 0. -/
def parcel0 (t : Nat) (spot : Spot) : Parcel := { id := 0, pkt := pkt0 t, src := 0, hall := 0, spot := spot, queue := some 0 }

/-- The hub with that packet alone. -/
def hubWith (t : Nat) (spot : Spot) : State := { hub0 with parcels := [parcel0 t spot], nextParcel := 1 }

set_option maxRecDepth 100000 in
theorem witness_PacketsThroughTheHub :
    let a := hubWith 1 .arrived
    let c := hubWith 1 .accepted
    let g : Prog := { num := 0, binds := [], words := [0xE000_0001, 0xE000_000F] }
    let m : State := { ((c.setFld F.hallMapCtrlEn 0 0 1).setFld F.hallEntryValid 0 0 1) with
      versions := [{ hall := 0, epoch := 0, regs := [(⟨.hallEntry, 0, 0⟩, 0x100)], progs := [g] }] }
    let k := hubWith 1 .asking
    let w := hubWith 1 .refusedOnce
    let x := hubWith 1 .granted
    let f : State := { x with parcels := [{ parcel0 1 .granted with hall := 1 }] }
    let y := hubWith 4 .granted
    let r := (y.setFld F.hallQadmRedEn 0 0 1).setReg .hallRedLive 0 0 0
    let r' := (r.setFld F.hallRedLiveMinNow 0 0 9).setFld F.hallRedLiveMaxNow 0 0 9
    let ls := k.setFld F.hallModeLsActive 0 0 1
    let late : State := { ls with tb := 64 }
    let v : State := { hub0 with parcels := [{ parcel0 1 .serving with taken := true }] }
    let z : State := { hub0 with waiting := [{ hall := 0, src := 8, pkt := pkt0 1 }, { hall := 4, src := 48, pkt := pkt0 1, queue := some 0 }] }
    let t := (hub0.setTrk 0 { param := some { peerId := 2, nonce := 7, secRequired := false, pairing := false, lanes := 1, reorder := 16, replay := 16, nvc := 8, loop := false, version := 1, reservedZero := true } }).setReg .trkVcCfg 0 0 1
    a.hallState 0 = 0 ∧ a.parcels.find? (fun x => x.hall == 0 && x.spot == .arrived) = some (parcel0 1 .arrived) ∧
    acceptCheck (pkt0 1) false true = none ∧ acceptCheck (pkt0 6) false true = some 1 ∧
    a.parcel 0 = some (parcel0 1 .arrived) ∧ c.chipRuns = true ∧ c.hallRuns 0 2 0 = true ∧ (c.countErr 0 2 0).1 ≠ c.fld F.hallErrCtrlFenceThresh 0 ∧
    c.nextToClassify 0 = some (parcel0 1 .accepted) ∧ c.flag F.hallMapCtrlEn 0 = false ∧
    m.flag F.hallMapCtrlEn 0 = true ∧ (m.version 0 (m.epochNow 0)).fld F.hallEntryValid 0 = 1 ∧
    (m.version 0 (m.epochNow 0)).progs.find? (fun x => x.num == (m.version 0 (m.epochNow 0)).fld F.hallEntryProg 0) = some g ∧
    m.changesFor 0 (m.epochNow 0) = [] ∧ wMajor 0xE000_0001 = 0x38 ∧ wFunc4 0xE000_000F = 15 ∧ wPred 0xE000_0001 = 0 ∧
    k.flightRuns 0 3 0 = true ∧ k.lockstep 0 = false ∧ k.usable 0 = true ∧ k.portConfigured (k.portOf 0) = true ∧
    k.nextAsker 0 0 = some (parcel0 1 .asking) ∧
    State.reset.usable 0 = false ∧ (pkt0 4).lossy = true ∧ (pkt0 1).lossy = false ∧
    heldBack (w.askers 0 0) (parcel0 1 .refusedOnce) = false ∧ x.stairOpen 1 0 = true ∧
    f.nextToCross 1 0 ≠ none ∧
    x.offer 0 0 = some (parcel0 1 .granted) ∧ (x.arbiter 0).map (·.1) = some 0 ∧ (x.arbiter 0).map (·.1) ≠ some 1 ∧
    (x.setHallState 0 1).stairOpen 1 0 = false ∧ r.flag F.hallQadmRedEn 0 0 = true ∧
    r.fld F.hallRedLiveMaxNow 0 0 = 0 ∧ r'.fld F.hallRedLiveMinNow 0 0 = 9 ∧ ls.lockstep 0 = true ∧
    State.presented (parcel0 1 .asking) 0 < late.epochIndex ∧ (late.hall 0).lsNext < late.epochIndex ∧ (late.hall 0).lsFreed = [] ∧ ls.epochIndex ≤ State.presented (parcel0 1 .asking) 0 ∧
    v.tookLast { parcel0 1 .serving with taken := true } = true ∧ v.portOf 0 = 0 ∧
    z.waiting.find? (fun x => x.hall == 0 && x.src == 8) = some { hall := 0, src := 8, pkt := pkt0 1 } ∧ t.vcReserve 0 0 = 4 ∧
    t.isTd 0 = false ∧ (hub0.setFld F.hallBufCtrlFwCells 0 0 17).fwPending 0 = [24559] := by decide

/-- Admission in the hub of those states: within a reserve of one cell, and never when the cells in transit outnumber a Hall. -/
theorem witness_PacketsThroughTheHub_room :
    let s := (hubWith 4 .asking).setFld F.hallQadmReserve 0 0 1
    let z : State := { hub0 with waiting := [{ hall := 0, src := 8, pkt := pkt0 1 }] }
    let big : Parcel := { id := 9, pkt := { pkt0 1 with len := 10000000 }, src := 0, hall := 1, spot := .crossing, queue := some 0 }
    let f : State := { hub0 with parcels := [parcel0 4 .asking, big] }
    s.admits 0 1 0 = true ∧ s.grantsLossy 0 1 = true ∧ f.grantsLossy 0 1 = false ∧ f.admits 0 1 0 = false ∧ 1 ≤ z.localRoom 0 := by
  intro s z big f
  have hlen : ((f.freeCells 0).length : Int) ≤ 20480 := by
    have h : (f.freeCells 0).length ≤ f.fwFrom 0 - 4096 := by
      simpa [State.freeCells] using List.length_filterMap_le _ (List.range (f.fwFrom 0 - 4096))
    have h' : f.fwFrom 0 = 24560 := by decide
    omega
  have ht : f.inTransit 0 0 = 39063 := by decide
  have hd : f.depth 0 0 = 39063 := by decide
  have hr : f.fld F.hallQadmReserve 0 0 = 0 := by decide
  have hx : (f.roomFor 0 0).2 ≤ -1 := by
    simp only [State.roomFor, State.freeSeen, Nat.zero_div, ht]
    omega
  have hy : (f.roomFor 0 0).1 = 0 := by simp only [State.roomFor, Nat.zero_div, Nat.zero_mod, hr, Nat.zero_sub]
  refine ⟨by decide, ?_, ?_, ?_, ?_⟩
  · have h : (s.roomFor 0 0).1 = 1 := by decide
    simp only [State.grantsLossy, h, decide_eq_true_eq]
    omega
  · simp only [State.grantsLossy, hy, decide_eq_false_iff_not]
    omega
  · simp only [State.admits, hy, Bool.or_eq_false_iff, Bool.and_eq_false_iff, decide_eq_false_iff_not]
    omega
  · have h : 0 ∈ z.landingEmpty 0 := by
      have hu : z.landingUsed 0 = [] := by decide
      have hc : z.claimed 0 = [] := by decide
      simp [State.landingEmpty, hu, hc]
    have hl := List.length_pos_of_mem h
    have hm : ((hallTrunks 0).map (fun n => if z.flag F.trkCfgEn n then z.trkReserve n else 0)).sum +
      (segCells ((z.parcels.filter (fun p => p.hall == 0 && p.loc)).flatMap (fun p => p.segs))).length < 4096 := by decide
    simp only [State.localRoom]
    omega

/-! Witnesses of `Obligations.HoldsThresholdsGalleriesAndEthernet`. -/

set_option maxRecDepth 100000 in
theorem witness_HoldsThresholdsGalleriesAndEthernet :
    let old : State := { hub0 with parcels := [parcel0 1 .epochHeld] }
    let two := (((old.setFld F.hallEpochStatusCurrent 0 0 1).setFld F.hallEpochDrainValid 0 0 1).setFld F.hallEpochDrainEpoch 0 0 65535).setFld
      F.hallEpochDrainCount 0 0 1 |>.arm .epochHold 0 0 0
    let a := (((State.reset.setFld F.hallRedCtrlAdapt 0 0 1).setHall 0 { redGrid := [(0, { on := true })] }).setFld F.hallRedCtrlTarget 0 0 9)
    let b : State := { ((a.setFld F.hallRedCtrlTarget 0 0 0).setHall 0 { redGrid := [(0, { on := true })], delayAvg := [(0, 65536)] }) with leafQ := [(0, [1])] }
    let c : CopyInfo := { ring := 0, pktLen := 16, typeTid := 0, queue := 0, egress := 0, ingress := 0, reason := 0, flags := 0, epoch := 0, ts := 0 }
    let on : SchedNode := { param := { enable := true, parent := 11 } }
    let gp : Parcel := { parcel0 1 .serving with copy := some c }
    let gal : State := { ((hub0.setNode (nodeId 0 2 0) on).setFld F.galCtrlEn 0 0 1) with parcels := [gp] }
    let full := gal.setFld F.galWrWr 0 0 (2 ^ gal.fld F.galCtrlSizeLog2 0)
    let dram := (State.reset.setFld F.dramCfgCapacity 0 0 8).setReg .galBase 0 0 0x1000000000
    let e := ((hub0.setReg .quadPersonality 0 0 0x8005).setFld F.ethCtrlEn 0 0 1).setFld F.ethCtrlMaxFrame 0 0 1518
    let e2 := State.reset.setReg .quadPersonality 0 0 0xA005
    let en : SchedNode := { param := { enable := true, parent := 7 } }
    let sp : Parcel := parcel0 4 .serving
    let bad : Parcel := { sp with pkt := { sp.pkt with e2e := true, len := 4, payload := [1, 2, 3, 4] } }
    let x : State := { e.setNode (nodeId 0 2 0) en with parcels := [sp] }
    two.heldIn 0 (fun e => two.due .epochHold 0 e && two.olderLive 0 e) ≠ [] ∧
    a.chipRuns = true ∧ a.flag F.hallRedCtrlAdapt 0 0 = true ∧ 0 * 10 < a.fld F.hallRedCtrlTarget 0 0 * 65536 * 9 ∧
    b.fld F.hallQadmProfile 0 0 = 0 ∧ b.fld F.hallRedCtrlTarget 0 0 * 65536 * 11 < unitGet 0 (b.hall 0).delayAvg 0 * 10 ∧
    gal.portOf 0 = 11 ∧ gal.flag F.galStatusStopped 0 = false ∧
    gal.parcels.find? (fun x => x.hall == 0 && x.spot == .serving && !x.taken && x.queue.any (fun q => gal.portOf q == 11)) = some gp ∧
    (gal.fld F.galWrWr 0 + 2 ^ 32 - gal.fld F.galRdRd 0) % 2 ^ 32 ≠ 2 ^ gal.fld F.galCtrlSizeLog2 0 ∧
    (full.fld F.galWrWr 0 + 2 ^ 32 - full.fld F.galRdRd 0) % 2 ^ 32 = 2 ^ full.fld F.galCtrlSizeLog2 0 ∧
    full.flag F.galCtrlMode 0 = false ∧ (full.setFld F.galCtrlMode 0 0 1).flag F.galCtrlMode 0 = true ∧
    dram.galRingOk (dram.fld F.galBaseBase 0) 1 = true ∧ State.reset.galRingOk 0 1 = false ∧
    e.unitQuad 5 0 = some 0 ∧ State.reset.unitQuad 5 0 = none ∧ e2.unitQuad 5 0 = some 0 ∧ (e2.unitLanes 5 0).head? = some 0 ∧ e2.laneUnit 0 = some 0 ∧
    unitRate (unitField (e2.reg .quadPersonality 0) 0) = 2 ∧ crc32 [] = leNat (([0, 0, 0, 0] : List Byte).drop 0) ∧ crc32 [] ≠ leNat ([1, 0, 0, 0] : List Byte) ∧
    e.fld F.ethCtrlMaxFrame 0 = 1518 ∧ x.portOf 0 = 7 ∧ sp.pkt.e2eOk = true ∧ bad.pkt.e2eOk = false ∧
    (x.ethFrame 0 sp.pkt.payload).length = 64 ∧ (x.setFld F.ethCtrlMaxFrame 0 0 1).fld F.ethCtrlMaxFrame 0 = 1 := by decide

set_option maxRecDepth 100000 in
/-- Frames a MAC with that register accepts: of 64 bytes, whole and untagged; and a control frame. -/
theorem witness_HoldsThresholdsGalleriesAndEthernet_frames :
    let whole := fun (b : List Byte) => b ++ leBytes 4 (crc32 b)
    let f := whole (List.replicate 60 0)
    let c := whole (List.replicate 12 0 ++ [0x88, 0x08] ++ List.replicate 46 0)
    f.length = 64 ∧ crc32 (f.take 60) = leNat (f.drop 60) ∧ etherType (f.take 60) 12 ≠ 0x8808 ∧ isTagged (f.take 60) 0x9100 = false ∧
    c.length = 64 ∧ crc32 (c.take 60) = leNat (c.drop 60) ∧ etherType (c.take 60) 12 = 0x8808 := by decide

/-! Witnesses of `Obligations.TableInstructionsStageAndEpochsPublish`. -/

/-- That core and thread with g1 = 0x10000, a place in its data memory, g2 = `v` and g3 = 9; supervisory. -/
def wzAt (v : Word) : State :=
  wz0.setThr 0 0 { run := .running, gpr := [(1, 0x10000), (2, v), (3, 9)] }

set_option maxRecDepth 100000 in
theorem witness_TableInstructionsStageAndEpochsPublish :
    let e : TblEntry := { table := 0, index := 0, key := [], mask := [], data := 0 }
    let s := (wzAt 0).setReg .hallTblDef 0 0 (fldPut F.hallTblDefEn 1 (fldPut F.hallTblDefKind 2 (fldPut F.hallTblDefSize 1 0)))
    let inForce : State := { s with versions := [{ hall := 0, epoch := s.epochNow 0, entries := [e] }] }
    let bad := wzAt 1
    let q := fun (t : Option Nat) (dsts : List Nat) (srcs : List Nat) => ({ group := .switch, priv := true, tag := t, srcs := srcs, dsts := dsts } : WzReq)
    let pub := wzAt 0
    let full := s.setFld F.hallEpochStatusLive 0 0 4
    s.issues x0 (q (some 2) [] [1, 2]) (wzBuf x0 1 144 false) = true ∧ s.issues x0 (q (some 2) [] [1, 2]) (wzBuf x0 1 144 true) = true ∧
    s.issues x0 (q (some 2) [] [1, 2]) (wzBuf x0 1 16 true) = true ∧ s.issues x0 (q (some 2) [] [1, 2]) (wzBuf x0 1 32 false) = true ∧
    s.issues x0 (q (some 2) [] [0]) noChk = true ∧ s.issues x0 (q none [3] [0]) noChk = true ∧
    s.entryOf 0 0 (s.localBytes 0 0x10000 144) = some e ∧ bad.entryOf 0 1 (bad.localBytes 0 0x10000 144) = none ∧
    (s.hall 0).staged = [] ∧ (s.tblUsed 0 0).length = 0 ∧ s.tblSize 0 0 = 1024 ∧ s.tblKind 0 0 = 2 ∧
    (s.version 0 (s.epochNow 0)).entries = [] ∧ (inForce.version 0 (s.epochNow 0)).entries = [e] ∧ sameEntry 2 e e = true ∧
    entryFind 2 0 [e] (leBytes 4 0) = some e ∧ meterOf (s.localBytes 0 0x10000 32) = none ∧
    meterOf (leBytes 8 1 ++ leBytes 8 1 ++ leBytes 4 9 ++ leBytes 4 9 ++ leBytes 8 0) ≠ none ∧
    s.wzG x0 0 = 0 ∧ 4 ≤ s.wzG x0 3 ∧ full.fld F.hallEpochStatusLive 0 = 4 ∧ s.fld F.hallEpochStatusLive 0 < 4 ∧
    pub.pubFull 0 (pub.entriesAfter 0 []) = false ∧ (inForce.setReg .hallTblDef 0 0 0).pubFull 0 [e] = true ∧
    s.epochLive 0 (s.epochNow 0) = true ∧ s.epochLive 0 7 = false := by decide

/-! Witnesses of `Obligations.UsherQueuesAndProgramStaging`. -/

set_option maxRecDepth 100000 in
theorem witness_UsherQueuesAndProgramStaging :
    let p : Parcel := { parcel0 1 .linked with cells := [4096] }
    let b := ((hub0.setFld F.usherCtlReset 0 0 0).setThr 0 0 ((wzAt 0).thr 0 0)).setFld F.hallUshqValid 0 0 1
    let s : State := { b with parcels := [p], leafQ := [(0, [0])] }
    let r : State := { (((b.setByte (localBase 0 + 0x10000 + 22) 1).setByte (localBase 0 + 0x10000 + 25) 0x10).setThr 0 0 ((wzAt 40).thr 0 0)) with
      parcels := [{ p with spot := .popped 0 }] }
    let d := r.localBytes 0 0x10000 32
    let q := fun (t : Option Nat) (dsts : List Nat) (srcs : List Nat) => ({ group := .queue, tag := t, srcs := srcs, dsts := dsts } : WzReq)
    let def1 := fldPut F.hallTblDefEn 1 (fldPut F.hallTblDefKind 2 (fldPut F.hallTblDefSize 1 0))
    let ok := State.reset.setReg .hallTblDef 0 0 def1
    let use : State := { ok with versions := [{ hall := 0, epoch := 0, entries := [{ table := 0, index := 0, key := [], mask := [], data := 0 }] }] }
    let busy := State.reset.setHall 0 { progBusy := true }
    s.issues x0 (q (some 2) [] [1, 2]) (wzBuf x0 1 32 true) = true ∧ r.issues x0 (q (some 2) [] [1, 2]) (wzBuf x0 1 32 false) = true ∧
    r.issues x0 (q (some 2) [] [1]) (wzBuf x0 1 32 false) = true ∧ s.issues x0 (q none [3] [2]) noChk = true ∧
    s.inputQueue 0 0 = some 0 ∧ s.inputQueue 0 1 = none ∧ unitGet [] s.leafQ 0 = [p.id] ∧ unitGet [] b.leafQ 0 = [] ∧
    s.parcel 0 = some p ∧ r.poppedAt 0 d = some { p with spot := .popped 0 } ∧ s.poppedAt 0 d = none ∧
    (Packet.ofBytes (d.take 16)).len = 0 ∧ (Packet.ofBytes (d.take 16)).cellCount = 1 ∧ field d 22 24 = 1 ∧ r.pushSource 0 (r.wzG x0 2) = true ∧
    r.pushSource 0 41 = false ∧ ok.tblDefOk 0 0 = true ∧ State.reset.fld F.hallTblDefEn 0 = 0 ∧
    (State.reset.setReg .hallTblDef 0 0 (fldPut F.hallTblDefKeyBytes 1 def1)).tblDefOk 0 0 = false ∧
    use.fld F.hallTblDefEn 0 = 1 ∧ use.tblUsed 0 0 ≠ [] ∧ ok.tblUsed 0 0 = [] ∧ ok.tblBound 0 0 = false ∧
    (busy.hall 0).progBusy = true ∧ (State.reset.hall 0).progBusy = false := by decide

/-! Witnesses of `Obligations.SchedulingCommitsAndReservations`. -/

set_option maxRecDepth 100000 in
theorem witness_SchedulingCommitsAndReservations :
    let q := fun (srcs : List Nat) => ({ group := .switch, priv := true, tag := some 2, srcs := srcs } : WzReq)
    let at_ := localBase 0 + 0x10000
    let s := (((wzAt 0).setByte (at_ + 40) 1).setByte (at_ + 56) 1).setByte (at_ + 43) 0
    let f := s.setByte (at_ + 40) 9
    let d := s.localBytes 0 0x10000 64
    let y : Staged := { node := nodeId 0 3 0, param := { enable := true } }
    let e : OtEntry := { thread := 0, tag := 2, kind := .schedCommit 0 }
    let cm := (wz0.setPort 0 { commitAt := some 0, boundary := true, ready := [y] }).setCore 0 { wz0.wzCore 0 with ot := [e] }
    let bz := cm.setPort 0 { commitAt := some 0, boundary := true, ready := [{ y with param := {} }] }
    let up := hub0.setFld F.trkLinkStatusState 0 0 2
    let w : State := { up with parcels := [parcel0 1 .linked], leafQ := [(0, [0])] }
    let on : SchedNode := { param := { enable := true, parent := 8 } }
    let on6 : SchedNode := { param := { enable := true } }
    let l : State := { ((hub0.setNode (nodeId 0 2 0) on).setNode (nodeId 0 3 8) on6) with parcels := [parcel0 1 .linked], leafQ := [(0, [0])] }
    let g := State.reset.setFld F.hallModeGuarantee 0 0 1
    let fo := hub0.setPort 0 { fo := [y], foDue := true, foAt := true }
    let r := State.reset.setNode (nodeId 0 1 0) { param := { enable := true, resBytes := 9 }, grid := Grid.fresh 0 }
    s.issues x0 (q [1, 2]) (wzBuf x0 1 64 false) = true ∧ s.issues x0 (q [1, 2]) (wzBuf x0 1 64 true) = true ∧
    s.issues x0 (q [0]) noChk = true ∧ nodeIdOk 0 = true ∧ nodeIdOk 0x10000 = false ∧
    Machine.paramOk 0 (field d 40 42) (blockParam d) (s.stagedParam (nodeId 0 2 0)).level = true ∧ (blockParam d).fo = false ∧
    (blockParam (f.localBytes 0 0x10000 64)).fo = true ∧ s.livePort 0 = none ∧
    Machine.paramOk 0 (field (f.localBytes 0 0x10000 64) 40 42) (blockParam (f.localBytes 0 0x10000 64)) 0 = true ∧
    s.wzG x0 0 < 48 ∧ 48 ≤ s.wzG x0 1 ∧ cm.lockstep 0 = false ∧ cm.commitStatus 0 = 0 ∧ cm.otFind 0 0 2 = some e ∧
    (hub0.setPort 0 { commitAt := some 0, boundary := true, ready := [{ y with param := {} }] }).commitStatus 0 = 0 ∧
    ({ ((hub0.setPort 0 { commitAt := some 0, boundary := true, ready := [{ y with param := {} }] })) with parcels := [parcel0 1 .linked] } : State).commitStatus 0 = 3 ∧
    bz.lockstep 0 = false ∧ (cm.at_ x0).run = .running ∧ w.mayChoose 0 = true ∧ State.reset.mayChoose 0 = false ∧
    (w.choose 0 (w.fld F.spCtrlQuantum 0) 3 (nodeId 0 3 0)).1.getLast? = some (0, true) ∧
    (w.choose 0 (w.fld F.spCtrlQuantum 0) 3 (nodeId 0 3 0)).2.headFor 0 0 = some (parcel0 1 .linked) ∧
    w.tdOn 0 = false ∧ w.mateOf 0 = none ∧ w.parcel 0 = some (parcel0 1 .linked) ∧ l.mayChoose 8 = true ∧
    (l.choose 8 (l.fld F.spCtrlQuantum 8) 3 (nodeId 0 3 8)).1.getLast? = some (0, true) ∧
    (l.choose 8 (l.fld F.spCtrlQuantum 8) 3 (nodeId 0 3 8)).2.headFor 8 0 = some (parcel0 1 .linked) ∧
    g.tb % 64 = 0 ∧ g.flag F.hallModeGuarantee 0 = true ∧ g.lockstep 0 = false ∧
    (State.reset.setFld F.hallModeLsActive 0 0 1).lockstep 0 = true ∧ (fo.port 0).foDue = true ∧ fo.lockstep 0 = false ∧
    r.chipRuns = true ∧ (r.node (nodeId 0 1 0)).reserved = true ∧ (r.node (nodeId 0 1 0)).owed ≤ 0 := by decide

/-! Witnesses of `Obligations.PowerStatesAreRequestedAnsweredAndLeft`. -/

/-- The Porter's thread running, g1 = v. -/
def porter (v : Word) : State :=
  (State.reset.setCore 9 { code := [(0, 4096)] }).setThr 9 0 { run := .running, gpr := [(1, v)] }

set_option maxRecDepth 100000 in
theorem witness_PowerStatesAreRequestedAnsweredAndLeft :
    let x : Issue := ⟨9, 0, 0, false⟩
    let q : WzReq := { group := .power, priv := true, tag := some 2, srcs := [1] }
    let e : PwrEntry := { tag := 2, target := 1, seq := 5 }
    let k : PwrEntry := { e with answers := pollCores.map (fun c => (c, .ack)) }
    let slow : PwrEntry := { e with answers := [(3, .delay 9 1 0)] }
    let under := fun (s : State) (e : PwrEntry) => s.setEntry (some e)
    let v := fun (a : Nat) => fldPut F.pwrAnswerSeq 5 (fldPut F.pwrAnswerAnswer a 0)
    let s := under State.reset e
    let full := { s.chip with unsent := [(8, [1])] }
    let m : State := { s with chip := full }
    let run := (m.setThr 8 0 { run := .running }).arm .pwrMsg 8 0 0
    let lost := s.setTrk 0 { training := .none }
    let hp := (porter 3).setFld F.ppStatusState 0 0 3
    let i : State := { (State.reset.setFld F.pwrStatusState 0 0 1).setFld F.pwrWakeEnEn 0 0 1 with chip := { State.reset.chip with inState := some { tag := 2, since := 0 } } }
    let t := State.reset.setFld F.newelTamperCtrlEn 0 0 3
    let ts := t.setFld F.newelTamperCtrlSafe 0 0 3
    (porter 0).issues x q noChk = true ∧ (porter 5).issues x q noChk = true ∧ (porter 1).issues x q noChk = true ∧
    (porter 0).wzG x 1 = 0 ∧ (porter 1).wzG x 1 = 1 ∧ (porter 1).chip.entry = none ∧ s.chip.entry ≠ none ∧
    (∀ k ∈ hwUnits, (porter 1).hwAnswer 1 k = .ack) ∧ (porter 1).coreQuiet 0 = true ∧
    hp.wzG x 1 = 3 ∧ hp.hwAnswer 3 0x70 = .refuse 6 ∧ hwUnits.find? (fun k => match hp.hwAnswer 3 k with
      | .refuse _ => true
      | _ => false) = some 0x70 ∧ hp.issues x q noChk = true ∧
    fldGet F.pwrAnswerSeq (v 1) = 5 ∧ fldGet F.pwrAnswerAnswer (v 2) = 2 ∧ fldGet F.pwrAnswerAnswer (v 3) = 3 ∧
    fldGet F.pwrAnswerSeq 0 ≠ 5 ∧ pollCores.contains 8 = true ∧ s.due .pwrPoll 0x20 = false ∧
    (s.arm .pwrPoll 0x20 0 0).due .pwrPoll 0x20 = true ∧ lost.hwAnswer 1 0x20 = .ack ∧ s.hwAnswer 1 0x20 = .ack ∧
    hp.hwAnswer 3 0x70 = .refuse 6 ∧ run.coreQuiet 8 = false ∧ run.coreReset 8 = false ∧ run.due .pwrMsg 8 = true ∧
    run.chip.unsent.find? (fun y => y.1 == 8) = some (8, [1]) ∧ (run.wzCore 8).ring.length < 16 ∧
    16 ≤ ((run.setCore 8 { ring := List.replicate 16 [1] }).wzCore 8).ring.length ∧ e.answer 8 = .none ∧
    (s.arm .pwrAnswer 8 0 0).due .pwrAnswer 8 = true ∧ (s.arm .pwrEntry 0 0 0).due .pwrEntry = true ∧
    slow.slowest = some 3 ∧ e.slowest = none ∧ e.answer 0 ≠ .ack ∧ (∀ u ∈ pollCores ++ hwUnits, k.answer u = .ack) ∧
    (∀ u ∈ hwUnits, State.reset.hwAnswer 1 u = .ack) ∧ i.chip.inState = some { tag := 2, since := 0 } ∧
    1 &&& wakeAllowed 1 &&& (i.fld F.pwrWakeEnEn ||| 0x20) &&& 0xEF ≠ 0 ∧ i.fld F.pwrTimerWakeAfter = 0 ∧
    0 &&& wakeAllowed 1 = 0 ∧ State.reset.chip.inState = none ∧ State.reset.chip.pwren = true ∧
    ({ State.reset.chip with pwren := false } : Chip).pwren = false ∧ 0 &&& t.fld F.newelTamperCtrlEn = 0 ∧
    3 &&& t.fld F.newelTamperCtrlEn = 3 ∧ 3 &&& t.fld F.newelTamperCtrlSafe = 0 ∧ 3 &&& ts.fld F.newelTamperCtrlSafe ≠ 0 ∧
    t.chip.porLow = false ∧ t.chip.safe = none ∧ t.fld F.pwrStatusState = 0 ∧ t.tempBad = false ∧
    (sramOwner 0x1_0800_0000).isSome = true ∧ State.reset.voltageBad 0 300 = true ∧ State.reset.voltageBad 0 700 = false := by decide

/-! Witnesses of `Obligations.RailsResetsBootAndMailboxes`. -/

set_option maxRecDepth 100000 in
theorem witness_RailsResetsBootAndMailboxes :
    let s := State.reset
    let c := s.chip
    let low : State := { s with chip := { c with porLow := true } }
    let p := fun (v : Nat) => s.setFld F.bootStatusStraps 0 0 v
    let flash : List Byte := leBytes 4 0x3144_5A57 ++ leBytes 12 1 ++ leBytes 16 9
    let none_ : List Byte := List.replicate 8 0
    let side : State := { s with chip := { c with stage := .sideband } }
    let put : State := side.setByte (stagedAt 9) 1
    let busy := s.setFld F.bootLoadBusy 0 0 1
    let load : State := { s with chip := { c with loading := some (true, 0) } }
    let th := s.setThr 8 0 { run := .running }
    let on := (s.setFld F.hostCfgEn 0 0 1).setMbx 0 { s.mbx 0 with cmd := putBytes [] 0 [1, 0] }
    low.chip.porLow = true ∧ low.chip.pwren = true ∧ s.chip.porLow = false ∧ s.powered = true ∧ s.chip.stage = .rom ∧
    side.chip.stage ≠ .rom ∧ (p 7).fld F.bootStatusStraps = 7 ∧ (p 2).fld F.bootStatusStraps = 2 ∧ s.fld F.bootStatusStraps = 0 ∧
    flashNat flash 0 4 = some 0x3144_5A57 ∧ flashNat flash 4 1 = some 1 ∧ s.tryEntry flash 1 = some 7 ∧
    flashNat none_ 4 1 = some 0 ∧ put.byte (stagedAt 9) = 1 ∧ put.chip.stage = .sideband ∧ put.stagedImage.target = 256 ∧
    (side.arm .sidebandMax 0 0 0).due .sidebandMax = true ∧ s.flag F.bootLoadBusy = false ∧ busy.flag F.bootLoadBusy = true ∧
    s.chip.loading = none ∧ load.chip.loading = some (true, 0) ∧ (th.thr 8 0).run.live = true ∧ (s.thr 8 0).run.live = false ∧
    on.flag F.hostCfgEn 0 = true ∧ (on.mbx 0).busy = false ∧ (on.mbx 0).par 0 2 = 1 ∧ s.flag F.hostCfgEn 0 = false ∧
    (s.mbx 6).busy = false ∧ ({ s.mbx 6 with cmd := putBytes [] 0 [1, 0] } : Mailbox).par 0 2 = 1 := by decide

/-! Witnesses of `Obligations.WardenInstructionsUseKeySlots`. -/

/-- The Warden's thread running, g1 = 0x2000, g2 = v; slot 3 LIVE with attributes `at_`. -/
def warden0 (v at_ : Word) : State :=
  let s := (State.reset.setCore 10 { code := [(0, 4096)] }).setThr 10 0 { run := .running, gpr := [(1, 0x2000), (2, v)] }
  (s.setSlot 3 { attr := at_, key := [1] }).setSlotState 3 2

/-- A crypto descriptor at 0x2000 that names slot 3, with DST 0x3000, TAG 0x3100 and `n` bytes of additional data. -/
def cryptoAt (at_ : Word) (n w : Nat) : State :=
  (warden0 0 at_).setBytes (localBase 10 + 0x2000) (leBytes 8 0 ++ leBytes 4 0 ++ leBytes 4 w ++ leBytes 8 0x3000 ++ leBytes 4 48 ++
    leBytes 4 n ++ leBytes 8 0 ++ leBytes 8 0 ++ leBytes 8 0x3100 ++ leBytes 8 0)

set_option maxRecDepth 100000 in
theorem witness_WardenInstructionsUseKeySlots :
    let x : Issue := { core := 10, thread := 0, pred := 0 }
    let q := fun (srcs : List Nat) => ({ group := .crypto, tag := some 2, srcs := srcs } : WzReq)
    let s := warden0 0x4000 0x10001
    let lock := s.setFld F.wdnStatusStoreLocked 0 0 1
    let sick : State := { s with warden := { s.warden with drbgFail := true } }
    let root := s.setByte (localBase 10 + 0x4000) 128
    let head := fun (w : Byte) => [0x57, 0x4B, 1, w]
    let wrap := s.setBytes (localBase 10 + 0x4000) (head 3)
    let unw := (warden0 0x4000 2).setBytes (localBase 10 + 0x4000) (head 3)
    let at3 := s.setThr 10 0 { run := .running, gpr := [(1, 3), (2, 0x4000)] }
    let w3 := wrap.setThr 10 0 { run := .running, gpr := [(1, 3), (2, 0x4000)] }
    let u0 := unw.setThr 10 0 { run := .running, gpr := [(1, 0), (2, 0x4000)] }
    let old := at3.setSlotState 3 3
    let inst := old.setSec 0 { tx := some 3 }
    let pair := (warden0 0x4000 0x100010).setThr 10 0 { run := .running, gpr := [(1, 3), (2, 0x4000)] }
    let enc := cryptoAt 1 0 3
    let dec := cryptoAt 2 0 3
    let mac := cryptoAt 4 0 3
    let sgn := cryptoAt 0x100010 0 3
    let mem := cryptoAt 0x100010 97 3
    let dh := cryptoAt 0x100020 0 0x503
    let d := fun (s : State) => cryptoDesc (s.localBytes 10 0x2000 64) false
    let e := cryptoDesc (dh.localBytes 10 0x2000 64) true
    let ops := fun (op : WardenOp) => ({ (s.setCore 10 { code := [(0, 4096)], ot := [{ thread := 0, tag := 2, kind := .atOnce }] }) with
      warden := { s.warden with ops := [op] } } : State)
    let op : WardenOp := { tag := 2, slot := some 3 }
    s.issues x (q [1, 2]) noChk = true ∧ s.issues x (q [1, 2]) (wzBuf x 2 64 false) = true ∧ s.issues x (q [1]) noChk = true ∧
    s.issues x (q [1, 2]) (wzBuf x 2 128 true) = true ∧ s.issues x (q [1, 2]) (wzBuf x 2 128 false) = true ∧
    s.issues x (q [1, 2]) (wzBuf x 2 97 true) = true ∧ enc.issues x (q [1]) (wzBuf x 1 64 false) = true ∧
    lock.storeLocked = true ∧ s.storeLocked = false ∧ s.warden.drbgFail = false ∧ sick.warden.drbgFail = true ∧
    s.slotFree 4 = true ∧ s.slotFree 3 = false ∧ attrOk 1 = true ∧ attrOk 0x40 = false ∧
    (root.derive (root.localBytes 10 0x4000 64)).1.isSome = true ∧
    (s.derive (s.localBytes 10 0x4000 64)).1.isSome = false ∧
    w3.exportable 3 = true ∧ blobOk (w3.localBytes 10 0x4000 28) = true ∧ w3.wrapSlot 3 0 = true ∧
    u0.unwrapBad 0 (u0.localBytes 10 0x4000 128) = false ∧ u0.unwrapBad 3 (u0.localBytes 10 0x4000 128) = true ∧
    at3.wzG x 1 = 3 ∧ at3.slotState 3 = 2 ∧ old.slotState 3 = 3 ∧ old.installed 3 = false ∧ inst.installed 3 = true ∧
    inst.slotState 3 = 3 ∧ s.slotState 0x2000 = 0 ∧ attrKind (pair.slot 3).attr = 4 ∧ attrBind (pair.slot 3).attr = 0 ∧
    pair.slotState 3 = 2 ∧ enc.gcmOk (d enc) = true ∧ enc.outOk (d enc).tagAt 16 = true ∧ enc.slotUse (d enc).slot 0 = true ∧
    attrKind (enc.slot 3).attr = 0 ∧ dec.slotUse 3 0 = false ∧ dec.gcmOk (d dec) = true ∧ attrUse (dec.slot 3).attr 1 = true ∧
    (d mac).srcOk true = true ∧ 48 ≤ (d mac).dstLen ∧ mac.outOk (d mac).dst 48 = true ∧ mac.slotUse 3 2 = true ∧
    sgn.outOk (d sgn).tagAt 96 = true ∧ sgn.slotUse 3 4 = true ∧ attrKind (sgn.slot 3).attr = 4 ∧ (d mem).aadLen = 97 ∧
    localIn 10 (d mem).tagAt 96 = true ∧ e.clean = true ∧ e.far = false ∧ e.outSlot = 5 ∧ dh.slotFree 5 = true ∧
    dh.slotUse e.slot 5 = true ∧ (ops op).warden.ops.find? (fun o => o.tag == 2) = some op ∧
    (ops op).otFind 10 0 2 = some { thread := 0, tag := 2, kind := .atOnce } ∧ s.warden.ops = [] ∧
    s.issues x { group := .crypto, priv := true, tag := some 2 } noChk = true := by decide

/-! Witnesses of `Obligations.WardenCommandsLinkKeysAndFuses`. -/

/-- The Warden with a message of an opcode in its mailbox. -/
def wardenMsg (op : Byte) (at_ : Word) : State :=
  let s := warden0 0 at_
  s.setCore 10 { s.wzCore 10 with ring := [op :: List.replicate 63 0] }

set_option maxRecDepth 100000 in
theorem witness_WardenCommandsLinkKeysAndFuses :
    let s := wardenMsg 1 0x10000
    let m : Byte → List Byte := fun op => op :: List.replicate 63 0
    let on := (wardenMsg 3 0).setSec 0 { tx := some 3, rx0 := some 3 }
    let full := (wardenMsg 3 0).setSec 0 { buf := some [1] }
    let k1 := (s.setSlot 1 { attr := 1 }).setSlotState 1 2
    let un := (s.setSlot 1 { attr := 2 }).setSlotState 1 2
    let blob : List Byte := [0x57, 0x4B, 1, 1] ++ List.replicate 124 0
    let k0 := (s.setSlot 0 { attr := 0x100010 }).setSlotState 0 2
    let svn : State := { s with regs := (⟨.fuseSvn, 0, 0⟩, 0) :: s.regs, warden := { s.warden with imageSvns := [5] } }
    let link := (s.setSlot 3 { attr := linkAttr 0 }).setSlotState 3 2
    let busy := s.setFld F.fuseSvnCtrlBusy 0 0 1
    let goal : State := { busy with warden := { busy.warden with svnGoal := some (2, 8, 0) } }
    s.coreReset 10 = false ∧ (s.thr 10 0).run ≠ .halted ∧ (s.wzCore 10).ring = [m 1] ∧ part (m 9) 0 1 = 9 ∧ part (m 1) 0 1 = 1 ∧
    State.reset.coreReset 10 = true ∧ s.storeLocked = false ∧ (s.setFld F.wdnStatusStoreLocked 0 0 1).storeLocked = true ∧
    s.slotFree 4 = true ∧ s.slotFree 3 = false ∧ (s.sec 0).on = false ∧ (on.sec 0).on = true ∧ on.slotFree 4 = true ∧
    k1.exportable 3 = true ∧ k1.wrapSlot 1 0 = true ∧ s.wrapSlot 1 0 = false ∧ blob.length = 128 ∧
    un.unwrapBad 4 blob = false ∧ un.unwrapBad 3 blob = true ∧ k0.slotUse 0 4 = true ∧ attrKind (k0.slot 0).attr = 4 ∧
    s.slotUse 0 4 = false ∧ s.warden.imageSvns = [] ∧ svn.svnCount = 0 ∧ svn.flag F.fuseSvnCtrlBusy = false ∧
    (s.sec 0).buf = none ∧ (full.sec 0).buf ≠ none ∧ link.installBad 0 3 3 = false ∧ link.installBad 6 3 3 = true ∧
    busy.flag F.fuseSvnCtrlBusy = true ∧ busy.warden.svnGoal = none ∧ goal.warden.svnGoal = some (2, 8, 0) ∧
    s.deadline .wardenClear = none ∧ (s.arm .wardenClear 0 0 0).deadline .wardenClear ≠ none ∧ (s.wzCore 10).code ≠ [] := by decide

/-- After one bit more FUSE_SVN is still below the count an SVN_ADVANCE wants. -/
theorem witness_WardenCommandsLinkKeysAndFuses_svn :
    let s : State := { State.reset with regs := [(⟨.fuseSvn, 0, 0⟩, 0)] }
    (s.setReg .fuseSvn 0 0 (s.reg .fuseSvn ||| (1#64 <<< s.svnNext))).svnCount < 2 := by
  intro s
  have h : s.reg .fuseSvn ||| (1#64 <<< s.svnNext) = 1 := by decide
  have hr : (s.setReg .fuseSvn 0 0 1).reg .fuseSvn = 1 := by simp
  rw [h]
  simp only [State.svnCount, hr]
  decide

/-! Witnesses of `Obligations.RootPortsChangeOwnerAndLink`. -/

/-- Root port 0 passed through to host 1, whose DSP sends MSIs by trunk 2, tunnel 1. -/
def port0 : State :=
  let s := (((State.reset.setFld F.prtBridgeMode 0 0 1).setFld F.prtBridgeHost 0 0 1).setFld F.prtBridgePerst 0 0 0).setFld F.hostCfgEn 1 0 1
  ((((s.setFld F.hostCfgTrk 1 0 2).setFld F.hostCfgTid 1 0 1).cfgSet 1 2 .msiEnable 1).cfgSet 1 2 .msiAddr 0x1000).setFld F.prtStatusLinkUp 0 0 1

set_option maxRecDepth 100000 in
theorem witness_RootPortsChangeOwnerAndLink :
    let e : PfEntry := { slot := 0, addr := 0x100, cplId := 0, data := [1, 2], unused := [1] }
    let p := (port0.setPrt 0 { prefetch := [e], shown := true }).arm .prefetch 0 0 0
    let q := p.setPrt 0 { prefetch := [{ e with unused := [] }] }
    let held := port0.arm .prtPerst 0 0 0
    let down := port0.setFld F.prtStatusLinkUp 0 0 0
    let sh := port0.setFld F.prtBridgeMode 0 0 2
    let i := port0.setMbx 1 { pba := 2 }
    let j := (i.cfgSet 1 10 .msixEnable 1)
    let a := port0.setFld F.alcoveCfgState 5 0 2
    let own : Nat := 0x4000000000000000
    State.reset.fld F.prtBridgeMode 0 = 0 ∧ fldGet F.prtBridgeMode (BitVec.ofNat 64 own) = 1 ∧ fldGet F.prtBridgeHost (BitVec.ofNat 64 own) = 0 ∧
    State.reset.fld F.prtStatusLinkUp 0 = 0 ∧ p.fld F.prtBridgeMode 0 = 1 ∧ p.fld F.prtBridgeHost 0 = 1 ∧ (p.prt 0).shown = true ∧
    (p.hostPath 1).isSome = true ∧ p.cfgGet 1 2 .msiEnable = 1 ∧ sh.fld F.prtBridgeMode 0 = 2 ∧ held.due .prtPerst 0 = true ∧
    port0.due .prtPerst 0 = false ∧ down.perstLow 0 = false ∧ (down.prt 0).handover = none ∧ down.fld F.prtStatusLinkUp 0 = 0 ∧
    State.reset.perstLow 0 = true ∧ port0.fld F.prtStatusLinkUp 0 = 1 ∧ p.due .prefetch 0 0 = true ∧ port0.due .prefetch 0 0 = false ∧
    (p.prt 0).prefetch.find? (fun x => x.slot == 0) = some e ∧ (q.prt 0).prefetch.find? (fun x => x.slot == 0) = some { e with unused := [] } ∧
    (∀ o ∈ e.unused, (e.addr + o) / 64 = 4) ∧ (List.range 4).find? (fun i => !(p.prt 0).lafOrder.contains i) = some 0 ∧
    (i.mbx 1).pba.testBit 0 = false ∧ (j.mbx 1).pba.testBit 1 = true ∧ j.cfgGet 1 10 .msixEnable ≠ 0 ∧ j.cfgGet 1 10 .msixMask = 0 ∧
    (j.hostPath 1).isSome = true ∧ a.fld F.alcoveCfgState 5 ≠ 0 ∧ 0 < a.alcVectors 5 ∧ (a.alc 5).pba.testBit 0 = false := by decide

/-! Witnesses of `Obligations.BridgeForwardsOrdersAndAnswers`. -/

/-- A packet of host 1 with this TLP behind a bridge prefix, served at the BRIDGE port of Hall 0. -/
def bridged (pseq fn prt : Nat) (t : Tlp) : Parcel :=
  let body := bridgePrefix pseq t.kind fn prt ++ t.bytes
  { parcel0 1 .serving with src := 2, pkt := { pkt0 1 with len := body.length, payload := body } }

/-- That packet in a hub whose leaf queue 0 leads to the BRIDGE port, root port 0 passed through to host 1. -/
def bridgeAt (pseq fn prt : Nat) (t : Tlp) : State :=
  let on : SchedNode := { param := { enable := true, parent := 6 } }
  let s := ((port0.setNode (nodeId 0 0 0) on).setNode (nodeId 0 1 6) on).setNode (nodeId 0 2 6) on
  { s with parcels := [bridged pseq fn prt t] }

set_option maxRecDepth 100000 in
theorem witness_BridgeForwardsOrdersAndAnswers_taking :
    let w : Tlp := { op := .memWr, addr := 0x10, dws := 1, be := 1, data := [5, 6, 7, 8], reqId := 3 }
    let r : Tlp := { op := .memRd, addr := 0x208, dws := 1, be := 0xF, reqId := 3 }
    let a := bridgeAt 0 0x3FF 0xF w
    let b := bridgeAt 7 0x3FF 0xF w
    let c := bridgeAt 0 0x3FF 0 r
    let d := bridgeAt 0 0x3FF 1 r
    let q := bridged 0 0x3FF 0xF w
    let body := q.pkt.payload
    a.bridgePacket 0 = some q ∧ a.parcel 0 = some q ∧ q.pkt.bridgeKind = 0 ∧ q.pkt.e2eOk = true ∧ Tlp.ofBytes (body.drop 8) = some w ∧
    q.pkt.len = 24 ∧ w.kind = 0 ∧ q.trunk.bind (fun n => a.hostOf n 1) = some 1 ∧ a.bridge = [] ∧ (a.hostSt 1).rxPosted = 0 ∧
    leNat (body.take 8) / 2 ^ 32 = 0 ∧ leNat (body.take 8) / 2 ^ 16 % 16 = 0xF ∧ leNat (body.take 8) / 2 ^ 20 % 1024 = 0x3FF ∧
    w.stores = [(0x10, 5)] ∧ leNat ((bridged 7 0x3FF 0xF w).pkt.payload.take 8) / 2 ^ 32 = 7 ∧
    b.bridgePacket 0 = some (bridged 7 0x3FF 0xF w) ∧ (bridgeAt 0 0x3FF 0 w).passed 0 1 = true ∧ (bridgeAt 0 0x3FF 1 w).passed 1 1 = false ∧
    c.bridgePacket 0 = some (bridged 0 0x3FF 0 r) ∧ Tlp.ofBytes ((bridged 0 0x3FF 0 r).pkt.payload.drop 8) = some r ∧
    pseqReached 0 (c.hostSt 1).rxPosted = true ∧ c.prefetchBlock 1 0 r = none ∧ c.prtTags 0 = [] ∧ (r.cut 512).length = 1 ∧
    d.passed 1 1 = false ∧ c.flag F.hostCfgEn 1 = true ∧ r.kind = 1 ∧ (c.prt 0).maxRead = 512 := by decide

set_option maxRecDepth 100000 in
theorem witness_BridgeForwardsOrdersAndAnswers :
    let r : Tlp := { op := .memRd, addr := 0x10, dws := 1, be := 0xF, reqId := 3, tag := 9 }
    let g : ReqPart := { tag := 4, addr := 0x10, dws := 1, be := 0xF }
    let q : BridgeReq := { id := 6, toPrt := true, unit := 0, origin := .host 1, fn := 0x3FF, prt := 0, tlp := r, parts := [g] }
    let s : State := { port0 with reqs := [q] }
    let l : Tlp := { op := .cpl 0, tag := 4, dws := 1, data := [1, 2, 3, 4] }
    let bad : Parcel := { bridged 0 0x3FF 0xF r with pkt := { pkt0 1 with e2e := true, len := 16, payload := List.replicate 16 0 } }
    let y := bridgeAt 0 0 0 r
    let z : State := { y with parcels := [bad] }
    let sh := (port0.setFld F.prtBridgeMode 0 0 2).setFld F.alcoveCfgXlat 5 0 1
    let x : HeldTlp := { hall := 0, host := 1, kind := 1, pseq := 0, fn := 0x3FF, prt := 0xF, tlp := { op := .cfgRd 0, reqId := 3 } }
    let c : State := { (port0.setFld F.hostCfgTotalvfs 1 0 9) with bridge := [x] }
    let bus := fun (f n m : Nat) (s : State) => (s.cfgSet 1 f .secondaryBus n).cfgSet 1 f .subordinateBus m
    let b := bus 0 1 9 (bus 1 3 3 (bus 2 2 2 port0))
    let at_ := fun (n d : Nat) => ({ op := .cfgRd d, addr := n * 2 ^ 24 } : Tlp)
    s.reqs.find? (fun q => q.toPrt == true && q.unit == 0 && (true || q.tlp.reqId == l.reqId) &&
      q.parts.any (fun y => y.tag == l.tag && !y.done)) = some q ∧ s.fld F.prtStatusLinkUp 0 = 1 ∧ s.flag F.hostCfgEn 1 = true ∧
    s.bridge = [] ∧ port0.reqs = [] ∧ l.kind = 2 ∧ (s.arm .bridgeCto 6 0 0).req 6 = some q ∧ (s.arm .bridgeCto 6 0 0).due .bridgeCto 6 = true ∧
    s.due .bridgeCto 6 = false ∧ z.bridgePacket 0 = some bad ∧ bad.pkt.e2eOk = false ∧ bad.pkt.bridgeKind = 0 ∧ z.parcel 0 = some bad ∧
    port0.fld F.prtBridgeMode 0 = 1 ∧ port0.fld F.prtBridgeHost 0 = 1 ∧ sh.fld F.prtBridgeMode 0 = 2 ∧
    sh.sharedTarget 0x2_0001_0000 4 = true ∧ sh.flag F.alcoveCfgXlat 5 = true ∧ (2 ^ 63 + 5 * 2 ^ 52) / 2 ^ 52 % 1024 = 5 ∧
    pseqReached x.pseq (c.hostSt 1).rxPosted = true ∧ c.cfgTarget 1 1 x.tlp = none ∧ c.cfgTarget 1 0 x.tlp = some .upstream ∧
    b.cfgTarget 1 1 (at_ 2 1) = some (.behind 0 0) ∧ b.passed 0 1 = true ∧ b.passed 0 2 = false ∧ b.prtTags 0 = [] ∧
    b.cfgTarget 1 1 (at_ 3 0) = some .pf0 ∧ 4 ≤ c.fld F.hostCfgTotalvfs 1 ∧
    c.cfgGet 1 10 .vfEnable = 0 := by decide

/-! Witnesses of `Obligations.AlcoveDeviceAndTeardown`. -/

/-- Alcove 5, VF 3 of host 1, in state `st`, with 2 virtqueues and `n` operations in flight. -/
def alcove5 (st n : Nat) : State :=
  let s := (((State.reset.setFld F.alcoveCfgState 5 0 st).setFld F.alcoveCfgHost 5 0 1).setFld F.alcoveCfgVf 5 0 3).setFld F.alcoveCfgNvq 5 0 2
  let s := ((s.setFld F.alcoveCfgBellSrc 5 0 300).setFld F.alcoveInflightHw 5 0 n).setAlc 5 { status := 4, queues := [(0, { enable := true })] }
  (s.cfgSet 1 10 .vfEnable 1).cfgSet 1 10 .numVfs 8

set_option maxRecDepth 100000 in
theorem witness_AlcoveDeviceAndTeardown :
    let r := alcove5 1 0
    let b := alcove5 1 2
    let f := (alcove5 4 2).setAlc 5 { wait := .freeze 1 }
    let z := (alcove5 4 0).setAlc 5 { wait := .freeze 1 }
    let w := (alcove5 2 0).setAlc 5 { wait := .quiesce 1 }
    let g := (alcove5 2 0).setAlc 5 { wait := .guest }
    let l := (alcove5 2 0).setAlc 5 { wait := .flr }
    State.reset.alcOf 1 3 = none ∧ r.alcOf 1 3 = some 5 ∧ r.barOpen 5 = true ∧ l.barOpen 5 = false ∧ l.alcOf 1 3 = some 5 ∧ r.alcState 5 = 1 ∧
    (alcove5 3 0).alcOf 1 3 = some 5 ∧ (alcove5 3 0).barOpen 5 = true ∧ (alcove5 3 0).alcState 5 = 3 ∧ (alcove5 5 0).alcState 5 = 5 ∧
    (alcove5 5 0).alcOf 1 3 = some 5 ∧ (r.alc 5).queueSel < 65536 ∧ (r.alc 5).status ≠ 0 ∧ r.inflight 5 = 0 ∧ b.inflight 5 ≠ 0 ∧
    b.alcOf 1 3 = some 5 ∧ 1 < r.fld F.alcoveCfgNvq 5 ∧ (w.arm .alcQuiesce 5 0 0).due .alcQuiesce 5 = true ∧
    (w.arm .alcQuiesce 5 0 0).alcState 5 = 2 ∧ (f.arm .alcQuiesce 5 0 0).due .alcQuiesce 5 = true ∧ f.alcState 5 = 4 ∧
    (f.alc 5).wait = .freeze 1 ∧ r.due .alcQuiesce 5 = false ∧ (w.arm .alcXlat 5 0 0).due .alcXlat 5 = true ∧ r.due .alcXlat 5 = false ∧
    w.inflight 5 = 0 ∧ w.alcState 5 = 2 ∧ (w.alc 5).wait = .quiesce 1 ∧ z.inflight 5 = 0 ∧ (z.alc 5).wait = .freeze 1 ∧
    (g.alc 5).wait = .guest ∧ (l.alc 5).wait = .flr := by decide

/-! Witnesses of `Obligations.AlcoveCommandsCheckThenAct`. -/

/-- Command `op` on Alcove 5, with these bytes from byte 16, in mailbox 1. -/
def alcoveCmd (op a : Nat) (l : List Byte) (s : State) : State :=
  s.setMbx 1 { busy := true, cmd := putBytes [] 0 (leBytes 2 op ++ leBytes 2 a ++ List.replicate 12 0 ++ l) }

set_option maxRecDepth 100000 in
theorem witness_AlcoveCommandsCheckThenAct :
    let c := alcoveCmd 1 0xFFFF ([7, 0, 2, 0] ++ leBytes 2 16 ++ List.replicate 16 0 ++ [0xFF]) (State.reset.setFld F.hostCfgTotalvfs 1 0 9)
    let e := alcoveCmd 1 0xFFFF ([3, 0, 2, 0] ++ leBytes 2 16 ++ List.replicate 16 0 ++ [0xFF]) ((alcove5 3 0).setFld F.hostCfgTotalvfs 1 0 9)
    let k := alcoveCmd 1 0xFFFF ([7, 2, 0, 0] ++ leBytes 2 0 ++ List.replicate 10 0 ++ leBytes 4 9) State.reset
    let q := alcoveCmd 2 5 [] (alcove5 1 0)
    let w := alcoveCmd 2 5 [] (alcove5 2 3)
    let o := alcoveCmd 2 5 [] ((alcove5 1 0).setFld F.alcoveCfgHost 5 0 2)
    let sync := alcoveCmd 9 5 [1] ((alcove5 1 0).setFld F.alcoveDirtyCtlOn 5 0 1)
    let load := alcoveCmd 7 5 [0, 0x10] ((alcove5 1 0).setAlc 5 {})
    q.mbxAtWork 1 = false ∧ q.headOk 1 = true ∧ (q.mbx 1).par 0 2 = 2 ∧ (q.mbx 1).par 2 4 = 5 ∧ q.mbxHost 1 = 1 ∧
    q.fld F.alcoveCfgHost 5 = 1 ∧ q.alcState 5 = 1 ∧ (q.mbx 1).par 16 20 = 0 ∧ tearing (w.alcState 5) = true ∧ w.inflight 5 = 3 ∧
    o.fld F.alcoveCfgHost 5 ≠ o.mbxHost 1 ∧ tearing (q.alcState 5) = false ∧ (alcoveCmd 3 5 [] (alcove5 3 0)).alcState 5 = 3 ∧
    (alcoveCmd 8 5 [] (alcove5 3 0)).flag F.alcoveCfgAborted 5 = false ∧ c.createOk (c.mbx 1) 1 = true ∧ c.headOk 1 = true ∧
    c.alcOf 1 7 = none ∧ c.noBacking (c.mbx 1) = false ∧ k.noBacking (k.mbx 1) = true ∧ c.alcState 0 = 0 ∧ (c.mbx 1).par 0 2 = 1 ∧ e.alcOf 1 3 = some 5 ∧ e.createOk (e.mbx 1) 1 = true ∧
    State.reset.createOk {} 1 = false ∧ (sync.mbx 1).par 16 17 = 1 ∧ (sync.alc 5).dirty = [] ∧ (sync.alc 5).saveFor = none ∧
    (alcoveCmd 9 5 [] (alcove5 1 0)).mbxAtWork 1 = false ∧
    4096 + 64 * q.fld F.alcoveCfgNvq 5 ≤ ((alcoveCmd 6 5 (List.replicate 8 0 ++ leBytes 4 8192) (alcove5 5 0)).mbx 1).par 24 28 ∧
    (load.mbx 1).par 16 18 % 4 = 0 ∧ (load.alc 5).status = 0 ∧ load.alcState 5 = 1 := by decide

/-! Witnesses of `Obligations.HeadsLinkAuxAndHpd`. -/

/-- Head 0 live in a mode, its stream host 1's, its sink present. -/
def head0 (mode : Nat) : State :=
  ((State.reset.setFld F.dhCtrlLiveMode 0 0 mode).setFld F.dhPassLiveHost 0 0 1).setFld F.dhEventsHpdNow 0 0 1

set_option maxRecDepth 100000 in
theorem witness_HeadsLinkAuxAndHpd :
    let r : AuxReq := { kind := 1, len := 1, addr := 0, data := [] }
    let s := head0 1
    let a := (s.setHead 0 { aux := some (.firmware, r) }).arm .dhAux 0 0 0
    let b := s.setHead 0 { aux := some (.host 1, r) }
    let go : BitVec 64 := 0x80000000
    State.reset.fld F.dhCtrlLiveMode 0 = 0 ∧ fldGet F.dhLinkLanes 2 = 2 ∧ State.reset.headUnit 0 = none ∧ s.fld F.dhCtrlLiveMode 0 = 1 ∧
    fldGet F.dhAuxCmdGo go = 1 ∧ fldGet F.dhAuxCmdGo 0 = 0 ∧ (s.head 0).aux = none ∧ s.fld F.dhPassLiveHost 0 = 1 ∧
    fldGet F.dhAuxCmdKind 0x100 = 0 ∧ fldGet F.dhAuxCmdAddr 0x100 = 0x100 ∧ dpcdKept 0x100 = true ∧ dpcdKept 0x400 = false ∧
    (a.head 0).aux = some (.firmware, r) ∧ a.due .dhAux 0 = true ∧ (b.head 0).aux = some (.host 1, r) ∧ b.due .dhAux 0 = false ∧
    s.fld F.dhEventsHpdNow 0 = 1 ∧ State.reset.fld F.dhEventsHpdNow 0 = 0 ∧ (∀ k < 12, s.isTd k = false) := by decide

/-! Witnesses of `Obligations.FramesCommitsAndUnderruns`. -/

/-- Head 0 composing 1,000 lines of 1,000 pixels at 100 MHz: a line lasts 10 us, a frame 10 ms; the shadows hold the same set. -/
def head1 (source : Nat) (hd : Head) : State :=
  let s := ((State.reset.setFld F.dhLinkLanes 0 0 2).setFld F.dhLinkRate 0 0 3).setFld F.dhCtrlMode 0 0 2
  let s := (((s.setFld F.dhHHactive 0 0 640).setFld F.dhHHfront 0 0 16).setFld F.dhHHsync 0 0 64).setFld F.dhHHtotal 0 0 1000
  let s := (((s.setFld F.dhVVactive 0 0 480).setFld F.dhVVfront 0 0 10).setFld F.dhVVsync 0 0 2).setFld F.dhVVtotal 0 0 1000
  let s := (s.setFld F.dhClkPixelKhz 0 0 100000).setFld F.dhSyncSource 0 0 source
  (s.putLive 0 (s.shadowSet 0)).setHead 0 hd

set_option maxRecDepth 100000 in
theorem witness_FramesCommitsAndUnderruns :
    let run : Head := { running := true, frameEnd := 100 }
    let on := head1 0 { run with blanked := true, grid := { next := 100 } }
    let f : State := { on with tb := 100 }
    let e := head1 1 { run with blanked := true, gridSet := some 40 }
    let te : State := { e with tb := 100 }
    let miss := te.setHead 0 { run with blanked := true }
    let w : State := { (head1 0 run).setFld F.dhCommitCommit 0 0 1 with tb := 4760000 }
    let bad := w.setFld F.dhVVtotal 0 0 0
    let y := w.shadowSet 0
    let b : State := { head1 0 { run with windowDone := true, armed := some y } with tb := 4800000 }
    let off := w.setFld F.dhCtrlLiveMode 0 0 0
    let pass := b.setFld F.dhCtrlLiveMode 0 0 1
    let stop := e.setHead 0 {}
    let leave := w.setFld F.dhCtrlMode 0 0 0
    let c : Packet := { pkt0 3 with len := 16, payload := [8, 1] ++ List.replicate 14 0 }
    let q : Present := { layer := 0, surface := 0, hall := 1, pkt := c }
    let shown : State := { (head1 0 { presents := [q] }).setFld F.dhLSrcLiveEn 0 0 1 with tb := 9 }
    (f.liveSet 0).mode = 2 ∧ (f.liveSet 0).source = 0 ∧ (f.head 0).grid.next = 100 ∧ (te.liveSet 0).source = 1 ∧
    (te.head 0).gridSet = some 40 ∧ (miss.head 0).gridSet = none ∧ (miss.liveSet 0).lines 1 = 10000 ∧ w.armedError 0 (w.shadowSet 0) = 0 ∧
    (w.liveSet 0).lines 476 = 4760000 ∧ (w.head 0).windowDone = false ∧ bad.armedError 0 (bad.shadowSet 0) = 1 ∧ y.layers.length = 8 ∧
    (b.head 0).armed = some y ∧ (b.liveSet 0).lines 480 = 4800000 ∧ (b.liveSet 0).mode ≠ 1 ∧ (pass.liveSet 0).mode = 1 ∧ (stop.head 0).running = false ∧ (stop.head 0).gridSet = none ∧ (off.liveSet 0).mode = 0 ∧
    off.armedError 0 (off.shadowSet 0) = 0 ∧ (leave.shadowSet 0).mode = 0 ∧ (leave.liveSet 0).mode = 2 ∧
    (bad.setFld F.dhCtrlLiveMode 0 0 0).armedError 0 (bad.shadowSet 0) ≠ 0 ∧ f.lineNow 0 < (f.liveSet 0).vactive ∧
    (∀ k < 12, f.isTd k = false) ∧ (canvasCmd 1 0 c).flags % 2 = 1 ∧ (shown.head 0).presents = [q] ∧
    (((shown.liveSet 0).layers[0]?).any (fun l => fldGet F.dhLSrcEn l.1 == 1 && fldGet F.dhLSrcSurface l.1 == 0)) = true := by decide

/-! Witnesses of `Obligations.CanvasCommandsStreamsAndPages`. -/

/-- A Canvas command of client 2 (Alcove 9), which holds surface 3, at the CANVAS port of Hall 0; the pool has 8 pages. -/
def canvasAt (port : Nat) (pkt : Packet) (src : Nat) : State :=
  let on : SchedNode := { param := { enable := true, parent := port } }
  let s := ((State.reset.setNode (nodeId 0 0 0) on).setNode (nodeId 0 1 port) on).setNode (nodeId 0 2 port) on
  let s := ((s.setFld F.canvasClientValid 2 0 1).setFld F.canvasClientAlcove 2 0 1).setFld F.canvasClientKey 2 0 9
  let s := ((s.setFld F.canvasClientPagesQuota 2 0 4).setFld F.canvasPoolPagesPages 0 0 8).setFld F.canvasSurfState 3 0 1
  let s := ((s.setFld F.canvasSurfClient 3 0 2).setFld F.canvasSurfFormat 3 0 2).setFld F.canvasSurfStride 3 0 1
  { s with parcels := [{ parcel0 3 .serving with src := src, pkt := pkt }],
           canvas := { pages := [(3, [5, 6])] } }

/-- The packet: OP, FLAGS, surface 3, ARG and data. -/
def canvasPkt (op flags arg : Nat) (l : List Byte) : Packet :=
  let b := leBytes 1 op ++ leBytes 1 flags ++ leBytes 2 3 ++ leBytes 4 7 ++ leBytes 8 arg ++ l
  { pkt0 3 with len := b.length, payload := b, subscriber := 9 }

/-- A packet of host 1's stream, by trunk 2. -/
def streamAt (kind : Nat) (l : List Byte) : State :=
  let b := leBytes 2 5 ++ leBytes 1 0 ++ leBytes 1 kind ++ leBytes 2 0 ++ leBytes 2 0 ++ l
  let s := canvasAt 9 { pkt0 2 with len := b.length, payload := b } 2
  ((s.setFld F.hostCfgEn 1 0 1).setFld F.hostCfgTrk 1 0 2).setFld F.trkCfgHost 2 0 1

set_option maxRecDepth 100000 in
theorem witness_CanvasCommandsStreamsAndPages :
    let at_ := fun (op arg : Nat) (l : List Byte) => canvasAt 8 (canvasPkt op 1 arg l) 48
    let p := fun (op arg : Nat) (l : List Byte) => { parcel0 3 .serving with src := 48, pkt := canvasPkt op 1 arg l }
    let c := fun (op arg : Nat) (l : List Byte) => ({ canvasCmd 0 0 (canvasPkt op 1 arg l) with client := 2 } : CanvasCmd)
    let s := at_ 7 0 []
    let q := s.setFld F.canvasClientValid 2 0 0
    let bad := { canvasPkt 7 1 0 [] with e2e := true }
    let full := (at_ 1 0 []).setFld F.canvasClientPagesUsed 2 0 4
    let none_ := (at_ 1 0 []).setFld F.canvasPoolPagesPages 0 0 1
    let big := at_ 6 0 []
    s.servedAt 0 8 = some (p 7 0 []) ∧ s.parcel 0 = some (p 7 0 []) ∧ (canvasPkt 7 1 0 []).e2eOk = true ∧ bad.e2eOk = false ∧
    s.clientOf (p 7 0 []) = some 2 ∧ q.clientOf (p 7 0 []) = none ∧ (c 9 0 []).op = 9 ∧ State.reset.servedAt 0 8 = none ∧
    (c 7 0 []).shaped 0 0 = true ∧ (c 7 0 []).op = 7 ∧ s.ownSurface (c 7 0 []) 3 = true ∧ (q.setFld F.canvasSurfState 3 0 0).ownSurface (c 7 0 []) 3 = false ∧
    (c 1 0 []).shaped (0x1FFF + 0x1FFF * 2 ^ 16 + 7 * 2 ^ 32) 0 = true ∧ ceilDiv (ceilDiv 2 256 * 256 * 1) 65536 + 1 = 2 ∧
    full.fld F.canvasClientPagesUsed 2 + 2 > full.fld F.canvasClientPagesQuota 2 ∧ none_.pagesFree.length < 2 ∧
    2 ≤ (at_ 1 0 []).pagesFree.length ∧ s.fld F.canvasSurfState 0 = 0 ∧ s.refsOf 3 = 0 ∧
    (c 3 0 [1, 2, 3, 4]).shaped rectMask 4 = true ∧ (c 3 0 [1, 2, 3, 4]).rect = (0, 0, 1, 1) ∧ s.inSurface 3 0 0 1 1 = true ∧
    s.inSurface 3 1 0 1 1 = false ∧ formatBytes (s.fld F.canvasSurfFormat 3) = 4 ∧ (c 4 0 [1, 2, 3, 4]).shaped rectMask 4 = true ∧
    (c 5 0 [3, 0, 0, 0, 0, 0, 0, 0]).shaped rectMask 8 = true ∧ s.fld F.canvasSurfFormat 0 ≠ s.fld F.canvasSurfFormat 3 ∧
    (c 6 0x10000 []).shaped 0x10FFF 0 = true ∧ (big.stream 0 0).enc = none ∧ (big.stream 0 0).width = 0 ∧ encFits 1 2 = false ∧
    (c 8 0 []).shaped 0xFF 0 = true := by decide

set_option maxRecDepth 100000 in
theorem witness_CanvasCommandsStreamsAndPages_streams :
    let s := streamAt 3 [1]
    let p := (s.servedAt 0 9).getD (parcel0 2 .serving)
    let live := ((s.setFld F.dhCtrlLiveMode 4 0 1).setFld F.dhPassLiveHost 4 0 1).setFld F.dhPassLiveTid 4 0 1 |>.setReg .quadPersonality 0 0 0x8403
    let x := (streamAt 1 [1, 2, 3]).setFld F.dhSyncLiveSource 4 0 2
    let go : BitVec 64 := 0x8000000000000005
    let ret := s.setFld F.canvasSurfState 3 0 2
    let full : State := { ret with canvas := { ret.canvas with held := List.replicate 16 5 } }
    s.servedAt 0 9 = some p ∧ s.parcel 0 = some p ∧ p.trunk = some 2 ∧ (List.range 6).filter (fun h => p.trunk.any (fun tr => s.carriesHost tr h)) = [1] ∧
    (List.range 6).filter (fun i => (live.unitQuad 3 i).any (fun q => q / 3 == 0) && live.fld F.dhCtrlLiveMode i == 1 && live.fld F.dhPassLiveHost i == 1 &&
      live.fld F.dhPassLiveTid i == p.pkt.tunnelId) = [4] ∧ field (p.pkt.payload.take p.pkt.len) 3 4 = 3 ∧
    (x.liveSet 4).source = 2 ∧ (x.head 4).hostFrame = none ∧ fldGet F.canvasPageOpGo go = 1 ∧ fldGet F.canvasPageOpPage go = 5 ∧
    ret.canvas.pages.find? (fun e => e.2.contains 5) = some (3, [5, 6]) ∧ ret.fld F.canvasSurfState 3 = 2 ∧ s.fld F.canvasSurfState 3 ≠ 2 ∧
    full.canvas.held.length = 16 ∧ ret.canvas.held.length < 16 ∧ s.canvas.pages.find? (fun e => e.2.contains 7) = none := by decide

/-! Witnesses of `Obligations.TdLinkUpSlotsAndTimers`. -/

/-- TD-212 trunk 0 on lane 0 of quad 0, host 1, in STATE `st` with the shim `u`. -/
def tdAt (st : Nat) (u : TdUnit) : State :=
  let s := ((State.reset.setFld F.quadPersonalityMode 0 0 2).setFld F.trkCfgEn 0 0 1).setFld F.trkTdCtrlHost 0 0 1
  (s.setFld F.trkTdStatusState 0 0 st).setTd 0 u

set_option maxRecDepth 100000 in
theorem witness_TdLinkUpSlotsAndTimers :
    let f := tdFrame 5 0 0 0 255 255 0 []
    let bad := tdFrame 5 0 0 0 255 9 0 []
    let d : TdOut := { seq := 7, vc := 1, data := [1] }
    let up := tdAt 3 { inUse := [0], initLeft := 2, expiries := 7 }
    let full := tdAt 3 { inUse := [0], unacked := List.replicate 32 d }
    let data := tdAt 3 { limit := [(0, 255), (1, 255)], txQ := [{ id := 1, vc := 1, bytes := [1, 2] }] }
    let all := fun (s : State) => ((((s.arm .tdLinkup 0 0 0).arm .tdWidth 0 0 0).arm .tdInit 0 0 0).arm .tdTimeout 0 0 0).arm .tdNak 0 0 0
    let al := all (tdAt 1 { aligned := [0] })
    let it := all (tdAt 2 { inUse := [0] })
    let tm := ((up.arm .tdAck 0 0 0).arm .tdCredit 0 0 0).arm .tdRetry 0 0 0
    tdFails f true = false ∧ tdKind f = 5 ∧ tdByte f 3 = 255 ∧ tdByte f 4 = 255 ∧ tdFails bad true = false ∧ tdByte bad 4 ≠ 255 ∧
    tdFails f false = true ∧ tdFails [] true = true ∧ al.due .tdLinkup 0 = true ∧ al.tdOn 0 = true ∧ al.mayTrain 0 = true ∧ up.due .tdLinkup 0 = false ∧
    al.due .tdWidth 0 = true ∧ al.fld F.trkTdStatusState 0 = 1 ∧ it.due .tdInit 0 = true ∧ it.due .tdTimeout 0 = true ∧
    it.fld F.trkTdStatusState 0 = 2 ∧ up.fld F.trkTdStatusState 0 = 3 ∧ (up.td 0).initLeft = 2 ∧ it.due .tdNak 0 = true ∧
    tm.due .tdAck 0 = true ∧ tm.due .tdCredit 0 = true ∧ tm.due .tdRetry 0 = true ∧ 8 ≤ (tm.td 0).expiries + 1 ∧ (full.td 0).expiries + 1 < 8 ∧
    ((data.tdStallCheck 0).td 0).nextVc = some 1 ∧ (data.td 0).resend = [] ∧ 32 ≤ (full.td 0).unacked.length ∧
    ((tdAt 3 {}).tdStallCheck 0 |>.td 0).nextVc = none ∧ ([d].find? (fun y => y.seq == 7)) = some d := by decide

/-! Witnesses of `Obligations.TdReceivesAcknowledgesAndServesTheWindow`. -/

set_option maxRecDepth 100000 in
theorem witness_TdReceivesAcknowledgesAndServesTheWindow :
    let s := (((tdAt 3 {}).setFld F.wtdCtrlPcieEn 0 0 1).setFld F.trkTdCtrlPcieEn 0 0 1).setFld F.wtdCtrlDispEn 0 0 1
    let s := s.setFld F.trkTdCtrlDispEn 0 0 1
    let r : Tlp := { op := .memRd, addr := 0x10, dws := 1, be := 0xF, reqId := 3 }
    let data := fun (v : Nat) (l : List Byte) => tdFrame 1 v 0 (2 + l.length) 0 0 0 (beBytes 2 l.length ++ l)
    let px : List Byte := [0, 0, 0, 1, 0, 0, 0, 0]
    let pe : List Byte := [0, 0, 1, 1, 0, 0, 0, 0]
    let short := tdFrame 1 0 0 1 0 0 0 [0]
    let zero := tdFrame 1 0 0 2 0 0 0 [0, 0]
    let at_ := fun (q : Nat) => tdFrame 1 0 q 1 0 0 0 [0]
    let d := fun (q : Nat) => ({ seq := q, vc := 1, data := [1] } : TdOut)
    let un := tdAt 3 { unacked := [d 0, d 1] }
    let nx := un.setFld F.trkTdStatusTxNext 0 0 2
    let w : Tlp := { op := .memWr, addr := 0xC, dws := 1, be := 3, data := [1, 2, 3, 4] }
    let aux := (((s.setFld F.wtdAuxCmdGo 0 0 1).setFld F.wtdAuxCmdKind 0 0 2).setFld F.dhCtrlLiveMode 0 0 1)
    let win := s.cfgSet 1 11 (.other 1) 2
    let bc : State := { s with beacons := [(0, { on := true })] }
    s.fld F.trkTdStatusState 0 = 3 ∧ tdFails (data 0 r.bytes) true = false ∧ tdKind (data 0 r.bytes) = 1 ∧ tlpLength r.bytes = some r.bytes.length ∧
    tlpData r.bytes ≤ 128 ∧ r.bytes.length = 12 ∧ ((data 0 r.bytes).drop 6).take 14 = beBytes 2 12 ++ r.bytes ∧ tdByte (data 0 r.bytes) 2 = 14 ∧
    tdFails (data 1 px) true = false ∧ field px 2 3 = 0 ∧ field px 3 4 = 1 ∧ tdByte (data 1 px) 0 / 8 % 2 = 1 ∧ field pe 2 3 = 1 ∧
    tdFails short true = false ∧ tdFails zero true = false ∧ beNat ((zero.drop 6).take 2) = 0 ∧ tdByte (at_ 5) 1 = 5 ∧ tdByte (at_ 230) 1 = 230 ∧
    tdFails (at_ 100) true = false ∧ tdFails (tdFrame 2 0 0 2 0 0 0 []) true = false ∧ tdKind (tdFrame 2 0 0 2 0 0 0 []) = 2 ∧
    nx.fld F.trkTdStatusTxNext 0 = 2 ∧ (un.td 0).unacked.any (fun x => x.seq == 1) = true ∧ tdFails (tdFrame 3 0 0 1 0 0 0 []) true = false ∧
    tdFails (tdFrame 4 0 0 0 3 4 0 []) true = false ∧ tdAccess r = some (0x10, 4) ∧ tdAccess { r with be := 6 } = none ∧
    tdAccess w = some (0xC, 2) ∧ tdAccess { w with be := 1 } = some (0xC, 1) ∧ aux.fld F.wtdAuxCmdGo 0 = 1 ∧ (aux.head 0).aux = none ∧
    aux.fld F.dhCtrlLiveMode 0 = 1 ∧ s.tdInWindow 0 r = false ∧ win.tdInWindow 0 r = true ∧ r.kind = 1 ∧ (Tlp.ofBytes r.bytes) = some r ∧ aux.fld F.wtdAuxCmdKind 0 = 2 ∧
    bc.chipRuns = true ∧ (bc.hostPath 1).isSome = true := by decide

/-! Witnesses of `Obligations.UsbUpstreamPortsAndVendorTransfers`. -/

/-- UP0 in STATE `st` with the hub instance `u`; DN0 with the device `d` is shown to its host. -/
def usbAt (st : Nat) (u : UpPort) (d : DnPort) : State :=
  let s := ((State.reset.setFld F.usbCtrlEn 0 0 1).setFld F.upCtrlEn 0 0 1).setFld F.upCtrlAttachSrc 0 0 1
  (((s.setFld F.upStatusState 0 0 st).setFld F.dnStatusOwner 0 0 0).setUp 0 u).setDn 0 d

set_option maxRecDepth 100000 in
theorem witness_UsbUpstreamPortsAndVendorTransfers :
    let off := usbAt 0 {} {}
    let on := usbAt 3 { ports := [(1, { connected := true, power := true }), (9, { enabled := true })] } { device := some 2 }
    let busy := (((on.setFld F.upMgmtCtrlPending 0 0 1).setFld F.upMgmtCtrlXfer 0 0 255).arm .usbMgmt 0 0 0).setFld F.usbAudioOwner 0 0 0
    let nap := (usbAt 4 { before := 3, ports := [(1, { connected := true })] } {}).setFld F.upStatusRwakeEn 0 0 1
    let deaf := usbAt 4 { before := 3, waking := some 0 } {}
    let sel := usbAt 3 { ports := [(1, { suspended := true })] } {}
    off.attachSource 0 true = true ∧ off.attachSource 0 false = false ∧ off.upState 0 = 0 ∧ off.fld F.usbCtrlEn = 1 ∧ off.fld F.upCtrlEn 0 = 1 ∧
    on.upState 0 = 3 ∧ on.dnOwner 0 = 0 ∧ on.fld F.upCtrlHsEn 0 = 1 ∧ busy.ownsAudio 0 = true ∧
    setupByte 0x0000_0000_0005_0500 0 = 0 ∧ setupByte 0x0000_0000_0005_0500 1 = 5 ∧ setupByte 0x0000_0000_0001_0900 1 = 9 ∧
    setupValue 0x0000_0000_0001_0900 = 1 ∧ setupByte 0x0004_0009_0000_00A3 0 = 0xA3 ∧ setupByte 0x0004_0009_0000_00A3 1 = 0 ∧
    setupIndex 0x0004_0009_0000_00A3 % 256 = 9 ∧ setupByte 0x0000_0001_0008_0323 0 = 0x23 ∧ setupByte 0x0000_0001_0008_0323 1 = 3 ∧
    setupValue 0x0000_0001_0008_0323 = 8 ∧ setupValue 0x0000_0001_0004_0323 = 4 ∧ setupIndex 0x0000_0001_0004_0323 % 256 = 1 ∧
    (on.hubPort 0 1).connected = true ∧ on.hubClass 0 0x0000_0000_0000_0323 = none ∧
    (on.hubPort 0 9).enabled = true ∧ setupLength 0x0100_0000_0000_0140 = 256 ∧ setupLength 0x0101_0000_0000_0140 = 257 ∧
    busy.fld F.upMgmtCtrlPending 0 = 1 ∧ busy.fld F.upMgmtCtrlXfer 0 = 255 ∧ on.fld F.upMgmtCtrlPending 0 = 0 ∧ busy.due .usbMgmt 0 = true ∧
    on.due .usbMgmt 0 = false ∧ nap.upState 0 = 4 ∧ nap.dnOwner 0 = 0 ∧ nap.fld F.upStatusRwakeEn 0 = 1 ∧ (nap.hubPort 0 1).connected = true ∧
    (nap.hubPort 0 1).suspended = false ∧ (nap.up 0).waking = none ∧ deaf.fld F.upStatusRwakeEn 0 = 0 ∧ deaf.upState 0 = 4 ∧
    (deaf.up 0).waking = some 0 ∧ sel.upState 0 = 3 ∧ (sel.hubPort 0 1).suspended = true ∧ 6 ≤ nap.dnOwner 1 := by decide

/-! Witnesses of `Obligations.UsbDownstreamPortsAssignmentAndPower`. -/

set_option maxRecDepth 100000 in
theorem witness_UsbDownstreamPortsAssignmentAndPower :
    let p : HubPort := { connected := true, resetting := true, power := true }
    let s := usbAt 3 { ports := [(1, p)] } { device := some 2 }
    let s := ((s.arm .usbReset 0 0 0).arm .usbGap 0 0 0).arm .usbCycle 0 0 0
    let t := (s.setFld F.upStatusHs 0 0 1).arm .usbGap 8 0 0
    s.due .usbReset 0 = true ∧ s.dnOwner 0 = 0 ∧ (s.hubPort 0 1).resetting = true ∧ s.due .usbReset 1 = false ∧
    (s.dn 0).device = some 2 ∧ (some false).map (fun low => if low then 1 else 2) = (s.dn 0).device ∧
    (some true).map (fun low => if low then 1 else 2) ≠ (s.dn 0).device ∧ s.dnPower 0 = true ∧ t.fld F.upStatusHs 0 = 1 ∧
    s.assigned 0 = 15 ∧ (0xFFFF_FFF5#64).toNat / 2 ^ (4 * 0) % 16 = 5 ∧ (0xFFFF_FFFE#64).toNat / 2 ^ (4 * 0) % 16 = 14 ∧
    s.due .usbGap 0 = true ∧ s.due .usbGap 1 = false ∧ t.due .usbGap 8 = true ∧ s.due .usbGap 8 = false ∧ s.due .usbCycle 0 = true ∧
    s.due .usbCycle 1 = false := by decide

/-! Witnesses of `Obligations.UsbAudioAndTransactions`. -/

set_option maxRecDepth 100000 in
theorem witness_UsbAudioAndTransactions :
    let p : HubPort := { connected := true, enabled := true, power := true, high := true }
    let y : TtEntry := { endpoint := 17, periodic := false, result := some [1] }
    let z : TtEntry := { endpoint := 18, periodic := false }
    let s := usbAt 3 { ports := [(1, p), (9, { enabled := true })], mgmtEnd := some .stall } { device := some 2, tt := [y, z] }
    let s := (((s.setFld F.usbAudioOwner 0 0 0).setFld F.usbAudioStatusPlaying 0 0 1).setFld F.usbAudioStatusCapturing 0 0 1).setFld
      F.usbAudioMclkEn 0 0 1
    let t := ((s.setFld F.upStatusHs 0 0 1).setFld F.usbAudioFormat 0 0 1).setAudio { window := some (0, 1023), play := [(1, 2)], capture := List.replicate 192 3 }
    let v := (t.setAudio { window := some (5, 1022), phases := List.replicate 1024 0 }).setFld F.upMgmtCtrlPending 0 0 1
    let one := v.setDn 0 { device := some 2, tt := [z] }
    let idle := (usbAt 4 {} {}).setFld F.usbAudioDiscipline 0 0 0
    s.fld F.usbAudioOwner = 0 ∧ s.upState 0 = 3 ∧ (s.hubPort 0 9).enabled = true ∧ s.usb.audio.window = none ∧
    s.fld F.usbAudioDiscipline = 1 ∧ idle.fld F.usbAudioDiscipline = 0 ∧ idle.upState 0 = 4 ∧ t.fld F.upStatusHs 0 = 1 ∧
    t.usb.audio.window = some (0, 1023) ∧ v.usb.audio.window = some (5, 1022) ∧ v.usb.audio.phases[1023]? = some 0 ∧
    s.fld F.usbAudioStatusPlaying = 1 ∧ s.fld F.usbAudioStatusCapturing = 1 ∧ idle.fld F.usbAudioStatusPlaying = 0 ∧
    s.fld F.usbAudioMclkEn = 1 ∧ idle.fld F.usbAudioMclkEn = 0 ∧ s.fld F.usbAudioFormat = 0 ∧ t.fld F.usbAudioFormat = 1 ∧
    t.sampleRate / 250 ≤ t.usb.audio.capture.length ∧ s.dnReached 0 0 = true ∧ (s.hubPort 0 1).high = true ∧ s.dnReached 0 1 = false ∧
    ((s.dn 0).tt.filter (fun z => !z.periodic)).length = 2 ∧ ((one.dn 0).tt.filter (fun z => !z.periodic)).length = 1 ∧
    (t.dn 0).tt.find? (fun z => z.endpoint == 17) = some y ∧ (t.dn 0).tt.find? (fun z => z.endpoint == 18) = some z ∧
    (List.range 10).all (fun q => !(s.hubPort 0 q).changed) = true ∧ v.fld F.upMgmtCtrlPending 0 = 1 ∧ (v.up 0).mgmtIn = false ∧
    (s.up 0).mgmtEnd = some .stall ∧ s.fld F.upMgmtCtrlPending 0 = 0 := by decide

/-! Witnesses of `Obligations.PowerPathsObeyTheirCommandsAndTheBudget`. -/

/-- The Porter's thread running with g1 = `p` and g2 = `v`; PP0 in STATE `st` with limits of 3 A and 48 V. -/
def pathAt (st : Nat) (p v : Word) : State :=
  let s := ((porter p).setThr 9 0 { run := .running, gpr := [(1, p), (2, v)] }).setFld F.ppStatusState 0 0 st
  (((s.setFld F.newelPplim0Imax 0 0 3000).setFld F.newelPplim0Vmax 0 0 4800).setFld F.powerAllotMw 0 0 500).setFld F.powerReserveMw 0 0 100

set_option maxRecDepth 100000 in
theorem witness_PowerPathsObeyTheirCommandsAndTheBudget :
    let x : Issue := { core := 9, thread := 0, pred := 0 }
    let q : WzReq := { group := .power, priv := true, tag := some 2, srcs := [1, 2] }
    let go := fun (s : State) => s.issues x q noChk = true
    let off := pathAt 0 0 0
    let on := pathAt 3 0 1
    let good := on.setFld F.ppStatusPg 0 0 1
    let bad := (pathAt 5 0 3).setFld F.ppStatusDamaged 0 0 1
    go off ∧ off.wzG x 2 % 16 = 0 ∧ off.wzG x 1 ≤ 12 ∧ go on ∧ on.ppState 0 = 3 ∧ on.wzG x 2 % 16 = 1 ∧ (pathAt 4 0 2).ppState 0 = 4 ∧
    go (pathAt 4 0 2) ∧ (pathAt 4 0 2).wzG x 2 % 16 = 2 ∧ (pathAt 5 0 1).ppState 0 = 5 ∧ off.fld F.powerAllotMw 0 0 ≠ 0 ∧
    off.reg .newelPplim0 0 0 ≠ 0 ∧ ¬off.fld F.newelPplim0Vmax 0 0 * 10 < off.fld F.ppCfgVin 0 ∧ off.reg .newelPplim0 0 1 = 0 ∧
    off.fld F.ppStatusPg 0 = 0 ∧ good.fld F.ppStatusPg 0 = 1 ∧ bad.fld F.ppStatusDamaged 0 = 1 ∧ go bad ∧ bad.wzG x 2 % 16 = 3 ∧
    (pathAt 5 0 3).fld F.ppStatusDamaged 0 = 0 ∧ (pathAt 0 0 15).wzG x 2 % 16 = 15 ∧ go (pathAt 0 0 15) ∧ (pathAt 0 13 0).wzG x 1 = 13 ∧
    go (pathAt 0 13 0) ∧ (pathAt 0 0 500).wzG x 2 ≤ off.fld F.powerAllotMw 0 0 ∧ (pathAt 0 0 600).wzG x 2 = 600 ∧
    off.fld F.powerReserveMw = 100 ∧ (pathAt 0 0 601).wzG x 2 - 500 = 101 ∧ (499#32).toNat < off.allotted ∧ off.allotted ≤ (500#32).toNat ∧
    off.issues x { group := .power, priv := true, tag := some 2, srcs := [1] } noChk = true ∧ (pathAt 0 52 0).wzG x 1 = 52 ∧
    (pathAt 0 53 0).wzG x 1 = 53 ∧ (pathAt 0 64 0).wzG x 1 = 64 := by decide

/-! Witnesses of `Obligations.PowerPathsAreScannedTripAndCoolDown`. -/

set_option maxRecDepth 100000 in
theorem witness_PowerPathsAreScannedTripAndCoolDown :
    let base := fun (st : Nat) => (((pathAt st 0 0).setFld F.newelPplim1Tau1 0 0 1).setFld F.newelPplim1Tau2 0 0 1).setFld F.ppCfgVin 0 0 100
    let at_ := fun (st : Nat) (a : PowerPath) => { (base st).setPath 0 a with tb := 1000000 }
    let all := fun (s : State) => ((((s.arm .ppFault 0 0 0).arm .ppPrecharge 0 0 0).arm .ppGate 0 0 0).arm .ppDischarge 0 0 0).arm .ppHold 0 0 0
    let s3 := all (((at_ 3 { ovSince := some 0, hot := 1, below := some 0, vlow := some 0 }).setFld F.ppStatusPg 0 0 1).setFld F.ppStatusDisch 0 0 1)
    let s4 := ((at_ 4 { tripCause := 1 }).setFld F.newelPplim0Ntc 0 0 0).arm .ppCool 0 0 0
    let s4 := ((s4.setFld F.newelPplim0TmaxCode 0 0 100).setFld F.newelPplim0TmaxC 0 0 100).setFld F.ppStatusCmdOn 0 0 1
    let w4 := (s4.setFld F.newelPplim0Ntc 0 0 1).setPath 0 { tripCause := 4 }
    s3.ppState 0 = 3 ∧ s3.due .ppFault 0 = true ∧ (all (at_ 1 {})).due .ppPrecharge 0 = true ∧ (at_ 1 {}).ppState 0 = 1 ∧
    (all (at_ 2 {})).due .ppGate 0 = true ∧ (at_ 2 {}).ppState 0 = 2 ∧ (at_ 0 {}).ppState 0 = 0 ∧ s3.fld F.ppStatusDisch 0 = 1 ∧
    (s3.path 0).vlow = some 0 ∧ 0 + 1000000 ≤ s3.tb ∧ s3.due .ppDischarge 0 = true ∧ (at_ 0 {}).due .ppDischarge 0 = false ∧
    s4.due .ppCool 0 = true ∧ s4.ppHot 0 = false ∧ s4.fld F.ppStatusCmdOn 0 = 1 ∧ s4.ppState 0 = 4 ∧ s4.ppWarm 0 = false ∧
    w4.ppWarm 0 = true ∧ (s4.setFld F.ppStatusCmdOn 0 0 0).fld F.ppStatusCmdOn 0 = 0 ∧ s3.due .ppHold 0 = true ∧ s3.fld F.ppStatusPg 0 = 1 ∧
    (s3.path 0).ovSince = some 0 ∧ 0 + 20000 ≤ s3.tb ∧ (s3.path 0).hot = 1 ∧ (s3.path 0).below = some 0 ∧ 0 + 100000 ≤ s3.tb ∧
    s3.fld F.newelPplim1Tau1 0 0 ≠ 0 ∧ s3.fld F.newelPplim1Tau2 0 0 ≠ 0 ∧ s3.fld F.newelPplim0Imax 0 0 = 3000 ∧
    s3.fld F.ppStatusAttempts 0 ≠ 5 ∧ (s3.setFld F.ppStatusAttempts 0 0 5).fld F.ppStatusAttempts 0 = 5 := by decide

/-! Witnesses of `Obligations.TypeCUnitsSpeakPowerDelivery`. -/

/-- TC0 enabled with the unit `u`; the Porter's thread runs with g1 = 0x2000, where the record `r` stands. -/
def tcAt (u : TcUnit) (r : List Byte) : State :=
  let s := (porter 0x2000).setTc 0 { u with taken := true }
  ((s.setFld F.tcCtrlEn 0 0 1).setFld F.tcStatusAttach 0 0 3).setBytes (localBase 9 + 0x2000) r

set_option maxRecDepth 100000 in
theorem witness_TypeCUnitsSpeakPowerDelivery :
    let i : Issue := { core := 9, thread := 0, pred := 0 }
    let q : WzReq := { group := .power, priv := true, tag := some 2, srcs := [1, 2] }
    let m : PdMsg := ⟨0, [0x42, 0x10]⟩
    let ack : PdMsg := ⟨0, [1, 0]⟩
    let s := tcAt {} [0, 0, 2, 0, 0, 0, 0, 0, 0x42, 0x10]
    let ams := tcAt {} [0, 1, 2, 0, 0, 0, 0, 0, 0x42, 0x10]
    let hard := tcAt {} [3]
    let bad := tcAt {} [5]
    let big := tcAt {} [0, 0, 6, 0, 0, 0, 0, 0, 0x41, 0x10, 0xFF, 0xFF, 0x0F, 0]
    let x : PdTx := { msg := m, op := some (0, 4), started := true, retries := 2 }
    let o : OtEntry := { thread := 0, tag := 4, kind := .pdtx 0, issued := 0 }
    let fly := (((tcAt { tx := [x], rx := [(m, 0)] } []).arm .pdRetry 0 0 0).arm .pdKa 0 0 0).setCore 9 { code := [(0, 4096)], ot := [o] }
    let wait := (tcAt { tx := [{ x with started := false, op := none }], ka := Grid.fresh 0 } []).arm .pdAms 0 0 0
    let full := tcAt { rx := List.replicate 8 (m, 0), rxId := [(0, some 0)] } []
    let kas := (tcAt { ka := Grid.fresh 0, rxId := [(0, some 0)] } []).setBytes 0x0300_0100 [0, 0, 2, 0, 0, 0, 0, 0, 0x42, 0x10]
    let src := (s.setFld F.tcCtrlPowerRole 0 0 1).setFld F.tcStatusVconnOn 0 0 1
    s.issues i q (wzBuf i 1 272 false) = true ∧ s.issues i q (wzBuf i 1 272 true) = true ∧ s.wzG i 2 = 0 ∧
    pdRecord (s.localBytes 9 0x2000 272) = some (m, false) ∧ pdRecord (ams.localBytes 9 0x2000 272) = some (m, true) ∧
    pdRecord (hard.localBytes 9 0x2000 272) = some (⟨3, []⟩, false) ∧ pdRecord (bad.localBytes 9 0x2000 272) = none ∧
    big.offersTooMuch 0 ⟨0, [0x41, 0x10, 0xFF, 0xFF, 0x0F, 0]⟩ = true ∧ s.offersTooMuch 0 m = false ∧
    pdRecord (big.localBytes 9 0x2000 272) = some (⟨0, [0x41, 0x10, 0xFF, 0xFF, 0x0F, 0]⟩, false) ∧
    (s.tc 0).tx = [] ∧ s.deadline .pdAms 0 = none ∧ s.fld F.tcCtrlPowerRole 0 = 0 ∧ src.fld F.tcCtrlPowerRole 0 = 1 ∧
    s.fld F.tcStatusSinkTxOk 0 = 0 ∧ (s.tc 0).rx = [] ∧ (fly.tc 0).rx = [(m, 0)] ∧ fly.issues i q (wzBuf i 1 272 true) = true ∧
    wait.due .pdAms 0 = true ∧ s.due .pdAms 0 = false ∧ fly.due .pdRetry 0 = true ∧ (fly.tc 0).tx = [x] ∧ fly.otFind 9 0 4 = some o ∧
    (fly.thr 9 0).run = .running ∧ ack.goodCrc = true ∧ ack.id = m.id ∧ m.goodCrc = false ∧ 8 ≤ (full.tc 0).rx.length ∧
    unitGet none (kas.tc 0).rxId 0 = some m.id ∧ m.control 13 = false ∧ fly.due .pdKa 0 = true ∧ s.due .pdKa 0 = false ∧
    (kas.tc 0).ka.on = true ∧ (kas.tc 0).ka.next ≤ kas.tb ∧ pdRecord (kas.bytes (0x0300_0100 + 0x1000 * 0) 272) = some (m, false) ∧
    s.chipDeep = false ∧ s.fld F.tcCtrlEn 0 = 1 ∧ s.fld F.tcCtrlEn 1 = 0 ∧ s.fld F.tcStatusAttach 0 = 3 ∧ s.fld F.tcStatusAttach 1 = 0 ∧
    attachOk (s.fld F.tcCtrlCcMode 0) 3 = true ∧ attachOk (s.fld F.tcCtrlCcMode 0) 2 = false ∧ src.fld F.tcStatusVconnOn 0 = 1 ∧
    s.fld F.tcStatusVconnOn 0 = 0 ∧ (s.setFld F.tcCtrlFrsRxEn 0 0 1).fld F.tcCtrlFrsRxEn 0 = 1 ∧
    (s.setFld F.tcCtrlFrsArm 0 0 1).fld F.tcCtrlFrsArm 0 = 1 ∧ (PdMsg.mk 0 [0x02, 0x10, 0, 0, 0, 0]).request = true ∧
    (s.setFld F.tcCtrlKaLimit 0 0 5).fld F.tcCtrlKaLimit 0 ≠ 0 := by decide

set_option maxRecDepth 100000 in
theorem witness_TypeCUnitsSpeakPowerDelivery_silent :
    let i : Issue := { core := 9, thread := 0, pred := 0 }
    let s := (tcAt {} [0, 0, 2, 0, 0, 0, 0, 0, 0x42, 0x10]).setTc 0 {}
    (tcAt {} []).tcTalks 0 = true ∧ s.tcTalks 0 = false ∧ s.offersTooMuch 0 ⟨0, [0x42, 0x10]⟩ = false ∧
    s.issues i { group := .power, priv := true, tag := some 2, srcs := [1, 2] } (wzBuf i 1 272 false) = true ∧
    pdRecord (s.localBytes 9 0x2000 272) = some (⟨0, [0x42, 0x10]⟩, false) := by decide

/-! Witnesses of `Obligations.EveryCommandIsCarriedOut`. -/

set_option maxRecDepth 100000 in
theorem witness_EveryCommandIsCarriedOut :
    let a := hubWith 1 .arrived
    let c := hubWith 1 .accepted
    let f : Prog := { num := 0, binds := [], words := [0xE000_0001, 0xE000_000F] }
    let m : State := { ((c.setFld F.hallMapCtrlEn 0 0 1).setFld F.hallEntryValid 0 0 1) with
      versions := [{ hall := 0, epoch := 0, regs := [(⟨.hallEntry, 0, 0⟩, 0x100)], progs := [f] }] }
    let k := hubWith 1 .asking
    let w := hubWith 1 .refusedOnce
    let x := hubWith 1 .granted
    let o : State := { hub0 with parcels := [{ parcel0 1 .granted with hall := 1 }] }
    let late : State := { k.setFld F.hallModeLsActive 0 0 1 with tb := 64 }
    let out : State := { hub0 with parcels := [{ parcel0 1 .serving with taken := true }] }
    let z : State := { hub0 with waiting := [{ hall := 0, src := 8, pkt := pkt0 1 }] }
    a.hallState 0 = 0 ∧ a.parcels.find? (fun x => x.hall == 0 && x.spot == .arrived) = some (parcel0 1 .arrived) ∧
    a.parcel 0 = some (parcel0 1 .arrived) ∧ acceptCheck (pkt0 1) false true = none ∧
    m.chipRuns = true ∧ m.hallRuns 0 2 0 = true ∧ m.nextToClassify 0 = some (parcel0 1 .accepted) ∧
    (m.version 0 (m.epochNow 0)).fld F.hallEntryValid 0 = 1 ∧
    (m.version 0 (m.epochNow 0)).progs.find? (fun x => x.num == (m.version 0 (m.epochNow 0)).fld F.hallEntryProg 0) = some f ∧
    m.changesFor 0 (m.epochNow 0) = [] ∧ wMajor 0xE000_0001 = 0x38 ∧ wFunc4 0xE000_000F = 15 ∧
    k.flightRuns 0 3 0 = true ∧ k.lockstep 0 = false ∧ k.hallState 0 = 0 ∧ k.usable 0 = true ∧ k.portConfigured (k.portOf 0) = true ∧
    k.nextAsker 0 0 = some (parcel0 1 .asking) ∧ heldBack (w.askers 0 0) (parcel0 1 .refusedOnce) = false ∧ (pkt0 1).lossy = false ∧
    o.stairOpen 1 0 = true ∧ o.nextToCross 1 0 ≠ none ∧ x.offer 0 0 = some (parcel0 1 .granted) ∧ (x.arbiter 0).map (·.1) = some 0 ∧
    late.lockstep 0 = true ∧ State.presented (parcel0 1 .asking) 0 < late.epochIndex ∧ (late.hall 0).lsNext < late.epochIndex ∧
    (late.hall 0).lsFreed = [] ∧ out.tookLast { parcel0 1 .serving with taken := true } = true ∧
    z.waiting.find? (fun x => x.hall == 0 && x.src == 8) = some { hall := 0, src := 8, pkt := pkt0 1 } ∧
    (hub0.setFld F.hallBufCtrlFwCells 0 0 17).fwPending 0 = [24559] := by decide

end Sys2Proof.Tests
end

section
/-! PROOFS. What a write of a register's own bits does to each field (00 R6, R7). A place in a register value is a field
whose register does not matter, so the laws of `fldGet` and `fldPut` speak of it too. -/

namespace Sys2Proof.Machine

/-! Places in a register value. -/

theorem slotGet_slotPut_same (hi lo v : Nat) (w : BitVec 64) (h : hi < 64) (h' : lo ≤ hi) :
    slotGet hi lo (slotPut hi lo v w) = v % 2 ^ (hi - lo + 1) :=
  fldGet_fldPut_same ⟨.hallWdog, hi, lo⟩ v w h h'

theorem slotGet_slotPut_apart (hi lo hi' lo' v : Nat) (w : BitVec 64) (h : hi' < 64) (h' : lo' ≤ hi') (hl : lo ≤ hi)
    (ha : hi' < lo ∨ hi < lo') : slotGet hi' lo' (slotPut hi lo v w) = slotGet hi' lo' w :=
  fldGet_fldPut_apart ⟨.hallWdog, hi, lo⟩ ⟨.hallWdog, hi', lo'⟩ v w h h' (by simp only; omega)

theorem getLsbD_slotPut_outside (hi lo v k : Nat) (w : BitVec 64) (hl : lo ≤ hi) (hk : k < 64) (ho : ¬(lo ≤ k ∧ k ≤ hi)) :
    (slotPut hi lo v w).getLsbD k = w.getLsbD k := by
  have h := fldPut_testBit ⟨.hallWdog, hi, lo⟩ v w k hk
  rwa [if_neg (by simp only; omega)] at h

theorem slotGet_lt (hi lo : Nat) (w : BitVec 64) : slotGet hi lo w < 2 ^ (hi - lo + 1) := Nat.mod_lt _ (Nat.two_pow_pos _)

/-! One field. -/

/-- A field's bits lie in a register value in order. -/
def FieldDesc.InWord (f : FieldDesc) : Prop := f.lo ≤ f.hi ∧ f.hi < 64

/-- Two fields share no bit. -/
def FieldDesc.Apart (f g : FieldDesc) : Prop := f.hi < g.lo ∨ g.hi < f.lo

/-- A write leaves a field's register as it was, or replaces the bits of the field. -/
theorem fieldWrite_cases (f : FieldDesc) (mask v old : BitVec 64) :
    fieldWrite f mask v old = old ∨ ∃ x, fieldWrite f mask v old = slotPut f.hi f.lo x old := by
  by_cases hm : slotGet f.hi f.lo mask = 0
  · exact .inl (if_pos hm)
  · cases ha : f.acc <;> simp only [fieldWrite, hm, ha, if_false]
    case ro | wo | rc => exact .inl trivial
    all_goals exact .inr ⟨_, rfl⟩

/-- A write of one field leaves the bits of another as they were. -/
theorem slotGet_fieldWrite_apart {f g : FieldDesc} (mask v old : BitVec 64) (hf : f.InWord) (hg : g.InWord) (ha : f.Apart g) :
    slotGet g.hi g.lo (fieldWrite f mask v old) = slotGet g.hi g.lo old := by
  obtain h | ⟨x, h⟩ := fieldWrite_cases f mask v old <;> rw [h]
  exact slotGet_slotPut_apart _ _ _ _ x old hg.2 hg.1 hf.1 ha.symm

/-- A write of one field leaves every bit outside it as it was. -/
theorem getLsbD_fieldWrite_outside {f : FieldDesc} (mask v old : BitVec 64) {k : Nat} (hf : f.InWord) (hk : k < 64)
    (ho : ¬(f.lo ≤ k ∧ k ≤ f.hi)) : (fieldWrite f mask v old).getLsbD k = old.getLsbD k := by
  obtain h | ⟨x, h⟩ := fieldWrite_cases f mask v old <;> rw [h]
  exact getLsbD_slotPut_outside _ _ x k old hf.1 hk ho

/-- A write that covers no bit of a field leaves it. -/
theorem fieldWrite_uncovered {f : FieldDesc} {mask : BitVec 64} (v old : BitVec 64) (hm : slotGet f.hi f.lo mask = 0) :
    fieldWrite f mask v old = old := if_pos hm

/-- What a field holds after a write of `x` to all its bits, when it held `was` (00 *Access codes*). -/
def FieldDesc.after (f : FieldDesc) (x was : Nat) : Nat :=
  match f.acc with
  | .ro => was
  | .wo => was
  | .rc => was
  | .rw => storedVal f.stored x % 2 ^ (f.hi - f.lo + 1)
  | .rwl => storedVal f.stored x % 2 ^ (f.hi - f.lo + 1)
  | .w1c => was &&& (2 ^ (f.hi - f.lo + 1) - 1 - x)
  | .w1s => was ||| x

/-- A write that covers a field whole changes it as its access code says. -/
theorem slotGet_fieldWrite_whole {f : FieldDesc} {mask : BitVec 64} (v old : BitVec 64) (hf : f.InWord)
    (hm : slotGet f.hi f.lo mask = 2 ^ (f.hi - f.lo + 1) - 1) :
    slotGet f.hi f.lo (fieldWrite f mask v old) = f.after (slotGet f.hi f.lo v) (slotGet f.hi f.lo old) := by
  have h0 : slotGet f.hi f.lo mask ≠ 0 := by
    have := Nat.one_lt_two_pow (Nat.succ_ne_zero (f.hi - f.lo))
    omega
  have hold := slotGet_lt f.hi f.lo old
  have hx := slotGet_lt f.hi f.lo v
  have hxm : slotGet f.hi f.lo v &&& slotGet f.hi f.lo mask = slotGet f.hi f.lo v := by
    rw [hm, Nat.and_two_pow_sub_one_eq_mod, Nat.mod_eq_of_lt hx]
  have hput := fun y => slotGet_slotPut_same f.hi f.lo y old hf.2 hf.1
  cases ha : f.acc <;> simp only [fieldWrite, FieldDesc.after, h0, ha, if_false, hxm, hput]
  case rw | rwl => rw [hm, Nat.sub_self, Nat.and_zero, Nat.zero_or]
  case w1c => exact Nat.mod_eq_of_lt (lt_of_le_of_lt Nat.and_le_left hold)
  case w1s => exact Nat.mod_eq_of_lt (Nat.or_lt_two_pow hold hx)

/-! All the fields of a register. -/

theorem regDesc_fields_inWord (n : RegName) : ∀ f ∈ (regDesc n).fields, f.InWord := by
  simp only [FieldDesc.InWord]
  cases n <;> decide

theorem regDesc_fields_apart (n : RegName) : (regDesc n).fields.Pairwise FieldDesc.Apart := by
  unfold FieldDesc.Apart
  cases n <;> decide

/-- Fields that share no bit with `g` leave it as it was. -/
theorem slotGet_foldl_fieldWrite_apart {g : FieldDesc} (hg : g.InWord) (mask v : BitVec 64) (l : List FieldDesc) (old : BitVec 64)
    (hl : ∀ f ∈ l, f.InWord ∧ f.Apart g) :
    slotGet g.hi g.lo (l.foldl (fun w f => fieldWrite f mask v w) old) = slotGet g.hi g.lo old := by
  induction l generalizing old with
  | nil => rfl
  | cons f l ih =>
    obtain ⟨⟨hf, ha⟩, hl⟩ := List.forall_mem_cons.1 hl
    rw [List.foldl_cons, ih _ hl, slotGet_fieldWrite_apart mask v old hf hg ha]

/-- A field is changed by its own write alone, made where it still holds what it held. -/
theorem slotGet_foldl_fieldWrite (mask v : BitVec 64) (l : List FieldDesc) (old : BitVec 64) (hw : ∀ f ∈ l, f.InWord)
    (ha : l.Pairwise FieldDesc.Apart) {g : FieldDesc} (hg : g ∈ l) :
    ∃ w, slotGet g.hi g.lo w = slotGet g.hi g.lo old ∧
      slotGet g.hi g.lo (l.foldl (fun w f => fieldWrite f mask v w) old) = slotGet g.hi g.lo (fieldWrite g mask v w) := by
  induction l generalizing old with
  | nil => cases hg
  | cons f l ih =>
    obtain ⟨hf, hwl⟩ := List.forall_mem_cons.1 hw
    obtain ⟨hfl, hal⟩ := List.pairwise_cons.1 ha
    rcases List.mem_cons.1 hg with rfl | hg
    · exact ⟨old, rfl, slotGet_foldl_fieldWrite_apart hf mask v l _ fun f' h' => ⟨hwl f' h', (hfl f' h').symm⟩⟩
    · obtain ⟨w, hwas, hnow⟩ := ih (fieldWrite f mask v old) hwl hal hg
      exact ⟨w, hwas.trans (slotGet_fieldWrite_apart mask v old hf (hwl g hg) (hfl g hg)), hnow⟩

/-- A field of a register after a write is what the write of that field makes of the bits it held. -/
theorem slotGet_regWrite (n : RegName) (mask v old : BitVec 64) {f : FieldDesc} (hf : f ∈ (regDesc n).fields) :
    ∃ w, slotGet f.hi f.lo w = slotGet f.hi f.lo old ∧
      slotGet f.hi f.lo (regWrite n mask v old) = slotGet f.hi f.lo (fieldWrite f mask v w) :=
  slotGet_foldl_fieldWrite mask v _ old (regDesc_fields_inWord n) (regDesc_fields_apart n) hf

/-- A write leaves every bit that lies in none of the fields as it was. -/
theorem getLsbD_foldl_fieldWrite_outside (mask v : BitVec 64) (l : List FieldDesc) (old : BitVec 64) {k : Nat} (hk : k < 64)
    (hl : ∀ f ∈ l, f.InWord ∧ ¬(f.lo ≤ k ∧ k ≤ f.hi)) :
    (l.foldl (fun w f => fieldWrite f mask v w) old).getLsbD k = old.getLsbD k := by
  induction l generalizing old with
  | nil => rfl
  | cons f l ih =>
    obtain ⟨⟨hf, ho⟩, hl⟩ := List.forall_mem_cons.1 hl
    rw [List.foldl_cons, ih _ hl, getLsbD_fieldWrite_outside mask v old hf hk ho]

/-- Settles O24: the fields of a register share no bit, so each is changed by its own write alone, as its access code says. -/
theorem fieldsFollowAccessCodes : Obligations.FieldsFollowAccessCodes := by
  unfold Obligations.FieldsFollowAccessCodes
  intro n mask v old
  refine ⟨fun f hf => ?_, fun k hk ho => ?_⟩
  · obtain ⟨w, hwas, hnow⟩ := slotGet_regWrite n mask v old hf
    refine ⟨fun hm => ?_, fun hm => ?_⟩
    · rw [hnow, fieldWrite_uncovered v w hm, hwas]
    · have hwhole := slotGet_fieldWrite_whole v w (regDesc_fields_inWord n f hf) hm
      rw [← hnow, hwas] at hwhole
      rw [Nat.sub_add_cancel Nat.one_le_two_pow]
      exact hwhole
  · exact getLsbD_foldl_fieldWrite_outside mask v _ old hk fun f hf => ⟨regDesc_fields_inWord n f hf, ho f hf⟩

end Sys2Proof.Machine
end

section
/-! PROOFS. Accesses of a master to registers and memory: which bytes are written, which register, and what a read of half a
register answers (01 R31, R32; 00 R10, R11, R471). -/

namespace Sys2Proof.Machine

/-! Little-endian bytes (00 R5). -/

@[simp] theorem leBytes_length (n v : Nat) : (leBytes n v).length = n := by
  induction n generalizing v with
  | zero => rfl
  | succ n ih => simp [leBytes, ih]

/-- Byte `i` of a number is its digit of weight 256^i. -/
theorem leBytes_getD (n v i : Nat) (hi : i < n) : (leBytes n v).getD i 0 = BitVec.ofNat 8 (v / 256 ^ i) := by
  induction n generalizing v i with
  | zero => omega
  | succ n ih =>
    cases i with
    | zero => simp [leBytes]
    | succ i => rw [leBytes, List.getD_cons_succ, ih _ _ (by omega), Nat.div_div_eq_div_mul, pow_succ']

theorem leNat_leBytes (n v : Nat) : leNat (leBytes n v) = v % 2 ^ (8 * n) := by
  induction n generalizing v with
  | zero => simp [leBytes, leNat, Nat.mod_one]
  | succ n ih =>
    have h8 : 2 ^ (8 * (n + 1)) = 256 * 2 ^ (8 * n) := by rw [Nat.mul_succ, pow_add, mul_comm]; rfl
    rw [leBytes, leNat, ih, h8, Nat.mod_mul, BitVec.toNat_ofNat]

/-! What an access does, by what it meets. -/

theorem exec_registerWrite (m : Master) (a size : Nat) (v : BitVec 64) (s : State) :
    exec (.registerWrite m a size v) s =
      .next { (s.busWrite m a size v).2 with reply := if (s.busWrite m a size v).1 then .done else .decodeError } := rfl

theorem exec_registerHalfRead (m : Master) (a : Nat) (s : State) :
    exec (.registerHalfRead m a) s = execRegisterHalfRead m a s := rfl

theorem registerWrite_refused {m : Master} {a size : Nat} (v : BitVec 64) {s : State} (h : s.accessBad m true a size = true) :
    exec (.registerWrite m a size v) s = .next { s with reply := .decodeError } := by
  simp [exec_registerWrite, State.busWrite, h]

theorem registerWrite_memory {m : Master} {a size : Nat} (v : BitVec 64) {s : State} (h : s.accessBad m true a size = false)
    (hm : s.ramAt a = true) :
    exec (.registerWrite m a size v) s = .next { s.ramWrite a (leBytes size v.toNat) with reply := .done } := by
  simp [exec_registerWrite, State.busWrite, h, hm]

theorem registerWrite_registers {m : Master} {a size : Nat} (v : BitVec 64) {s : State} (h : s.accessBad m true a size = false)
    (hm : s.ramAt a = false) :
    exec (.registerWrite m a size v) s =
      .next { State.regsWrite m size size s a size (leBytes size v.toNat) with reply := .done } := by
  simp [exec_registerWrite, State.busWrite, h, hm]

theorem registerHalfRead_refused {m : Master} {a : Nat} {s : State} (h : s.accessBad m false a 4 = true) :
    exec (.registerHalfRead m a) s = .next { s with reply := .decodeError } := by
  simp [exec_registerHalfRead, execRegisterHalfRead, State.busRead, h]

theorem registerHalfRead_memory {m : Master} {a : Nat} {s : State} (h : s.accessBad m false a 4 = false) (hm : s.ramAt a = true) :
    exec (.registerHalfRead m a) s = .next { s.dramRead a with reply := .data (BitVec.ofNat 64 (leNat (s.bytes a 4))) } := by
  simp [exec_registerHalfRead, execRegisterHalfRead, State.busRead, h, hm]

theorem registerHalfRead_registers {m : Master} {a x : Nat} {s t : State} (h : s.accessBad m false a 4 = false)
    (hm : s.ramAt a = false) (hr : s.regsRead 4 a 4 = (x, t)) :
    exec (.registerHalfRead m a) s = .next { t with reply := .data (BitVec.ofNat 64 x) } := by
  simp [exec_registerHalfRead, execRegisterHalfRead, State.busRead, h, hm, hr]

/-! Memory. -/

/-- A write of memory that is neither the crash record nor an error ring stores its bytes. -/
theorem State.ramWrite_plain (s : State) (a : Nat) (l : List Byte) (hc : ¬(crashBase ≤ a ∧ a < crashBase + 0x1000))
    (hr : ∀ c, c < 5 → ¬(ringBase c ≤ a ∧ a < ringBase c + 2048)) : s.ramWrite a l = s.writeBytes a l := by
  have hrings : (List.range 5).any (fun c => decide (ringBase c ≤ a ∧ a < ringBase c + 2048)) = false :=
    List.any_eq_false.2 fun c hm => by simpa using hr c (List.mem_range.1 hm)
  rw [State.ramWrite, if_neg hc, hrings, if_neg Bool.false_ne_true]

/-- A write of bytes changes memory, and which words hold a poisoned token, alone. -/
theorem State.writeBytes_eq (s : State) (a : Nat) (l : List Byte) :
    s.writeBytes a l = { s with mem := (s.writeBytes a l).mem, poisoned := (s.unpoison a l.length).poisoned } :=
  State.setBytes_eq ..

theorem State.byte_writeBytes (s : State) (a b : Nat) (l : List Byte) :
    (s.writeBytes a l).byte b = if a ≤ b ∧ b < a + l.length then l.getD (b - a) 0 else s.byte b :=
  State.byte_setBytes ..

/-- The bytes of a number, written from `a` on: each address reads its digit. -/
theorem State.byte_writeBytes_leBytes (s : State) (a b n v : Nat) :
    (s.writeBytes a (leBytes n v)).byte b =
      if a ≤ b ∧ b < a + n then BitVec.ofNat 8 (v / 256 ^ (b - a)) else s.byte b := by
  rw [State.byte_writeBytes, leBytes_length]
  split
  · exact leBytes_getD n v _ (by omega)
  · rfl

/-- A read below DRAM leaves the state as it was. -/
theorem State.dramRead_below {s : State} {a : Nat} (h : a < 0x10_0000_0000) : s.dramRead a = s :=
  if_neg fun hd => absurd hd.1 (by omega)

/-! Registers: the bytes of an access that fall in one. -/

theorem State.chunk_unassigned {s : State} {a : Nat} (n : Nat) (h : s.regAt a = none) : s.chunk a n = none := by
  simp [State.chunk, h]

/-- An access that lies in one register is one chunk. -/
theorem State.chunk_inside {s : State} {a n k : Nat} {r : RegId} (h : s.regAt a = some (r, k))
    (hk : k + n ≤ (regDesc r.name).width / 8) : s.chunk a n = some (r, k, n) := by
  simp only [State.chunk, h, Option.map_some]
  rw [Nat.min_eq_left (by omega)]

@[simp] theorem State.regsWrite_none (m : Master) (size fuel : Nat) (s : State) (a : Nat) (data : List Byte) :
    State.regsWrite m size fuel s a 0 data = s := by
  cases fuel <;> rfl

@[simp] theorem State.regsRead_none (fuel : Nat) (s : State) (a : Nat) : s.regsRead fuel a 0 = (0, s) := by
  cases fuel <;> rfl

/-- A write to unassigned addresses changes nothing (00 R10). -/
theorem State.regsWrite_unassigned (m : Master) (size fuel : Nat) (s : State) (a n : Nat) (data : List Byte)
    (h : ∀ k, k < n → s.regAt (a + k) = none) : State.regsWrite m size fuel s a n data = s := by
  induction fuel generalizing a n data with
  | zero => rfl
  | succ fuel ih =>
    by_cases hn : n = 0
    · simp [hn]
    · have hc : s.chunk a n = none := State.chunk_unassigned n (h 0 (by omega))
      have hrest := ih (a + 1) (n - 1) (data.drop 1) fun k hk => by
        rw [Nat.add_assoc, Nat.add_comm 1]; exact h (k + 1) (by omega)
      simp only [State.regsWrite, hn, hc, if_false, hrest]

/-- A read of unassigned addresses answers 0 and changes nothing (00 R10). -/
theorem State.regsRead_unassigned (fuel : Nat) (s : State) (a n : Nat) (h : ∀ k, k < n → s.regAt (a + k) = none) :
    s.regsRead fuel a n = (0, s) := by
  induction fuel generalizing a n with
  | zero => rfl
  | succ fuel ih =>
    by_cases hn : n = 0
    · simp [hn]
    · have hc : s.chunk a n = none := State.chunk_unassigned n (h 0 (by omega))
      have hrest := ih (a + 1) (n - 1) fun k hk => by
        rw [Nat.add_assoc, Nat.add_comm 1]; exact h (k + 1) (by omega)
      simp only [State.regsRead, hn, hc, if_false, hrest, Nat.mul_zero]

/-- A write of a number that lies in one register is one write of that register, with the bytes at their places. -/
theorem State.regsWrite_inside (m : Master) {s : State} {a n k : Nat} {r : RegId} (v : Nat) (h : s.regAt a = some (r, k))
    (hk : k + n ≤ (regDesc r.name).width / 8) (hn : 0 < n) :
    State.regsWrite m n n s a n (leBytes n v) =
      s.regStore m r (BitVec.ofNat 64 (v % 2 ^ (8 * n) * 2 ^ (8 * k))) (BitVec.ofNat 64 ((2 ^ (8 * n) - 1) * 2 ^ (8 * k))) n := by
  obtain ⟨f, rfl⟩ := Nat.exists_eq_succ_of_ne_zero hn.ne'
  have hbytes : (leBytes (f + 1) v).take (f + 1) = leBytes (f + 1) v := List.take_of_length_le (by simp)
  rw [State.regsWrite, if_neg (Nat.succ_ne_zero f), State.chunk_inside h hk]
  simp only [Nat.succ_eq_add_one, hbytes, leNat_leBytes, Nat.sub_self, State.regsWrite_none]

theorem State.regStore_locked {s : State} (m : Master) {r : RegId} (v mask : Word) (n : Nat) (h : s.locked r.name = true) :
    s.regStore m r v mask n = s := by
  simp [State.regStore, h]

/-- A register that is not special only stores its fields. -/
theorem State.regStore_plain {s : State} (m : Master) {r : RegId} (v mask : Word) (n : Nat) (hl : s.locked r.name = false)
    (hs : r.name ∉ specialRegs) : s.regStore m r v mask n = s.storeReg r.name r.i r.j v mask := by
  obtain ⟨name, i, j⟩ := r
  replace hs : name ∉ specialRegs := hs
  simp only [State.regStore, hl, Bool.false_eq_true, if_false]
  split
  case h_63 => rfl
  all_goals exact absurd (by decide) hs

/-! A 32-bit read of half of a 64-bit register (00 R11). -/

/-- A 32-bit read of an assigned half is one half read. -/
theorem State.regsRead_half {s : State} {a k : Nat} {r : RegId} (h : s.regAt a = some (r, k)) (hw : (regDesc r.name).width = 64)
    (hk : k + 4 ≤ 8) (hd : ¬(r.name = .laneRxffe ∨ r.name = .laneRxeq ∨ r.name = .gpioCtrl)) :
    s.regsRead 4 a 4 = s.halfRead r k (s.regRead 0 r) := by
  have hc : s.chunk a 4 = some (r, k, 4) := State.chunk_inside h (by omega)
  simp [State.regsRead, hc, State.regNow, hd, hw]

theorem State.halfRead_low (s : State) (r : RegId) (v : Word) :
    ∃ hv, s.halfRead r 0 v = (v.toNat % 2 ^ 32, { s with halves := hv }) ∧
      tabGet (fun _ => none) hv r = some (BitVec.ofNat 32 (v.toNat / 2 ^ 32)) :=
  ⟨_, rfl, tabGet_set_same ..⟩

theorem State.halfRead_high (s : State) (r : RegId) {k : Nat} (hk : k ≠ 0) (v : Word) :
    ∃ hv, s.halfRead r k v = ((match tabGet (fun _ => none) s.halves r with
        | some w => w.toNat
        | none => v.toNat / 2 ^ 32), { s with halves := hv }) ∧
      tabGet (fun _ => (none : Option (BitVec 32))) hv r = none := by
  unfold State.halfRead
  rw [if_neg hk]
  cases h : tabGet (fun _ => none) s.halves r with
  | some w => exact ⟨_, rfl, tabGet_set_same ..⟩
  | none => exact ⟨s.halves, rfl, h⟩

/-- Settles O23, by what the access meets: nothing, unassigned addresses, memory, or one register. -/
theorem registerAccesses : Obligations.RegisterAccesses := by
  unfold Obligations.RegisterAccesses
  intro m a size v s
  refine ⟨registerWrite_refused v, registerHalfRead_refused, fun hok hm hnone => ?_, fun hok hm hnone => ?_,
    fun hok hm hcrash hrings => ?_, fun hok hm hlow => ?_, fun r k hok hm hat hin hpos => ?_,
    fun r hok hm hw hffe hrxeq hgpio => ?_⟩
  · rw [registerWrite_registers v hok hm, State.regsWrite_unassigned _ _ _ _ _ _ _ hnone]
  · exact registerHalfRead_registers hok hm (State.regsRead_unassigned _ _ _ _ hnone)
  · refine ⟨_, registerWrite_memory v hok hm, ?_, fun b => ?_⟩
    all_goals rw [State.ramWrite_plain s a _ hcrash hrings]
    · rw [State.writeBytes_eq, leBytes_length]
    · exact State.byte_writeBytes_leBytes s a b size v.toNat
  · rw [registerHalfRead_memory hok hm, State.dramRead_below hlow]
  · refine ⟨fun hl => ?_, fun hl hs => ?_⟩ <;> rw [registerWrite_registers v hok hm, State.regsWrite_inside m _ hat hin hpos]
    · rw [State.regStore_locked m _ _ _ hl]
    · rw [State.regStore_plain m _ _ _ hl hs]
  · have hheld : ¬(r.name = .laneRxffe ∨ r.name = .laneRxeq ∨ r.name = .gpioCtrl) := by tauto
    refine ⟨fun hat => ?_, fun hat => ?_⟩ <;> have hread := State.regsRead_half hat hw (by omega) hheld
    · obtain ⟨hv, hhalf, hlatch⟩ := State.halfRead_low s r (s.regRead 0 r)
      exact ⟨_, registerHalfRead_registers hok hm (hread.trans hhalf), rfl, rfl, hlatch⟩
    · obtain ⟨hv, hhalf, hlatch⟩ := State.halfRead_high s r (by decide : 4 ≠ 0) (s.regRead 0 r)
      exact ⟨_, registerHalfRead_registers hok hm (hread.trans hhalf), rfl, rfl, hlatch⟩

end Sys2Proof.Machine
end

section
/-! PROOFS. What the switch core, the link units, the lanes and the cores leave alone. -/

namespace Sys2Proof.Machine

/-! Tables of which some keys alone are looked at. -/

section
variable {κ α : Type} [DecidableEq κ] (p : κ → Bool)

theorem filter_tabErase (t : Tab κ α) {k : κ} (h : p k = false) :
    (tabErase t k).filter (fun e => p e.1) = t.filter (fun e => p e.1) := by
  induction t with
  | nil => rfl
  | cons e t ih =>
    simp only [tabErase]
    split
    · rename_i he
      rw [ih, List.filter_cons_of_neg (by simp [he, h])]
    · simp only [List.filter_cons, ih]

omit [DecidableEq κ] in
theorem filter_tabInsert (rank : κ → Nat) (t : Tab κ α) {k : κ} (v : α) (h : p k = false) :
    (tabInsert rank k v t).filter (fun e => p e.1) = t.filter (fun e => p e.1) := by
  induction t with
  | nil => simp [tabInsert, h]
  | cons e t ih =>
    simp only [tabInsert]
    split
    · rw [List.filter_cons_of_neg (by simp [h])]
    · simp only [List.filter_cons, ih]

/-- A write of a key that is not looked at shows nowhere. -/
theorem filter_tabSet [DecidableEq α] (rank : κ → Nat) (d : κ → α) (t : Tab κ α) {k : κ} (v : α) (h : p k = false) :
    (tabSet rank d t k v).filter (fun e => p e.1) = t.filter (fun e => p e.1) := by
  unfold tabSet
  split
  · exact filter_tabErase p t h
  · rw [filter_tabInsert p rank _ v h, filter_tabErase p t h]

/-- A key that is looked at reads as in the whole table. -/
theorem tabGet_filter (d : κ → α) (t : Tab κ α) {k : κ} (h : p k = true) :
    tabGet d (t.filter (fun e => p e.1)) k = tabGet d t k := by
  induction t with
  | nil => rfl
  | cons e t ih =>
    by_cases he : p e.1 = true
    · simp only [List.filter_cons, he, if_true, tabGet, ih]
    · have hk : e.1 ≠ k := fun hk => he (hk ▸ h)
      simp only [List.filter_cons, he, Bool.false_eq_true, if_false, tabGet, hk, ih]

end

/-- Registers of fault containment. -/
def steadyReg : RegName → Bool
  | .hallFlight | .svcFlight | .chipHallCtl | .hallErrCtrl | .svcErrCtrl | .hallErrRing | .svcErrRing | .newelSafe => true
  | _ => false

/-- Timers of fault containment. -/
def steadyTimer : TimerKind → Bool
  | .drain | .flightReset | .safeHold => true
  | _ => false

/-- The part of the state that no work of the switch core, of a link unit, of a lane or of a core's operation table
touches: the devices of `SameDevices`, memory, and fault containment with its registers and timers. -/
def State.steady (s : State) : State where
  hosts := s.hosts
  prts := s.prts
  mailboxes := s.mailboxes
  alcoves := s.alcoves
  bridge := s.bridge
  reqs := s.reqs
  heads := s.heads
  canvas := s.canvas
  usb := s.usb
  tb := s.tb
  pending := s.pending
  mem := s.mem
  chip := { s.chip with inState := none }
  regs := s.regs.filter (fun e => steadyReg e.1.name)
  timers := s.timers.filter (fun e => steadyTimer e.1.kind)

theorem State.setReg_steady (s : State) {n : RegName} (i j : Nat) (v : BitVec 64) (h : steadyReg n = false) :
    (s.setReg n i j v).steady = s.steady := by
  have hregs := filter_tabSet (fun r : RegId => steadyReg r.name) regRank regReset s.regs (k := ⟨n, i, j⟩) v h
  simp only [State.steady, State.setReg, hregs]

theorem State.arm_steady (s : State) {k : TimerKind} (i j ns : Nat) (h : steadyTimer k = false) :
    (s.arm k i j ns).steady = s.steady := by
  have htimers := filter_tabSet (fun r : TimerId => steadyTimer r.kind) timerRank (fun _ => none) s.timers (k := ⟨k, i, j⟩)
    (some (s.tb + ns)) h
  simp only [State.steady, State.arm, htimers]

theorem State.disarm_steady (s : State) {k : TimerKind} (i j : Nat) (h : steadyTimer k = false) :
    (s.disarm k i j).steady = s.steady := by
  have htimers := filter_tabSet (fun r : TimerId => steadyTimer r.kind) timerRank (fun _ => none) s.timers (k := ⟨k, i, j⟩)
    none h
  simp only [State.steady, State.disarm, htimers]

theorem State.wakeOn_steady (s : State) (source : Nat) : (s.wakeOn source).steady = s.steady := by
  unfold State.wakeOn
  split <;> rfl

/-- What no step of a fold changes, the fold does not. -/
theorem foldl_keeps {α β : Type} (g : State → β) {f : State → α → State} (l : List α) (s : State) (h : ∀ s x, g (f s x) = g s) :
    g (l.foldl f s) = g s := by
  induction l generalizing s with
  | nil => rfl
  | cons x l ih => rw [List.foldl_cons, ih, h]

theorem foldl_steady {α : Type} {f : State → α → State} (l : List α) (s : State) (h : ∀ s x, (f s x).steady = s.steady) :
    (l.foldl f s).steady = s.steady := foldl_keeps State.steady l s h

/-- The named updates that leave the steady part alone. -/
theorem updates_steady :
    (∀ (s : State) (n : RegName) i j v, steadyReg n = false → (s.setReg n i j v).steady = s.steady) ∧
    (∀ (s : State) (f : Fld) i j v, steadyReg f.reg = false → (s.setFld f i j v).steady = s.steady) ∧
    (∀ (s : State) (f : Fld) i j v, steadyReg f.reg = false → (s.addFld f i j v).steady = s.steady) ∧
    (∀ (s : State) (f : Fld) i j v top, steadyReg f.reg = false → (s.addSat f i j v top).steady = s.steady) ∧
    (∀ (s : State) k i j ns, steadyTimer k = false → (s.arm k i j ns).steady = s.steady) ∧
    (∀ (s : State) k i j, steadyTimer k = false → (s.disarm k i j).steady = s.steady) ∧
    (∀ (s : State) k i j ns, steadyTimer k = false → (s.armOnce k i j ns).steady = s.steady) ∧
    (∀ (s : State) n i k, (s.trkCount n i k).steady = s.steady) ∧
    (∀ (s : State) n v, (s.setTrk n v).steady = s.steady) ∧ (∀ (s : State) n v, (s.setTd n v).steady = s.steady) ∧
    (∀ (s : State) n v, (s.setLane n v).steady = s.steady) ∧ (∀ (s : State) n v, (s.setQuad n v).steady = s.steady) ∧
    (∀ (s : State) n v, (s.setHall n v).steady = s.steady) ∧ (∀ (s : State) n v, (s.setPort n v).steady = s.steady) ∧
    (∀ (s : State) n v, (s.setNode n v).steady = s.steady) ∧ (∀ (s : State) c v, (s.setCore c v).steady = s.steady) ∧
    (∀ (s : State) c t v, (s.setThr c t v).steady = s.steady) ∧ (∀ (s : State) n w, (s.addDue n w).steady = s.steady) ∧
    (∀ (s : State) p, (s.putParcel p).steady = s.steady) ∧ (∀ (s : State) p, (s.addParcel p).steady = s.steady) ∧
    (∀ (s : State) id, (s.leaveHub id).steady = s.steady) ∧ (∀ s : State, s.openValue.2.steady = s.steady) ∧
    (∀ (s : State) l, (s.pick l).2.steady = s.steady) ∧ (∀ (s : State) o, (s.emit o).steady = s.steady) ∧
    (∀ (s : State) c t tag v, (s.otPut c t tag v).steady = s.steady) ∧
    (∀ (c : Prop) [Decidable c] (s t : State), (if c then s else t).steady = if c then s.steady else t.steady) := by
  refine ⟨fun s _ i j v => s.setReg_steady i j v, fun s _ i j _ => s.setReg_steady i j _, fun s _ i j _ => s.setReg_steady i j _,
    fun s _ i j _ _ => s.setReg_steady i j _, fun s _ i j ns => s.arm_steady i j ns, fun s _ i j => s.disarm_steady i j,
    fun s k i j ns h => ?_, fun s n i k => s.setReg_steady n i _ rfl, fun _ _ _ => rfl, fun _ _ _ => rfl, fun _ _ _ => rfl,
    fun _ _ _ => rfl, fun _ _ _ => rfl, fun _ _ _ => rfl, fun _ _ _ => rfl, fun _ _ _ => rfl, fun _ _ _ _ => rfl, fun _ _ _ => rfl,
    fun _ _ => rfl, fun _ _ => rfl, fun _ _ => rfl, fun _ => rfl, fun _ _ => rfl, fun _ _ => rfl, fun _ _ _ _ _ => rfl,
    fun c _ s t => apply_ite State.steady c s t⟩
  unfold State.armOnce
  split
  · rfl
  · exact s.arm_steady i j ns h

/-! Threads, Bells and operation tables (03, 16). -/

theorem State.wakeBell_steady (s : State) (b : Nat) : (s.wakeBell b).steady = s.steady := by
  unfold State.wakeBell
  simp only [↓updates_steady, ↓foldl_steady, implies_true, ite_self]

theorem State.ring_steady (s : State) (b src : Nat) : (s.ring b src).steady = s.steady := by
  have hsince : ∀ (s : State) l, ({ s with bellSince := l } : State).steady = s.steady := fun _ _ => rfl
  unfold State.ring
  simp +decide only [↓updates_steady, ↓State.wakeBell_steady, ↓hsince, ↓State.wakeOn_steady, ite_self]

theorem State.faultEntry_steady (s : State) (c t cls epc : Nat) (v : Word) : (s.faultEntry c t cls epc v).steady = s.steady := by
  unfold State.faultEntry
  simp +decide only [↓updates_steady, ↓State.ring_steady, ite_self]

theorem State.takeEntryFault_steady (s : State) (c t : Nat) (e : OtEntry) : (s.takeEntryFault c t e).steady = s.steady := by
  unfold State.takeEntryFault
  split
  · rfl
  · simp only [↓updates_steady, ↓State.faultEntry_steady]

theorem State.otCollect_steady (s : State) (c t rd : Nat) (e : OtEntry) : (s.otCollect c t rd e).steady = s.steady := by
  unfold State.otCollect
  simp only [↓updates_steady, ↓State.takeEntryFault_steady, ite_self]

theorem State.otWake_steady (s : State) (c t : Nat) : (s.otWake c t).steady = s.steady := by
  unfold State.otWake
  simp only [↓updates_steady]
  split
  · rfl
  · split
    · split <;> simp only [↓updates_steady, ↓State.otCollect_steady, ite_self]
    · split <;> simp only [↓State.otCollect_steady]
    · rfl

theorem State.otComplete_steady (s : State) (c t tag status result : Nat) :
    (s.otComplete c t tag status result).steady = s.steady := by
  unfold State.otComplete
  split <;> simp only [↓updates_steady, ↓State.otWake_steady, ite_self]

theorem State.completeWhere_steady (s : State) (f : OtKind → Bool) (status result : Nat) :
    (s.completeWhere f status result).steady = s.steady := by
  unfold State.completeWhere
  simp only [↓updates_steady, ↓foldl_steady, ↓State.otComplete_steady, implies_true, ite_self]

theorem State.abandonWaits_steady (s : State) (c : Nat) : (s.abandonWaits c).steady = s.steady := by
  unfold State.abandonWaits
  simp only [↓updates_steady, ↓foldl_steady, implies_true, ite_self]

theorem State.wakeCores_steady (s : State) : s.wakeCores.steady = s.steady := by
  unfold State.wakeCores
  simp only [↓foldl_steady, ↓State.wakeBell_steady, ↓State.otWake_steady, implies_true]

/-! Lanes and quads (04). -/

theorem State.pllUpdate_steady (s : State) (q : Nat) : (s.pllUpdate q).steady = s.steady := by
  unfold State.pllUpdate
  simp +decide only [↓updates_steady, ↓foldl_steady, implies_true]
  split
  · split <;> simp +decide only [↓updates_steady, ↓foldl_steady, implies_true, ite_self]
  · rfl

theorem State.rxHold_steady (s : State) (l : Nat) (was : Bool) : (s.rxHold l was).steady = s.steady := by
  have hfree : ∀ (s : State) n, ({ s with free := n } : State).steady = s.steady := fun _ _ => rfl
  unfold State.rxHold
  simp only [↓updates_steady, ↓hfree, ite_self]

theorem State.laneState_steady (s : State) (l st : Nat) : (s.laneState l st).steady = s.steady := by
  unfold State.laneState State.eyeAbort
  simp +decide only [↓updates_steady, ↓State.pllUpdate_steady, ↓State.ring_steady, ↓State.rxHold_steady, ite_self]

theorem State.newSession_steady (s : State) (l : Nat) : (s.newSession l).2.steady = s.steady := by
  unfold State.newSession
  dsimp only
  split <;> split <;> rfl

theorem State.laneTrain_steady (s : State) (l : Nat) : (s.laneTrain l).steady = s.steady := by
  unfold State.laneTrain
  simp +decide only [↓updates_steady, ↓State.laneState_steady, ↓State.newSession_steady, ite_self]

theorem State.laneStart_steady (s : State) (l : Nat) : (s.laneStart l).steady = s.steady := by
  unfold State.laneStart
  simp only [↓updates_steady, ↓State.laneTrain_steady, ite_self]

theorem State.laneEnable_steady (s : State) (l : Nat) : (s.laneEnable l).steady = s.steady := by
  unfold State.laneEnable State.laneClr
  simp +decide only [↓updates_steady, ↓State.laneStart_steady, ↓foldl_steady, implies_true, ite_self]

theorem State.txOff_steady (s : State) (l : Nat) : (s.txOff l).steady = s.steady := rfl

theorem State.idleHall_steady (s : State) (h : Nat) : (s.idleHall h).steady = s.steady :=
  foldl_steady _ s fun _ _ => rfl

/-! Packets leave the hub (07). -/

theorem State.tdGrant_steady (s : State) (n v k : Nat) : (s.tdGrant n v k).steady = s.steady := by
  unfold State.tdGrant
  simp +decide only [↓updates_steady, ite_self]

theorem State.grant_steady (s : State) (n vc k : Nat) : (s.grant n vc k).steady = s.steady := by
  unfold State.grant
  simp +decide only [↓updates_steady, ↓State.tdGrant_steady, ite_self]

theorem State.leaveLanding_steady (s : State) (p : Parcel) : (s.leaveLanding p).2.steady = s.steady := by
  unfold State.leaveLanding
  dsimp only
  split <;> simp +decide only [↓updates_steady, ↓State.grant_steady]

theorem State.dropParcel_steady (s : State) (id : Nat) : (s.dropParcel id).steady = s.steady := by
  unfold State.dropParcel State.noteFreed
  split <;> simp only [↓updates_steady, ite_self]

theorem State.serving_steady (s : State) (n m : Nat) : (s.serving n m).steady = s.steady := by
  unfold State.serving
  simp +decide only [↓updates_steady]

theorem State.pairMoves_steady (s : State) (h : Nat) (go : PairMove → Bool) : (s.pairMoves h go).steady = s.steady := by
  unfold State.pairMoves
  refine foldl_steady _ s fun s n => ?_
  dsimp only
  split
  · rfl
  · split <;> simp only [↓updates_steady, ↓State.serving_steady, ite_self]

theorem State.epochRetire_steady (s : State) (h e : Nat) : (s.epochRetire h e).steady = s.steady := by
  have hversions : ∀ (s : State) l, ({ s with versions := l } : State).steady = s.steady := fun _ _ => rfl
  unfold State.epochRetire State.pairMaps
  refine (foldl_steady _ _ fun s c => foldl_steady _ s fun s x => ?_).trans ?_
  · split <;> simp only [↓updates_steady, ↓State.otComplete_steady, ite_self]
  · simp +decide only [↓updates_steady, ↓State.pairMoves_steady, ↓hversions]
    split <;> simp +decide only [↓updates_steady]

theorem State.unstamp_steady (s : State) (p : Parcel) : (s.unstamp p).steady = s.steady := by
  unfold State.unstamp
  simp only [↓updates_steady]
  split
  · split <;> simp +decide only [↓updates_steady, ↓State.epochRetire_steady, ite_self]
  · rfl

theorem State.copyLost_steady (s : State) (h g : Nat) : (s.copyLost h g).steady = s.steady := by
  have hlossy : ∀ (s : State) l, ({ s with galLossy := l } : State).steady = s.steady := fun _ _ => rfl
  unfold State.copyLost State.countDrop
  simp +decide only [↓updates_steady, ↓hlossy]

theorem State.galleryCopy_steady (s : State) (p : Parcel) (g flags reason ts : Nat) :
    (s.galleryCopy p g flags reason ts).steady = s.steady := by
  unfold State.galleryCopy State.frameIn
  simp only [↓updates_steady, ↓State.copyLost_steady]
  split
  · rfl
  · split
    · rfl
    · split
      · split <;> simp +decide only [↓updates_steady]
      · rfl

theorem State.passTurn_steady (s : State) (id : Nat) : (s.passTurn id).steady = s.steady := by
  unfold State.passTurn
  simp only [↓updates_steady, ite_self]

theorem State.settle_steady (s : State) (id : Nat) : (s.settle id).steady = s.steady := by
  unfold State.settle
  simp only [↓updates_steady, ↓State.passTurn_steady, ite_self]

theorem State.packetEnd_steady (s : State) (p : Parcel) : (s.packetEnd p).steady = s.steady := by
  unfold State.packetEnd
  split <;> rfl

theorem State.dropPacket_steady (s : State) (id code : Nat) : (s.dropPacket id code).steady = s.steady := by
  have hleaf : ∀ (s : State) l, ({ s with leafQ := l } : State).steady = s.steady := fun _ _ => rfl
  unfold State.dropPacket State.countDrop State.settleQueue
  split
  · rfl
  · simp only [↓State.packetEnd_steady, ↓State.unstamp_steady, ↓State.dropParcel_steady]
    split <;> simp only [↓foldl_steady, ↓State.settle_steady, ↓hleaf, ↓State.leaveLanding_steady, implies_true] <;> split <;>
      simp +decide only [↓updates_steady, ↓State.copyLost_steady, ↓foldl_steady, ↓State.galleryCopy_steady, implies_true, ite_self]

/-! The link unit of a trunk (05, 06), and a TD-212 shim (12). -/

theorem State.setSec_steady (s : State) (n : Nat) (u : SecUnit) : (s.setSec n u).steady = s.steady := by
  unfold State.setSec
  simp +decide only [↓updates_steady]
  rfl

theorem State.secDrop_steady (s : State) (n : Nat) : (s.secDrop n).steady = s.steady := by
  unfold State.secDrop
  simp only [↓updates_steady, ↓State.setSec_steady, ite_self]

theorem State.secFresh_steady (s : State) (n : Nat) : (s.secFresh n).steady = s.steady := by
  unfold State.secFresh
  simp only [↓updates_steady, ↓State.setSec_steady, ↓State.secDrop_steady, ite_self]

theorem State.setActive_steady (s : State) (n mask : Nat) : (s.setActive n mask).steady = s.steady := by
  unfold State.setActive
  simp +decide only [↓updates_steady, ↓foldl_steady, implies_true]

theorem State.setBad_steady (s : State) (n mask : Nat) : (s.setBad n mask).steady = s.steady := by
  unfold State.setBad
  simp +decide only [↓updates_steady, ↓foldl_steady, implies_true]

theorem State.retryTimer_steady (s : State) (n : Nat) : (s.retryTimer n).steady = s.steady := by
  unfold State.retryTimer
  simp +decide only [↓updates_steady, ite_self]

theorem State.syncTx_steady (s : State) (n : Nat) : (s.syncTx n).steady = s.steady := by
  unfold State.syncTx
  simp only [↓updates_steady]
  split <;> split <;> simp +decide only [↓updates_steady]

theorem State.flushTrunk_steady (s : State) (n : Nat) (count : Bool) : (s.flushTrunk n count).steady = s.steady := by
  unfold State.flushTrunk
  simp +decide only [↓updates_steady, ↓State.syncTx_steady, ↓State.retryTimer_steady, ↓foldl_steady, implies_true, ite_self]

theorem State.enqueue_steady (s : State) (n v : Nat) (l : List TxPacket) (add : List TxPacket → List TxPacket → List TxPacket) :
    (s.enqueue n v l add).steady = s.steady := by
  unfold State.enqueue
  simp only [↓updates_steady, ite_self]

theorem State.takeOver_steady (s : State) (n m : Nat) : (s.takeOver n m).steady = s.steady := by
  unfold State.takeOver
  simp +decide only [↓updates_steady, ↓State.serving_steady, ite_self]
  refine foldl_steady _ s fun s v => ?_
  split <;> simp only [↓State.enqueue_steady]

theorem State.trkQuiet_steady (s : State) (n : Nat) : (s.trkQuiet n).steady = s.steady := by
  unfold State.trkQuiet
  simp +decide only [↓updates_steady, ↓foldl_steady, List.foldl_cons, List.foldl_nil, implies_true]

theorem State.trainLanes_steady (s : State) (n : Nat) : (s.trainLanes n).steady = s.steady := by
  unfold State.trainLanes
  simp only [↓updates_steady, ↓foldl_steady, ↓State.laneStart_steady, implies_true, ite_self]

theorem State.loopReset_steady (s : State) (n : Nat) : (s.loopReset n).steady = s.steady := by
  unfold State.loopReset
  simp +decide only [↓updates_steady, ↓foldl_steady, ↓State.pllUpdate_steady, implies_true, ite_self]

theorem State.dropClaims_steady (s : State) (n : Nat) : (s.dropClaims n).steady = s.steady := by
  have hclaims : ∀ (s : State) l, ({ s with claims := l } : State).steady = s.steady := fun _ _ => rfl
  have hparcels : ∀ (s : State) l, ({ s with parcels := l } : State).steady = s.steady := fun _ _ => rfl
  unfold State.dropClaims
  simp +decide only [↓updates_steady, ↓foldl_steady, ↓hclaims, ↓hparcels, implies_true]

theorem State.trainDown_steady (s : State) (n : Nat) (nonce : Word) : (s.trainDown n nonce).steady = s.steady := by
  unfold State.trainDown
  simp +decide only [↓updates_steady, ↓State.trainLanes_steady, ↓State.loopReset_steady, ↓State.trkQuiet_steady,
    ↓State.setBad_steady, ↓State.setActive_steady, ↓foldl_steady, ↓State.dropClaims_steady, ↓State.flushTrunk_steady,
    ↓State.secFresh_steady, implies_true, ite_self]

theorem State.trainResume_steady (s : State) (n : Nat) : (s.trainResume n).steady = s.steady := by
  unfold State.trainResume
  simp +decide only [↓updates_steady, ↓State.trainDown_steady, ↓State.flushTrunk_steady, ↓State.trainLanes_steady,
    ↓State.setBad_steady, ↓State.setActive_steady, ↓State.trkQuiet_steady, ite_self]

theorem State.startAfresh_steady (s : State) (n : Nat) : (s.startAfresh n).steady = s.steady := by
  unfold State.startAfresh
  simp only [↓updates_steady, ↓State.trainDown_steady, ↓State.flushTrunk_steady, ite_self]

theorem State.failOver_steady (s : State) (n : Nat) : (s.failOver n).steady = s.steady := by
  unfold State.failOver
  split
  · rfl
  · simp +decide only [↓updates_steady, ↓State.takeOver_steady, ↓State.startAfresh_steady, ite_self]

theorem State.trunkLost_steady (s : State) (n cause : Nat) : (s.trunkLost n cause).steady = s.steady := by
  unfold State.trunkLost
  simp +decide only [↓updates_steady, ↓State.failOver_steady, ↓State.trainResume_steady, ↓State.ring_steady,
    ↓State.trkQuiet_steady, ite_self]

theorem State.isoCheck_steady (s : State) (n : Nat) : (s.isoCheck n).steady = s.steady := by
  unfold State.isoCheck
  simp +decide only [↓updates_steady, ↓State.ring_steady, ite_self]

theorem State.tdQuiet_steady (s : State) (n : Nat) : (s.tdQuiet n).steady = s.steady := by
  unfold State.tdQuiet
  simp +decide only [↓updates_steady, List.foldl_cons, List.foldl_nil]

theorem State.tdClear_steady (s : State) (n : Nat) : (s.tdClear n).steady = s.steady := by
  unfold State.tdClear
  simp +decide only [↓updates_steady]

theorem State.tdStart_steady (s : State) (n : Nat) : (s.tdStart n).steady = s.steady := by
  unfold State.tdStart
  simp +decide only [↓updates_steady, ↓foldl_steady, ↓State.laneStart_steady, ↓State.laneEnable_steady, ↓State.tdClear_steady,
    ↓State.tdQuiet_steady, implies_true, ite_self]

/-! What containment does to trunks and packets (01 R16, 18 R415). -/

theorem State.loseContexts_steady (s : State) (n : Nat) : (s.loseContexts n).2.steady = s.steady := by
  unfold State.loseContexts
  dsimp only
  split
  · rfl
  · refine (foldl_steady _ _ fun s v => ?_).trans ?_
    · split <;> simp only [↓State.enqueue_steady]
    · simp only [↓updates_steady]

theorem State.trunkQuarantined_steady (s : State) (n : Nat) : (s.trunkQuarantined n).steady = s.steady := by
  unfold State.trunkQuarantined
  simp +decide only [↓updates_steady, ↓State.ring_steady, ↓State.tdClear_steady, ↓State.tdQuiet_steady, ↓State.trunkLost_steady,
    ↓State.trkQuiet_steady, ↓State.flushTrunk_steady, ↓foldl_steady, ↓State.dropPacket_steady, ↓State.loseContexts_steady,
    implies_true, ite_self]

theorem State.divert_steady (s : State) (p : Parcel) (q : Nat) : (s.divert p q).steady = s.steady := by
  unfold State.divert
  simp only [↓updates_steady, ↓State.dropPacket_steady, ite_self]

theorem State.quarantinePackets_steady (s : State) (h : Nat) : (s.quarantinePackets h).steady = s.steady := by
  unfold State.quarantinePackets
  refine foldl_steady _ s fun s p => ?_
  simp only [↓updates_steady, ↓State.dropPacket_steady]
  split
  · rfl
  · split
    · simp only [↓updates_steady]
      split
      · split <;> simp only [↓State.divert_steady]
      · rfl
    · rfl

theorem State.usherHaltSet_steady (s : State) (u : Nat) : (s.usherHaltSet u).steady = s.steady := by
  unfold State.usherHaltSet
  simp +decide only [↓updates_steady, ↓State.abandonWaits_steady]

theorem State.dropFenced_steady (s : State) (id : Nat) : (s.dropFenced id).steady = s.steady := by
  unfold State.dropFenced
  simp only [↓updates_steady, ↓State.dropPacket_steady]

theorem State.trunkFenced_steady (s : State) (n : Nat) : (s.trunkFenced n).steady = s.steady := by
  unfold State.trunkFenced
  simp +decide only [↓updates_steady, ↓State.ring_steady, ↓State.trunkLost_steady, ↓State.trkQuiet_steady,
    ↓State.flushTrunk_steady, ↓foldl_steady, ↓State.dropFenced_steady, implies_true, ite_self]
  split <;> simp only [↓updates_steady, ↓State.loseContexts_steady]

theorem State.poisonPacket_steady (s : State) (id : Nat) : (s.poisonPacket id).steady = s.steady := by
  unfold State.poisonPacket
  split
  · rfl
  · split <;> simp only [↓updates_steady, ↓State.dropPacket_steady]

theorem State.flightDiscard_steady (s : State) (scope kind inst : Nat) : (s.flightDiscard scope kind inst).steady = s.steady := by
  unfold State.flightDiscard
  dsimp only
  split <;> simp only [↓updates_steady, ↓foldl_steady, ↓State.dropFenced_steady, implies_true, ite_self]

theorem State.trunkGo_steady (s : State) (n : Nat) : (s.trunkGo n).steady = s.steady := by
  unfold State.trunkGo
  simp only [↓updates_steady, ↓State.tdStart_steady, ↓State.trainDown_steady, ite_self]

/-! The Newel's operations on entry to SAFE (14 R371). -/

theorem State.discharge_steady (s : State) (p : Nat) : (s.discharge p).steady = s.steady := by
  have hpath : ∀ (s : State) n v, (s.setPath n v).steady = s.steady := fun _ _ _ => rfl
  unfold State.discharge
  simp +decide only [↓updates_steady, ↓hpath, ite_self]

theorem State.ppOpen_steady (s : State) (p cause : Nat) (disch : Bool) : (s.ppOpen p cause disch).steady = s.steady := by
  unfold State.ppOpen State.ppRelease State.ppFinish
  simp +decide only [↓updates_steady, ↓State.completeWhere_steady, ↓State.discharge_steady, ite_self]

theorem State.txDone_steady (s : State) (n : Nat) (x : PdTx) (status : Nat) : (s.txDone n x status).steady = s.steady := by
  unfold State.txDone State.tcBell
  split <;> simp +decide only [↓updates_steady, ↓State.ring_steady, ↓State.otComplete_steady, ite_self]

theorem State.hardReset_steady (s : State) (n : Nat) : (s.hardReset n).steady = s.steady := by
  have htc : ∀ (s : State) n v, (s.setTc n v).steady = s.steady := fun _ _ _ => rfl
  unfold State.hardReset State.txDrop State.tcIds
  simp +decide only [↓updates_steady, ↓htc, ↓foldl_steady, ↓State.txDone_steady, implies_true]

theorem State.powerSafe_steady (s : State) : s.powerSafe.steady = s.steady := by
  unfold State.powerSafe
  simp +decide only [↓updates_steady, ↓foldl_steady, ↓State.hardReset_steady, ↓State.ppOpen_steady, implies_true, ite_self]

/-! The scheduler (08). -/

theorem State.weightedPick_steady (n lvl quantum : Nat) (all cands : List Nat) (fuel : Nat) (s : State) :
    (State.weightedPick n lvl quantum all cands fuel s).2.steady = s.steady := by
  induction fuel generalizing s with
  | zero => rfl
  | succ fuel ih =>
    unfold State.weightedPick
    dsimp only
    split
    · rfl
    · split
      · rfl
      · simp only [ih, ↓updates_steady]

theorem State.choose_steady (port quantum l : Nat) (s : State) (n : Nat) : (s.choose port quantum l n).2.steady = s.steady := by
  induction l generalizing s n with
  | zero => rfl
  | succ l ih =>
    unfold State.choose
    dsimp only
    split
    · rfl
    · rw [ih]
      split <;> simp only [↓updates_steady, ↓State.weightedPick_steady]

theorem State.charge_steady (s : State) (id : Nat) (weighted : Bool) (len : Int) : (s.charge id weighted len).steady = s.steady := by
  unfold State.charge
  simp only [↓updates_steady]

theorem State.servePacket_steady (s : State) (port : Nat) (p : Parcel) : (s.servePacket port p).steady = s.steady := by
  unfold State.servePacket
  split <;> simp only [↓updates_steady, ↓State.dropPacket_steady, ↓State.enqueue_steady, ite_self]

theorem State.portSchedule_steady (s : State) (port : Nat) : (s.portSchedule port).steady = s.steady := by
  have hleaf : ∀ (s : State) l, ({ s with leafQ := l } : State).steady = s.steady := fun _ _ => rfl
  unfold State.portSchedule
  simp only [↓updates_steady]
  split
  · rfl
  · split
    · rfl
    · split
      · rfl
      · simp only [↓updates_steady]
        split <;> simp only [↓updates_steady, ↓foldl_steady, ↓State.passTurn_steady, ↓State.settle_steady, ↓State.servePacket_steady,
          ↓State.charge_steady, ↓hleaf, ↓State.choose_steady, implies_true, ite_self]

theorem State.applyBlock_steady (s : State) (fo : Bool) (b : Staged) : (s.applyBlock fo b).steady = s.steady := by
  unfold State.applyBlock
  simp only [↓updates_steady]

theorem State.foKnown_steady (s : State) (p : Nat) : (s.foKnown p).steady = s.steady := by
  unfold State.foKnown
  dsimp only
  split <;> simp only [↓updates_steady]

theorem State.commitApply_steady (s : State) (port : Nat) : (s.commitApply port).steady = s.steady := by
  unfold State.commitApply
  simp only [↓updates_steady, ↓foldl_steady, ↓State.applyBlock_steady, ↓State.completeWhere_steady, ↓State.foKnown_steady,
    implies_true, ite_self]

theorem State.failoverApply_steady (s : State) (n : Nat) : (s.failoverApply n).steady = s.steady := by
  unfold State.failoverApply
  simp only [↓updates_steady, ↓State.isoCheck_steady, ↓foldl_steady, ↓State.applyBlock_steady, implies_true, ite_self]

end Sys2Proof.Machine
end

section
/-! PROOFS. Doorbells, writes of registers alone, and error records (16 R388, 18 R413). -/

namespace Sys2Proof.Machine

/-! What the steady part tells. -/

theorem State.reg_of_steady {s t : State} (h : t.steady.regs = s.steady.regs) {n : RegName} (hn : steadyReg n = true) (i j : Nat) :
    t.reg n i j = s.reg n i j := by
  have hread := fun u : State => tabGet_filter (fun r : RegId => steadyReg r.name) regReset u.regs (k := ⟨n, i, j⟩) hn
  exact (hread t).symm.trans ((congrArg (fun l => tabGet regReset l ⟨n, i, j⟩) h).trans (hread s))

theorem State.fld_of_steady {s t : State} (h : t.steady.regs = s.steady.regs) {f : Fld} (hf : steadyReg f.reg = true) (i j : Nat) :
    t.fld f i j = s.fld f i j := congrArg (fldGet f) (State.reg_of_steady h hf i j)

theorem State.deadline_of_steady {s t : State} (h : t.steady.timers = s.steady.timers) {k : TimerKind} (hk : steadyTimer k = true)
    (i j : Nat) : t.deadline k i j = s.deadline k i j := by
  have hread := fun u : State => tabGet_filter (fun r : TimerId => steadyTimer r.kind) (fun _ => none) u.timers (k := ⟨k, i, j⟩) hk
  have heq : tabGet (fun _ => none) t.steady.timers ⟨k, i, j⟩ = tabGet (fun _ => none) s.steady.timers ⟨k, i, j⟩ := by rw [h]
  exact (hread t).symm.trans (heq.trans (hread s))

theorem State.sameMemory_of_steady {s t : State} (h : t.steady = s.steady) : SameMemory s t := by
  change SameMemory s.steady t.steady
  rw [h]
  exact fun _ => rfl

theorem State.sameDevices_of_steady {s t : State} (h : t.steady = s.steady) : SameDevices s t := by
  change SameDevices s.steady t.steady
  rw [h]
  exact ⟨rfl, rfl, rfl, rfl, rfl, rfl, rfl, rfl, rfl, rfl, rfl⟩

/-- The chip's part but for what wakes it. -/
theorem State.chip_of_steady {s t : State} (h : t.steady = s.steady) :
    { t.chip with inState := none } = { s.chip with inState := none } := by
  change t.steady.chip = s.steady.chip
  rw [h]

theorem SameDevices.trans {s t u : State} (h : SameDevices s t) (h' : SameDevices t u) : SameDevices s u := by
  obtain ⟨a1, a2, a3, a4, a5, a6, a7, a8, a9, a10, a11⟩ := h
  obtain ⟨b1, b2, b3, b4, b5, b6, b7, b8, b9, b10, b11⟩ := h'
  exact ⟨b1.trans a1, b2.trans a2, b3.trans a3, b4.trans a4, b5.trans a5, b6.trans a6, b7.trans a7, b8.trans a8, b9.trans a9,
    b10.trans a10, b11.trans a11⟩

/-! A doorbell (16 R388): what it changes, and what stays. -/

theorem foldl_threads_eq {α : Type} {f : State → α → State} (l : List α) (s : State)
    (h : ∀ s x, f s x = { s with threads := (f s x).threads }) : l.foldl f s = { s with threads := (l.foldl f s).threads } := by
  induction l generalizing s with
  | nil => rfl
  | cons x l ih =>
    rw [List.foldl_cons, ih (f s x)]
    generalize (l.foldl f (f s x)).threads = r
    rw [h s x]

theorem State.wakeBell_eq (s : State) (b : Nat) : s.wakeBell b = { s with threads := (s.wakeBell b).threads } := by
  unfold State.wakeBell
  split
  · refine foldl_threads_eq _ s fun s t => ?_
    dsimp only
    split <;> rfl
  · rfl

theorem State.ring_eq (s : State) (b src : Nat) :
    s.ring b src = { s with
      regs := (s.ring b src).regs, threads := (s.ring b src).threads, bellSince := (s.ring b src).bellSince
      chip := (s.wakeOn 7).chip } := by
  have hwake : s.wakeOn 7 = { s with chip := (s.wakeOn 7).chip } := by unfold State.wakeOn; split <;> rfl
  unfold State.ring
  dsimp only
  split
  · rw [hwake]; rfl
  · rw [State.wakeBell_eq, hwake]; rfl

theorem State.reg_ring (s : State) (b src : Nat) {n : RegName} (i j : Nat) (h : n ≠ .bellSrc) (h' : n ≠ .bellStatus) :
    (s.ring b src).reg n i j = s.reg n i j := by
  have hwake : ∀ n i j, (s.wakeOn 7).reg n i j = s.reg n i j := by intro n i j; unfold State.wakeOn; split <;> rfl
  unfold State.ring
  dsimp only
  split
  · rw [State.addSat, State.reg_setFld, if_neg (fun e => h' e.1.symm), hwake]
  · rw [State.wakeBell_eq]
    refine (State.reg_setFld ..).trans ?_
    rw [if_neg (fun e => h e.1.symm)]
    exact hwake ..

theorem State.fld_ring (s : State) (b src : Nat) (f : Fld) (i j : Nat) (h : f.reg ≠ .bellSrc) (h' : f.reg ≠ .bellStatus) :
    (s.ring b src).fld f i j = s.fld f i j := congrArg (fldGet f) (s.reg_ring b src i j h h')

/-- A source that has rung is pending. -/
theorem State.pending_ring (s : State) (b src : Nat) : (s.ring b src).fld F.bellSrcPending b src = 1 := by
  unfold State.ring
  dsimp only
  split
  · rename_i hp
    have hbit : (s.wakeOn 7).fld F.bellSrcPending b src < 2 := Nat.mod_lt _ (by decide)
    have hne : (s.wakeOn 7).fld F.bellSrcPending b src ≠ 0 := by simpa [State.flag] using hp
    rw [State.addSat, State.fld_setFld_other _ _ _ _ _ _ _ _ (by decide) (by decide) (.inl (by simp [F.bellStatusCoalesced, F.bellSrcPending]))]
    omega
  · rw [State.wakeBell_eq]
    exact State.fld_setFld_same _ F.bellSrcPending b src 1 (by decide) (by decide)

@[simp] theorem State.byte_ring (s : State) (b src a : Nat) : (s.ring b src).byte a = s.byte a := by rw [State.ring_eq]; rfl
@[simp] theorem State.tb_ring (s : State) (b src : Nat) : (s.ring b src).tb = s.tb := by rw [State.ring_eq]
@[simp] theorem State.deadline_ring (s : State) (b src : Nat) (k : TimerKind) (i j : Nat) :
    (s.ring b src).deadline k i j = s.deadline k i j := by rw [State.ring_eq]; rfl

theorem State.wakeOn_chip (s : State) (n : Nat) : { (s.wakeOn n).chip with inState := none } = { s.chip with inState := none } := by
  unfold State.wakeOn; split <;> rfl

theorem State.ring_chip (s : State) (b src : Nat) : { (s.ring b src).chip with inState := none } = { s.chip with inState := none } := by
  rw [State.ring_eq]; exact s.wakeOn_chip 7

/-! Registers alone. -/

theorem OnlyRegs.refl (s : State) : OnlyRegs s s := rfl

theorem OnlyRegs.setFld (s : State) (f : Fld) (i j v : Nat) : OnlyRegs s (s.setFld f i j v) := rfl

theorem OnlyRegs.trans {s t u : State} (h : OnlyRegs s t) (h' : OnlyRegs t u) : OnlyRegs s u := by
  unfold OnlyRegs at *
  rw [h']
  generalize u.regs = r
  rw [h]

theorem OnlyRegs.sameDevices {s t : State} (h : OnlyRegs s t) : SameDevices s t := by
  rw [h]
  exact ⟨rfl, rfl, rfl, rfl, rfl, rfl, rfl, rfl, rfl, rfl, rfl⟩

theorem OnlyRegs.chip {s t : State} (h : OnlyRegs s t) : t.chip = s.chip := by rw [h]

theorem OnlyRegs.byte {s t : State} (h : OnlyRegs s t) (a : Nat) : t.byte a = s.byte a := by rw [h]; rfl

theorem OnlyRegs.deadline {s t : State} (h : OnlyRegs s t) (k : TimerKind) (i j : Nat) : t.deadline k i j = s.deadline k i j := by
  rw [h]; rfl

theorem OnlyRegs.tb {s t : State} (h : OnlyRegs s t) : t.tb = s.tb := by rw [h]

/-! An error record (18 R413). -/

theorem crashBase_lt_ringBase (scope : Nat) : crashBase + 8 ≤ ringBase scope := by
  unfold ringBase crashBase
  split <;> omega

/-- A record of bytes `l` is written and counted; WR does not show it yet. -/
def State.noted (s : State) (scope : Nat) (l : List Byte) : State :=
  let a := ringBase scope + 32 * (s.ringWr scope % 64)
  { s with
    mem := (s.writeBytes a l).mem, poisoned := (s.unpoison a l.length).poisoned
    chip := { s.chip with written := unitSet 0 s.chip.written scope (s.ringCount scope + 1) } }

/-- WR of a scope's ring moves on, and OVERRUN when the ring was full. -/
def State.bumpRing (s : State) (scope : Nat) (full : Bool) : State :=
  let s := if scope < 4 then s.addFld F.hallErrRingWr scope 0 1 else s.addFld F.svcErrRingWr 0 0 1
  if full then (if scope < 4 then s.addSat F.hallErrRingOverrun scope 0 1 0xFFFF else s.addSat F.svcErrRingOverrun 0 0 1 0xFFFF)
  else s

/-- The entries of a scope's ring that are not read. -/
def State.unread (s : State) (scope : Nat) : Nat := (s.ringWr scope + 65536 - s.ringRd scope) % 65536

theorem State.noted_eq (s : State) (scope : Nat) (l : List Byte) {w : State}
    (hw : s.writeBytes (ringBase scope + 32 * (s.ringWr scope % 64)) l = w) :
    ({ w with chip := { w.chip with written := unitSet 0 w.chip.written scope (s.ringCount scope + 1) } } : State) = s.noted scope l := by
  have hwrite := State.writeBytes_eq s (ringBase scope + 32 * (s.ringWr scope % 64)) l
  unfold State.noted
  dsimp only
  rw [hw] at hwrite ⊢
  generalize w.mem = m at hwrite ⊢
  rw [hwrite]

/-- A record is noted, WR moves on, and the Bell rings when the ring held no unread entry. -/
theorem State.errLog_eq_bumpRing (s : State) (e : ErrInfo) :
    s.errLog e = (let t := (s.noted e.scope (s.errRecord e)).bumpRing e.scope (decide (64 ≤ s.unread e.scope))
      if s.unread e.scope = 0 then t.ring 8 147 else t) := by
  unfold State.errLog
  generalize s.errRecord e = l
  rw [← s.noted_eq e.scope l rfl]
  unfold State.bumpRing State.unread
  simp only [decide_eq_true_eq]
  by_cases h : (s.ringWr e.scope + 65536 - s.ringRd e.scope) % 65536 < 64
  · simp only [h, if_true, if_neg (Nat.not_le.2 h)]
  · simp only [h, if_false, if_pos (Nat.not_lt.1 h)]

theorem State.bumpRing_onlyRegs (s : State) (scope : Nat) (full : Bool) : OnlyRegs s (s.bumpRing scope full) := by
  unfold State.bumpRing
  cases full <;> by_cases h : scope < 4 <;> simp only [h, if_true, if_false, Bool.false_eq_true] <;> rfl

/-- What a record changes. -/
theorem State.errLog_eq (s : State) (e : ErrInfo) : s.errLog e = { s with
    regs := (s.errLog e).regs, chip := (s.errLog e).chip, mem := (s.errLog e).mem, poisoned := (s.errLog e).poisoned
    threads := (s.errLog e).threads, bellSince := (s.errLog e).bellSince } := by
  rw [State.errLog_eq_bumpRing]
  generalize s.errRecord e = l
  dsimp only
  have hring := (s.noted e.scope l).bumpRing_onlyRegs e.scope (decide (64 ≤ s.unread e.scope))
  generalize (s.noted e.scope l).bumpRing e.scope (decide (64 ≤ s.unread e.scope)) = t at hring
  have ht : t = { s with regs := t.regs, chip := t.chip, mem := t.mem, poisoned := t.poisoned } := by
    rw [hring]
    rfl
  split
  · rw [State.ring_eq]
    generalize (t.ring 8 147).regs = r, (t.ring 8 147).threads = th, (t.ring 8 147).bellSince = b, (t.wakeOn 7).chip = c
    rw [ht]
  · rw [ht]

theorem State.sameDevices_errLog (s : State) (e : ErrInfo) : SameDevices s (s.errLog e) := by
  rw [State.errLog_eq]
  exact ⟨rfl, rfl, rfl, rfl, rfl, rfl, rfl, rfl, rfl, rfl, rfl⟩

@[simp] theorem State.tb_errLog (s : State) (e : ErrInfo) : (s.errLog e).tb = s.tb := by rw [State.errLog_eq]
@[simp] theorem State.deadline_errLog (s : State) (e : ErrInfo) (k : TimerKind) (i j : Nat) :
    (s.errLog e).deadline k i j = s.deadline k i j := by rw [State.errLog_eq]; rfl

theorem State.errLog_chip (s : State) (e : ErrInfo) :
    { (s.errLog e).chip with inState := none } =
      { s.chip with inState := none, written := unitSet 0 s.chip.written e.scope (s.ringCount e.scope + 1) } := by
  rw [State.errLog_eq_bumpRing]
  generalize s.errRecord e = l
  have hring := ((s.noted e.scope l).bumpRing_onlyRegs e.scope (decide (64 ≤ s.unread e.scope))).chip
  dsimp only
  split
  · rw [State.ring_chip, hring]; rfl
  · rw [hring]; rfl

/-- The registers of a record: its ring's, and a Bell's. -/
def recordRegs : List RegName := [.hallErrRing, .svcErrRing, .bellSrc, .bellStatus]

theorem State.bumpRing_reg (s : State) (scope : Nat) (full : Bool) {n : RegName} (i j : Nat) (h : n ∉ recordRegs) :
    (s.bumpRing scope full).reg n i j = s.reg n i j := by
  have hhall : RegName.hallErrRing ≠ n := fun e => h (e ▸ by decide)
  have hsvc : RegName.svcErrRing ≠ n := fun e => h (e ▸ by decide)
  have hset : ∀ (s : State) (f : Fld) i' j' v, f.reg ≠ n → (s.setFld f i' j' v).reg n i j = s.reg n i j := fun s f i' j' v hf => by
    rw [State.reg_setFld, if_neg (fun e => hf e.1)]
  unfold State.bumpRing State.addFld State.addSat
  dsimp only
  split <;> split <;> simp only [hset _ F.hallErrRingWr _ _ _ hhall, hset _ F.svcErrRingWr _ _ _ hsvc,
    hset _ F.hallErrRingOverrun _ _ _ hhall, hset _ F.svcErrRingOverrun _ _ _ hsvc]

theorem State.reg_errLog (s : State) (e : ErrInfo) {n : RegName} (i j : Nat) (h : n ∉ recordRegs) :
    (s.errLog e).reg n i j = s.reg n i j := by
  have hsrc : n ≠ .bellSrc := fun e => h (e ▸ by decide)
  have hstatus : n ≠ .bellStatus := fun e => h (e ▸ by decide)
  rw [State.errLog_eq_bumpRing]
  generalize s.errRecord e = l
  dsimp only
  split
  · rw [State.reg_ring _ _ _ _ _ hsrc hstatus, State.bumpRing_reg _ _ _ _ _ h]; rfl
  · rw [State.bumpRing_reg _ _ _ _ _ h]; rfl

theorem State.fld_errLog (s : State) (e : ErrInfo) (f : Fld) (i j : Nat) (h : f.reg ∉ recordRegs) :
    (s.errLog e).fld f i j = s.fld f i j := congrArg (fldGet f) (s.reg_errLog e i j h)

theorem State.ringCount_errLog (s : State) (e : ErrInfo) (scope : Nat) :
    (s.errLog e).ringCount scope = if e.scope = scope then s.ringCount scope + 1 else s.ringCount scope := by
  have hwritten : (s.errLog e).chip.written = unitSet 0 s.chip.written e.scope (s.ringCount e.scope + 1) :=
    congrArg Chip.written (s.errLog_chip e)
  rw [State.ringCount, hwritten, unitGet_set]
  split
  · rename_i he; rw [he]
  · rfl

theorem State.ringWr_bumpRing (s : State) (scope : Nat) (full : Bool) :
    (s.bumpRing scope full).ringWr scope = (s.ringWr scope + 1) % 65536 := by
  unfold State.bumpRing State.ringWr State.addSat State.addFld
  cases full <;> by_cases h : scope < 4 <;> simp only [h, if_true, if_false, Bool.false_eq_true]
  · exact State.fld_setFld_same _ F.hallErrRingWr scope 0 _ (by decide) (by decide)
  · exact State.fld_setFld_same _ F.svcErrRingWr 0 0 _ (by decide) (by decide)
  · rw [State.fld_setFld_other _ _ _ _ _ _ _ _ (by decide) (by decide) (.inr (.inl (by decide)))]
    exact State.fld_setFld_same _ F.hallErrRingWr scope 0 _ (by decide) (by decide)
  · rw [State.fld_setFld_other _ _ _ _ _ _ _ _ (by decide) (by decide) (.inr (.inl (by decide)))]
    exact State.fld_setFld_same _ F.svcErrRingWr 0 0 _ (by decide) (by decide)

theorem errBytes_length (e : ErrInfo) (seq tb : Nat) : (errBytes e seq tb).length = 32 := by
  simp [errBytes]

theorem State.byte_noted (s : State) (scope : Nat) (l : List Byte) (a : Nat) : (s.noted scope l).byte a =
    (let at_ := ringBase scope + 32 * (s.ringWr scope % 64)
      if at_ ≤ a ∧ a < at_ + l.length then l.getD (a - at_) 0 else s.byte a) :=
  s.byte_writeBytes ..

/-- A record is in its ring, and every other byte of memory stays. -/
theorem State.logged_errLog (s : State) (e : ErrInfo) : Logged e s (s.errLog e) := by
  have hlength : (s.errRecord e).length = 32 := errBytes_length ..
  refine ⟨by simp [State.ringCount_errLog], ?_, fun a => ?_⟩ <;> rw [State.errLog_eq_bumpRing] <;>
    generalize s.errRecord e = l at hlength ⊢ <;> dsimp only
  · have hring : ∀ t : State, (t.ring 8 147).ringWr e.scope = t.ringWr e.scope := fun t => by
      unfold State.ringWr
      split <;> exact t.fld_ring _ _ _ _ _ (by decide) (by decide)
    have hnoted : (s.noted e.scope l).ringWr e.scope = s.ringWr e.scope := rfl
    split
    · rw [hring, State.ringWr_bumpRing, hnoted]
    · rw [State.ringWr_bumpRing, hnoted]
  · have hbump := (s.noted e.scope l).bumpRing_onlyRegs e.scope (decide (64 ≤ s.unread e.scope))
    split
    · rw [State.byte_ring, hbump.byte, State.byte_noted, hlength]
    · rw [hbump.byte, State.byte_noted, hlength]

end Sys2Proof.Machine
end

section
/-! PROOFS. The faults of a Flight and the commands at it (18 R414 to R416). -/

namespace Sys2Proof.Machine

/-! A Flight's register (18 R414 to R416): three fields, of a Hall's Flight or of a services Flight. -/

/-- The fields of a Flight's register. -/
inductive FlightField
  | state | lastClass | treadErrs

/-- Where a field lies in the register of a Hall's Flight. -/
def FlightField.hall : FlightField → Fld
  | .state => F.hallFlightState
  | .lastClass => F.hallFlightLastClass
  | .treadErrs => F.hallFlightTreadErrs

/-- Where it lies in that of a services Flight. -/
def FlightField.svc : FlightField → Fld
  | .state => F.svcFlightState
  | .lastClass => F.svcFlightLastClass
  | .treadErrs => F.svcFlightTreadErrs

/-- Where it lies for a Flight of this scope. -/
def FlightField.fld (f : FlightField) (scope : Nat) : Fld := if scope < 4 then f.hall else f.svc

/-- How many bits a field has. -/
def FlightField.width : FlightField → Nat
  | .state => 2
  | .lastClass => 8
  | .treadErrs => 16

/-- Which register is a Flight's. -/
def flightAt (scope kind inst : Nat) : Nat × Nat :=
  if scope < 4 then (scope, 16 * kind + inst) else (0, 16 * (kind - 0x10) + inst)

/-- A field of a Flight as it reads. -/
def State.flightGet (s : State) (f : FlightField) (scope kind inst : Nat) : Nat :=
  s.fld (f.fld scope) (flightAt scope kind inst).1 (flightAt scope kind inst).2

/-- A field of a Flight written. -/
def State.flightPut (s : State) (f : FlightField) (scope kind inst v : Nat) : State :=
  s.setFld (f.fld scope) (flightAt scope kind inst).1 (flightAt scope kind inst).2 v

section
variable (s : State) (scope kind inst v : Nat)

theorem State.flightState_eq : s.flightState scope kind inst = s.flightGet .state scope kind inst := by
  unfold State.flightState State.flightGet flightAt FlightField.fld
  split <;> rfl

theorem State.flightLastClass_eq : (if scope < 4 then s.fld F.hallFlightLastClass scope (16 * kind + inst)
    else s.fld F.svcFlightLastClass 0 (16 * (kind - 16) + inst)) = s.flightGet .lastClass scope kind inst := by
  unfold State.flightGet flightAt FlightField.fld
  split <;> rfl

theorem State.flightTreadErrs_eq : (if scope < 4 then s.fld F.hallFlightTreadErrs scope (16 * kind + inst)
    else s.fld F.svcFlightTreadErrs 0 (16 * (kind - 16) + inst)) = s.flightGet .treadErrs scope kind inst := by
  unfold State.flightGet flightAt FlightField.fld
  split <;> rfl

theorem State.setFlightState_eq : s.setFlightState scope kind inst v = s.flightPut .state scope kind inst v := by
  unfold State.setFlightState State.flightPut flightAt FlightField.fld
  split <;> rfl

theorem State.setLastClass_eq : s.setLastClass scope kind inst v = s.flightPut .lastClass scope kind inst v := by
  unfold State.setLastClass State.flightPut flightAt FlightField.fld
  split <;> rfl

theorem State.addTreadErr_eq : s.addTreadErr scope kind inst =
    s.flightPut .treadErrs scope kind inst (min 0xFFFF (s.flightGet .treadErrs scope kind inst + 1)) := by
  unfold State.addTreadErr State.flightPut State.flightGet flightAt FlightField.fld
  split <;> rfl

theorem State.clearTreadErrs_eq : s.clearTreadErrs scope kind inst = s.flightPut .treadErrs scope kind inst 0 := by
  unfold State.clearTreadErrs State.flightPut flightAt FlightField.fld
  split <;> rfl

theorem FlightField.steady (f : FlightField) : steadyReg (f.fld scope).reg = true := by
  unfold FlightField.fld
  split <;> cases f <;> rfl

theorem FlightField.not_record (f : FlightField) : (f.fld scope).reg ∉ recordRegs := by
  unfold FlightField.fld
  split <;> cases f <;> decide

theorem State.flightGet_flightPut_same (f : FlightField) (hv : v < 2 ^ f.width) :
    (s.flightPut f scope kind inst v).flightGet f scope kind inst = v := by
  have hbits : (f.fld scope).hi < 64 ∧ (f.fld scope).lo ≤ (f.fld scope).hi ∧ (f.fld scope).hi - (f.fld scope).lo + 1 = f.width := by
    unfold FlightField.fld
    split <;> cases f <;> decide
  obtain ⟨htop, horder, hwidth⟩ := hbits
  unfold State.flightGet State.flightPut
  rw [State.fld_setFld_same _ _ _ _ _ htop horder, hwidth, Nat.mod_eq_of_lt hv]

theorem State.flightGet_flightPut_other {f g : FlightField} (h : f ≠ g) :
    (s.flightPut f scope kind inst v).flightGet g scope kind inst = s.flightGet g scope kind inst := by
  have hbits : (g.fld scope).hi < 64 ∧ (g.fld scope).lo ≤ (g.fld scope).hi ∧
      ((g.fld scope).hi < (f.fld scope).lo ∨ (f.fld scope).lo + ((f.fld scope).hi - (f.fld scope).lo) < (g.fld scope).lo) := by
    unfold FlightField.fld
    split <;> cases f <;> cases g <;> simp +decide at h ⊢
  obtain ⟨htop, horder, happart⟩ := hbits
  exact State.fld_setFld_other _ _ _ _ _ _ _ _ htop horder (.inr happart)

theorem State.flightPut_onlyRegs (f : FlightField) : OnlyRegs s (s.flightPut f scope kind inst v) := rfl

/-- A write of a Flight's register leaves every other register. -/
theorem State.reg_flightPut (f : FlightField) {n : RegName} (i j : Nat) (h : n ≠ .hallFlight) (h' : n ≠ .svcFlight) :
    (s.flightPut f scope kind inst v).reg n i j = s.reg n i j := by
  have hreg : (f.fld scope).reg ≠ n := by
    unfold FlightField.fld
    split <;> cases f
    exacts [h.symm, h.symm, h.symm, h'.symm, h'.symm, h'.symm]
  unfold State.flightPut
  rw [State.reg_setFld, if_neg (fun e => hreg e.1)]

theorem State.fld_flightPut (f : FlightField) (g : Fld) (i j : Nat) (h : g.reg ≠ .hallFlight) (h' : g.reg ≠ .svcFlight) :
    (s.flightPut f scope kind inst v).fld g i j = s.fld g i j := congrArg (fldGet g) (s.reg_flightPut _ _ _ _ f i j h h')

theorem State.flightGet_errLog (e : ErrInfo) (f : FlightField) :
    (s.errLog e).flightGet f scope kind inst = s.flightGet f scope kind inst := s.fld_errLog e _ _ _ (f.not_record scope)

end

theorem State.flightGet_of_steady {s t : State} (h : t.steady.regs = s.steady.regs) (f : FlightField) (scope kind inst : Nat) :
    t.flightGet f scope kind inst = s.flightGet f scope kind inst := State.fld_of_steady h (f.steady scope) _ _

theorem State.flight_setFlight_same (s : State) (k : Nat) (v : FlightSt) : (s.setFlight k v).flight k = v := by
  simp [State.flight, State.setFlight]

/-- The bookkeeping of a Flight in two states whose chips differ in what wakes them alone. -/
theorem State.flight_of_chip {s t : State} (h : { t.chip with inState := none } = { s.chip with inState := none }) (k : Nat) :
    t.flight k = s.flight k := by
  have hflights := congrArg Chip.flights h
  dsimp only at hflights
  rw [State.flight, hflights, State.flight]

/-! Faults of a Flight (18 R414 to R416). -/

theorem State.ringCount_of_steady {s t : State} (h : t.steady = s.steady) (scope : Nat) : t.ringCount scope = s.ringCount scope := by
  have hwritten := congrArg Chip.written (State.chip_of_steady h)
  dsimp only at hwritten
  rw [State.ringCount, hwritten, State.ringCount]

theorem State.ringWr_of_steady {s t : State} (h : t.steady = s.steady) (scope : Nat) : t.ringWr scope = s.ringWr scope := by
  have hhall := State.fld_of_steady (congrArg State.regs h) (f := F.hallErrRingWr) rfl
  have hsvc := State.fld_of_steady (congrArg State.regs h) (f := F.svcErrRingWr) rfl
  rw [State.ringWr, State.ringWr, hhall, hsvc]

theorem State.tb_of_steady {s t : State} (h : t.steady = s.steady) : t.tb = s.tb := (State.sameDevices_of_steady h).2.2.2.2.2.2.2.2.2.1

/-- The record is the same one in two states with the same steady part. -/
theorem Logged.of_steady {e : ErrInfo} {s s' t : State} (h : s'.steady = s.steady) (hlog : Logged e s' t) : Logged e s t := by
  have hrecord : s'.errRecord e = s.errRecord e := by
    rw [State.errRecord, State.ringCount_of_steady h, State.tb_of_steady h, State.errRecord]
  obtain ⟨hcount, hwr, hbytes⟩ := hlog
  refine ⟨hcount.trans ?_, hwr.trans ?_, fun a => (hbytes a).trans ?_⟩
  · rw [State.ringCount_of_steady h]
  · rw [State.ringWr_of_steady h]
  · rw [State.ringWr_of_steady h, hrecord, State.sameMemory_of_steady h a]

/-- A record outlasts a write of a Flight's register. -/
theorem Logged.flightPut {e : ErrInfo} {s t : State} (hlog : Logged e s t) (f : FlightField) (scope kind inst v : Nat) :
    Logged e s (t.flightPut f scope kind inst v) := by
  have hring : (t.flightPut f scope kind inst v).ringWr e.scope = t.ringWr e.scope := by
    unfold State.ringWr
    split <;> exact State.fld_flightPut _ _ _ _ _ _ _ _ _ (by decide) (by decide)
  obtain ⟨hcount, hwr, hbytes⟩ := hlog
  exact ⟨hcount, hring.trans hwr, hbytes⟩

/-- What decides whether a Flight's fault acts is in the steady part. -/
theorem State.flightActs_of_steady {s t : State} (h : t.steady = s.steady) (scope kind inst : Nat) :
    t.flightActs scope kind inst = s.flightActs scope kind inst := by
  have hsafe := congrArg Chip.safe (State.chip_of_steady h)
  have hhall := State.reg_of_steady (congrArg State.regs h) (n := .chipHallCtl) rfl 0 0
  have hstate := State.flightGet_of_steady (congrArg State.regs h) .state scope kind inst
  dsimp only at hsafe
  rw [State.flightActs, State.flightActs, State.hallState, State.flightRuns, State.flightState_eq, hsafe, hhall, hstate,
    State.hallState, State.flightRuns, State.flightState_eq]

/-- The drain limit of a scope. -/
def State.drainLimit (s : State) (scope : Nat) : Nat :=
  if scope < 4 then s.fld F.hallErrCtrlDrainLimit scope else s.fld F.svcErrCtrlDrainLimit

theorem State.drainLimit_of_regs {s t : State} (h : ∀ n i j, n = .hallErrCtrl ∨ n = .svcErrCtrl → t.reg n i j = s.reg n i j)
    (scope : Nat) : t.drainLimit scope = s.drainLimit scope := by
  have hhall : t.fld F.hallErrCtrlDrainLimit scope 0 = s.fld F.hallErrCtrlDrainLimit scope 0 :=
    congrArg (fldGet _) (h _ _ _ (.inl rfl))
  have hsvc : t.fld F.svcErrCtrlDrainLimit 0 0 = s.fld F.svcErrCtrlDrainLimit 0 0 := congrArg (fldGet _) (h _ _ _ (.inr rfl))
  rw [State.drainLimit, hhall, hsvc, State.drainLimit]

/-- The Flight of a fault of class `cls` fences: FENCING, its cause kept, the drain limit running. -/
def Fences (scope kind inst cls : Nat) (s t : State) : Prop :=
  t.flightGet .state scope kind inst = 1 ∧ t.flightGet .lastClass scope kind inst = cls ∧
    (t.flight (flightKey scope kind inst)).cause = cls ∧
    t.deadline .drain (flightKey scope kind inst) = some (s.tb + us (s.drainLimit scope)) ∧ SameDevices s t

/-- A Flight that begins to fence, its trunk aside. -/
def State.fencing (s : State) (scope kind inst cls : Nat) : State :=
  ((s.flightPut .state scope kind inst 1).setFlight (flightKey scope kind inst)
    { s.flight (flightKey scope kind inst) with cause := cls }).arm .drain (flightKey scope kind inst) 0 (us (s.drainLimit scope))

theorem State.fenceFlight_steady (s : State) (scope kind inst cls : Nat) :
    (s.fenceFlight scope kind inst cls).steady = (s.fencing scope kind inst cls).steady := by
  unfold State.fenceFlight
  dsimp only
  rw [State.setFlightState_eq]
  change (if scope < 4 ∧ kind = 1 then (s.fencing scope kind inst cls).trunkFenced (6 * scope + inst)
    else s.fencing scope kind inst cls).steady = _
  split
  · exact State.trunkFenced_steady ..
  · rfl

theorem State.fences_fenceFlight (s : State) (scope kind inst cls : Nat) (h : s.flightGet .lastClass scope kind inst = cls) :
    Fences scope kind inst cls s (s.fenceFlight scope kind inst cls) := by
  have hsteady := s.fenceFlight_steady scope kind inst cls
  have hregs := congrArg State.regs hsteady
  refine ⟨?_, ?_, ?_, ?_, ?_⟩
  · exact (State.flightGet_of_steady hregs ..).trans (s.flightGet_flightPut_same scope kind inst 1 .state (by decide))
  · exact (State.flightGet_of_steady hregs ..).trans ((s.flightGet_flightPut_other scope kind inst 1 (by simp)).trans h)
  · rw [State.flight_of_chip (State.chip_of_steady hsteady)]
    exact congrArg FlightSt.cause (State.flight_setFlight_same ..)
  · rw [State.deadline_of_steady (congrArg State.timers hsteady) rfl]
    exact State.deadline_arm_same ..
  · have hdevices : SameDevices s (s.fencing scope kind inst cls) := ⟨rfl, rfl, rfl, rfl, rfl, rfl, rfl, rfl, rfl, rfl, rfl⟩
    exact hdevices.trans (State.sameDevices_of_steady hsteady)

/-- A fault that acts fences its Flight. -/
theorem State.fences_flightFault (s : State) (scope kind inst cls info : Nat) (hcls : cls < 256)
    (h : s.flightActs scope kind inst = true) : Fences scope kind inst cls s (s.flightFault scope kind inst cls info) := by
  unfold State.flightFault
  simp only [h, if_true, State.setLastClass_eq]
  generalize ErrInfo.mk .. = e
  obtain ⟨hstate, hlast, hcause, hdrain, hdevices⟩ := State.fences_fenceFlight ((s.errLog e).flightPut .lastClass scope kind inst cls)
    scope kind inst cls (State.flightGet_flightPut_same _ _ _ _ _ .lastClass hcls)
  have hlimit : ((s.errLog e).flightPut .lastClass scope kind inst cls).drainLimit scope = s.drainLimit scope := by
    refine State.drainLimit_of_regs (fun n i j hn => ?_) scope
    obtain rfl | rfl := hn <;>
      exact (State.reg_flightPut _ _ _ _ _ _ _ _ (by decide) (by decide)).trans (s.reg_errLog e i j (by decide))
  have htb : ((s.errLog e).flightPut .lastClass scope kind inst cls).tb = s.tb := s.tb_errLog e
  rw [hlimit, htb] at hdrain
  exact ⟨hstate, hlast, hcause, hdrain, (s.sameDevices_errLog e).trans hdevices⟩

/-- A fault that acts not is recorded with its class, and starts nothing. -/
theorem State.logged_flightFault (s : State) (scope kind inst cls info : Nat) (hcls : cls < 256)
    (h : s.flightActs scope kind inst = false) :
    let t := s.flightFault scope kind inst cls info
    t.flightGet .state scope kind inst = s.flightGet .state scope kind inst ∧ t.flightGet .lastClass scope kind inst = cls ∧
      Logged { scope := scope, level := 1, action := 5, cls := cls, unit := kind * 256 + inst, info := info } s t := by
  have heq : s.flightFault scope kind inst cls info = (s.errLog {
      scope := scope, level := 1, action := 5, cls := cls, unit := kind * 256 + inst, info := info }).flightPut .lastClass scope kind inst cls := by
    unfold State.flightFault
    simp only [h, Bool.false_eq_true, if_false, State.setLastClass_eq]
    rfl
  intro t
  refine ⟨?_, ?_, ?_⟩ <;> unfold t <;> rw [heq]
  · rw [State.flightGet_flightPut_other _ _ _ _ _ (by simp), State.flightGet_errLog]
  · exact State.flightGet_flightPut_same _ _ _ _ _ .lastClass hcls
  · exact (s.logged_errLog _).flightPut .lastClass scope kind inst cls

/-- What a fault does depends on the steady part alone. -/
theorem Fences.of_steady {scope kind inst cls : Nat} {s s' t : State} (h : s'.steady = s.steady)
    (hf : Fences scope kind inst cls s' t) : Fences scope kind inst cls s t := by
  obtain ⟨hstate, hlast, hcause, hdrain, hdevices⟩ := hf
  have hlimit : s'.drainLimit scope = s.drainLimit scope := by
    refine State.drainLimit_of_regs (fun n i j hn => State.reg_of_steady (congrArg State.regs h) ?_ i j) scope
    obtain rfl | rfl := hn <;> rfl
  rw [hlimit, State.tb_of_steady h] at hdrain
  exact ⟨hstate, hlast, hcause, hdrain, (State.sameDevices_of_steady h).trans hdevices⟩

/-! Stuck Treads and Tread errors (02 R41, 18 R414). -/

/-- Where a Flight is there, a stuck Tread is a fault of it. -/
theorem exec_stuckTread {scope : Fin 5} {kind : Fin 32} {inst : Fin 16} (tread : BitVec 16) (s : State)
    (h : flightIs scope kind inst = true) : exec (.stuckTread scope kind inst tread) s =
      .next ((if scope.val < 4 then s.addSat F.hallWdogStuckCount scope.val 0 1 0xFFFF
        else s.addSat F.svcWdogStuckCount 0 0 1 0xFFFF).flightFault scope kind inst 3 tread.toNat) := by
  change execStuckTread scope kind inst tread s = _
  unfold execStuckTread
  simp only [h, Bool.not_true, Bool.false_eq_true, if_false]

theorem State.stuckCount_steady (s : State) (scope : Nat) :
    (if scope < 4 then s.addSat F.hallWdogStuckCount scope 0 1 0xFFFF else s.addSat F.svcWdogStuckCount 0 0 1 0xFFFF).steady =
      s.steady := by
  simp +decide only [updates_steady, ite_self]

/-- The errors of a Flight in its window of 1 ms, with one more. -/
def State.windowCount (s : State) (key : Nat) : Nat := if (s.flight key).window = s.tb / 1000000 then (s.flight key).errs + 1 else 1

/-- A Flight that has counted an error of class `cls`. -/
def State.tallied (s : State) (scope kind inst cls : Nat) : State :=
  let key := flightKey scope kind inst
  ((s.flightPut .lastClass scope kind inst cls).flightPut .treadErrs scope kind inst
    (min 0xFFFF (s.flightGet .treadErrs scope kind inst + 1))).setFlight key
      { s.flight key with window := s.tb / 1000000, errs := s.windowCount key }

/-- The first error of a window is recorded. -/
def State.talliedLog (s : State) (scope kind inst cls : Nat) : State :=
  if s.windowCount (flightKey scope kind inst) = 1 then (s.tallied scope kind inst cls).errLog {
    scope := scope, level := 0, action := if s.flightActs scope kind inst then 1 else 5, cls := cls
    unit := kind * 256 + inst, info := 1 }
  else s.tallied scope kind inst cls

section
variable (s : State) (scope kind inst cls : Nat)

theorem State.countErr_eq : (s.setLastClass scope kind inst cls).countErr scope kind inst =
    (s.windowCount (flightKey scope kind inst), s.tallied scope kind inst cls) := by
  have herrs := s.flightGet_flightPut_other scope kind inst cls (f := .lastClass) (g := .treadErrs) (by simp)
  unfold State.countErr
  rw [State.setLastClass_eq, State.addTreadErr_eq, herrs]
  rfl

theorem State.flightGet_tallied_state : (s.tallied scope kind inst cls).flightGet .state scope kind inst = s.flightGet .state scope kind inst :=
  (State.flightGet_flightPut_other _ scope kind inst _ (f := .treadErrs) (by simp)).trans
    (s.flightGet_flightPut_other scope kind inst cls (f := .lastClass) (by simp))

theorem State.flightActs_tallied : (s.tallied scope kind inst cls).flightActs scope kind inst = s.flightActs scope kind inst := by
  have hhall : (s.tallied scope kind inst cls).hallState scope = s.hallState scope :=
    congrArg (fun w : BitVec 64 => w.toNat / 2 ^ (8 * scope) % 4)
      ((State.reg_flightPut _ _ _ _ _ .treadErrs _ _ (by decide) (by decide)).trans
        (s.reg_flightPut scope kind inst cls .lastClass 0 0 (by decide) (by decide)))
  rw [State.flightActs, State.flightActs, State.flightRuns, State.flightRuns, State.flightState_eq, State.flightState_eq,
    State.flightGet_tallied_state, hhall]
  rfl

theorem exec_treadError {scope : Fin 5} {kind : Fin 32} {inst : Fin 16} (parity : Bool) (packet : Nat)
    (h : flightIs scope kind inst = true) : exec (.treadError scope kind inst parity packet) s =
      .next (((s.talliedLog scope kind inst (if parity then 2 else 1)).poisonPacket packet).errBurst scope kind inst
        (s.windowCount (flightKey scope kind inst))) := by
  change execTreadError scope kind inst parity packet s = _
  unfold execTreadError
  simp only [h, Bool.not_true, Bool.false_eq_true, if_false, State.countErr_eq, State.flightActs_tallied]
  unfold State.talliedLog
  by_cases hc : s.windowCount (flightKey scope kind inst) = 1
  · simp only [hc, if_true]; rfl
  · simp only [hc, if_false]

end

section
variable (s : State) (scope kind inst cls : Nat)

/-- What holds of the tally and of every record made of it. -/
theorem State.talliedLog_cases {P : State → Prop} (h : P (s.tallied scope kind inst cls))
    (hlog : ∀ e, P (s.tallied scope kind inst cls) → P ((s.tallied scope kind inst cls).errLog e)) :
    P (s.talliedLog scope kind inst cls) := by
  unfold State.talliedLog
  split
  · exact hlog _ h
  · exact h

theorem State.flightGet_talliedLog_treadErrs : (s.talliedLog scope kind inst cls).flightGet .treadErrs scope kind inst =
    min 0xFFFF (s.flightGet .treadErrs scope kind inst + 1) :=
  s.talliedLog_cases scope kind inst cls (P := fun t => t.flightGet .treadErrs scope kind inst = _)
    (State.flightGet_flightPut_same _ scope kind inst _ .treadErrs (Nat.lt_of_le_of_lt (Nat.min_le_left ..) (by decide)))
    fun _ h => (State.flightGet_errLog ..).trans h

theorem State.flightGet_talliedLog_lastClass (hcls : cls < 256) :
    (s.talliedLog scope kind inst cls).flightGet .lastClass scope kind inst = cls :=
  s.talliedLog_cases scope kind inst cls (P := fun t => t.flightGet .lastClass scope kind inst = cls)
    ((State.flightGet_flightPut_other _ scope kind inst _ (f := .treadErrs) (by simp)).trans
      (s.flightGet_flightPut_same scope kind inst cls .lastClass hcls))
    fun _ h => (State.flightGet_errLog ..).trans h

theorem State.flightGet_talliedLog_state :
    (s.talliedLog scope kind inst cls).flightGet .state scope kind inst = s.flightGet .state scope kind inst :=
  s.talliedLog_cases scope kind inst cls (P := fun t => t.flightGet .state scope kind inst = _) (s.flightGet_tallied_state ..)
    fun _ h => (State.flightGet_errLog ..).trans h

theorem State.flight_errLog (e : ErrInfo) (k : Nat) : (s.errLog e).flight k = s.flight k := by
  have hflights := congrArg Chip.flights (s.errLog_chip e)
  dsimp only at hflights
  rw [State.flight, hflights, State.flight]

theorem State.flight_talliedLog : (s.talliedLog scope kind inst cls).flight (flightKey scope kind inst) =
    { s.flight (flightKey scope kind inst) with
      window := s.tb / 1000000, errs := s.windowCount (flightKey scope kind inst) } :=
  s.talliedLog_cases scope kind inst cls (P := fun t => t.flight (flightKey scope kind inst) = _)
    (State.flight_setFlight_same ..) fun _ h => (State.flight_errLog ..).trans h

/-- What counting an error changes. -/
theorem State.talliedLog_eq : s.talliedLog scope kind inst cls = { s with
    regs := (s.talliedLog scope kind inst cls).regs, chip := (s.talliedLog scope kind inst cls).chip
    mem := (s.talliedLog scope kind inst cls).mem, poisoned := (s.talliedLog scope kind inst cls).poisoned
    threads := (s.talliedLog scope kind inst cls).threads, bellSince := (s.talliedLog scope kind inst cls).bellSince } :=
  s.talliedLog_cases scope kind inst cls (P := fun t => t = { s with
    regs := t.regs, chip := t.chip, mem := t.mem, poisoned := t.poisoned, threads := t.threads, bellSince := t.bellSince })
    rfl fun _ _ => State.errLog_eq ..

theorem State.logged_talliedLog (h : s.windowCount (flightKey scope kind inst) = 1) : Logged {
    scope := scope, level := 0, action := if s.flightActs scope kind inst then 1 else 5, cls := cls
    unit := kind * 256 + inst, info := 1 } s (s.talliedLog scope kind inst cls) := by
  have hring : (s.tallied scope kind inst cls).ringWr scope = s.ringWr scope := by
    have hput : ∀ (s : State) f v, (s.flightPut f scope kind inst v).ringWr scope = s.ringWr scope := fun s f v => by
      unfold State.ringWr
      split <;> exact State.fld_flightPut _ _ _ _ _ _ _ _ _ (by decide) (by decide)
    exact (hput _ .treadErrs _).trans (hput s .lastClass cls)
  have heq : s.talliedLog scope kind inst cls = (s.tallied scope kind inst cls).errLog {
      scope := scope, level := 0, action := if s.flightActs scope kind inst then 1 else 5, cls := cls
      unit := kind * 256 + inst, info := 1 } := if_pos h
  rw [heq]
  obtain ⟨hcount, hwr, hbytes⟩ := (s.tallied scope kind inst cls).logged_errLog {
      scope := scope, level := 0, action := if s.flightActs scope kind inst then 1 else 5, cls := cls
      unit := kind * 256 + inst, info := 1 }
  rw [hring] at hwr
  refine ⟨hcount, hwr, fun a => (hbytes a).trans ?_⟩
  dsimp only
  rw [hring]
  rfl

theorem State.sameMemory_talliedLog (h : s.windowCount (flightKey scope kind inst) ≠ 1) :
    SameMemory s (s.talliedLog scope kind inst cls) := by
  rw [State.talliedLog, if_neg h]
  exact fun _ => rfl

/-- What decides whether the count reaches the threshold stays. -/
theorem State.reg_talliedLog {n : RegName} (i j : Nat) (h : n ≠ .hallFlight) (h' : n ≠ .svcFlight) (hrec : n ∉ recordRegs) :
    (s.talliedLog scope kind inst cls).reg n i j = s.reg n i j :=
  s.talliedLog_cases scope kind inst cls (P := fun t => t.reg n i j = s.reg n i j)
    ((State.reg_flightPut _ _ _ _ _ .treadErrs _ _ h h').trans (s.reg_flightPut scope kind inst cls .lastClass i j h h'))
    fun e heq => (State.reg_errLog _ e i j hrec).trans heq

theorem State.flightActs_talliedLog :
    (s.talliedLog scope kind inst cls).flightActs scope kind inst = s.flightActs scope kind inst := by
  refine s.talliedLog_cases scope kind inst cls (P := fun t => t.flightActs scope kind inst = s.flightActs scope kind inst)
    (s.flightActs_tallied scope kind inst cls) fun e h => Eq.trans ?_ h
  generalize s.tallied scope kind inst cls = t
  have hhall : (t.errLog e).hallState scope = t.hallState scope :=
    congrArg (fun w : BitVec 64 => w.toNat / 2 ^ (8 * scope) % 4) (t.reg_errLog e 0 0 (by decide))
  have hsafe := congrArg Chip.safe (t.errLog_chip e)
  dsimp only at hsafe
  rw [State.flightActs, State.flightActs, State.flightRuns, State.flightRuns, State.flightState_eq, State.flightState_eq,
    State.flightGet_errLog, hhall, hsafe]

end

/-- FENCE_THRESH of a scope. -/
def State.fenceThresh (s : State) (scope : Nat) : Nat :=
  if scope < 4 then s.fld F.hallErrCtrlFenceThresh scope else s.fld F.svcErrCtrlFenceThresh

theorem State.fenceThresh_of_regs {s t : State} (h : ∀ n i j, n = .hallErrCtrl ∨ n = .svcErrCtrl → t.reg n i j = s.reg n i j)
    (scope : Nat) : t.fenceThresh scope = s.fenceThresh scope := by
  have hhall : t.fld F.hallErrCtrlFenceThresh scope 0 = s.fld F.hallErrCtrlFenceThresh scope 0 :=
    congrArg (fldGet _) (h _ _ _ (.inl rfl))
  have hsvc : t.fld F.svcErrCtrlFenceThresh 0 0 = s.fld F.svcErrCtrlFenceThresh 0 0 := congrArg (fldGet _) (h _ _ _ (.inr rfl))
  rw [State.fenceThresh, hhall, hsvc, State.fenceThresh]

theorem State.errBurst_eq (s : State) (scope kind inst n : Nat) :
    s.errBurst scope kind inst n = if n = s.fenceThresh scope then s.flightFault scope kind inst 4 n else s := rfl

theorem State.fenceThresh_talliedLog (s : State) (scope kind inst cls packet : Nat) :
    ((s.talliedLog scope kind inst cls).poisonPacket packet).fenceThresh scope = s.fenceThresh scope := by
  refine State.fenceThresh_of_regs (fun n i j hn => ?_) scope
  have hsteady := (s.talliedLog scope kind inst cls).poisonPacket_steady packet
  obtain rfl | rfl := hn <;>
    exact (State.reg_of_steady (congrArg State.regs hsteady) rfl i j).trans
      (s.reg_talliedLog _ _ _ _ i j (by decide) (by decide) (by decide))

/-- The error that reaches the threshold fences. -/
theorem State.fences_errBurst (s : State) (scope kind inst cls packet : Nat)
    (hacts : s.flightActs scope kind inst = true) (hcount : s.windowCount (flightKey scope kind inst) = s.fenceThresh scope) :
    Fences scope kind inst 4 (s.talliedLog scope kind inst cls) (((s.talliedLog scope kind inst cls).poisonPacket packet).errBurst
      scope kind inst (s.windowCount (flightKey scope kind inst))) := by
  have hsteady := (s.talliedLog scope kind inst cls).poisonPacket_steady packet
  rw [State.errBurst_eq, State.fenceThresh_talliedLog, if_pos hcount]
  refine Fences.of_steady hsteady (State.fences_flightFault _ _ _ _ _ _ (by decide) ?_)
  rw [State.flightActs_of_steady hsteady, State.flightActs_talliedLog, hacts]

/-- An error of no packet, below the threshold, is counted and no more. -/
theorem State.errBurst_talliedLog (s : State) (scope kind inst cls packet : Nat) (hpacket : s.parcel packet = none)
    (hcount : s.windowCount (flightKey scope kind inst) ≠ s.fenceThresh scope) :
    ((s.talliedLog scope kind inst cls).poisonPacket packet).errBurst scope kind inst (s.windowCount (flightKey scope kind inst)) =
      s.talliedLog scope kind inst cls := by
  have hparcel : (s.talliedLog scope kind inst cls).parcel packet = none := by rw [State.talliedLog_eq]; exact hpacket
  rw [State.errBurst_eq, State.fenceThresh_talliedLog, if_neg hcount, State.poisonPacket, hparcel]

/-! Commands at a Flight and their ends (18 R415, R416; 19 R438). -/

theorem onlyField_setFld (s : State) (f : Fld) (i j v : Nat) (h : f.lo ≤ f.hi) : OnlyField f i j s (s.setFld f i j v) := by
  refine ⟨fun n a b hne => ?_, fun g _ hg hg' happart => ?_⟩
  · exact (State.reg_setFld ..).trans (if_neg fun e => hne ⟨e.1.symm, e.2.1.symm, e.2.2.symm⟩)
  · exact State.fld_setFld_other _ _ _ _ _ _ _ _ hg' hg (.inr (by omega))

/-- CMD_ERR of a scope alone is set. -/
def CmdErr (scope : Nat) (s t : State) : Prop := OnlyRegs s t ∧
  (if scope < 4 then t.fld F.hallFlightCmdCmdErr scope = 1 ∧ OnlyField F.hallFlightCmdCmdErr scope 0 s t
    else t.fld F.svcFlightCmdCmdErr = 1 ∧ OnlyField F.svcFlightCmdCmdErr 0 0 s t)

theorem State.cmdErr_flightCmdErr (s : State) (scope : Nat) : CmdErr scope s (s.flightCmdErr scope) := by
  unfold State.flightCmdErr CmdErr
  split
  · exact ⟨OnlyRegs.setFld .., State.fld_setFld_same _ F.hallFlightCmdCmdErr _ _ _ (by decide) (by decide),
      onlyField_setFld _ F.hallFlightCmdCmdErr _ _ _ (by decide)⟩
  · exact ⟨OnlyRegs.setFld .., State.fld_setFld_same _ F.svcFlightCmdCmdErr _ _ _ (by decide) (by decide),
      onlyField_setFld _ F.svcFlightCmdCmdErr _ _ _ (by decide)⟩

section
variable (s : State) (scope kind inst : Nat)

/-- FENCE is a fault of a Flight in RUN. -/
theorem State.flightFence_runs (jtag : Bool) (h : flightIs scope kind inst = true) (hrun : s.flightGet .state scope kind inst = 0) :
    s.flightFence scope kind inst jtag = s.flightFault scope kind inst 15 (if jtag then 0 else 8) := by
  rw [State.flightFence, State.flightRuns, State.flightState_eq, h, hrun]
  rfl

theorem State.flightFence_busy (jtag : Bool) (hrun : s.flightGet .state scope kind inst ≠ 0) :
    s.flightFence scope kind inst jtag = s.flightCmdErr scope := by
  rw [State.flightFence, State.flightRuns, State.flightState_eq, beq_false_of_ne hrun, Bool.and_false]
  rfl

theorem State.flightUnfence_fenced (h : flightIs scope kind inst = true) (hst : s.flightGet .state scope kind inst = 2)
    (hcause : (s.flight (flightKey scope kind inst)).cause ≠ 3) : s.flightUnfence scope kind inst = s.flightBack scope kind inst := by
  rw [State.flightUnfence, State.flightState_eq, h, hst]
  simp [hcause]

theorem State.flightUnfence_refused (h : s.flightGet .state scope kind inst ≠ 2 ∨
    (s.flight (flightKey scope kind inst)).cause = 3) : s.flightUnfence scope kind inst = s.flightCmdErr scope := by
  rw [State.flightUnfence, State.flightState_eq]
  obtain h | h := h
  · rw [beq_false_of_ne h, Bool.and_false, Bool.false_and]; rfl
  · simp [h]

theorem State.flightResetCmd_fenced (h : flightIs scope kind inst = true) (hst : s.flightGet .state scope kind inst = 2) :
    s.flightResetCmd scope kind inst =
      (s.flightPut .state scope kind inst 3).arm .flightReset (flightKey scope kind inst) 0 (us 10) := by
  rw [State.flightResetCmd, State.flightState_eq, State.setFlightState_eq, h, hst]
  rfl

theorem State.flightResetCmd_refused (hst : s.flightGet .state scope kind inst ≠ 2) :
    s.flightResetCmd scope kind inst = s.flightCmdErr scope := by
  rw [State.flightResetCmd, State.flightState_eq, beq_false_of_ne hst, Bool.and_false]
  rfl

/-- A Flight whose reset is done, but for its STATE. -/
def State.flightCleared : State :=
  let t := (s.flightPut .treadErrs scope kind inst 0).disarm .flightReset (flightKey scope kind inst) 0
  { t with poisoned := t.poisoned.filter (fun w => sramOwner w != some (scope, kind, inst)) }

/-- A Flight in RUN again, with nothing kept of its faults. -/
def State.unfenced : State := (s.flightPut .state scope kind inst 0).setFlight (flightKey scope kind inst) {}

theorem State.flightBack_steady : (s.flightBack scope kind inst).steady = (s.unfenced scope kind inst).steady := by
  unfold State.flightBack
  rw [State.setFlightState_eq]
  change State.steady (if _ then (let n := 6 * scope + inst
    let s := (s.unfenced scope kind inst).wakeCores.setTrk n { (s.unfenced scope kind inst).wakeCores.trk n with fenced := false }
    if s.flag F.trkCfgEn n ∧ !s.isTd n then s.trunkGo n else s) else (s.unfenced scope kind inst).wakeCores) = _
  dsimp only
  simp only [↓updates_steady, ↓State.trunkGo_steady, ↓State.wakeCores_steady, ite_self]

/-- What a Flight in RUN again shows. -/
theorem State.flightBack_spec : let t := s.flightBack scope kind inst
    t.flightGet .state scope kind inst = 0 ∧ t.flightGet .treadErrs scope kind inst = s.flightGet .treadErrs scope kind inst ∧
      t.flight (flightKey scope kind inst) = {} ∧ t.deadline .flightReset (flightKey scope kind inst) =
        s.deadline .flightReset (flightKey scope kind inst) ∧ SameDevices s t ∧ SameMemory s t := by
  have hsteady := s.flightBack_steady scope kind inst
  have hregs := congrArg State.regs hsteady
  have hdevices : SameDevices s (s.unfenced scope kind inst) := ⟨rfl, rfl, rfl, rfl, rfl, rfl, rfl, rfl, rfl, rfl, rfl⟩
  refine ⟨?_, ?_, ?_, ?_, hdevices.trans (State.sameDevices_of_steady hsteady), fun a => State.sameMemory_of_steady hsteady a⟩
  · exact (State.flightGet_of_steady hregs ..).trans (s.flightGet_flightPut_same scope kind inst 0 .state (by decide))
  · exact (State.flightGet_of_steady hregs ..).trans (s.flightGet_flightPut_other scope kind inst 0 (by simp))
  · exact (State.flight_of_chip (State.chip_of_steady hsteady) _).trans (State.flight_setFlight_same ..)
  · exact State.deadline_of_steady (congrArg State.timers hsteady) rfl _ _

end

theorem exec_flightFenced {scope : Fin 5} {kind : Fin 32} {inst : Fin 16} {s : State}
    (hst : s.flightGet .state scope kind inst = 1) (hcause : (s.flight (flightKey scope kind inst)).cause ≠ 3) :
    exec (.flightFenced scope kind inst) s = .next (((s.flightDiscard scope kind inst).flightPut .state scope kind inst 2).disarm
      .drain (flightKey scope kind inst) 0) := by
  change execFlightFenced scope kind inst s = _
  unfold execFlightFenced
  rw [State.flightState_eq, State.setFlightState_eq]
  exact if_pos ⟨hst, hcause⟩

theorem exec_flightResetDone {scope : Fin 5} {kind : Fin 32} {inst : Fin 16} {s : State}
    (hst : s.flightGet .state scope kind inst = 3) :
    exec (.flightResetDone scope kind inst) s = .next ((s.flightCleared scope kind inst).flightBack scope kind inst) := by
  change execFlightResetDone scope kind inst s = _
  unfold execFlightResetDone
  rw [State.flightState_eq, State.clearTreadErrs_eq]
  exact if_pos hst

/-- FLIGHT_FENCED ends the drain. -/
theorem does_flightFenced (scope : Fin 5) (kind : Fin 32) (inst : Fin 16) (s : State)
    (hst : s.flightGet .state scope kind inst = 1) (hcause : (s.flight (flightKey scope kind inst)).cause ≠ 3) :
    Does (.flightFenced scope kind inst) s fun t => t.flightGet .state scope kind inst = 2 ∧
      t.deadline .drain (flightKey scope kind inst) = none ∧ SameDevices s t ∧ SameMemory s t := by
  have hsteady := s.flightDiscard_steady scope kind inst
  have hdevices := State.sameDevices_of_steady hsteady
  exact ⟨_, exec_flightFenced hst hcause, State.flightGet_flightPut_same _ _ _ _ _ .state (by decide),
    State.deadline_disarm_same .., hdevices.trans ⟨rfl, rfl, rfl, rfl, rfl, rfl, rfl, rfl, rfl, rfl, rfl⟩,
    fun a => State.sameMemory_of_steady hsteady a⟩

/-- A Flight reset is done: RUN, with TREAD_ERRS 0. -/
theorem does_flightResetDone (scope : Fin 5) (kind : Fin 32) (inst : Fin 16) (s : State)
    (hst : s.flightGet .state scope kind inst = 3) :
    Does (.flightResetDone scope kind inst) s fun t => t.flightGet .state scope kind inst = 0 ∧
      t.flightGet .treadErrs scope kind inst = 0 ∧ t.flight (flightKey scope kind inst) = {} ∧
      t.deadline .flightReset (flightKey scope kind inst) = none ∧ SameDevices s t ∧ SameMemory s t := by
  obtain ⟨hstate, herrs, hflight, htimer, hdevices, hmem⟩ := (s.flightCleared scope kind inst).flightBack_spec scope kind inst
  exact ⟨_, exec_flightResetDone hst, hstate, herrs.trans (s.flightGet_flightPut_same _ _ _ _ .treadErrs (by decide)), hflight,
    htimer.trans (State.deadline_disarm_same ..), hdevices, hmem⟩

end Sys2Proof.Machine
end

section
/-! PROOFS. Hall and chip faults (18 R417 to R424). -/

namespace Sys2Proof.Machine

/-! A Hall-level fault (18 R417). -/

theorem State.hallState_setHallState (s : State) {h : Nat} (v : Nat) (hh : h < 4) : (s.setHallState h v).hallState h = v % 4 := by
  have hwidth : 8 * h + 1 - 8 * h + 1 = 2 := by omega
  have hslot := slotGet_slotPut_same (8 * h + 1) (8 * h) v (s.reg .chipHallCtl) (by omega) (by omega)
  rw [slotGet, hwidth] at hslot
  unfold State.hallState State.setHallState
  rw [State.reg_setReg_same]
  exact hslot

theorem State.hallCtl_setHallCtl (s : State) (h : Nat) (v : HallCtl) : (s.setHallCtl h v).hallCtl h = v := by
  simp [State.hallCtl, State.setHallCtl]

/-- The Hall is quarantined: QUARANTINING from now, with two records of why. -/
def Quarantines (h : Nat) (s t : State) : Prop :=
  t.hallState h = 1 ∧ (t.hallCtl h).since = s.tb ∧ t.ringCount h = s.ringCount h + 2 ∧ SameDevices s t ∧ t.chip.sweep = s.chip.sweep

/-- A Hall that begins quarantine, its Ushers, packets and trunks aside. -/
def State.quarantining (s : State) (h : Nat) (e e' : ErrInfo) : State :=
  ((((s.errLog e).setHallState h 1).errLog e').setHallCtl h { since := s.tb })

theorem State.hallFault_steady (s : State) (h cls info : Nat) (hrun : s.hallState h = 0) (hsafe : s.chip.safe = none) :
    (s.hallFault h cls info).steady = (s.quarantining h { scope := h, level := 2, action := 3, cls := cls, info := info }
      { scope := h, level := 2, action := 3, cls := 8, info := cls }).steady := by
  have hacts : (s.hallState h == 0 && s.chip.safe.isNone) = true := by rw [hrun, hsafe]; rfl
  unfold State.hallFault
  simp only [hacts, if_true, Bool.not_true, Bool.false_eq_true, if_false, State.tb_errLog]
  unfold State.quarantining
  generalize ErrInfo.mk .. = e
  generalize ErrInfo.mk .. = e'
  have htb : ((s.errLog e).setHallState h 1).tb = s.tb := s.tb_errLog e
  simp +decide only [↓foldl_steady, ↓State.trunkQuarantined_steady, implies_true, ↓updates_steady, ↓State.quarantinePackets_steady,
    ↓State.usherHaltSet_steady]
  rw [htb]

theorem State.quarantines_quarantining (s : State) {h : Nat} {e e' : ErrInfo} (hh : h < 4) (he : e.scope = h) (he' : e'.scope = h) :
    Quarantines h s (s.quarantining h e e') := by
  unfold State.quarantining
  have hstate : (((s.errLog e).setHallState h 1).errLog e').hallState h = 1 := by
    have hreg := State.reg_errLog ((s.errLog e).setHallState h 1) e' (n := .chipHallCtl) 0 0 (by decide)
    rw [State.hallState, hreg]
    exact State.hallState_setHallState _ 1 hh
  have hcount := State.ringCount_errLog ((s.errLog e).setHallState h 1) e' h
  have hcount' := s.ringCount_errLog e h
  have hsweep := congrArg Chip.sweep (State.errLog_chip ((s.errLog e).setHallState h 1) e')
  have hsweep' := congrArg Chip.sweep (s.errLog_chip e)
  have hdevices : SameDevices (s.errLog e) ((s.errLog e).setHallState h 1) := ⟨rfl, rfl, rfl, rfl, rfl, rfl, rfl, rfl, rfl, rfl, rfl⟩
  rw [if_pos he'] at hcount
  rw [if_pos he] at hcount'
  refine ⟨hstate, ?_, ?_, ?_, ?_⟩
  · rw [State.hallCtl_setHallCtl]
  · exact hcount.trans (congrArg (· + 1) hcount')
  · exact (s.sameDevices_errLog e).trans (hdevices.trans (State.sameDevices_errLog _ e'))
  · exact hsweep.trans hsweep'

theorem Quarantines.of_steady {h : Nat} {s t u : State} (heq : t.steady = u.steady) (hq : Quarantines h s u) : Quarantines h s t := by
  obtain ⟨hstate, hsince, hcount, hdevices, hsweep⟩ := hq
  have hreg := State.reg_of_steady (congrArg State.regs heq) (n := .chipHallCtl) rfl 0 0
  have hhalls := congrArg Chip.halls (State.chip_of_steady heq)
  have hsweep' := congrArg Chip.sweep (State.chip_of_steady heq)
  dsimp only at hhalls hsweep'
  refine ⟨?_, ?_, (State.ringCount_of_steady heq h).trans hcount, hdevices.trans (State.sameDevices_of_steady heq),
    hsweep'.trans hsweep⟩
  · rw [State.hallState, hreg]
    exact hstate
  · rw [State.hallCtl, hhalls]
    exact hsince

/-- A fault of a Hall in RUN quarantines it. -/
theorem State.quarantines_hallFault (s : State) {h : Nat} (cls info : Nat) (hh : h < 4) (hrun : s.hallState h = 0)
    (hsafe : s.chip.safe = none) : Quarantines h s (s.hallFault h cls info) :=
  Quarantines.of_steady (s.hallFault_steady h cls info hrun hsafe) (s.quarantines_quarantining hh rfl rfl)

/-! A chip fault (18 R419 to R421, R424). -/

/-- The steady part but for memory. -/
def State.settled (s : State) : State := { s.steady with mem := [] }

theorem State.settled_of_steady {s t : State} (h : t.steady = s.steady) : t.settled = s.settled := by
  rw [State.settled, h, State.settled]

theorem State.mem_settled (s : State) (m : List Host.Cell) : ({ s with mem := m } : State).settled = s.settled := rfl

theorem State.setByte_settled (s : State) (a : Nat) (v : Byte) : (s.setByte a v).settled = s.settled := s.mem_settled _

theorem State.setBytes_settled (s : State) (a : Nat) (l : List Byte) : (s.setBytes a l).settled = s.settled := by
  rw [State.setBytes_eq]
  exact s.mem_settled _

theorem State.writeBytes_settled (s : State) (a : Nat) (l : List Byte) : (s.writeBytes a l).settled = s.settled :=
  (State.setBytes_settled ..).trans rfl

theorem State.setLocal_settled (s : State) (c a : Nat) (v : List Byte) : (s.setLocal c a v).settled = s.settled :=
  State.writeBytes_settled ..

theorem State.byte_setLocal_below (s : State) {c a b : Nat} (v : List Byte) (h : b < localBase c) :
    (s.setLocal c a v).byte b = s.byte b := by
  rw [State.setLocal, State.byte_writeBytes, if_neg (by omega)]

theorem State.byte_of_steady {s t : State} (h : t.steady = s.steady) (a : Nat) : t.byte a = s.byte a := State.sameMemory_of_steady h a

/-- Zeroization in two steps: the open operations, which write the Warden's memory, and the rest, which writes none. -/
theorem State.zeroize_steady (s : State) : s.zeroize.steady = (s.warden.ops.foldl (fun (s : State) op =>
    (op.writes.foldl (fun (s : State) e => s.setLocal 10 e.1 (e.2.map (fun _ => 0))) s).otComplete 10 0 op.tag 7 0) s).steady := by
  have hwarden : ∀ (s : State) w, (s.setWarden w).steady = s.steady := fun _ _ => rfl
  unfold State.zeroize
  simp +decide only [↓updates_steady, ↓foldl_steady, ↓State.secDrop_steady, ↓State.trunkLost_steady, ↓hwarden, implies_true, ite_self]

theorem State.zeroize_settled (s : State) : s.zeroize.settled = s.settled := by
  refine (State.settled_of_steady s.zeroize_steady).trans (foldl_keeps State.settled _ s fun s op => ?_)
  exact (State.settled_of_steady (State.otComplete_steady ..)).trans
    (foldl_keeps State.settled _ s fun s e => s.setLocal_settled ..)

theorem State.byte_zeroize (s : State) {a : Nat} (h : a < localBase 10) : s.zeroize.byte a = s.byte a := by
  refine (State.byte_of_steady s.zeroize_steady a).trans (foldl_keeps (fun s => s.byte a) _ s fun s op => ?_)
  exact (State.byte_of_steady (State.otComplete_steady ..) a).trans
    (foldl_keeps (fun s => s.byte a) _ s fun s e => s.byte_setLocal_below _ h)

theorem State.crashPcs_steady (s : State) : s.crashPcs.2.steady = s.steady := by
  unfold State.crashPcs
  generalize List.range 11 = l
  suffices h : ∀ x : List Byte × State, (l.foldl (fun (x : List Byte × State) c =>
      let r := x.2.openValue
      let d := r.1.getLsbD 0
      (x.1 ++ (List.range (coreThreads c)).flatMap (fun t => leBytes 8 (s.crashPc c t d)), r.2)) x).2.steady = x.2.steady from h _
  induction l with
  | nil => exact fun _ => rfl
  | cons c l ih => exact fun x => ih _

theorem State.crashWrite_settled (s : State) (cls : Nat) (first : List Byte) : (s.crashWrite cls first).settled = s.settled := by
  unfold State.crashWrite
  split
  · exact (State.setBytes_settled ..).trans ((State.setByte_settled ..).trans (State.setByte_settled ..))
  · exact (State.writeBytes_settled ..).trans (State.settled_of_steady s.crashPcs_steady)

/-- A crash record that is written shows VALID and the class. -/
theorem State.crashWrite_empty (s : State) (cls : Nat) (first : List Byte) (h : s.byte (crashBase + 4) = 0) :
    (s.crashWrite cls first).byte (crashBase + 4) = 1 ∧ (s.crashWrite cls first).byte (crashBase + 5) = BitVec.ofNat 8 cls := by
  have hvalid : s.crashValid = false := by rw [State.crashValid, h]; rfl
  have hbytes : ∀ pcs, ∃ rest, s.crashBytes cls first pcs = 0x43 :: 0x52 :: 0x53 :: 0x48 :: 1 :: BitVec.ofNat 8 cls :: rest := fun pcs => by
    have hversion : leBytes 1 1 = [1] := rfl
    have hclass : leBytes 1 cls = [BitVec.ofNat 8 cls] := rfl
    unfold State.crashBytes
    simp only [hversion, hclass, List.append_assoc, List.cons_append, List.nil_append]
    exact ⟨_, rfl⟩
  rw [State.crashWrite, hvalid]
  obtain ⟨rest, hrest⟩ := hbytes s.crashPcs.1
  dsimp only
  rw [hrest]
  simp [State.byte_writeBytes]

/-- A chip fault that enters SAFE, step by step. -/
def State.enteringSafe (s : State) (cls : Nat) (security : Bool) (e : ErrInfo) : State :=
  let t := s.errLog e
  let t : State := { t with chip := { t.chip with safe := some t.tb } }
  let t := (t.setFld F.newelSafeInSafe 0 0 1).setFld F.newelSafeCause 0 0 cls
  let t := if security && cls != 13 then t.zeroize else t
  let t := t.powerSafe
  let t := (List.range 4).foldl (fun (s : State) h => s.idleHall h) t
  let t := t.crashWrite cls (s.errRecord e)
  let t := t.arm .safeHold 0 0 (if cls = 14 then 0 else ms (t.fld F.newelSafeHold))
  t.ring 8 147

theorem State.chipFault_enteringSafe (s : State) (cls unit info : Nat) (security : Bool) (h : s.chip.safe = none) :
    s.chipFault cls unit info security =
      s.enteringSafe cls security { scope := 4, level := 3, action := 4, cls := cls, unit := unit, info := info } := by
  have hsafe := fun e => congrArg Chip.safe (s.errLog_chip e)
  dsimp only at hsafe
  unfold State.chipFault
  simp only [hsafe, h, Option.isSome_none, Bool.false_eq_true, if_false]
  rfl

/-- The chip is marked in SAFE, with its cause. -/
def State.markedSafe (s : State) (cls : Nat) (e : ErrInfo) : State :=
  ((({ s.errLog e with chip := { (s.errLog e).chip with safe := some (s.errLog e).tb } } : State).setFld F.newelSafeInSafe 0 0 1).setFld
    F.newelSafeCause 0 0 cls)

/-- The chip made safe, and its crash record written. -/
def State.madeSafe (s : State) (cls : Nat) (security : Bool) (e : ErrInfo) : State :=
  let t := s.markedSafe cls e
  let t := if security && cls != 13 then t.zeroize else t
  ((List.range 4).foldl (fun (s : State) h => s.idleHall h) t.powerSafe).crashWrite cls (s.errRecord e)

section
variable (s : State) (cls : Nat) (security : Bool) (e : ErrInfo)

theorem State.enteringSafe_eq : s.enteringSafe cls security e = ((s.madeSafe cls security e).arm .safeHold 0 0
    (if cls = 14 then 0 else ms ((s.madeSafe cls security e).fld F.newelSafeHold))).ring 8 147 := rfl

theorem State.madeSafe_settled : (s.madeSafe cls security e).settled = (s.markedSafe cls e).settled := by
  have hidle : ∀ s : State, ((List.range 4).foldl (fun (s : State) h => s.idleHall h) s).steady = s.steady := fun s =>
    foldl_steady _ s fun s h => s.idleHall_steady h
  unfold State.madeSafe
  refine (State.crashWrite_settled ..).trans ((State.settled_of_steady (hidle _)).trans
    ((State.settled_of_steady (State.powerSafe_steady _)).trans ?_))
  split
  · exact State.zeroize_settled _
  · rfl

theorem State.byte_crash_markedSafe {a : Nat} (h : a < crashBase + 8) : (s.markedSafe cls e).byte a = s.byte a := by
  have hbelow : ¬ringBase e.scope ≤ a := fun hle => by have := crashBase_lt_ringBase e.scope; omega
  obtain ⟨-, -, hbytes⟩ := s.logged_errLog e
  exact (hbytes a).trans (if_neg fun hin => hbelow (by omega))

theorem State.crash_madeSafe (h : s.byte (crashBase + 4) = 0) : (s.madeSafe cls security e).byte (crashBase + 4) = 1 ∧
    (s.madeSafe cls security e).byte (crashBase + 5) = BitVec.ofNat 8 cls := by
  have hidle : ∀ s : State, ((List.range 4).foldl (fun (s : State) h => s.idleHall h) s).steady = s.steady := fun s =>
    foldl_steady _ s fun s h => s.idleHall_steady h
  refine State.crashWrite_empty _ cls _ ((State.byte_of_steady (hidle _) _).trans
    ((State.byte_of_steady (State.powerSafe_steady _) _).trans ?_))
  split
  · exact (State.byte_zeroize _ (by decide)).trans ((s.byte_crash_markedSafe cls e (by decide)).trans h)
  · exact (s.byte_crash_markedSafe cls e (by decide)).trans h

theorem State.fld_hold_markedSafe : (s.markedSafe cls e).fld F.newelSafeHold = s.fld F.newelSafeHold := by
  unfold State.markedSafe
  rw [State.fld_setFld_other _ _ _ _ _ _ _ _ (by decide) (by decide) (.inr (.inr (by decide))),
    State.fld_setFld_other _ _ _ _ _ _ _ _ (by decide) (by decide) (.inr (.inr (by decide)))]
  exact s.fld_errLog e _ 0 0 (by decide)

/-- A chip fault that comes first enters SAFE. -/
theorem State.entersSafe_enteringSafe (hcls : cls < 128) : EntersSafe cls s (s.enteringSafe cls security e) := by
  rw [State.enteringSafe_eq]
  have hcrash := s.crash_madeSafe cls security e
  have hsettled := s.madeSafe_settled cls security e
  generalize s.madeSafe cls security e = t at hcrash hsettled ⊢
  have hregs : t.steady.regs = (s.markedSafe cls e).steady.regs := (congrArg State.regs hsettled :)
  have htb : t.tb = s.tb := (congrArg State.tb hsettled :).trans (s.tb_errLog e)
  have hsafe := congrArg (fun u : State => u.chip.safe) hsettled
  have hring := congrArg Chip.safe ((t.arm .safeHold 0 0 (if cls = 14 then 0 else ms (t.fld F.newelSafeHold))).ring_chip 8 147)
  have hhold : t.fld F.newelSafeHold = s.fld F.newelSafeHold :=
    (State.fld_of_steady hregs rfl 0 0).trans (s.fld_hold_markedSafe cls e)
  have hmark : (s.markedSafe cls e).chip.safe = some s.tb := congrArg some (s.tb_errLog e)
  dsimp only at hring
  refine ⟨?_, ?_, ?_, ?_, fun hempty => ?_⟩
  · exact hring.trans (hsafe.trans hmark)
  · rw [State.fld_ring _ _ _ _ _ _ (by decide) (by decide)]
    refine (State.fld_of_steady hregs rfl 0 0).trans ?_
    unfold State.markedSafe
    rw [State.fld_setFld_other _ _ _ _ _ _ _ _ (by decide) (by decide) (.inr (.inr (by decide)))]
    exact State.fld_setFld_same _ F.newelSafeInSafe 0 0 1 (by decide) (by decide)
  · rw [State.fld_ring _ _ _ _ _ _ (by decide) (by decide)]
    exact (State.fld_of_steady hregs rfl 0 0).trans
      ((State.fld_setFld_same _ F.newelSafeCause 0 0 cls (by decide) (by decide)).trans (Nat.mod_eq_of_lt hcls))
  · rw [State.deadline_ring, hhold, State.deadline_arm_same, htb]
  · rw [State.byte_ring, State.byte_ring]
    exact hcrash hempty

end

theorem State.entersSafe_chipFault (s : State) {cls : Nat} (unit info : Nat) (security : Bool) (hcls : cls < 128)
    (h : s.chip.safe = none) : EntersSafe cls s (s.chipFault cls unit info security) := by
  rw [s.chipFault_enteringSafe cls unit info security h]
  exact s.entersSafe_enteringSafe cls security _ hcls

/-! The drain limit (01 R14). -/

theorem exec_drainTimeout {scope : Fin 5} {kind : Fin 32} {inst : Fin 16} {s : State} (hst : s.flightGet .state scope kind inst = 1)
    (hdue : s.due .drain (flightKey scope kind inst) = true) : exec (.drainTimeout scope kind inst) s =
      .next (if scope.val < 4 then
        (s.disarm .drain (flightKey scope kind inst) 0).hallFault scope.val 6 (flightUnit kind inst)
      else (s.disarm .drain (flightKey scope kind inst) 0).chipFault 6 0xFFFF (flightUnit kind inst) (kind.val == 0x12)) := by
  change execDrainTimeout scope kind inst s = _
  unfold execDrainTimeout
  rw [State.flightState_eq]
  exact if_pos ⟨hdue, hst⟩

end Sys2Proof.Machine
end

section
/-! PROOFS. O25, the fence of a Flight and its return (18 R414 to R416). -/

namespace Sys2Proof.Machine

theorem does_stuckTread_fences (scope : Fin 5) (kind : Fin 32) (inst : Fin 16) (tread : BitVec 16) (s : State)
    (hthere : flightIs scope kind inst = true) (hacts : s.flightActs scope kind inst = true) :
    Does (.stuckTread scope kind inst tread) s (Fences scope kind inst 3 s) := by
  have hsteady := s.stuckCount_steady scope
  refine ⟨_, exec_stuckTread tread s hthere, Fences.of_steady hsteady (State.fences_flightFault _ _ _ _ _ _ (by decide) ?_)⟩
  rw [State.flightActs_of_steady hsteady, hacts]

theorem does_stuckTread_logged (scope : Fin 5) (kind : Fin 32) (inst : Fin 16) (tread : BitVec 16) (s : State)
    (hthere : flightIs scope kind inst = true) (hacts : s.flightActs scope kind inst = false) :
    Does (.stuckTread scope kind inst tread) s fun t =>
      t.flightGet .state scope kind inst = s.flightGet .state scope kind inst ∧ t.flightGet .lastClass scope kind inst = 3 ∧
      Logged { scope := scope, level := 1, action := 5, cls := 3, unit := kind.val * 256 + inst.val, info := tread.toNat } s t := by
  have hsteady := s.stuckCount_steady scope
  obtain ⟨hstate, hlast, hlog⟩ := State.logged_flightFault _ scope.val kind.val inst.val 3 tread.toNat (by decide)
    ((State.flightActs_of_steady hsteady scope kind inst).trans hacts)
  exact ⟨_, exec_stuckTread tread s hthere, hstate.trans (State.flightGet_of_steady (congrArg State.regs hsteady) ..), hlast,
    hlog.of_steady hsteady⟩

theorem does_flightFence (scope : Fin 5) (kind : Fin 32) (inst : Fin 16) {n : Fin 256} (jtag : Bool) (s : State) (hn : n.val = inst.val)
    (hthere : flightIs scope kind inst = true) (hacts : s.flightActs scope kind inst = true) :
    Does (.flightFence scope kind n jtag) s (Fences scope kind inst 15 s) := by
  have hrun : s.flightGet .state scope kind inst = 0 := by
    rw [State.flightActs, State.flightRuns, State.flightState_eq] at hacts
    simp only [Bool.and_eq_true, beq_iff_eq] at hacts
    exact hacts.2
  have hfence := s.flightFence_runs scope kind inst jtag hthere hrun
  rw [← hn] at hfence
  refine ⟨_, rfl, ?_⟩
  rw [hfence, hn]
  exact State.fences_flightFault _ _ _ _ _ _ (by decide) hacts

theorem does_treadError_fences (scope : Fin 5) (kind : Fin 32) (inst : Fin 16) (parity : Bool) (packet : Nat) (s : State)
    (hthere : flightIs scope kind inst = true) (hacts : s.flightActs scope kind inst = true)
    (hcount : s.windowCount (flightKey scope kind inst) = s.fenceThresh scope) :
    Does (.treadError scope kind inst parity packet) s fun t => t.flightGet .state scope kind inst = 1 ∧
      (t.flight (flightKey scope kind inst)).cause = 4 ∧ SameDevices s t := by
  obtain ⟨hstate, -, hcause, -, hdevices⟩ :=
    s.fences_errBurst scope kind inst (if parity then 2 else 1) packet hacts hcount
  have htally : SameDevices s (s.talliedLog scope kind inst (if parity then 2 else 1)) := by
    rw [State.talliedLog_eq]
    exact ⟨rfl, rfl, rfl, rfl, rfl, rfl, rfl, rfl, rfl, rfl, rfl⟩
  exact ⟨_, exec_treadError s parity packet hthere, hstate, hcause, htally.trans hdevices⟩

/-- An error that counts in a Flight and in its window of 1 ms, and changes nothing else but a record. -/
def Counted (scope kind inst cls : Nat) (s t : State) : Prop :=
  t.flightGet .treadErrs scope kind inst = min 0xFFFF (s.flightGet .treadErrs scope kind inst + 1) ∧
    t.flightGet .lastClass scope kind inst = cls ∧ (t.flight (flightKey scope kind inst)).window = s.tb / 1000000 ∧
    (t.flight (flightKey scope kind inst)).errs = s.windowCount (flightKey scope kind inst) ∧
    t.flightGet .state scope kind inst = s.flightGet .state scope kind inst ∧
    t = { s with
      regs := t.regs, chip := t.chip, mem := t.mem, poisoned := t.poisoned, threads := t.threads, bellSince := t.bellSince }

theorem does_treadError_counted (scope : Fin 5) (kind : Fin 32) (inst : Fin 16) (parity : Bool) (packet : Nat) (s : State)
    (hthere : flightIs scope kind inst = true) (hpacket : s.parcel packet = none)
    (hcount : s.windowCount (flightKey scope kind inst) ≠ s.fenceThresh scope) :
    Does (.treadError scope kind inst parity packet) s fun t => Counted scope kind inst (if parity then 2 else 1) s t ∧
      (s.windowCount (flightKey scope kind inst) = 1 → Logged {
        scope := scope, level := 0, action := (if s.flightActs scope kind inst then 1 else 5), cls := (if parity then 2 else 1)
        unit := kind.val * 256 + inst.val, info := 1 } s t) ∧
      (s.windowCount (flightKey scope kind inst) ≠ 1 → SameMemory s t) := by
  have hcls : (if parity then 2 else 1) < 256 := by split <;> decide
  have hflight := s.flight_talliedLog scope kind inst (if parity then 2 else 1)
  refine ⟨_, exec_treadError s parity packet hthere, ?_⟩
  rw [s.errBurst_talliedLog scope kind inst _ packet hpacket hcount]
  refine ⟨⟨State.flightGet_talliedLog_treadErrs .., State.flightGet_talliedLog_lastClass _ _ _ _ _ hcls, ?_, ?_,
    State.flightGet_talliedLog_state .., State.talliedLog_eq ..⟩, State.logged_talliedLog _ _ _ _ _, State.sameMemory_talliedLog _ _ _ _ _⟩
  · rw [hflight]
  · rw [hflight]

theorem does_drainTimeout_services {scope : Fin 5} {kind : Fin 32} {inst : Fin 16} {s : State}
    (hst : s.flightGet .state scope kind inst = 1) (hdue : s.due .drain (flightKey scope kind inst) = true)
    (hsafe : s.chip.safe = none) (hscope : scope.val = 4) : Does (.drainTimeout scope kind inst) s (EntersSafe 6 s) := by
  refine ⟨_, exec_drainTimeout hst hdue, ?_⟩
  rw [if_neg (by omega)]
  exact State.entersSafe_chipFault (s.disarm .drain _ 0) _ _ _ (by decide) hsafe

theorem does_drainTimeout_hall {scope : Fin 5} {kind : Fin 32} {inst : Fin 16} {s : State}
    (hst : s.flightGet .state scope kind inst = 1) (hdue : s.due .drain (flightKey scope kind inst) = true)
    (hsafe : s.chip.safe = none) (hscope : scope.val < 4) (hrun : s.hallState scope = 0) :
    Does (.drainTimeout scope kind inst) s fun t => t.hallState scope = 1 ∧ (t.hallCtl scope).since = s.tb ∧
      t.ringCount scope = s.ringCount scope + 2 ∧ SameDevices s t := by
  obtain ⟨hstate, hsince, hrecords, hdevices, -⟩ :=
    State.quarantines_hallFault (s.disarm .drain (flightKey scope kind inst) 0) 6 (flightUnit kind inst) hscope hrun hsafe
  refine ⟨_, exec_drainTimeout hst hdue, ?_⟩
  rw [if_pos hscope]
  exact ⟨hstate, hsince, hrecords, hdevices⟩

/-- Settles O25: what a fault does to its Flight is read off the one state in which it begins to fence, since nothing that a
fencing Flight's trunk, packets or cores do touches the steady part of the state. -/
theorem flightsFenceAndReturn : Obligations.FlightsFenceAndReturn := by
  unfold Obligations.FlightsFenceAndReturn
  intro scope kind inst n tread parity jtag packet s hn
  simp only [State.flightState_eq, State.flightLastClass_eq, State.flightTreadErrs_eq]
  intro hthere
  have hcmdErr := s.cmdErr_flightCmdErr scope
  refine ⟨fun hacts => ⟨?_, ?_, fun hcount => ?_⟩, fun hacts => ?_, fun hpacket hcount => ?_, fun hst => ?_, fun hst hcause => ?_,
    fun hst hdue hsafe => ⟨fun hscope => ?_, fun hscope hrun => ?_⟩, fun hst hcause => ?_, fun hst => ?_, fun hst => ?_,
    fun hst => ?_, fun hst => ?_⟩
  · exact does_stuckTread_fences scope kind inst tread s hthere hacts
  · exact does_flightFence scope kind inst jtag s hn hthere hacts
  · exact does_treadError_fences scope kind inst parity packet s hthere hacts hcount
  · exact does_stuckTread_logged scope kind inst tread s hthere hacts
  · exact does_treadError_counted scope kind inst parity packet s hthere hpacket hcount
  · refine ⟨s.flightCmdErr scope, congrArg Host.Outcome.next ?_, hcmdErr⟩
    rw [hn]
    exact s.flightFence_busy _ _ _ jtag hst
  · exact does_flightFenced scope kind inst s hst hcause
  · exact does_drainTimeout_services hst hdue hsafe hscope
  · exact does_drainTimeout_hall hst hdue hsafe hscope hrun
  · obtain ⟨hstate, -, hflight, -, hdevices, hmem⟩ := s.flightBack_spec scope kind inst
    refine ⟨s.flightBack scope kind inst, congrArg Host.Outcome.next ?_, hstate, hflight, hdevices, hmem⟩
    rw [hn]
    exact s.flightUnfence_fenced _ _ _ hthere hst hcause
  · refine ⟨s.flightCmdErr scope, congrArg Host.Outcome.next ?_, hcmdErr⟩
    rw [hn]
    exact s.flightUnfence_refused _ _ _ hst
  · refine ⟨(s.flightPut .state scope kind inst 3).arm .flightReset (flightKey scope kind inst) 0 (us 10),
      congrArg Host.Outcome.next ?_, s.flightGet_flightPut_same scope kind inst 3 .state (by decide), State.deadline_arm_same .., rfl⟩
    rw [hn]
    exact s.flightResetCmd_fenced _ _ _ hthere hst
  · refine ⟨s.flightCmdErr scope, congrArg Host.Outcome.next ?_, hcmdErr⟩
    rw [hn]
    exact s.flightResetCmd_refused _ _ _ hst
  · exact does_flightResetDone scope kind inst s hst

end Sys2Proof.Machine
end

section
/-! PROOFS. Issue and the operation table (03 R71, R76 to R82). -/

namespace Sys2Proof.Machine

/-! Issue: what a thread that issues is in, and an instruction with a check of its own (03 R71, R76 to R82). -/

theorem State.issues_noChk {s : State} {x : Issue} {q : WzReq} (h : s.issues x q noChk = true) (chk : State → WzCheck) :
    s.issues x q chk = (chk s).isNone := by
  unfold State.issues at *
  simp only [noChk, Option.isNone_none, Bool.and_true, Bool.and_eq_true] at h
  obtain ⟨⟨⟨⟨⟨⟨⟨⟨⟨⟨⟨h1, h2⟩, h3⟩, h4⟩, h5⟩, h6⟩, h7⟩, h8⟩, h9⟩, h10⟩, h11⟩, h12⟩ := h
  simp only [h1, h2, h3, h4, h5, h6, h7, h8, h9, h10, h11, Bool.and_true, Bool.true_and]
  cases hc : (chk s).isNone with
  | false => rfl
  | true => exact h12

theorem State.run_of_issues {s : State} {x : Issue} {q : WzReq} {chk : State → WzCheck} (h : s.issues x q chk = true) :
    (s.thr x.core.val x.thread.val).run = .running := by
  unfold State.issues State.canIssue at h
  simp only [Bool.and_eq_true, beq_iff_eq] at h
  tauto

theorem State.otFind_of_issues {s : State} {x : Issue} {q : WzReq} {chk : State → WzCheck} {g : Nat} (h : s.issues x q chk = true)
    (hq : q.tag = some g) : s.otFind x.core.val x.thread.val g = none := by
  unfold State.issues at h
  simp only [hq, Bool.and_eq_true, Option.isNone_iff_eq_none] at h
  exact h.2.1

/-- An instruction whose own check answers class 2 takes that fault, no entry of its own being faulted. -/
theorem State.wzIssue_misaligned {s : State} {x : Issue} {q : WzReq} (chk : State → WzCheck) (body : State → State)
    (h : s.issues x q noChk = true) (hchk : chk s = some 2) :
    s.wzIssue x q chk body = (s.tookTurn x.core.val x.thread.val).faultHere x.core.val x.thread.val 2 := by
  simp only [State.issues, State.at_, Bool.and_eq_true, Bool.not_eq_true'] at h
  obtain ⟨⟨⟨⟨⟨⟨⟨⟨⟨⟨⟨⟨h1, h2⟩, h3⟩, h4⟩, h5⟩, h6⟩, hu⟩, h7⟩, h8⟩, h9⟩, -⟩, -⟩, -⟩ := h
  unfold State.wzIssue
  simp only [h1, h2, h3, h4, h5, h6, hu, h7, h8, h9, hchk, Bool.not_true, Bool.or_false, if_false, Bool.false_eq_true]

/-! The operation table (03 R78, R80). -/

theorem State.otWake_running (s : State) {c t : Nat} (h : (s.thr c t).run = .running) : s.otWake c t = s := by
  unfold State.otWake
  simp only [h, ite_self]

/-- Entries found under `q` when that of `p` is replaced by `v`, whose key is the same. -/
theorem find?_replace {α : Type} (p q : α → Bool) (l : List α) (v : α) (hq : ∀ e, p e = true → q e = q v) :
    (l.filterMap (fun e => if p e then some v else some e)).find? q =
      if q v then (l.find? q).map (fun e => if p e then v else e) else l.find? q := by
  induction l with
  | nil => simp
  | cons e l ih =>
    by_cases he : p e = true
    · have heq := hq e he
      by_cases hqv : q v = true
      · simp [he, hqv, heq]
      · simp only [hqv, Bool.false_eq_true, if_false] at ih heq ⊢
        simp [he, hqv, heq, ih]
    · by_cases hqe : q e = true
      · by_cases hqv : q v = true <;> simp [he, hqe, hqv]
      · simp [he, hqe, ih]

theorem State.wzCore_setCore (s : State) (c c' : Nat) (k : WzCore) : (s.setCore c k).wzCore c' = if c = c' then k else s.wzCore c' := by
  simp [State.wzCore, State.setCore, unitGet_set]

theorem State.otFind_otPut_same (s : State) {c t tag : Nat} {v e : OtEntry} (hv : v.thread = t) (hv' : v.tag = tag)
    (h : s.otFind c t tag = some e) : (s.otPut c t tag (some v)).otFind c t tag = some v := by
  have hkey : (v.thread == t && v.tag == tag) = true := by simp [hv, hv']
  have hreplace := find?_replace (fun e => e.thread == t && e.tag == tag) (fun e => e.thread == t && e.tag == tag) (s.wzCore c).ot v
    (fun e he => he.trans hkey.symm)
  rw [State.otFind] at h
  have hfound := List.find?_some h
  rw [if_pos hkey, h] at hreplace
  simp only [State.otFind, State.otPut, State.wzCore_setCore, if_true]
  rw [hreplace, Option.map_some, if_pos hfound]

theorem State.otFind_otPut_other (s : State) {c t tag c' t' tag' : Nat} {v : OtEntry} (hv : v.thread = t) (hv' : v.tag = tag)
    (h : ¬(c = c' ∧ t = t' ∧ tag = tag')) : (s.otPut c t tag (some v)).otFind c' t' tag' = s.otFind c' t' tag' := by
  simp only [State.otFind, State.otPut, State.wzCore_setCore]
  split
  · next hc =>
    subst hc
    have hkey : ¬(v.thread == t' && v.tag == tag') = true := by
      simp only [Bool.and_eq_true, beq_iff_eq, hv, hv']
      exact fun hk => h ⟨rfl, hk⟩
    refine (find?_replace (fun e => e.thread == t && e.tag == tag) (fun e => e.thread == t' && e.tag == tag') _ v ?_).trans (if_neg hkey)
    intro e he
    simp only [Bool.and_eq_true, beq_iff_eq] at he
    rw [he.1, he.2, hv, hv']
  · rfl

/-- An operation of a thread that runs ends: its entry, that core's count, and no more. -/
theorem State.otComplete_running (s : State) {c t tag : Nat} {e : OtEntry} (status result : Nat)
    (hrun : (s.thr c t).run = .running) (hfind : s.otFind c t tag = some e) (hdone : e.done = false) :
    s.otComplete c t tag status result =
      (let u := s.otPut c t tag (some { e with done := true, status := status, result := result });
        u.setCore c { u.wzCore c with completedOps := (u.wzCore c).completedOps + 1 }) := by
  unfold State.otComplete
  simp only [hfind, hdone, Bool.false_eq_true, if_false]
  exact State.otWake_running _ hrun

theorem State.otFind_countOp (s : State) (c c' t tag : Nat) :
    (s.setCore c { s.wzCore c with completedOps := (s.wzCore c).completedOps + 1 }).otFind c' t tag = s.otFind c' t tag := by
  simp only [State.otFind, State.wzCore_setCore]
  split
  · next hc => subst hc; rfl
  · rfl

theorem State.otFind_otComplete_same (s : State) {c t tag : Nat} {e : OtEntry} (status result : Nat)
    (hrun : (s.thr c t).run = .running) (hfind : s.otFind c t tag = some e) (hdone : e.done = false) :
    (s.otComplete c t tag status result).otFind c t tag = some { e with done := true, status := status, result := result } := by
  have hkey := List.find?_some hfind
  simp only [Bool.and_eq_true, beq_iff_eq] at hkey
  obtain ⟨hthread, htag⟩ := hkey
  rw [s.otComplete_running status result hrun hfind hdone]
  dsimp only
  rw [State.otFind_countOp]
  exact s.otFind_otPut_same hthread htag hfind

theorem State.otComplete_running_eq (s : State) {c t tag : Nat} (status result : Nat) (hrun : (s.thr c t).run = .running) :
    s.otComplete c t tag status result = { s with cores := (s.otComplete c t tag status result).cores } := by
  unfold State.otComplete
  split
  · split
    · rfl
    · dsimp only
      rw [State.otWake_running _ (by exact hrun)]
      rfl
  · rfl

/-- The thread's entry has completed. -/
theorem State.completed_otComplete (s : State) {x : Issue} {tag : Nat} {e : OtEntry} (status result : Nat)
    (hrun : (s.thr x.core.val x.thread.val).run = .running) (hfind : s.otFind x.core.val x.thread.val tag = some e)
    (hdone : e.done = false) : Completed x tag status result (s.otComplete x.core.val x.thread.val tag status result) :=
  ⟨_, s.otFind_otComplete_same status result hrun hfind hdone, rfl, rfl, rfl⟩

theorem State.otFind_otAlloc (s : State) {c t tag : Nat} (kind : OtKind) (h : s.otFind c t tag = none) :
    (s.otAlloc c t tag kind).otFind c t tag = some { thread := t, tag := tag, kind := kind, issued := s.tb } := by
  rw [State.otFind] at h
  simp only [State.otFind, State.otAlloc, State.wzCore_setCore, if_true, List.find?_append, h]
  simp

theorem State.otAlloc_eq (s : State) (c t tag : Nat) (kind : OtKind) :
    s.otAlloc c t tag kind = { s with cores := (s.otAlloc c t tag kind).cores } := rfl

/-- An operation that ends in the command that issues it changes its core alone. -/
theorem State.otAtOnce_eq (s : State) {c t tag : Nat} (status result : Nat) (hrun : (s.thr c t).run = .running) :
    s.otAtOnce c t tag status result = { s with cores := (s.otAtOnce c t tag status result).cores } := by
  unfold State.otAtOnce
  rw [State.otComplete_running_eq (s.otAlloc c t tag .atOnce) status result hrun]
  rfl

theorem State.completed_otAtOnce (s : State) {x : Issue} {tag : Nat} (status result : Nat)
    (hrun : (s.thr x.core.val x.thread.val).run = .running) (hfind : s.otFind x.core.val x.thread.val tag = none) :
    Completed x tag status result (s.otAtOnce x.core.val x.thread.val tag status result) :=
  State.completed_otComplete _ status result hrun (s.otFind_otAlloc .atOnce hfind) rfl

end Sys2Proof.Machine
end

section
/-! PROOFS. The timebase and the Riser loops (02 R45, R48 to R52). -/

namespace Sys2Proof.Machine

/-! The timebase (02 R45). -/

/-- The loss of REFCLK0. -/
theorem does_tbHoldover (s : State) (h : s.fld F.tbStatusHoldover = 0) : Does .tbHoldover s fun t =>
    t.fld F.tbStatusHoldover = 1 ∧ t.fld F.tbStatusLocked = 0 ∧ t.fld F.bellSrcPending 8 16 = 1 ∧
      t = { s with regs := t.regs, threads := t.threads, bellSince := t.bellSince, chip := (s.wakeOn 7).chip } := by
  have hflag : s.flag F.tbStatusHoldover = false := by rw [State.flag, h]; rfl
  refine ⟨((s.setFld F.tbStatusHoldover 0 0 1).setFld F.tbStatusLocked 0 0 0).ring 8 16, ?_, ?_, ?_, State.pending_ring .., ?_⟩
  · exact if_neg (by rw [hflag]; decide)
  · rw [State.fld_ring _ _ _ _ _ _ (by decide) (by decide),
      State.fld_setFld_other _ _ _ _ _ _ _ _ (by decide) (by decide) (.inr (.inr (by decide)))]
    exact State.fld_setFld_same _ F.tbStatusHoldover 0 0 1 (by decide) (by decide)
  · rw [State.fld_ring _ _ _ _ _ _ (by decide) (by decide)]
    exact State.fld_setFld_same _ F.tbStatusLocked 0 0 0 (by decide) (by decide)
  · have hwake : (((s.setFld F.tbStatusHoldover 0 0 1).setFld F.tbStatusLocked 0 0 0).wakeOn 7).chip = (s.wakeOn 7).chip := by
      unfold State.wakeOn
      rw [State.setFld_chip, State.setFld_chip]
      cases s.chip.inState <;> rfl
    refine (State.ring_eq ..).trans ?_
    rw [hwake]
    rfl

theorem does_tbRelock (s : State) : Does .tbRelock s fun t => t.fld F.tbStatusHoldover = 0 ∧ t.fld F.tbStatusLocked = 1 ∧
    OnlyRegs s t ∧ SameRegsBut (fun m i j => m = .tbStatus ∧ i = 0 ∧ j = 0) s t := by
  refine ⟨(s.setFld F.tbStatusHoldover 0 0 0).setFld F.tbStatusLocked 0 0 1, rfl, ?_, ?_, rfl, ?_⟩
  · rw [State.fld_setFld_other _ _ _ _ _ _ _ _ (by decide) (by decide) (.inr (.inr (by decide)))]
    exact State.fld_setFld_same _ F.tbStatusHoldover 0 0 0 (by decide) (by decide)
  · exact State.fld_setFld_same _ F.tbStatusLocked 0 0 1 (by decide) (by decide)
  · intro m i j hm
    have hother : ∀ (s : State) (f : Fld) v, f.reg = .tbStatus → (s.setFld f 0 0 v).reg m i j = s.reg m i j := fun s f v hf =>
      (State.reg_setFld ..).trans (if_neg fun e => hm ⟨e.1.symm.trans hf, e.2.1.symm, e.2.2.symm⟩)
    rw [hother _ _ _ rfl, hother _ _ _ rfl]

/-! A Riser loop's status (02 R48 to R52): of a Hall's loop, or of that of VDD_S. -/

/-- The fields of a loop's status. -/
inductive RiserField
  | cyclePs | avsErr | short | atFloor | atCeil | vnow

/-- Where a field lies for a Hall's loop. -/
def RiserField.hall : RiserField → Fld
  | .cyclePs => F.hallRiserStatusCyclePs
  | .avsErr => F.hallRiserStatusAvsErr
  | .short => F.hallRiserStatusShort
  | .atFloor => F.hallRiserStatusAtFloor
  | .atCeil => F.hallRiserStatusAtCeil
  | .vnow => F.hallRiserStatusVnow

/-- Where it lies for the loop of VDD_S. -/
def RiserField.svc : RiserField → Fld
  | .cyclePs => F.svcRiserStatusCyclePs
  | .avsErr => F.svcRiserStatusAvsErr
  | .short => F.svcRiserStatusShort
  | .atFloor => F.svcRiserStatusAtFloor
  | .atCeil => F.svcRiserStatusAtCeil
  | .vnow => F.svcRiserStatusVnow

/-- Where it lies for loop n. -/
def RiserField.fld (f : RiserField) (n : Nat) : Fld := if n < 4 then f.hall else f.svc

/-- How many bits a field has. -/
def RiserField.width : RiserField → Nat
  | .cyclePs => 16
  | .vnow => 6
  | _ => 1

/-- A field of loop n as it reads, and written. -/
def State.riserGet (s : State) (f : RiserField) (n : Nat) : Nat := s.fld (f.fld n) (if n < 4 then n else 0)
def State.riserPut (s : State) (f : RiserField) (n v : Nat) : State := s.setFld (f.fld n) (if n < 4 then n else 0) 0 v

section
variable (s : State) (n v : Nat)

theorem State.vnow_eq : s.vnow n = s.riserGet .vnow n := by
  unfold State.vnow State.riserGet RiserField.fld
  split <;> rfl

theorem State.riserCycle_eq :
    (if n < 4 then s.fld F.hallRiserStatusCyclePs n else s.fld F.svcRiserStatusCyclePs) = s.riserGet .cyclePs n := by
  unfold State.riserGet RiserField.fld
  split <;> rfl

theorem State.riserAvsErr_eq :
    (if n < 4 then s.fld F.hallRiserStatusAvsErr n else s.fld F.svcRiserStatusAvsErr) = s.riserGet .avsErr n := by
  unfold State.riserGet RiserField.fld
  split <;> rfl

theorem State.avsOk_eq : s.avsOk n = (s.riserGet .avsErr n == 0) := by
  rw [← State.riserAvsErr_eq]
  unfold State.avsOk State.flag
  split
  · cases s.fld F.hallRiserStatusAvsErr n 0 <;> rfl
  · cases s.fld F.svcRiserStatusAvsErr 0 0 <;> rfl

theorem State.railFlags_eq (kept : Bool) : s.railFlags n kept =
    (s.riserPut .atFloor n (if !kept && s.vnow n == 0 then 1 else 0)).riserPut .atCeil n
      (if !kept && s.vnow n == s.ceiling n then 1 else 0) := by
  unfold State.railFlags State.riserPut RiserField.fld
  by_cases h : n < 4 <;> simp only [h, if_true, if_false] <;> rfl

theorem State.railTo_eq (code : Nat) : s.railTo n code =
    ((s.emit (.avs n (min code (s.ceiling n)))).riserPut .vnow n (min code (s.ceiling n))).railFlags n false := by
  unfold State.railTo State.riserPut RiserField.fld
  by_cases h : n < 4 <;> simp only [h, if_true, if_false] <;> rfl

theorem State.avsFail_eq : s.avsFail n = (s.riserPut .avsErr n 1).ring 8 (17 + n) := by
  unfold State.avsFail State.riserPut RiserField.fld
  by_cases h : n < 4 <;> simp only [h, if_true, if_false] <;> rfl

theorem State.riserGet_riserPut_same (f : RiserField) : (s.riserPut f n v).riserGet f n = v % 2 ^ f.width := by
  have hbits : (f.fld n).hi < 64 ∧ (f.fld n).lo ≤ (f.fld n).hi ∧ (f.fld n).hi - (f.fld n).lo + 1 = f.width := by
    unfold RiserField.fld
    split <;> cases f <;> decide
  obtain ⟨htop, horder, hwidth⟩ := hbits
  unfold State.riserGet State.riserPut
  rw [State.fld_setFld_same _ _ _ _ _ htop horder, hwidth]

theorem State.riserGet_riserPut_other {f g : RiserField} (h : f ≠ g) : (s.riserPut f n v).riserGet g n = s.riserGet g n := by
  have hbits : (g.fld n).hi < 64 ∧ (g.fld n).lo ≤ (g.fld n).hi ∧
      ((g.fld n).hi < (f.fld n).lo ∨ (f.fld n).lo + ((f.fld n).hi - (f.fld n).lo) < (g.fld n).lo) := by
    unfold RiserField.fld
    split <;> cases f <;> cases g <;> simp +decide at h ⊢
  obtain ⟨htop, horder, happart⟩ := hbits
  exact State.fld_setFld_other _ _ _ _ _ _ _ _ htop horder (.inr happart)

theorem RiserField.reg_fld (f : RiserField) : (f.fld n).reg = if n < 4 then .hallRiserStatus else .svcRiserStatus := by
  unfold RiserField.fld
  split <;> cases f <;> rfl

theorem State.riserGet_ring (b src : Nat) (f : RiserField) : (s.ring b src).riserGet f n = s.riserGet f n := by
  refine s.fld_ring b src _ _ _ ?_ ?_ <;> rw [f.reg_fld] <;> split <;> decide

/-- The registers a loop writes. -/
def riserRegs : List RegName := [.hallRiserStatus, .svcRiserStatus, .bellSrc, .bellStatus]

theorem State.reg_riserPut (f : RiserField) {m : RegName} (i j : Nat) (h : m ∉ riserRegs) :
    (s.riserPut f n v).reg m i j = s.reg m i j := by
  have hreg : (f.fld n).reg ≠ m := by
    rw [f.reg_fld]
    split <;> exact fun e => h (e ▸ by decide)
  exact (State.reg_setFld ..).trans (if_neg fun e => hreg e.1)

theorem State.riserGet_railFlags (kept : Bool) {f : RiserField} (h : f ≠ .atFloor) (h' : f ≠ .atCeil) :
    (s.railFlags n kept).riserGet f n = s.riserGet f n := by
  rw [State.railFlags_eq, State.riserGet_riserPut_other _ _ _ h'.symm, State.riserGet_riserPut_other _ _ _ h.symm]

end

/-! An update of a Riser loop (02 R48, R49, R52). -/

/-- What an update may change. -/
def RiserFrame (s t : State) : Prop := t = { s with
  chip := t.chip, regs := t.regs, threads := t.threads, out := t.out, halls := t.halls, bellSince := t.bellSince }

theorem RiserFrame.trans {s t u : State} (h : RiserFrame s t) (h' : RiserFrame t u) : RiserFrame s u := by
  unfold RiserFrame at *
  rw [h']
  generalize u.chip = c, u.regs = r, u.threads = th, u.out = o, u.halls = hs, u.bellSince = b
  rw [h]

theorem RiserFrame.ring (s : State) (b src : Nat) : RiserFrame s (s.ring b src) := by
  unfold RiserFrame
  rw [State.ring_eq]

/-- What an update has not touched before it commands the rail: the loop's registers but the cycle and SHORT, what counts the
transactions without acknowledgement, what went out, and the grid `g` it has set. -/
structure Sensed (n : Nat) (g : Grid) (s t : State) : Prop where
  frame : RiserFrame s t
  grid : t.riserGrid n = g
  out : t.out = s.out
  noAck : t.chip.noAck = s.chip.noAck
  regs : ∀ m i j, m ∉ riserRegs → t.reg m i j = s.reg m i j
  vnow : t.riserGet .vnow n = s.riserGet .vnow n
  avsErr : t.riserGet .avsErr n = s.riserGet .avsErr n

theorem State.riserGrid_setRiserGrid (s : State) (n : Nat) (g : Grid) : (s.setRiserGrid n g).riserGrid n = g := by
  unfold State.setRiserGrid State.riserGrid
  by_cases h : n < 4 <;> simp [h, State.hall, State.setHall]

theorem sensed_setRiserGrid (s : State) (n : Nat) (g : Grid) : Sensed n g s (s.setRiserGrid n g) := by
  have hgrid := s.riserGrid_setRiserGrid n g
  unfold State.setRiserGrid at hgrid ⊢
  split <;> rename_i h <;> simp only [h, if_true, if_false] at hgrid <;>
    exact ⟨rfl, hgrid, rfl, rfl, fun _ _ _ _ => rfl, rfl, rfl⟩

theorem State.riserGrid_ring (s : State) (n b src : Nat) : (s.ring b src).riserGrid n = s.riserGrid n := by
  have hsvc := congrArg Chip.svcRiser (s.ring_chip b src)
  dsimp only at hsvc
  unfold State.riserGrid
  rw [hsvc, State.ring_eq]
  rfl

theorem Sensed.ring {n : Nat} {g : Grid} {s t : State} (h : Sensed n g s t) (b src : Nat) : Sensed n g s (t.ring b src) := by
  have hout : (t.ring b src).out = t.out := by rw [State.ring_eq]
  have hnoAck := congrArg Chip.noAck (t.ring_chip b src)
  exact ⟨h.frame.trans (.ring t b src), (t.riserGrid_ring n b src).trans h.grid, hout.trans h.out, hnoAck.trans h.noAck,
    fun m i j hm => (t.reg_ring b src i j (by rintro rfl; exact hm (by decide)) (by rintro rfl; exact hm (by decide))).trans
      (h.regs m i j hm),
    (t.riserGet_ring n b src .vnow).trans h.vnow, (t.riserGet_ring n b src .avsErr).trans h.avsErr⟩

theorem Sensed.riserPut {n : Nat} {g : Grid} {s t : State} (h : Sensed n g s t) {f : RiserField} (v : Nat) (hf : f ≠ .vnow)
    (hf' : f ≠ .avsErr) : Sensed n g s (t.riserPut f n v) :=
  ⟨h.frame.trans rfl, h.grid, h.out, h.noAck, fun m i j hm => (t.reg_riserPut n v f i j hm).trans (h.regs m i j hm),
    (t.riserGet_riserPut_other n v hf).trans h.vnow, (t.riserGet_riserPut_other n v hf').trans h.avsErr⟩

theorem State.ceiling_of_regs {s t : State} (h : ∀ i j, t.reg .newelVceil i j = s.reg .newelVceil i j) (n : Nat) :
    t.ceiling n = s.ceiling n := by
  have hfld : ∀ f : Fld, f.reg = .newelVceil → t.fld f 0 0 = s.fld f 0 0 := fun f hf =>
    congrArg (fldGet f) (hf ▸ h 0 0)
  unfold State.ceiling
  rw [hfld F.newelVceilCeilH0 rfl, hfld F.newelVceilCeilH1 rfl, hfld F.newelVceilCeilH2 rfl, hfld F.newelVceilCeilH3 rfl,
    hfld F.newelVceilCeilS rfl]

theorem Sensed.ceiling {n : Nat} {g : Grid} {s t : State} (h : Sensed n g s t) : t.ceiling n = s.ceiling n :=
  State.ceiling_of_regs (fun i j => h.regs _ i j (by decide)) n

/-- HEADROOM of a loop. -/
def State.headroom (s : State) (n : Nat) : Nat :=
  if n < 4 then s.fld F.hallRiserCtrlHeadroom n else s.fld F.svcRiserCtrlHeadroom

theorem Sensed.headroom {n : Nat} {g : Grid} {s t : State} (h : Sensed n g s t) : t.headroom n = s.headroom n := by
  have hhall : t.fld F.hallRiserCtrlHeadroom n 0 = s.fld F.hallRiserCtrlHeadroom n 0 :=
    congrArg (fldGet _) (h.regs .hallRiserCtrl n 0 (by decide))
  have hsvc : t.fld F.svcRiserCtrlHeadroom 0 0 = s.fld F.svcRiserCtrlHeadroom 0 0 :=
    congrArg (fldGet _) (h.regs .svcRiserCtrl 0 0 (by decide))
  rw [State.headroom, hhall, hsvc, State.headroom]

/-- The grid of loop n after its next update. -/
def State.nextGrid (s : State) (n : Nat) : Grid := (s.riserGrid n).start s.tb (us 20) (s.fld F.chipCatchupRiser)

/-- The loop has started its interval and measured the cycle. -/
def State.measured (s : State) (n cycle : Nat) : State :=
  let t := s.setRiserGrid n (s.nextGrid n)
  (if (s.nextGrid n).rang ∧ !(s.riserGrid n).rang then t.ring 8 2 else t).riserPut .cyclePs n cycle

/-- A loop at its ceiling that is too slow reports it. -/
def State.sensedShort (s : State) (n : Nat) (short : Bool) : State :=
  if short then (s.riserPut .short n 1).ring 8 (17 + n) else s

theorem State.sensed_measured (s : State) (n cycle : Nat) : Sensed n (s.nextGrid n) s (s.measured n cycle) := by
  unfold State.measured
  have h := sensed_setRiserGrid s n (s.nextGrid n)
  refine Sensed.riserPut ?_ cycle (by simp) (by simp)
  split
  · exact h.ring 8 2
  · exact h

theorem Sensed.sensedShort {n : Nat} {g : Grid} {s t : State} (h : Sensed n g s t) (short : Bool) :
    Sensed n g s (t.sensedShort n short) := by
  unfold State.sensedShort
  split
  · exact (h.riserPut 1 (by simp) (by simp)).ring ..
  · exact h

theorem State.riserGet_sensedShort_cyclePs (s : State) (n : Nat) (short : Bool) :
    (s.sensedShort n short).riserGet .cyclePs n = s.riserGet .cyclePs n := by
  unfold State.sensedShort
  split
  · rw [State.riserGet_ring, State.riserGet_riserPut_other _ _ _ (by simp)]
  · rfl

/-- What an update does once it has measured. -/
def State.riserDrive (s : State) (n : Nat) (load : Rat) (cycle : Nat) (ack : Bool) : State :=
  let err := riserErr load cycle (s.headroom n)
  let t := s.sensedShort n (decide (s.vnow n = s.ceiling n ∧ 0 < err))
  if t.avsOk n then t.avsCommand n (min (s.ceiling n) (riserMove (s.vnow n) err)) ack else t

theorem exec_riserUpdate {rail : Fin 5} (load : Rat) (cycle : BitVec 16) (ack : Bool) {s : State}
    (hdue : s.chipRuns = true ∧ s.demand rail = true ∧ (s.riserGrid rail).on = true ∧ (s.riserGrid rail).next ≤ s.tb) :
    exec (.riserUpdate rail load cycle ack) s = .next ((s.measured rail cycle.toNat).riserDrive rail load cycle.toNat ack) := by
  obtain ⟨hruns, hdemand, hon, hnext⟩ := hdue
  have hgo : ¬((!s.chipRuns) = true ∨ (!s.demand rail) = true ∨ (!(s.riserGrid rail).on) = true ∨ s.tb < (s.riserGrid rail).next) := by
    rw [hruns, hdemand, hon]
    simp [hnext]
  have hfld : ∀ (s : State) (f : RiserField) v, (if rail.val < 4 then s.setFld f.hall rail 0 v else s.setFld f.svc 0 0 v) =
      s.riserPut f rail v := fun s f v => by
    unfold State.riserPut RiserField.fld
    split <;> rfl
  change execRiserUpdate rail load cycle ack s = _
  unfold execRiserUpdate
  refine (if_neg hgo).trans (congrArg Host.Outcome.next ?_)
  unfold State.measured
  rw [← hfld]
  unfold State.riserDrive State.sensedShort
  simp only [← hfld, decide_eq_true_eq]
  rfl

theorem exec_riserUpdate_idle {rail : Fin 5} (load : Rat) (cycle : BitVec 16) (ack : Bool) {s : State}
    (hdue : ¬(s.chipRuns = true ∧ s.demand rail = true ∧ (s.riserGrid rail).on = true ∧ (s.riserGrid rail).next ≤ s.tb)) :
    exec (.riserUpdate rail load cycle ack) s = .next s := by
  have hstay : (!s.chipRuns) = true ∨ (!s.demand rail) = true ∨ (!(s.riserGrid rail).on) = true ∨ s.tb < (s.riserGrid rail).next := by
    simp only [Bool.not_eq_true', ← Bool.not_eq_true]
    by_contra hne
    push Not at hne
    exact hdue hne
  exact if_pos hstay

/-- An update in order ends in a command of the code of R49. -/
theorem State.riserDrive_measured {s : State} {n cycle : Nat} (load : Rat) (ack : Bool) (hok : s.avsOk n = true) :
    ∃ t, Sensed n (s.nextGrid n) s t ∧ t.riserGet .cyclePs n = cycle % 65536 ∧ (s.measured n cycle).riserDrive n load cycle ack =
      t.avsCommand n (min (s.ceiling n) (riserMove (s.vnow n) (riserErr load cycle (s.headroom n)))) ack := by
  have hmeasured := s.sensed_measured n cycle
  have hcycle : (s.measured n cycle).riserGet .cyclePs n = cycle % 65536 := State.riserGet_riserPut_same _ n cycle .cyclePs
  have hvnow : (s.measured n cycle).vnow n = s.vnow n := by rw [State.vnow_eq, hmeasured.vnow, State.vnow_eq]
  have hsensed := hmeasured.sensedShort (decide (s.vnow n = s.ceiling n ∧ 0 < riserErr load cycle (s.headroom n)))
  refine ⟨_, hsensed, (State.riserGet_sensedShort_cyclePs ..).trans hcycle, ?_⟩
  unfold State.riserDrive
  rw [hvnow, hmeasured.headroom, hmeasured.ceiling]
  refine if_pos ?_
  rw [State.avsOk_eq, hsensed.avsErr, ← State.avsOk_eq, hok]

theorem RiserFrame.railFlags (s : State) (n : Nat) (kept : Bool) : RiserFrame s (s.railFlags n kept) := by
  rw [State.railFlags_eq]
  rfl

/-- A transaction on loop n's AVSBus has been acknowledged. -/
def State.acked (s : State) (n : Nat) : State := { s with chip := { s.chip with noAck := unitSet 0 s.chip.noAck n 0 } }

theorem State.avsCommand_true (s : State) (n code : Nat) : s.avsCommand n code true =
    (((s.acked n).emit (.avs n (min code (s.ceiling n)))).riserPut .vnow n (min code (s.ceiling n))).railFlags n false := by
  have hceiling : (s.acked n).ceiling n = s.ceiling n := State.ceiling_of_regs (fun _ _ => rfl) n
  exact ((s.acked n).railTo_eq n code).trans (by rw [hceiling])

/-- A transaction that is acknowledged moves the rail to the code, no higher than the ceiling. -/
theorem Sensed.avsCommand_ack {n : Nat} {g : Grid} {s t : State} (h : Sensed n g s t) (m : Nat) :
    let u := t.avsCommand n (min (s.ceiling n) m) true
    RiserFrame s u ∧ u.riserGet .vnow n = min (s.ceiling n) m % 64 ∧ u.riserGet .cyclePs n = t.riserGet .cyclePs n ∧
      u.out = .avs n (min (s.ceiling n) m) :: s.out ∧ u.riserGrid n = g := by
  have hcode : min (min (s.ceiling n) m) (t.ceiling n) = min (s.ceiling n) m := by
    rw [h.ceiling]
    omega
  rw [State.avsCommand_true, hcode]
  intro u
  refine ⟨h.frame.trans ?_, ?_, ?_, ?_, ?_⟩
  · exact RiserFrame.trans (t := ((t.acked n).emit _).riserPut .vnow n _) rfl (.railFlags ..)
  · exact (State.riserGet_railFlags _ _ _ (by simp) (by simp)).trans (State.riserGet_riserPut_same _ n _ .vnow)
  · exact (State.riserGet_railFlags _ _ _ (by simp) (by simp)).trans (State.riserGet_riserPut_other _ n _ (by simp))
  · exact (congrArg State.out (State.railFlags_eq ..)).trans (congrArg (List.cons _) h.out)
  · exact (congrArg (fun v : State => v.riserGrid n) (State.railFlags_eq ..)).trans h.grid

/-- The third transaction in succession that is not acknowledged sets AVS_ERR, and the rail stays. -/
theorem Sensed.avsCommand_lost {n : Nat} {g : Grid} {s t : State} (h : Sensed n g s t) (code : Nat) (hlost : unitGet 0 s.chip.noAck n = 2) :
    let u := t.avsCommand n code false
    RiserFrame s u ∧ u.riserGet .avsErr n = 1 ∧ u.riserGet .vnow n = s.riserGet .vnow n := by
  have hcount : unitGet 0 t.chip.noAck n + 1 = 3 := by rw [h.noAck, hlost]
  have heq : ∃ c out, t.avsCommand n code false = ({ t with chip := c, out := out } : State).avsFail n := by
    unfold State.avsCommand
    rw [hcount]
    exact ⟨_, _, rfl⟩
  obtain ⟨c, out, heq⟩ := heq
  intro u
  change RiserFrame s (t.avsCommand n code false) ∧ _ ∧ _
  unfold u
  rw [heq, State.avsFail_eq]
  refine ⟨h.frame.trans (RiserFrame.trans ?_ (.ring _ _ _)), ?_, ?_⟩
  · rfl
  · rw [State.riserGet_ring]
    exact State.riserGet_riserPut_same _ n 1 .avsErr
  · rw [State.riserGet_ring, State.riserGet_riserPut_other _ _ _ (by simp)]
    exact h.vnow

theorem does_riserUpdate_ack (rail : Fin 5) (load : Rat) (cycle : BitVec 16) (s : State)
    (hdue : s.chipRuns = true ∧ s.demand rail = true ∧ (s.riserGrid rail).on = true ∧ (s.riserGrid rail).next ≤ s.tb)
    (hok : s.avsOk rail = true) : Does (.riserUpdate rail load cycle true) s fun t =>
      let code := min (s.ceiling rail) (riserMove (s.vnow rail) (riserErr load cycle.toNat (s.headroom rail)))
      RiserFrame s t ∧ t.riserGet .vnow rail = code % 64 ∧ t.riserGet .cyclePs rail = cycle.toNat ∧
        t.out = .avs rail code :: s.out ∧ (t.riserGrid rail).nominal = (s.riserGrid rail).nominal + 20000 := by
  obtain ⟨t, hsensed, hcycle, hdrive⟩ := s.riserDrive_measured (cycle := cycle.toNat) load true hok
  obtain ⟨hframe, hvnow, hkept, hout, hgrid⟩ := hsensed.avsCommand_ack (riserMove (s.vnow rail) (riserErr load cycle.toNat (s.headroom rail)))
  refine ⟨_, exec_riserUpdate load cycle true hdue, ?_⟩
  rw [hdrive]
  exact ⟨hframe, hvnow, hkept.trans (hcycle.trans (Nat.mod_eq_of_lt cycle.isLt)), hout, by rw [hgrid]; rfl⟩

theorem does_riserUpdate_lost (rail : Fin 5) (load : Rat) (cycle : BitVec 16) (s : State)
    (hdue : s.chipRuns = true ∧ s.demand rail = true ∧ (s.riserGrid rail).on = true ∧ (s.riserGrid rail).next ≤ s.tb)
    (hok : s.avsOk rail = true) (hlost : unitGet 0 s.chip.noAck rail.val = 2) : Does (.riserUpdate rail load cycle false) s fun t =>
      RiserFrame s t ∧ t.riserGet .avsErr rail = 1 ∧ t.riserGet .vnow rail = s.riserGet .vnow rail := by
  obtain ⟨t, hsensed, -, hdrive⟩ := s.riserDrive_measured (cycle := cycle.toNat) load false hok
  refine ⟨_, exec_riserUpdate load cycle false hdue, ?_⟩
  rw [hdrive]
  exact hsensed.avsCommand_lost _ hlost

end Sys2Proof.Machine
end

section
/-! PROOFS. The ledgers and the audit sweep (02 R63 to R66, R472, R473). -/

namespace Sys2Proof.Machine

/-! Reading the ledgers and asking for a sweep (02 R64, R66, R473). -/

theorem State.at_setThr (s : State) (x : Issue) (v : Thread) : (s.setThr x.core.val x.thread.val v).at_ x = v :=
  State.thr_setThr_same ..

/-- An instruction that issues and writes register `rd` alone. -/
theorem writes_of_issues {c : Instr} {x : Issue} {rd : Fin 32} {v : Word} {s : State}
    (hexec : exec c s = .next ((s.tookTurn x.core.val x.thread.val).setThr x.core.val x.thread.val ((s.at_ x).setG rd.val v).next)) :
    Writes c x rd v s := by
  have hzero : rd.val = 0 ↔ rd = 0 := ⟨fun h => Fin.ext h, fun h => by rw [h]; rfl⟩
  refine ⟨_, hexec, ?_, ⟨⟨rfl, fun k hk => ?_⟩, fun r hr => ?_, ?_⟩, fun _ => rfl⟩
  · rw [State.at_setThr]
    refine (Thread.g_setG_same ..).trans ?_
    simp only [hzero]
  · exact State.threads_setThr_other _ _ _ _ _ hk
  · rw [State.at_setThr]
    exact Thread.g_setG_other _ v hr
  · rw [State.at_setThr, Thread.setG_eq]
    rfl

theorem writes_ledgRd (x : Issue) (rd ra rb : Fin 32) (s : State)
    (h : s.issues x { group := .switch, priv := true, srcs := [ra.val, rb.val], dsts := [rd.val] } noChk = true) :
    let a := ((s.at_ x).g ra.val).toNat
    Writes (.ledgRd x rd ra rb) x rd (BitVec.ofNat 64 ((s.ledgerTerms (a % 256) (a / 256 % 256) (a / 65536 % 2 ^ 32)).getD
      (((s.at_ x).g rb.val).toNat % 16) 0)) s := by
  have hterms : ∀ code scope unit, (s.tookTurn x.core.val x.thread.val).ledgerTerms code scope unit = s.ledgerTerms code scope unit :=
    fun _ _ _ => rfl
  refine writes_of_issues (congrArg Host.Outcome.next ((State.wzIssue_issues _ h).trans ?_))
  dsimp only
  rw [hterms]
  rfl

/-- The thread has gone on to its next instruction. -/
def State.stepped (s : State) (x : Issue) : State :=
  (s.tookTurn x.core.val x.thread.val).setThr x.core.val x.thread.val (s.at_ x).next

theorem State.at_stepped (s : State) (x : Issue) : (s.stepped x).at_ x = (s.at_ x).next := State.at_setThr ..

theorem State.otFind_stepped (s : State) (x : Issue) (c t tag : Nat) : (s.stepped x).otFind c t tag = s.otFind c t tag := by
  rw [State.otFind, State.stepped, State.wzCore_setThr, State.wzCore_tookTurn, State.otFind]

theorem State.run_stepped {s : State} {x : Issue} (h : (s.at_ x).run = .running) :
    ((s.stepped x).thr x.core.val x.thread.val).run = .running := by
  have hat := s.at_stepped x
  rw [State.at_] at hat
  rw [hat]
  exact h

/-- A sweep that has started: its entry, and who asked. -/
def State.sweeping (s : State) (x : Issue) (tag buf : Nat) : State :=
  let t := (s.stepped x).otAlloc x.core.val x.thread.val tag (.audit buf)
  { t with chip := { t.chip with
      sweep := some { core := x.core.val, thread := x.thread.val, tag := tag, buf := buf, at_ := s.tb } } }

theorem State.threads_sweeping (s : State) (x : Issue) (tag buf : Nat) : (s.sweeping x tag buf).threads = (s.stepped x).threads := by
  unfold State.sweeping
  rw [State.otAlloc_eq]

theorem State.mem_sweeping (s : State) (x : Issue) (tag buf : Nat) : (s.sweeping x tag buf).mem = s.mem := by
  unfold State.sweeping
  rw [State.otAlloc_eq]
  rfl

theorem State.inFlight_sweeping (s : State) (x : Issue) (tag buf : Nat) (h : s.otFind x.core.val x.thread.val tag = none) :
    InFlight x tag (s.sweeping x tag buf) :=
  ⟨_, (s.stepped x).otFind_otAlloc (.audit buf) ((s.otFind_stepped ..).trans h), rfl⟩

/-- A thread stands where it stood when its registers and program counter are untouched. -/
theorem State.at_of_threads {s t : State} (h : t.threads = s.threads) (x : Issue) : t.at_ x = s.at_ x := by
  rw [State.at_, State.thr, h, State.at_, State.thr]

theorem State.wentOn_of_threads {s t : State} {x : Issue} (h : t.threads = (s.stepped x).threads) : WentOn x s t :=
  (State.at_of_threads h x).trans (s.at_stepped x)

theorem sameMemory_of_mem {s t : State} (h : t.mem = s.mem) : SameMemory s t := fun a => by rw [State.byte, h, State.byte]

/-- The check of an audit's buffer. -/
def auditChk (x : Issue) (ra : Fin 32) (s : State) : WzCheck := if s.wzG x ra.val % 64 = 0 then none else some 2

section
variable {x : Issue} {ra : Fin 32} {tag : Fin 16} {s : State}
  (h : s.issues x { group := .switch, priv := true, tag := some tag.val, srcs := [ra.val] } noChk = true)
include h

theorem exec_ledgAudit_misaligned (ha : s.wzG x ra.val % 64 ≠ 0) : exec (.ledgAudit x ra tag) s =
    .next ((s.tookTurn x.core.val x.thread.val).faultHere x.core.val x.thread.val 2) :=
  congrArg Host.Outcome.next (State.wzIssue_misaligned (auditChk x ra) _ h (if_neg ha))

theorem exec_ledgAudit (ha : s.wzG x ra.val % 64 = 0) : exec (.ledgAudit x ra tag) s = .next (
    if s.chip.sweep.isSome then (s.stepped x).otAtOnce x.core.val x.thread.val tag.val 3 0
    else s.sweeping x tag (s.wzG x ra.val % 2 ^ 48)) := by
  have hissues : s.issues x { group := .switch, priv := true, tag := some tag.val, srcs := [ra.val] } (auditChk x ra) = true := by
    rw [State.issues_noChk h, auditChk, if_pos ha]
    rfl
  exact congrArg Host.Outcome.next (State.wzIssue_issues _ hissues)

theorem does_ledgAudit_starts (ha : s.wzG x ra.val % 64 = 0) (hsweep : s.chip.sweep = none) : Does (.ledgAudit x ra tag) s fun t =>
    InFlight x tag.val t ∧ WentOn x s t ∧ t.chip.sweep = some {
      core := x.core.val, thread := x.thread.val, tag := tag.val, buf := s.wzG x ra.val % 2 ^ 48, at_ := s.tb } ∧ SameMemory s t := by
  have hexec := exec_ledgAudit h ha
  rw [hsweep, Option.isSome_none, if_neg Bool.false_ne_true] at hexec
  have hfind : s.otFind x.core.val x.thread.val tag.val = none := State.otFind_of_issues (g := tag.val) h rfl
  generalize s.wzG x ra.val % 2 ^ 48 = buf at hexec ⊢
  have hflight := s.inFlight_sweeping x tag.val buf hfind
  exact ⟨_, hexec, hflight, State.wentOn_of_threads (s.threads_sweeping x tag buf), rfl, sameMemory_of_mem (s.mem_sweeping x tag buf)⟩

theorem does_ledgAudit_busy (ha : s.wzG x ra.val % 64 = 0) (hsweep : s.chip.sweep.isSome = true) :
    Does (.ledgAudit x ra tag) s fun t => Completed x tag.val 3 0 t ∧ WentOn x s t ∧ t.chip = s.chip ∧ SameMemory s t := by
  have hexec := exec_ledgAudit h ha
  rw [if_pos hsweep] at hexec
  have hrun := State.run_stepped (s := s) (x := x) (State.run_of_issues h)
  have hfind := (s.otFind_stepped x x.core.val x.thread.val tag.val).trans (State.otFind_of_issues h rfl)
  have hdone := (s.stepped x).completed_otAtOnce 3 0 hrun hfind
  have heq := (s.stepped x).otAtOnce_eq (tag := tag.val) 3 0 hrun
  generalize (s.stepped x).otAtOnce x.core.val x.thread.val tag.val 3 0 = t at hexec hdone heq
  refine ⟨t, hexec, hdone, State.wentOn_of_threads ?_, ?_, sameMemory_of_mem ?_⟩ <;> rw [heq] <;> rfl

end

/-! The end of a sweep (02 R63 to R66). -/

/-- The units whose sides differ among those of one ledger, if its scope is judged. -/
def State.judgedOf (s : State) (errors : List LedgerError) (i : Nat × Nat × Nat) : List LedgerError :=
  if s.excluded i.2.1 || s.incomplete i.2.1 then [] else (s.sweptAll errors i).filter (fun e => e.left != e.right)

/-- The units whose sides differ, of the scopes a sweep judges. -/
def State.judged (s : State) (errors : List LedgerError) : List LedgerError := auditInstances.flatMap (s.judgedOf errors)

/-- The record of one of the instances. -/
def State.sweepSummary (s : State) (errors : List LedgerError) (w : Sweep) (i : Nat × Nat × Nat) : List Byte :=
  auditRecord w.at_ (((s.sweptAll errors i).map (·.right)).sum % 2 ^ 64) (((s.sweptAll errors i).map (·.left)).sum % 2 ^ 64)
    (if i.1 = 5 then i.2.2 else 0)
    ((if s.judgedOf errors i = [] then 0 else 1) + ((if s.incomplete i.2.1 then 2 else 0) + (if s.excluded i.2.1 then 4 else 0)))
    i.2.1 i.1

/-- The records of a sweep: one for each of the instances, one for each unit listed, and the last. -/
def State.sweepBytes (s : State) (errors : List LedgerError) (w : Sweep) : List Byte :=
  let judged := s.judged errors
  let listed := judged.take 64
  let flags := (if judged = [] then 0 else 1) + (if (List.range 5).any s.incomplete then 2 else 0) +
    (if (List.range 5).any s.excluded then 4 else 0) + (if listed.length < judged.length then 8 else 0)
  auditInstances.flatMap (s.sweepSummary errors w) ++
    listed.flatMap (fun e => auditRecord w.at_ e.right e.left e.unit 1 e.scope e.ledger) ++
    auditRecord w.at_ listed.length judged.length 0 flags 4 0xFF

/-- A mismatch faults its scope. -/
def sweepFault (s : State) (e : LedgerError) : State :=
  let info := e.ledger + e.unit % 2 ^ 32 * 65536
  if e.scope < 4 then s.hallFault e.scope 7 info else s.chipFault 7 0xFFFF info false

/-- The sweep is over and its records are written. -/
def State.sweepWritten (s : State) (buf : Nat) (l : List Byte) : State :=
  let t : State := { s with chip := { s.chip with sweep := none } }
  if s.sweepBuffer buf then (t.unpoison buf 4096).setBytes buf l else t

theorem auditRecord_length (tb right left unit flags scope ledger : Nat) :
    (auditRecord tb right left unit flags scope ledger).length = 32 := by
  simp [auditRecord]

theorem flatMap_length_const {α : Type} (l : List α) (f : α → List Byte) (n : Nat) (h : ∀ a, (f a).length = n) :
    (l.flatMap f).length = n * l.length := by
  induction l with
  | nil => simp
  | cons a l ih => rw [List.flatMap_cons, List.length_append, ih, h, List.length_cons]; ring

theorem State.sweepBytes_length (s : State) (errors : List LedgerError) (w : Sweep) :
    (s.sweepBytes errors w).length = 32 * (auditInstances.length + ((s.judged errors).take 64).length + 1) := by
  unfold State.sweepBytes
  dsimp only
  rw [List.length_append, List.length_append, auditRecord_length, flatMap_length_const _ _ 32 fun _ => auditRecord_length ..,
    flatMap_length_const _ (s.sweepSummary errors w) 32 fun _ => auditRecord_length ..]
  ring

theorem exec_auditSweepEnd (errors : List LedgerError) {s : State} {w : Sweep} (h : s.chip.sweep = some w) :
    exec (.auditSweepEnd errors) s = .next (((s.judged errors).foldl sweepFault (s.sweepWritten w.buf (s.sweepBytes errors w))).otComplete
      w.core w.thread w.tag (if s.sweepBuffer w.buf then 0 else 1) ((s.judged errors).take 64).length) := by
  have hflat : ∀ {α : Type} (f : Nat × Nat × Nat → List Byte × List LedgerError) (g : List Byte × List LedgerError → List α),
      (auditInstances.map f).flatMap g = auditInstances.flatMap (fun i => g (f i)) := fun f g => List.flatMap_map ..
  change execAuditSweepEnd errors s = _
  unfold execAuditSweepEnd
  rw [h]
  dsimp only
  simp only [hflat]
  rfl

/-! A sweep that finds nothing. -/

theorem State.judged_nil {s : State} {errors : List LedgerError}
    (h : ∀ i ∈ auditInstances, ∀ u ∈ s.sweptAll errors i, u.left = u.right) : s.judged errors = [] := by
  unfold State.judged State.judgedOf
  refine List.flatMap_eq_nil_iff.2 fun i hi => ?_
  split
  · rfl
  · exact List.filter_eq_nil_iff.2 fun u hu => by simp [h i hi u hu]

theorem State.sweepWritten_eq (s : State) (buf : Nat) (l : List Byte) : s.sweepWritten buf l = { s with
    chip := { s.chip with sweep := none }, mem := (s.sweepWritten buf l).mem, poisoned := (s.sweepWritten buf l).poisoned } := by
  unfold State.sweepWritten
  split
  · dsimp only
    rw [State.setBytes_eq]
    rfl
  · rfl

theorem State.byte_sweepWritten (s : State) (buf : Nat) {l : List Byte} (hl : l.length ≤ 4096) {a : Nat}
    (h : ¬(buf ≤ a ∧ a < buf + 4096)) : (s.sweepWritten buf l).byte a = s.byte a := by
  unfold State.sweepWritten
  split
  · dsimp only
    rw [State.byte_setBytes, if_neg (by omega)]
    rfl
  · rfl

theorem does_auditSweepEnd_clean {x : Issue} {tag : Nat} {s : State} {w : Sweep} {e : OtEntry} (hsweep : s.chip.sweep = some w)
    (hcore : w.core = x.core.val) (hthread : w.thread = x.thread.val) (htag : w.tag = tag) (hrun : (s.at_ x).run = .running)
    (hfind : s.otFind x.core.val x.thread.val tag = some e) (hdone : e.done = false) (hbuffer : s.sweepBuffer w.buf = true)
    (hclean : ∀ i ∈ auditInstances, ∀ u ∈ s.sweptAll [] i, u.left = u.right) : Does (.auditSweepEnd []) s fun t =>
      t.chip = { s.chip with sweep := none } ∧ Completed x tag 0 0 t ∧
        ∀ b, ¬(w.buf ≤ b ∧ b < w.buf + 4096) → t.byte b = s.byte b := by
  have hexec := exec_auditSweepEnd [] hsweep
  have hlength := s.sweepBytes_length [] w
  have hinstances : auditInstances.length = 29 := by decide
  rw [State.judged_nil hclean, hinstances] at hlength
  rw [State.judged_nil hclean, hbuffer, hcore, hthread, htag] at hexec
  have hbytes := fun a => s.byte_sweepWritten w.buf (hlength.trans_le (by decide)) (a := a)
  have heq := s.sweepWritten_eq w.buf (s.sweepBytes [] w)
  generalize s.sweepWritten w.buf (s.sweepBytes [] w) = t at hexec hbytes heq
  have hthreads : t.threads = s.threads := by rw [heq]
  have hrun' : (t.thr x.core.val x.thread.val).run = .running := by
    rw [State.thr, hthreads]
    exact hrun
  have hfind' : t.otFind x.core.val x.thread.val tag = some e := by
    rw [State.otFind, State.wzCore, show t.cores = s.cores by rw [heq]]
    exact hfind
  have hframe := t.otComplete_running_eq (tag := tag) 0 0 hrun'
  refine ⟨_, hexec, ?_, t.completed_otComplete 0 0 hrun' hfind' hdone, fun a ha => ?_⟩
  · refine (congrArg State.chip hframe).trans ?_
    rw [heq]
  · exact (congrArg (fun u : State => u.byte a) hframe).trans (hbytes a ha)

/-! The one unit whose sides differ (02 R65, R66). -/

/-- The unit a sweep reads under one of the instances is of its scope. -/
theorem State.scope_of_sweptAll {s : State} {errors : List LedgerError} {i : Nat × Nat × Nat} {e : LedgerError}
    (h : e ∈ s.sweptAll errors i) : e.scope = i.2.1 := by
  obtain ⟨u, -, rfl⟩ := List.mem_map.1 h
  unfold State.swept
  split
  · next e' hfound =>
    have hmatch := List.find?_some hfound
    simp only [Bool.and_eq_true, beq_iff_eq] at hmatch
    exact hmatch.1.2
  · rfl

theorem State.judged_one {s : State} {e : LedgerError} (hexcluded : s.excluded e.scope = false) (hincomplete : s.incomplete e.scope = false)
    (hdiffer : e.left ≠ e.right) (hread : ∃ i ∈ auditInstances, e ∈ s.sweptAll [e] i)
    (honly : ∀ i ∈ auditInstances, ∀ u ∈ s.sweptAll [e] i, u = e ∨ u.left = u.right) :
    s.judged [e] ≠ [] ∧ ∀ u ∈ s.judged [e], u = e := by
  constructor
  · obtain ⟨i, hi, hmem⟩ := hread
    refine List.ne_nil_of_mem (a := e) (List.mem_flatMap.2 ⟨i, hi, ?_⟩)
    rw [State.judgedOf, ← State.scope_of_sweptAll hmem, hexcluded, hincomplete]
    exact List.mem_filter.2 ⟨hmem, by simpa using hdiffer⟩
  · intro u hu
    obtain ⟨i, hi, hmem⟩ := List.mem_flatMap.1 hu
    unfold State.judgedOf at hmem
    split at hmem
    · cases hmem
    · obtain ⟨hswept, hne⟩ := List.mem_filter.1 hmem
      exact (honly i hi u hswept).resolve_right (by simpa using hne)

/-- A fault of a Hall not in RUN is a record and no more. -/
theorem State.hallFault_logged (s : State) {h : Nat} (cls info : Nat) (hstate : s.hallState h ≠ 0) :
    ∃ e, s.hallFault h cls info = s.errLog e := by
  have hacts : (s.hallState h == 0 && s.chip.safe.isNone) = false := by simp [hstate]
  refine ⟨{ scope := h, level := 2, action := 5, cls := cls, info := info }, ?_⟩
  unfold State.hallFault
  simp only [hacts, Bool.not_false, if_true, Bool.false_eq_true, if_false]

/-- A Hall in quarantine after a sweep, its devices untouched and no sweep going. -/
def SweptHall (h : Nat) (s t : State) : Prop := t.hallState h = 1 ∧ t.chip.sweep = none ∧ SameDevices s t

theorem SweptHall.errLog {h : Nat} {s t : State} (hs : SweptHall h s t) (e : ErrInfo) : SweptHall h s (t.errLog e) := by
  obtain ⟨hstate, hsweep, hdevices⟩ := hs
  have hchip := congrArg Chip.sweep (t.errLog_chip e)
  refine ⟨?_, hchip.trans hsweep, hdevices.trans (t.sameDevices_errLog e)⟩
  rw [State.hallState, State.reg_errLog _ _ _ _ (by decide)]
  exact hstate

theorem SweptHall.of_steady {h : Nat} {s t u : State} (hs : SweptHall h s t) (hu : u.steady = t.steady) : SweptHall h s u := by
  obtain ⟨hstate, hsweep, hdevices⟩ := hs
  have hchip := congrArg Chip.sweep (State.chip_of_steady hu)
  refine ⟨?_, hchip.trans hsweep, hdevices.trans (State.sameDevices_of_steady hu)⟩
  rw [State.hallState, State.reg_of_steady (congrArg State.regs hu) rfl]
  exact hstate

theorem SweptHall.sweepFaults {e : LedgerError} (he : e.scope < 4) {s t : State} (l : List LedgerError) (hl : ∀ u ∈ l, u = e)
    (hs : SweptHall e.scope s t) : SweptHall e.scope s (l.foldl sweepFault t) := by
  induction l generalizing t with
  | nil => exact hs
  | cons u l ih =>
    obtain rfl := hl u List.mem_cons_self
    have hlater : t.hallState u.scope ≠ 0 := by rw [hs.1]; decide
    obtain ⟨r, hr⟩ := t.hallFault_logged 7 (u.ledger + u.unit % 2 ^ 32 * 65536) hlater
    have hfault : sweepFault t u = t.errLog r := (if_pos he).trans hr
    rw [List.foldl_cons, hfault]
    exact ih (fun v hv => hl v (List.mem_cons_of_mem _ hv)) (hs.errLog r)

theorem does_auditSweepEnd_mismatch {s : State} {w : Sweep} {e : LedgerError} (hsweep : s.chip.sweep = some w) (he : e.scope < 4)
    (hrun : s.hallState e.scope = 0) (hincomplete : s.incomplete e.scope = false) (hsafe : s.chip.safe = none)
    (hdiffer : e.left ≠ e.right) (hread : ∃ i ∈ auditInstances, e ∈ s.sweptAll [e] i)
    (honly : ∀ i ∈ auditInstances, ∀ u ∈ s.sweptAll [e] i, u = e ∨ u.left = u.right) :
    Does (.auditSweepEnd [e]) s (SweptHall e.scope s) := by
  have hexcluded : s.excluded e.scope = false := by simp [State.excluded, hrun]
  obtain ⟨hsome, hall⟩ := State.judged_one hexcluded hincomplete hdiffer hread honly
  refine ⟨_, exec_auditSweepEnd [e] hsweep, SweptHall.of_steady ?_ (State.otComplete_steady ..)⟩
  have heq := s.sweepWritten_eq w.buf (s.sweepBytes [e] w)
  generalize s.sweepWritten w.buf (s.sweepBytes [e] w) = t at heq ⊢
  obtain ⟨u, l, hjudged⟩ := List.exists_cons_of_ne_nil hsome
  rw [hjudged] at hall ⊢
  obtain rfl := hall u List.mem_cons_self
  have hregs : t.hallState u.scope = 0 := by rw [State.hallState, State.reg, show t.regs = s.regs by rw [heq]]; exact hrun
  have hsafe' : t.chip.safe = none := by rw [heq]; exact hsafe
  obtain ⟨hstate, -, -, hdevices, hkept⟩ := t.quarantines_hallFault 7 (u.ledger + u.unit % 2 ^ 32 * 65536) he hregs hsafe'
  have hfirst : SweptHall u.scope s (sweepFault t u) := by
    rw [sweepFault, if_pos he]
    refine ⟨hstate, hkept.trans (by rw [heq]), SameDevices.trans ?_ hdevices⟩
    rw [heq]
    exact ⟨rfl, rfl, rfl, rfl, rfl, rfl, rfl, rfl, rfl, rfl, rfl⟩
  exact hfirst.sweepFaults he l fun v hv => hall v (List.mem_cons_of_mem _ hv)

end Sys2Proof.Machine
end

section
/-! PROOFS. O29, the timebase, the Riser loops and the ledgers. -/

namespace Sys2Proof.Machine

/-- Settles O29: a Riser update is followed through what it leaves of its loop until the rail is commanded, and a sweep through
the list of units it judges, which is empty or copies of the one unit whose sides differ. -/
theorem timebaseRisersAndLedgers : Obligations.TimebaseRisersAndLedgers := by
  unfold Obligations.TimebaseRisersAndLedgers
  intro x rd ra rb tag rail load cycle s
  simp only [State.riserCycle_eq, State.riserAvsErr_eq]
  refine ⟨does_tbHoldover s, does_tbRelock s, fun hdue hok => ?_, fun hdue hok hlost => ?_, fun hidle ack => ?_, fun h => ?_,
    fun h => ⟨fun ha => ?_, fun ha hsweep => ?_, fun ha hsweep => ?_⟩, fun w hsweep hcore hthread htag hrun =>
      ⟨fun e hfind hdone hbuffer hclean => ?_, fun e he hstate hincomplete hsafe hdiffer hread honly => ?_⟩⟩
  · obtain ⟨t, hexec, hframe, hvnow, hcycle, hout, hgrid⟩ := does_riserUpdate_ack rail load cycle s hdue hok
    exact ⟨t, hexec, hframe, (t.vnow_eq rail).trans hvnow, hcycle, hout, hgrid⟩
  · obtain ⟨t, hexec, hframe, herr, hvnow⟩ := does_riserUpdate_lost rail load cycle s hdue hok hlost
    exact ⟨t, hexec, hframe, herr, (t.vnow_eq rail).trans (hvnow.trans (s.vnow_eq rail).symm)⟩
  · exact exec_riserUpdate_idle load cycle ack hidle
  · exact writes_ledgRd x rd ra rb s h
  · exact exec_ledgAudit_misaligned h ha
  · exact does_ledgAudit_starts h ha hsweep
  · exact does_ledgAudit_busy h ha hsweep
  · exact does_auditSweepEnd_clean hsweep hcore hthread htag hrun hfind hdone hbuffer hclean
  · exact does_auditSweepEnd_mismatch hsweep he hstate hincomplete hsafe hdiffer hread honly

end Sys2Proof.Machine
end

section
/-! PROOFS. The `sched` instructions (08 R215, R221 to R223, R228). -/

namespace Sys2Proof.Machine

/-! The `sched` instructions (08 R215, R221, R228). -/

theorem State.wzG_stepped (s : State) (x : Issue) (r : Nat) : (s.stepped x).wzG x r = s.wzG x r := by
  have hat := s.at_stepped x
  rw [State.at_] at hat
  rw [State.wzG, hat]
  rfl

/-- An operation over a buffer of local memory that issues acts once its thread has gone on, and ends at once. -/
theorem State.wzTbl_issues {s : State} {x : Issue} {ra rb tag n : Nat} {store : Bool}
    (f : State → Nat → Nat → List Byte → Nat × State)
    (h : s.issues x { group := .switch, priv := true, tag := some tag, srcs := [ra, rb] } (wzBuf x ra n store) = true) :
    s.wzTbl x ra rb tag n store f =
      (f (s.stepped x) (s.wzG x ra) (s.wzG x rb) (s.localBytes x.core.val (s.wzG x ra) n)).2.otAtOnce x.core.val x.thread.val tag
        (f (s.stepped x) (s.wzG x ra) (s.wzG x rb) (s.localBytes x.core.val (s.wzG x ra) n)).1 0 := by
  have hbytes : ∀ a, (s.stepped x).localBytes x.core.val a n = s.localBytes x.core.val a n := fun _ => rfl
  unfold State.wzTbl State.wzOp
  rw [State.wzIssue_issues _ h]
  change (let a := (s.stepped x).wzG x ra
    let r := f (s.stepped x) a ((s.stepped x).wzG x rb) ((s.stepped x).localBytes x.core.val a n)
    r.2.otAtOnce x.core.val x.thread.val tag r.1 0) = _
  rw [State.wzG_stepped, State.wzG_stepped]
  dsimp only
  rw [hbytes]

/-- An operation that ends in the command that issues it: its entry, its thread, and what else that command has done. -/
theorem State.otAtOnce_issued {s u : State} {x : Issue} {q : WzReq} {chk : State → WzCheck} {tag : Nat} (status result : Nat)
    (h : s.issues x q chk = true) (hq : q.tag = some tag) (hthreads : u.threads = (s.stepped x).threads)
    (hcores : u.cores = s.cores) :
    let t := u.otAtOnce x.core.val x.thread.val tag status result
    (Completed x tag status result t ∧ WentOn x s t) ∧ t = { u with cores := t.cores } := by
  have hrun : (u.thr x.core.val x.thread.val).run = .running := by
    have hstepped := State.run_stepped (s := s) (x := x) (State.run_of_issues h)
    rw [State.thr, hthreads]
    exact hstepped
  have hfind : u.otFind x.core.val x.thread.val tag = none := by
    rw [State.otFind, State.wzCore, hcores]
    exact State.otFind_of_issues h hq
  have heq := u.otAtOnce_eq (tag := tag) status result hrun
  refine ⟨⟨u.completed_otAtOnce status result hrun hfind, State.wentOn_of_threads ?_⟩, heq⟩
  rw [heq]
  exact hthreads

/-! `sched.wr`. -/

/-- The checks of R215 on a block for node v. -/
def State.blockOk (s : State) (v : Nat) (d : List Byte) : Prop :=
  nodeIdOk v = true ∧
    paramOk v (field d 40 42) (blockParam d) (s.stagedParam (nodeId (nodeHall v) 2 (blockParam d).parent)).level = true

/-- The port a block for node v is staged for. -/
def State.blockPort (s : State) (v : Nat) (d : List Byte) : Nat :=
  nodePort (fun i => if i = v then blockParam d else s.stagedParam i) v

/-- The staged block. -/
def blockStaged (v : Nat) (d : List Byte) : Staged := { node := v, param := { blockParam d with fo := false } }

/-- The blocks of node v staged at one port are taken away, or one is staged there. -/
def State.unstage (s : State) (v p : Nat) : State :=
  s.setPort p { s.port p with staged := (s.port p).staged.filter (fun x => x.node != v) }
def State.stageAt (s : State) (b : Staged) (p : Nat) : State :=
  s.setPort p { s.port p with staged := stagePut (s.port p).staged b }

/-- No block of node v is staged at a port of its Hall. -/
def State.unstaged (s : State) (v : Nat) : State := (List.range 12).foldl (fun s k => s.unstage v (12 * nodeHall v + k)) s

section
variable (s : State) (v : Nat) (d : List Byte)

theorem State.schedWr_refused (h : ¬s.blockOk v d) : s.schedWr v d = (4, s) := by
  unfold State.schedWr
  refine if_pos ?_
  unfold State.blockOk at h
  rw [Bool.or_eq_true, Bool.not_eq_true', Bool.not_eq_true', ← Bool.not_eq_true, ← Bool.not_eq_true]
  exact not_and_or.1 h

theorem State.schedWr_ok (h : s.blockOk v d) : s.schedWr v d =
    if (blockParam d).fo then
      let l := stagePut (s.port (s.blockPort v d)).fo (blockStaged v d)
      if 64 < l.length then (5, s) else (0, s.setPort (s.blockPort v d) { s.port (s.blockPort v d) with fo := l })
    else
      let t := (s.unstaged v).stageAt (blockStaged v d) (s.blockPort v d)
      (0, match t.livePort v with
        | some o => if o = s.blockPort v d then t else t.stageAt (blockStaged v d) o
        | none => t) := by
  obtain ⟨hid, hparam⟩ := h
  unfold State.schedWr
  refine (if_neg ?_).trans rfl
  simp [hid, hparam]

/-- A block of a failover set joins it while it holds fewer than 64 others. -/
theorem State.schedWr_failover (h : s.blockOk v d) (hfo : (blockParam d).fo = true)
    (hroom : ((s.port (s.blockPort v d)).fo.filter (fun y => y.node != v)).length < 64) : s.schedWr v d =
    (0, s.setPort (s.blockPort v d) { s.port (s.blockPort v d) with
      fo := (s.port (s.blockPort v d)).fo.filter (fun y => y.node != v) ++ [blockStaged v d] }) := by
  have hlength : ¬64 < (stagePut (s.port (s.blockPort v d)).fo (blockStaged v d)).length := by
    rw [stagePut, List.length_append, List.length_singleton]
    exact Nat.not_lt.2 hroom
  rw [State.schedWr_ok s v d h]
  dsimp only
  rw [if_pos hfo, if_neg hlength]
  rfl

theorem State.schedWr_full (h : s.blockOk v d) (hfo : (blockParam d).fo = true)
    (hfull : 64 ≤ ((s.port (s.blockPort v d)).fo.filter (fun y => y.node != v)).length) : s.schedWr v d = (5, s) := by
  have hlength : 64 < (stagePut (s.port (s.blockPort v d)).fo (blockStaged v d)).length := by
    rw [stagePut, List.length_append, List.length_singleton]
    exact Nat.lt_succ_of_le hfull
  rw [State.schedWr_ok s v d h]
  dsimp only
  rw [if_pos hfo, if_pos hlength]

theorem State.port_setPort (s : State) (p q : Nat) (sp : SchedPort) : (s.setPort p sp).port q = if p = q then sp else s.port q := by
  simp [State.port, State.setPort, unitGet_set]

/-- Taken away at some ports, the blocks of node v that stand at a port are at most what they were. -/
theorem State.unstage_foldl (l : List Nat) (s : State) (p : Nat) : let t := l.foldl (fun s k => s.unstage v (12 * nodeHall v + k)) s
    (t.port p).staged.filter (fun x => x.node != v) = (s.port p).staged.filter (fun x => x.node != v) ∧
      (t.port p).fo = (s.port p).fo ∧ t = { s with ports := t.ports } := by
  induction l generalizing s with
  | nil => exact ⟨rfl, rfl, rfl⟩
  | cons k l ih =>
    obtain ⟨hstaged, hfo, hframe⟩ := ih (s.unstage v (12 * nodeHall v + k))
    rw [List.foldl_cons]
    refine ⟨hstaged.trans ?_, hfo.trans ?_, hframe.trans ?_⟩
    · rw [State.unstage, State.port_setPort]
      split
      · next hp => rw [← hp, List.filter_filter]; simp
      · rfl
    · rw [State.unstage, State.port_setPort]
      split
      · next hp => rw [← hp]
      · rfl
    · rfl

/-- Any other block is staged for its port, in place of one of the same node; a node that no block has described yet belongs to
no other. -/
theorem State.schedWr_staged (h : s.blockOk v d) (hfo : (blockParam d).fo = false) (hlive : s.livePort v = none) :
    ∃ t, s.schedWr v d = (0, t) ∧ (t.port (s.blockPort v d)).staged =
        (s.port (s.blockPort v d)).staged.filter (fun y => y.node != v) ++ [blockStaged v d] ∧
      (t.port (s.blockPort v d)).fo = (s.port (s.blockPort v d)).fo ∧ t = { s with ports := t.ports } := by
  obtain ⟨hstaged, hports, hframe⟩ := State.unstage_foldl v (List.range 12) s (s.blockPort v d)
  rw [State.schedWr_ok s v d h]
  dsimp only
  rw [if_neg (by rw [hfo]; decide)]
  change (((s.unstaged v).port (s.blockPort v d)).staged.filter (fun x => x.node != v) = _) at hstaged
  change ((s.unstaged v).port (s.blockPort v d)).fo = _ at hports
  change s.unstaged v = { s with ports := (s.unstaged v).ports } at hframe
  generalize s.unstaged v = u at hstaged hports hframe
  have hlive' : (u.stageAt (blockStaged v d) (s.blockPort v d)).livePort v = none := by
    rw [hframe]
    exact hlive
  refine ⟨u.stageAt (blockStaged v d) (s.blockPort v d), ?_, ?_, ?_, ?_⟩
  · rw [hlive']
  · rw [State.stageAt, State.port_setPort, if_pos rfl]
    exact congrArg (· ++ _) hstaged
  · rw [State.stageAt, State.port_setPort, if_pos rfl]
    exact hports
  · rw [hframe]
    rfl

end

/-- A thread that goes on leaves all but the turns and the threads. -/
theorem State.stepped_shape (s : State) (x : Issue) : ∃ turns threads, s.stepped x = { s with turns := turns, threads := threads } :=
  ⟨_, _, rfl⟩

theorem State.stepped_turned (s : State) (x : Issue) :
    ∃ threads, s.stepped x = { s.tookTurn x.core.val x.thread.val with threads := threads } := ⟨_, rfl⟩

theorem State.port_stepped (s : State) (x : Issue) (p : Nat) : (s.stepped x).port p = s.port p := by
  obtain ⟨_, _, h⟩ := s.stepped_shape x
  rw [h]
  rfl

theorem State.blockOk_stepped (s : State) (x : Issue) (v : Nat) (d : List Byte) : (s.stepped x).blockOk v d = s.blockOk v d := by
  obtain ⟨_, _, h⟩ := s.stepped_shape x
  rw [h]
  rfl

theorem State.blockPort_stepped (s : State) (x : Issue) (v : Nat) (d : List Byte) : (s.stepped x).blockPort v d = s.blockPort v d := by
  obtain ⟨_, _, h⟩ := s.stepped_shape x
  rw [h]
  rfl

theorem State.livePort_stepped (s : State) (x : Issue) (v : Nat) : (s.stepped x).livePort v = s.livePort v := by
  obtain ⟨_, _, h⟩ := s.stepped_shape x
  rw [h]
  rfl

/-- The outcome of an operation of the scheduler: its status, and what it did beside. -/
def DidOp (x : Issue) (tag status result : Nat) (s t : State) : Prop := Completed x tag status result t ∧ WentOn x s t

section
variable {x : Issue} {ra rb : Fin 32} {tag : Fin 16} {s : State}

/-- An operation that ended with no effect: only its entry and its thread differ. -/
theorem idle_of_issued {q : WzReq} {chk : State → WzCheck} (h : s.issues x q chk = true) (hq : q.tag = some tag.val) (status : Nat) :
    let t := (s.stepped x).otAtOnce x.core.val x.thread.val tag.val status 0
    DidOp x tag status 0 s t ∧
      t = { s.tookTurn x.core.val x.thread.val with cores := t.cores, threads := t.threads } := by
  obtain ⟨hdid, hframe⟩ := State.otAtOnce_issued (u := s.stepped x) status 0 h hq rfl rfl
  refine ⟨hdid, ?_⟩
  generalize (s.stepped x).otAtOnce x.core.val x.thread.val tag.val status 0 = t at hframe ⊢
  obtain ⟨_, hturned⟩ := s.stepped_turned x
  rw [hframe, hturned]

/-- An operation that has changed scheduler ports. -/
theorem ports_of_issued {q : WzReq} {chk : State → WzCheck} (h : s.issues x q chk = true) (hq : q.tag = some tag.val) (status : Nat)
    {u : State} (hu : u = { s.stepped x with ports := u.ports }) :
    let t := u.otAtOnce x.core.val x.thread.val tag.val status 0
    DidOp x tag status 0 s t ∧ t.ports = u.ports ∧
      t = { s.tookTurn x.core.val x.thread.val with cores := t.cores, threads := t.threads, ports := t.ports } := by
  obtain ⟨hdid, hframe⟩ := State.otAtOnce_issued (u := u) status 0 h hq (by rw [hu]) (by rw [hu]; rfl)
  refine ⟨hdid, (congrArg State.ports hframe :), ?_⟩
  generalize u.otAtOnce x.core.val x.thread.val tag.val status 0 = t at hframe ⊢
  generalize u.ports = ports at hu
  obtain ⟨_, hturned⟩ := s.stepped_turned x
  rw [hframe, hu, hturned]

end

/-! `sched.wr`. -/

section
variable {x : Issue} {ra rb : Fin 32} {tag : Fin 16} {s : State}
  (h : s.issues x { group := .switch, priv := true, tag := some tag.val, srcs := [ra.val, rb.val] } (wzBuf x ra.val 64 false) = true)
include h

theorem exec_schedWr {status : Nat} {u : State}
    (hwr : (s.stepped x).schedWr (s.wzG x rb.val) (s.localBytes x.core.val (s.wzG x ra.val) 64) = (status, u)) :
    exec (.schedWr x ra rb tag) s = .next (u.otAtOnce x.core.val x.thread.val tag.val status 0) := by
  refine congrArg Host.Outcome.next ((State.wzTbl_issues (fun s _ v d => s.schedWr v d) h).trans ?_)
  rw [hwr]

theorem does_schedWr_idle {status : Nat}
    (hwr : (s.stepped x).schedWr (s.wzG x rb.val) (s.localBytes x.core.val (s.wzG x ra.val) 64) = (status, s.stepped x)) :
    Does (.schedWr x ra rb tag) s fun t => DidOp x tag status 0 s t ∧
      t = { s.tookTurn x.core.val x.thread.val with cores := t.cores, threads := t.threads } :=
  ⟨_, exec_schedWr h hwr, idle_of_issued h rfl status⟩

theorem does_schedWr_staged (hok : s.blockOk (s.wzG x rb.val) (s.localBytes x.core.val (s.wzG x ra.val) 64))
    (hfo : (blockParam (s.localBytes x.core.val (s.wzG x ra.val) 64)).fo = false) (hlive : s.livePort (s.wzG x rb.val) = none) :
    let v := s.wzG x rb.val
    let d := s.localBytes x.core.val (s.wzG x ra.val) 64
    Does (.schedWr x ra rb tag) s fun t => DidOp x tag 0 0 s t ∧
      (t.port (s.blockPort v d)).staged = (s.port (s.blockPort v d)).staged.filter (fun y => y.node != v) ++ [blockStaged v d] ∧
      (t.port (s.blockPort v d)).fo = (s.port (s.blockPort v d)).fo ∧
      t = { s.tookTurn x.core.val x.thread.val with cores := t.cores, threads := t.threads, ports := t.ports } := by
  intro v d
  obtain ⟨u, hwr, hstaged, hkept, hframe⟩ := (s.stepped x).schedWr_staged v d ((s.blockOk_stepped x v d).symm ▸ hok) hfo
    ((s.livePort_stepped x v).trans hlive)
  rw [State.blockPort_stepped, State.port_stepped] at hstaged hkept
  obtain ⟨hdid, hports, hall⟩ := ports_of_issued (tag := tag) h rfl 0 hframe
  refine ⟨_, exec_schedWr h hwr, hdid, ?_, ?_, hall⟩ <;> rw [State.port, hports]
  · exact hstaged
  · exact hkept

theorem does_schedWr_failover (hok : s.blockOk (s.wzG x rb.val) (s.localBytes x.core.val (s.wzG x ra.val) 64))
    (hfo : (blockParam (s.localBytes x.core.val (s.wzG x ra.val) 64)).fo = true) :
    let v := s.wzG x rb.val
    let d := s.localBytes x.core.val (s.wzG x ra.val) 64
    ((s.port (s.blockPort v d)).fo.filter (fun y => y.node != v)).length < 64 → Does (.schedWr x ra rb tag) s fun t =>
      DidOp x tag 0 0 s t ∧ t.port (s.blockPort v d) = { s.port (s.blockPort v d) with
        fo := (s.port (s.blockPort v d)).fo.filter (fun y => y.node != v) ++ [blockStaged v d] } ∧
      t = { s.tookTurn x.core.val x.thread.val with cores := t.cores, threads := t.threads, ports := t.ports } := by
  intro v d hroom
  have hwr := (s.stepped x).schedWr_failover v d ((s.blockOk_stepped x v d).symm ▸ hok) hfo
  rw [State.blockPort_stepped, State.port_stepped] at hwr
  generalize hport : ({ s.port (s.blockPort v d) with
    fo := (s.port (s.blockPort v d)).fo.filter (fun y => y.node != v) ++ [blockStaged v d] } : SchedPort) = sp at hwr ⊢
  replace hwr := hwr hroom
  have hframe : (s.stepped x).setPort (s.blockPort v d) sp =
      { s.stepped x with ports := ((s.stepped x).setPort (s.blockPort v d) sp).ports } := rfl
  obtain ⟨hdid, hports, hall⟩ := ports_of_issued (tag := tag) h rfl 0 hframe
  refine ⟨_, exec_schedWr h hwr, hdid, ?_, hall⟩
  rw [State.port, hports]
  exact (State.port_setPort ..).trans (if_pos rfl)

end

/-! `sched.rd` and `sched.commit` (08 R222, R223). -/

theorem State.nodeNow_stepped (s : State) (x : Issue) (v : Nat) : (s.stepped x).nodeNow v = s.nodeNow v := by
  obtain ⟨_, _, h⟩ := s.stepped_shape x
  rw [h]
  rfl

theorem intBytes_length (n : Nat) (v : Int) : (intBytes n v).length = n := by simp [intBytes]

theorem nodeBlock_length (n : SchedNode) : (nodeBlock n).length = 64 := by
  unfold nodeBlock
  simp only [List.length_append, intBytes_length, leBytes_length]

section
variable {x : Issue} {ra rb : Fin 32} {tag : Fin 16} {s : State}

/-- The block that `sched.rd` stores. -/
def State.readBlock (s : State) (x : Issue) (a v : Nat) : State := (s.stepped x).setLocal x.core.val a (nodeBlock (s.nodeNow v))

theorem State.readBlock_eq (s : State) (x : Issue) (a v : Nat) : s.readBlock x a v = { s.stepped x with
    mem := (s.readBlock x a v).mem, poisoned := (s.unpoison (localBase x.core.val + a) 64).poisoned } := by
  have hpoisoned : ((s.stepped x).unpoison (localBase x.core.val + a) 64).poisoned = (s.unpoison (localBase x.core.val + a) 64).poisoned := by
    obtain ⟨_, _, h⟩ := s.stepped_shape x
    rw [h]
    rfl
  have hwrite := (s.stepped x).writeBytes_eq (localBase x.core.val + a) (nodeBlock (s.nodeNow v))
  rw [nodeBlock_length, hpoisoned] at hwrite
  exact hwrite

theorem State.byte_readBlock (s : State) (x : Issue) (a v b : Nat) : (s.readBlock x a v).byte b =
    if localBase x.core.val + a ≤ b ∧ b < localBase x.core.val + a + (nodeBlock (s.nodeNow v)).length
    then (nodeBlock (s.nodeNow v)).getD (b - (localBase x.core.val + a)) 0 else s.byte b := by
  refine ((s.stepped x).byte_writeBytes ..).trans ?_
  obtain ⟨_, _, h⟩ := s.stepped_shape x
  rw [h]
  rfl

/-- `sched.rd` stores the block of a node as it stands now, or refuses what names none. -/
def readNode (x : Issue) (s : State) (a v : Nat) (_ : List Byte) : Nat × State :=
  if nodeIdOk v then (0, s.setLocal x.core.val a (nodeBlock (s.nodeNow v))) else (4, s)

theorem does_schedRd
    (h : s.issues x { group := .switch, priv := true, tag := some tag.val, srcs := [ra.val, rb.val] } (wzBuf x ra.val 64 true) = true)
    (hid : nodeIdOk (s.wzG x rb.val) = true) : Does (.schedRd x ra rb tag) s fun t => DidOp x tag 0 0 s t ∧
      Stores x (s.wzG x ra.val) (nodeBlock (s.nodeNow (s.wzG x rb.val))) s t ∧ t = { s.tookTurn x.core.val x.thread.val with
        cores := t.cores, threads := t.threads, mem := t.mem
        poisoned := (s.unpoison (localBase x.core.val + s.wzG x ra.val) 64).poisoned } := by
  have hread : readNode x (s.stepped x) (s.wzG x ra.val) (s.wzG x rb.val) (s.localBytes x.core.val (s.wzG x ra.val) 64) =
      (0, s.readBlock x (s.wzG x ra.val) (s.wzG x rb.val)) := by
    rw [readNode, if_pos hid, State.nodeNow_stepped, State.readBlock]
  have hexec := State.wzTbl_issues (readNode x) h
  rw [hread] at hexec
  have heq := s.readBlock_eq x (s.wzG x ra.val) (s.wzG x rb.val)
  have hbyte := s.byte_readBlock x (s.wzG x ra.val) (s.wzG x rb.val)
  generalize s.readBlock x (s.wzG x ra.val) (s.wzG x rb.val) = u at hexec heq hbyte
  obtain ⟨hdid, hframe⟩ := State.otAtOnce_issued (u := u) (tag := tag.val) 0 0 h rfl (by rw [heq]) (by rw [heq]; rfl)
  refine ⟨u.otAtOnce x.core.val x.thread.val tag.val 0 0, congrArg Host.Outcome.next hexec, hdid, fun b => ?_, ?_⟩
  · refine Eq.trans ?_ (hbyte b)
    rw [State.byte, (congrArg State.mem hframe :), State.byte]
  · generalize u.otAtOnce x.core.val x.thread.val tag.val 0 0 = t at hframe ⊢
    generalize u.mem = mem at heq
    obtain ⟨_, hturned⟩ := s.stepped_turned x
    rw [hframe, heq, hturned]

theorem does_schedRd_refused
    (h : s.issues x { group := .switch, priv := true, tag := some tag.val, srcs := [ra.val, rb.val] } (wzBuf x ra.val 64 true) = true)
    (hid : nodeIdOk (s.wzG x rb.val) = false) : Does (.schedRd x ra rb tag) s fun t => DidOp x tag 4 0 s t ∧
      t = { s.tookTurn x.core.val x.thread.val with cores := t.cores, threads := t.threads } := by
  have hexec := State.wzTbl_issues (readNode x) h
  rw [readNode, if_neg (by rw [hid]; decide)] at hexec
  exact ⟨_, congrArg Host.Outcome.next hexec, idle_of_issued h rfl 4⟩

/-- A port asks for its commit; the boundary is reached at once if it is at rest. -/
def State.asked (s : State) (a : Nat) : SchedPort :=
  let q : SchedPort := { s.port a with commitAt := some ((s.port a).commitAt.getD s.tb) }
  if s.portIdle a = true then q.reach else q

theorem State.commitIssue_eq (s : State) (a : Nat) : s.commitIssue a = s.setPort a (s.asked a) := by
  have hasked : ∀ (sp : SchedPort) at_, sp.commitAt = some at_ → { sp with commitAt := some at_ } = sp := by
    rintro ⟨⟩ _ rfl
    rfl
  unfold State.commitIssue State.asked
  dsimp only
  cases h : (s.port a).commitAt with
  | none => rfl
  | some at_ => rw [Option.getD_some, hasked _ _ h]

theorem State.asked_otAlloc_stepped (s : State) (x : Issue) (tag a : Nat) (kind : OtKind) :
    ((s.stepped x).otAlloc x.core.val x.thread.val tag kind).asked a = s.asked a := by
  obtain ⟨_, _, h⟩ := s.stepped_shape x
  rw [State.otAlloc_eq]
  generalize ((s.stepped x).otAlloc x.core.val x.thread.val tag kind).cores = cores
  rw [h]
  rfl

/-- `sched.commit` at issue. -/
def State.committing (s : State) (x : Issue) (tag a : Nat) : State :=
  ((s.stepped x).otAlloc x.core.val x.thread.val tag (.schedCommit a)).setPort a (s.asked a)

theorem exec_schedCommit
    (h : s.issues x { group := .switch, priv := true, tag := some tag.val, srcs := [ra.val] } noChk = true) :
    exec (.schedCommit x ra tag) s = .next (if s.wzG x ra.val < 48 then s.committing x tag (s.wzG x ra.val)
      else (s.stepped x).otAtOnce x.core.val x.thread.val tag.val 4 0) := by
  refine congrArg Host.Outcome.next ((State.wzIssue_issues _ h).trans ?_)
  change (if s.wzG x ra.val < 48 then
    ((s.stepped x).otAlloc x.core.val x.thread.val tag.val (.schedCommit (s.wzG x ra.val))).commitIssue (s.wzG x ra.val)
    else (s.stepped x).otAtOnce x.core.val x.thread.val tag.val 4 0) = _
  rw [State.commitIssue_eq, State.asked_otAlloc_stepped]
  rfl

theorem State.committing_eq (s : State) (x : Issue) (tag a : Nat) : s.committing x tag a =
    { s.stepped x with cores := (s.committing x tag a).cores, ports := (s.committing x tag a).ports } := rfl

theorem does_schedCommit (h : s.issues x { group := .switch, priv := true, tag := some tag.val, srcs := [ra.val] } noChk = true)
    (ha : s.wzG x ra.val < 48) : Does (.schedCommit x ra tag) s fun t => InFlight x tag.val t ∧ WentOn x s t ∧
      t.port (s.wzG x ra.val) = s.asked (s.wzG x ra.val) ∧
      t = { s.tookTurn x.core.val x.thread.val with cores := t.cores, threads := t.threads, ports := t.ports } := by
  have hexec := exec_schedCommit h
  rw [if_pos ha] at hexec
  have hfind := (s.otFind_stepped x x.core.val x.thread.val tag.val).trans (State.otFind_of_issues h rfl)
  generalize s.wzG x ra.val = a at hexec
  have hflight : InFlight x tag.val (s.committing x tag.val a) := ⟨_, (s.stepped x).otFind_otAlloc (.schedCommit a) hfind, rfl⟩
  have hport : (s.committing x tag.val a).port a = s.asked a := (State.port_setPort ..).trans (if_pos rfl)
  have heq := s.committing_eq x tag.val a
  generalize s.committing x tag.val a = t at hexec hflight hport heq
  refine ⟨t, hexec, hflight, State.wentOn_of_threads ?_, hport, ?_⟩
  · rw [heq]
  · obtain ⟨_, hturned⟩ := s.stepped_turned x
    generalize t.cores = cores, t.ports = ports at heq ⊢
    rw [heq, hturned]

theorem does_schedCommit_refused
    (h : s.issues x { group := .switch, priv := true, tag := some tag.val, srcs := [ra.val] } noChk = true)
    (ha : 48 ≤ s.wzG x ra.val) : Does (.schedCommit x ra tag) s fun t => DidOp x tag 4 0 s t ∧
      t = { s.tookTurn x.core.val x.thread.val with cores := t.cores, threads := t.threads } := by
  have hexec := exec_schedCommit h
  rw [if_neg (Nat.not_lt.2 ha)] at hexec
  exact ⟨_, hexec, idle_of_issued h rfl 4⟩

end

end Sys2Proof.Machine
end

section
/-! PROOFS. Operations that end while a thread runs (03 R78 to R83). -/

namespace Sys2Proof.Machine

/-! A thread that runs, and its entries, while other operations end (03 R78 to R83). -/

/-- Thread (c, t) runs still, and its entry of a tag is what it was. -/
def Undisturbed (c t tag : Nat) (s u : State) : Prop := (u.thr c t).run = .running ∧ u.otFind c t tag = s.otFind c t tag

theorem Undisturbed.trans {c t tag : Nat} {s u v : State} (h : Undisturbed c t tag s u) (h' : Undisturbed c t tag u v) :
    Undisturbed c t tag s v := ⟨h'.1, h'.2.trans h.2⟩

theorem State.thr_setThr_apart (s : State) {c t c' t' : Nat} (v : Thread) (h : c' * 8 + t' ≠ c * 8 + t) :
    (s.setThr c' t' v).thr c t = s.thr c t := State.threads_setThr_other _ _ _ _ _ (Ne.symm h)

/-- The lowest completed entry of a thread is that thread's. -/
theorem State.otLowest_thread {s : State} {c t : Nat} {e : OtEntry} (h : s.otLowest c t = some e) : e.thread = t := by
  have hfold : ∀ (l : List OtEntry) (best : Option OtEntry), (∀ b, best = some b → b.thread = t) →
      ∀ b, l.foldl (fun best e =>
        if e.thread == t && e.done then
          match best with
          | none => some e
          | some b => if e.tag < b.tag then some e else some b
        else best) best = some b → b.thread = t := by
    intro l
    induction l with
    | nil => exact fun _ h => h
    | cons x l ih =>
      intro best hbest
      refine ih _ fun b hb => ?_
      dsimp only at hb
      by_cases hx : (x.thread == t && x.done) = true
      · have hthread : x.thread = t := by
          simp only [Bool.and_eq_true, beq_iff_eq] at hx
          exact hx.1
        rw [if_pos hx] at hb
        cases best with
        | none => cases hb; exact hthread
        | some b' =>
          dsimp only at hb
          split at hb
          · cases hb; exact hthread
          · cases hb; exact hbest _ rfl
      · rw [if_neg hx] at hb
        exact hbest b hb
  exact hfold _ none (fun _ h => by cases h) e h

/-- What is found under `q` when the entries under `p` are replaced or taken away, and neither they nor what replaces them are
under `q`. -/
theorem find?_filterMap_apart {α : Type} (p q : α → Bool) (v : Option α) (l : List α) (hp : ∀ e, p e = true → q e = false)
    (hv : ∀ e, v = some e → q e = false) : (l.filterMap (fun e => if p e then v else some e)).find? q = l.find? q := by
  induction l with
  | nil => rfl
  | cons e l ih =>
    by_cases he : p e = true
    · rw [List.find?_cons_of_neg (by rw [hp e he]; decide), ← ih]
      cases v with
      | none => simp [he]
      | some e' => simp [he, hv e' rfl]
    · by_cases hq : q e = true
      · simp [he, hq]
      · simp [he, hq, ih]

section
variable {c t tag : Nat} {s : State} (hrun : (s.thr c t).run = .running)
include hrun

theorem undisturbed_setThr {c' t' : Nat} (v : Thread) (h : c' * 8 + t' ≠ c * 8 + t) : Undisturbed c t tag s (s.setThr c' t' v) :=
  ⟨by rw [State.thr_setThr_apart s v h]; exact hrun, rfl⟩

/-- A Bell wakes threads that wait for it alone. -/
theorem undisturbed_wakeBell (b : Nat) : Undisturbed c t tag s (s.wakeBell b) := by
  refine ⟨?_, by rw [State.wakeBell_eq]; rfl⟩
  unfold State.wakeBell
  split
  · next hissues =>
    clear hissues
    generalize List.range (coreThreads b) = l
    induction l generalizing s with
    | nil => exact hrun
    | cons x l ih =>
      refine ih ?_
      dsimp only
      split
      · next hwait =>
        refine (congrArg Thread.run (State.thr_setThr_apart s _ fun he => ?_)).trans hrun
        have hsame : s.thr b x = s.thr c t := congrArg (unitGet ({} : Thread) s.threads) he
        rw [hsame, hrun] at hwait
        cases hwait.1
      · exact hrun
  · exact hrun

theorem undisturbed_ring (b src : Nat) : Undisturbed c t tag s (s.ring b src) := by
  have hwake : s.wakeOn 7 = { s with chip := (s.wakeOn 7).chip } := by unfold State.wakeOn; split <;> rfl
  unfold State.ring
  dsimp only
  split
  · rw [hwake]
    exact ⟨hrun, rfl⟩
  · refine Undisturbed.trans (u := ({ s.wakeOn 7 with bellSince := _ } : State).setFld F.bellSrcPending b src 1) ?_
      (undisturbed_wakeBell ?_ b)
    · rw [hwake]
      exact ⟨hrun, rfl⟩
    · rw [hwake]
      exact hrun

theorem undisturbed_otPut_apart {c' t' tag' : Nat} {v : Option OtEntry} (hv : ∀ e, v = some e → e.thread = t')
    (h : c' * 8 + t' ≠ c * 8 + t) : Undisturbed c t tag s (s.otPut c' t' tag' v) := by
  refine ⟨hrun, ?_⟩
  by_cases hc : c' = c
  · subst hc
    have hne : t' ≠ t := fun ht => h (by rw [ht])
    simp only [State.otFind, State.otPut, State.wzCore_setCore, if_true]
    refine find?_filterMap_apart (fun e => e.thread == t' && e.tag == tag') _ v _ (fun e he => ?_) (fun e he => ?_)
    · simp only [Bool.and_eq_true, beq_iff_eq] at he
      simp [he.1, hne]
    · simp [hv e he, hne]
  · simp only [State.otFind, State.otPut, State.wzCore_setCore, if_neg hc]

/-- A fault of another thread. -/
theorem undisturbed_faultEntry {c' t' : Nat} (cls epc : Nat) (fval : Word) (h : c' * 8 + t' ≠ c * 8 + t) :
    Undisturbed c t tag s (s.faultEntry c' t' cls epc fval) := by
  unfold State.faultEntry
  dsimp only
  split
  · have hset := undisturbed_setThr (tag := tag) hrun { s.thr c' t' with run := .halted } h
    generalize s.setThr c' t' { s.thr c' t' with run := .halted } = u at hset ⊢
    refine hset.trans ?_
    split
    · exact undisturbed_ring (s := u.setFld _ _ _ _) hset.1 c' 1
    · refine Undisturbed.trans (u := u.setCore c' _) ⟨hset.1, ?_⟩ (undisturbed_ring (s := u.setCore c' _) hset.1 c' 1)
      simp only [State.otFind, State.wzCore_setCore]
      split
      · next hc => rw [hc]
      · rfl
  · exact undisturbed_setThr hrun _ h

/-- Another thread collects an entry. -/
theorem undisturbed_otCollect {c' t' rd : Nat} {e : OtEntry} (he : e.thread = t') (h : c' * 8 + t' ≠ c * 8 + t) :
    Undisturbed c t tag s (s.otCollect c' t' rd e) := by
  unfold State.otCollect
  split
  · have hset := undisturbed_setThr (tag := tag) hrun { s.thr c' t' with run := .running } h
    generalize s.setThr c' t' { s.thr c' t' with run := .running } = u at hset ⊢
    refine hset.trans ?_
    unfold State.takeEntryFault
    split
    · exact ⟨hset.1, rfl⟩
    · have hput := undisturbed_otPut_apart (tag := tag) (tag' := e.tag) (v := some { e with faultDue := false }) hset.1
        (fun e' heq => by cases heq; exact he) h
      exact hput.trans (undisturbed_faultEntry hput.1 _ _ _ h)
  · have hput := undisturbed_otPut_apart (tag := tag) (tag' := e.tag) (v := none) hrun (fun e' heq => by cases heq) h
    exact hput.trans (undisturbed_setThr hput.1 _ h)

/-- Another thread whose wait may be over, or this one, which does not wait. -/
theorem undisturbed_otWake (c' t' : Nat) : Undisturbed c t tag s (s.otWake c' t') := by
  by_cases h : c' * 8 + t' = c * 8 + t
  · have hsame : s.thr c' t' = s.thr c t := congrArg (unitGet ({} : Thread) s.threads) h
    rw [State.otWake_running s (by rw [hsame]; exact hrun)]
    exact ⟨hrun, rfl⟩
  · unfold State.otWake
    dsimp only
    split
    · exact ⟨hrun, rfl⟩
    · split
      · split
        · split
          · next hfind _ =>
            have hkey := List.find?_some hfind
            simp only [Bool.and_eq_true, beq_iff_eq] at hkey
            exact undisturbed_otCollect hrun hkey.1 h
          · exact ⟨hrun, rfl⟩
        · exact ⟨hrun, rfl⟩
      · split
        · next hlow => exact undisturbed_otCollect hrun (State.otLowest_thread hlow) h
        · exact ⟨hrun, rfl⟩
      · exact ⟨hrun, rfl⟩

/-- The end of an operation under another key. -/
theorem undisturbed_otComplete {c' t' tag' : Nat} (status result : Nat) (h : ¬(c' = c ∧ t' = t ∧ tag' = tag)) :
    Undisturbed c t tag s (s.otComplete c' t' tag' status result) := by
  unfold State.otComplete
  split
  · next e hfind =>
    have hkey := List.find?_some hfind
    simp only [Bool.and_eq_true, beq_iff_eq] at hkey
    split
    · exact ⟨hrun, rfl⟩
    · have hput : Undisturbed c t tag s (s.otPut c' t' tag' (some { e with done := true, status := status, result := result })) :=
        ⟨hrun, s.otFind_otPut_other hkey.1 hkey.2 h⟩
      generalize s.otPut c' t' tag' _ = u at hput
      have hcount : Undisturbed c t tag u (u.setCore c' { u.wzCore c' with completedOps := (u.wzCore c').completedOps + 1 }) :=
        ⟨hput.1, u.otFind_countOp ..⟩
      exact (hput.trans hcount).trans (undisturbed_otWake hcount.1 c' t')
  · exact ⟨hrun, rfl⟩

end

/-! Operations of a kind end together (03 R80). -/

/-- The entry of a thread that runs has ended with this status and result. -/
def Ended (c t tag : Nat) (e : OtEntry) (s : State) : Prop :=
  (s.thr c t).run = .running ∧ s.otFind c t tag = some e ∧ e.done = true

theorem Ended.otComplete {c t tag : Nat} {e : OtEntry} {s : State} (h : Ended c t tag e s) (c' t' tag' status result : Nat) :
    Ended c t tag e (s.otComplete c' t' tag' status result) := by
  obtain ⟨hrun, hfind, hdone⟩ := h
  by_cases hkey : c' = c ∧ t' = t ∧ tag' = tag
  · obtain ⟨rfl, rfl, rfl⟩ := hkey
    rw [State.otComplete, hfind]
    dsimp only
    rw [if_pos hdone]
    exact ⟨hrun, hfind, hdone⟩
  · obtain ⟨hrun', hfind'⟩ := undisturbed_otComplete hrun status result hkey
    exact ⟨hrun', hfind'.trans hfind, hdone⟩

theorem foldl_preserves {α : Type} (P : State → Prop) {f : State → α → State} (l : List α) {s : State} (hs : P s)
    (h : ∀ s x, P s → P (f s x)) : P (l.foldl f s) := by
  induction l generalizing s with
  | nil => exact hs
  | cons x l ih => exact ih (h s x hs)

theorem Ended.completeWhere {c t tag : Nat} {e : OtEntry} {s : State} (h : Ended c t tag e s) (f : OtKind → Bool)
    (status result : Nat) : Ended c t tag e (s.completeWhere f status result) := by
  refine foldl_preserves _ _ h fun s c' hs => foldl_preserves _ _ hs fun s x hs => ?_
  split
  · exact hs.otComplete ..
  · exact hs

/-- The operations of one core in a list that are of a kind end. -/
def State.completeIn (f : OtKind → Bool) (status result c : Nat) (s : State) (l : List OtEntry) : State :=
  l.foldl (fun s x => if f x.kind && !x.done then s.otComplete c x.thread x.tag status result else s) s

theorem Ended.completeIn {c t tag : Nat} {e : OtEntry} {s : State} (h : Ended c t tag e s) (f : OtKind → Bool)
    (status result c' : Nat) (l : List OtEntry) : Ended c t tag e (s.completeIn f status result c' l) := by
  refine foldl_preserves _ _ h fun s x hs => ?_
  split
  · exact hs.otComplete ..
  · exact hs

/-- An entry that has not ended is undisturbed by the operations of other keys. -/
theorem undisturbed_completeIn {c t tag : Nat} {s : State} (hrun : (s.thr c t).run = .running) (f : OtKind → Bool)
    (status result c' : Nat) (l : List OtEntry) (hl : ∀ x ∈ l, ¬(c' = c ∧ x.thread = t ∧ x.tag = tag)) :
    Undisturbed c t tag s (s.completeIn f status result c' l) := by
  induction l generalizing s with
  | nil => exact ⟨hrun, rfl⟩
  | cons x l ih =>
    have hfirst : Undisturbed c t tag s (if f x.kind && !x.done then s.otComplete c' x.thread x.tag status result else s) := by
      split
      · exact undisturbed_otComplete hrun status result (hl x List.mem_cons_self)
      · exact ⟨hrun, rfl⟩
    exact hfirst.trans (ih hfirst.1 fun y hy => hl y (List.mem_cons_of_mem _ hy))

/-- The entry a search finds ends with the operations of its kind in its core's table. -/
theorem ended_completeIn {c t tag : Nat} {e : OtEntry} {s : State} (hrun : (s.thr c t).run = .running)
    (hfind : s.otFind c t tag = some e) (hdone : e.done = false) (f : OtKind → Bool) (hkind : f e.kind = true) (status result : Nat)
    (l : List OtEntry) (hl : l.find? (fun x => x.thread == t && x.tag == tag) = some e) :
    Ended c t tag { e with done := true, status := status, result := result } (s.completeIn f status result c l) := by
  have hkey := List.find?_some hl
  simp only [Bool.and_eq_true, beq_iff_eq] at hkey
  obtain ⟨as, bs, hsplit, has⟩ := (List.find?_eq_some_iff_append.1 hl).2
  have hbefore : Undisturbed c t tag s (s.completeIn f status result c as) :=
    undisturbed_completeIn hrun f status result c as fun x hx hxkey => by
      have hno := has x hx
      simp [hxkey.2.1, hxkey.2.2] at hno
  obtain ⟨hrun', hfind'⟩ := hbefore
  have hthis : Ended c t tag { e with done := true, status := status, result := result }
      ((s.completeIn f status result c as).otComplete c t tag status result) := by
    refine ⟨?_, State.otFind_otComplete_same _ status result hrun' (hfind'.trans hfind) hdone, rfl⟩
    rw [State.otComplete_running_eq _ status result hrun']
    exact hrun'
  have heq : s.completeIn f status result c l =
      ((s.completeIn f status result c as).otComplete c t tag status result).completeIn f status result c bs := by
    rw [hsplit, State.completeIn, List.foldl_append, List.foldl_cons, hkind, hdone, hkey.1, hkey.2]
    rfl
  rw [heq]
  exact hthis.completeIn ..

/-- The entry of a thread that runs ends with the operations of its kind. -/
theorem ended_completeWhere {c t tag : Nat} {e : OtEntry} {s : State} (hc : c < 11) (hrun : (s.thr c t).run = .running)
    (hfind : s.otFind c t tag = some e) (hdone : e.done = false) (f : OtKind → Bool) (hkind : f e.kind = true) (status result : Nat) :
    Ended c t tag { e with done := true, status := status, result := result } (s.completeWhere f status result) := by
  have hcores : ∀ (cores : List Nat) (s : State), c ∈ cores → (s.thr c t).run = .running → s.otFind c t tag = some e →
      Ended c t tag { e with done := true, status := status, result := result }
        (cores.foldl (fun s c => s.completeIn f status result c (s.wzCore c).ot) s) := by
    intro cores
    induction cores with
    | nil => exact fun _ h => by cases h
    | cons c' cores ih =>
      intro s hmem hrun hfind
      rw [List.foldl_cons]
      by_cases hc' : c' = c
      · subst hc'
        exact foldl_preserves _ cores (ended_completeIn hrun hfind hdone f hkind status result _ hfind)
          fun s x hs => hs.completeIn ..
      · obtain ⟨hrun', hfind'⟩ := undisturbed_completeIn (tag := tag) hrun f status result c' (s.wzCore c').ot
          fun x _ hkey => hc' hkey.1
        exact ih _ ((List.mem_cons.1 hmem).resolve_left (Ne.symm hc')) hrun' (hfind'.trans hfind)
  exact hcores (List.range 11) s (List.mem_range.2 hc) hrun hfind

end Sys2Proof.Machine
end

section
/-! PROOFS. Commits, failover sets and isochronous instances (02 R61; 06 R179, R180; 08 R221 to R228). -/

namespace Sys2Proof.Machine

/-! What an operation's end leaves of the scheduler. -/

/-- The scheduler's ports and nodes. -/
def State.sched (s : State) : UnitMap SchedPort × UnitMap SchedNode := (s.ports, s.nodes)

theorem State.ring_sched (s : State) (b src : Nat) : (s.ring b src).sched = s.sched := by rw [State.ring_eq]; rfl

theorem State.faultEntry_sched (s : State) (c t cls epc : Nat) (v : Word) : (s.faultEntry c t cls epc v).sched = s.sched := by
  unfold State.faultEntry
  dsimp only
  split
  · refine (State.ring_sched ..).trans ?_
    split <;> rfl
  · rfl

theorem State.otCollect_sched (s : State) (c t rd : Nat) (e : OtEntry) : (s.otCollect c t rd e).sched = s.sched := by
  unfold State.otCollect State.takeEntryFault
  split
  · split
    · rfl
    · exact (State.faultEntry_sched ..).trans rfl
  · rfl

theorem State.otWake_sched (s : State) (c t : Nat) : (s.otWake c t).sched = s.sched := by
  unfold State.otWake
  dsimp only
  split
  · rfl
  · split
    · split
      · split
        · exact State.otCollect_sched ..
        · rfl
      · rfl
    · split
      · exact State.otCollect_sched ..
      · rfl
    · rfl

theorem State.otComplete_sched (s : State) (c t tag status result : Nat) : (s.otComplete c t tag status result).sched = s.sched := by
  unfold State.otComplete
  split
  · split
    · rfl
    · exact (State.otWake_sched ..).trans rfl
  · rfl

theorem State.completeWhere_sched (s : State) (f : OtKind → Bool) (status result : Nat) :
    (s.completeWhere f status result).sched = s.sched := by
  refine foldl_keeps State.sched _ s fun s c => foldl_keeps State.sched _ s fun s x => ?_
  split
  · exact State.otComplete_sched ..
  · rfl

/-! A commit at its boundary (08 R221 to R224). -/

/-- A block put in force leaves the ports, the threads and their tables. -/
theorem State.applyBlock_eq (s : State) (fo : Bool) (b : Staged) : s.applyBlock fo b = { s with nodes := (s.applyBlock fo b).nodes } := rfl

theorem State.node_setNode (s : State) (i j : Nat) (n : SchedNode) : (s.setNode i n).node j = if i = j then n else s.node j := by
  simp [State.node, State.setNode, unitGet_set]

/-- The node of a block that is put in force has its parameters. -/
theorem State.param_applyBlock (s : State) (fo : Bool) (b : Staged) (i : Nat) :
    ((s.applyBlock fo b).node i).param = if b.node = i then b.param else (s.node i).param := by
  unfold State.applyBlock
  dsimp only
  rw [State.node_setNode]
  split
  · split_ifs <;> rfl
  · rfl

/-- Blocks of other nodes leave a node's parameters. -/
theorem State.param_applyBlocks_other (fo : Bool) (l : List Staged) (s : State) (i : Nat) (h : ∀ b ∈ l, b.node ≠ i) :
    ((l.foldl (fun s b => s.applyBlock fo b) s).node i).param = (s.node i).param := by
  induction l generalizing s with
  | nil => rfl
  | cons b l ih =>
    rw [List.foldl_cons, ih _ fun b' hb => h b' (List.mem_cons_of_mem _ hb), State.param_applyBlock, if_neg (h b List.mem_cons_self)]

/-- Blocks of distinct nodes are all in force. -/
theorem State.param_applyBlocks (fo : Bool) (l : List Staged) (s : State) (h : (l.map (·.node)).Nodup) {y : Staged} (hy : y ∈ l) :
    ((l.foldl (fun s b => s.applyBlock fo b) s).node y.node).param = y.param := by
  induction l generalizing s with
  | nil => cases hy
  | cons b l ih =>
    rw [List.map_cons, List.nodup_cons] at h
    obtain ⟨hb, hl⟩ := h
    rw [List.foldl_cons]
    obtain rfl | hy := List.mem_cons.1 hy
    · rw [State.param_applyBlocks_other _ _ _ _ fun b' hb' he => hb (List.mem_map.2 ⟨b', hb', he⟩), State.param_applyBlock, if_pos rfl]
    · exact ih _ hl hy

theorem State.applyBlocks_eq (fo : Bool) (l : List Staged) (s : State) : l.foldl (fun s b => s.applyBlock fo b) s =
    { s with nodes := (l.foldl (fun s b => s.applyBlock fo b) s).nodes } := by
  induction l generalizing s with
  | nil => rfl
  | cons b l ih =>
    rw [List.foldl_cons, ih]
    rfl

theorem nodup_stagePut {l : List Staged} (b : Staged) (h : (l.map (·.node)).Nodup) : ((stagePut l b).map (·.node)).Nodup := by
  unfold stagePut
  rw [List.map_append, List.map_singleton]
  refine List.nodup_append.2 ⟨h.sublist (List.filter_sublist.map _), List.nodup_singleton _, fun i hi j hj => ?_⟩
  obtain ⟨x, hx, rfl⟩ := List.mem_map.1 hi
  rw [List.mem_singleton.1 hj]
  simpa using (List.mem_filter.1 hx).2

theorem nodup_foldl_stagePut (l acc : List Staged) (h : (acc.map (·.node)).Nodup) : ((l.foldl stagePut acc).map (·.node)).Nodup := by
  induction l generalizing acc with
  | nil => exact h
  | cons b l ih => exact ih _ (nodup_stagePut b h)

/-- Firmware's reservations are known: FO_MISSING of ports alone may fall. -/
theorem State.foKnown_eq (s : State) (p : Nat) : s.foKnown p = { s with ports := (s.foKnown p).ports } := by
  unfold State.foKnown
  dsimp only
  split <;> rfl

theorem State.port_foKnown (s : State) (p q : Nat) : ((s.foKnown p).port q).staged = (s.port q).staged ∧
    ((s.foKnown p).port q).ready = (s.port q).ready ∧ ((s.foKnown p).port q).commitAt = (s.port q).commitAt := by
  have hclear : ∀ (s : State) k, ((s.setPort k { s.port k with foMissing := false }).port q).staged = (s.port q).staged ∧
      ((s.setPort k { s.port k with foMissing := false }).port q).ready = (s.port q).ready ∧
      ((s.setPort k { s.port k with foMissing := false }).port q).commitAt = (s.port q).commitAt := fun s k => by
    rw [State.port_setPort]
    split
    · next hk => rw [hk]; exact ⟨rfl, rfl, rfl⟩
    · exact ⟨rfl, rfl, rfl⟩
  obtain ⟨hstaged, hready, hcommit⟩ := hclear s p
  unfold State.foKnown
  dsimp only
  split
  · next m _ =>
    obtain ⟨hstaged', hready', hcommit'⟩ := hclear (s.setPort p { s.port p with foMissing := false }) (trunkPort m)
    exact ⟨hstaged'.trans hstaged, hready'.trans hready, hcommit'.trans hcommit⟩
  · exact ⟨hstaged, hready, hcommit⟩

/-- The commit of one port ends, as commitApply of `port` ends it with status `st` of the whole. -/
def State.endCommit (s : State) (port st : Nat) (t : State) (p : Nat) : State :=
  let t := if st = 0 then t.foKnown p else t
  let sp := t.port p
  let t := t.setPort p { sp with
    staged := sp.staged.foldl stagePut (if st = 0 then sp.ready.filter (s.waits p) else sp.ready), ready := []
    commitAt := none, boundary := false }
  t.completeWhere (fun k => match k with
    | .schedCommit q => q == p
    | _ => false) (s.commitEnd port p) (if st = 0 then s.tb % 2 ^ 48 else 0)

section
variable (s : State) (port st : Nat)

theorem State.known_eq (t : State) (p : Nat) : (if st = 0 then t.foKnown p else t) =
    { t with ports := (if st = 0 then t.foKnown p else t).ports } := by
  split
  · exact State.foKnown_eq ..
  · rfl

theorem State.port_known (t : State) (p q : Nat) : ((if st = 0 then t.foKnown p else t).port q).staged = (t.port q).staged ∧
    ((if st = 0 then t.foKnown p else t).port q).ready = (t.port q).ready ∧
      ((if st = 0 then t.foKnown p else t).port q).commitAt = (t.port q).commitAt := by
  split
  · exact State.port_foKnown ..
  · exact ⟨rfl, rfl, rfl⟩

theorem State.port_completeWhere (t : State) (f : OtKind → Bool) (status result q : Nat) :
    (t.completeWhere f status result).port q = t.port q := by
  have hports := congrArg Prod.fst (t.completeWhere_sched f status result)
  dsimp only [State.sched] at hports
  rw [State.port, hports, State.port]

theorem State.nodes_completeWhere (t : State) (f : OtKind → Bool) (status result : Nat) :
    (t.completeWhere f status result).nodes = t.nodes := by
  have hnodes := congrArg Prod.snd (t.completeWhere_sched f status result)
  dsimp only [State.sched] at hnodes
  exact hnodes

theorem State.nodes_endCommit (t : State) (p : Nat) : (s.endCommit port st t p).nodes = t.nodes := by
  unfold State.endCommit
  rw [State.nodes_completeWhere, State.known_eq]
  rfl

/-- The port whose commit ends has no commit outstanding, and keeps what was not applied. -/
theorem State.port_endCommit_same (t : State) (p : Nat) : ((s.endCommit port st t p).port p).commitAt = none ∧
    ((s.endCommit port st t p).port p).staged =
      (t.port p).staged.foldl stagePut (if st = 0 then (t.port p).ready.filter (s.waits p) else (t.port p).ready) := by
  obtain ⟨hstaged, hready, -⟩ := State.port_known st t p p
  unfold State.endCommit
  rw [State.port_completeWhere, State.port_setPort, if_pos rfl]
  refine ⟨rfl, ?_⟩
  dsimp only
  rw [hstaged, hready]

theorem State.port_endCommit_other (t : State) {p q : Nat} (h : p ≠ q) :
    ((s.endCommit port st t p).port q).commitAt = (t.port q).commitAt ∧ ((s.endCommit port st t p).port q).staged = (t.port q).staged := by
  obtain ⟨hstaged, -, hcommit⟩ := State.port_known st t p q
  unfold State.endCommit
  rw [State.port_completeWhere, State.port_setPort, if_neg h]
  exact ⟨hcommit, hstaged⟩

theorem Ended.endCommit {c t tag : Nat} {e : OtEntry} {u : State} (h : Ended c t tag e u) (p : Nat) :
    Ended c t tag e (s.endCommit port st u p) := by
  unfold State.endCommit
  refine Ended.completeWhere ?_ _ _ _
  rw [State.known_eq]
  exact h

/-- The commands that asked for the commit of a port end with it. -/
theorem ended_endCommit {c t tag : Nat} {e : OtEntry} {u : State} (hc : c < 11) (hrun : (u.thr c t).run = .running)
    (hfind : u.otFind c t tag = some e) (hdone : e.done = false) {p : Nat} (hkind : e.kind = .schedCommit p) :
    Ended c t tag { e with done := true, status := s.commitEnd port p, result := if st = 0 then s.tb % 2 ^ 48 else 0 }
      (s.endCommit port st u p) := by
  unfold State.endCommit
  refine ended_completeWhere hc ?_ ?_ hdone _ ?_ _ _
  · rw [State.known_eq]
    exact hrun
  · rw [State.known_eq]
    exact hfind
  · rw [hkind]
    exact beq_self_eq_true p

end

/-- The ports whose commits end together, and the state with the blocks in force. -/
def State.commitPorts (s : State) (n : Nat) : List Nat := if s.commitStatus n = 0 then (s.commitSet n).1 else [n]
def State.commitBlocks (s : State) (n : Nat) : State :=
  if s.commitStatus n = 0 then (s.commitSet n).2.foldl (fun s b => s.applyBlock false b) s else s

theorem State.commitApply_due (s : State) (n : Nat) (h : s.atBoundary n = true) (hls : s.lockstep (n / 12) = false) :
    s.commitApply n = (s.commitPorts n).foldl (s.endCommit n (s.commitStatus n)) (s.commitBlocks n) := by
  have hgo : ¬((!s.atBoundary n || (s.lockstep (n / 12) && s.tb % 64 != 0)) = true) := by
    simp [h, hls]
  exact if_neg hgo

theorem State.commitApply_early (s : State) (n : Nat) (h : (s.port n).commitAt = none ∨ (s.port n).boundary = false) :
    s.commitApply n = s := by
  have hat : s.atBoundary n = false := by
    unfold State.atBoundary
    obtain h | h := h <;> rw [h]
    · rfl
    · exact Bool.and_false _
  refine if_pos ?_
  rw [hat]
  rfl

/-- The commit of the port itself ends first, and once. -/
theorem State.commitPorts_eq (s : State) (n : Nat) : ∃ rest, s.commitPorts n = n :: rest ∧ n ∉ rest := by
  unfold State.commitPorts
  split
  · unfold State.commitSet
    dsimp only
    rw [List.eraseDups_cons]
    refine ⟨_, rfl, fun hmem => ?_⟩
    have hfilter := (List.mem_filter.1 (List.mem_eraseDups.1 hmem)).2
    simp at hfilter
  · exact ⟨[], rfl, List.not_mem_nil⟩

theorem State.commitBlocks_eq (s : State) (n : Nat) : s.commitBlocks n = { s with nodes := (s.commitBlocks n).nodes } := by
  unfold State.commitBlocks
  split
  · exact State.applyBlocks_eq ..
  · rfl

section
variable (s : State) (n : Nat)

theorem State.nodes_endCommits (st : Nat) (l : List Nat) (t : State) : (l.foldl (s.endCommit n st) t).nodes = t.nodes :=
  foldl_keeps State.nodes l t fun t p => s.nodes_endCommit n st t p

theorem State.port_endCommits_other (st : Nat) (l : List Nat) (t : State) (h : n ∉ l) :
    ((l.foldl (s.endCommit n st) t).port n).commitAt = (t.port n).commitAt ∧
      ((l.foldl (s.endCommit n st) t).port n).staged = (t.port n).staged := by
  induction l generalizing t with
  | nil => exact ⟨rfl, rfl⟩
  | cons p l ih =>
    obtain ⟨hcommit, hstaged⟩ := ih (s.endCommit n st t p) fun hmem => h (List.mem_cons_of_mem _ hmem)
    obtain ⟨hcommit', hstaged'⟩ := s.port_endCommit_other n st t (p := p) (q := n) fun he => h (he ▸ List.mem_cons_self)
    rw [List.foldl_cons]
    generalize s.endCommit n st t p = u at hcommit hstaged hcommit' hstaged' ⊢
    exact ⟨hcommit.trans hcommit', hstaged.trans hstaged'⟩

theorem State.port_commitApply (h : s.atBoundary n = true) (hls : s.lockstep (n / 12) = false) :
    ((s.commitApply n).port n).commitAt = none ∧ ((s.commitApply n).port n).staged = (s.port n).staged.foldl stagePut
      (if s.commitStatus n = 0 then (s.port n).ready.filter (s.waits n) else (s.port n).ready) := by
  obtain ⟨rest, hports, hrest⟩ := s.commitPorts_eq n
  have hport : (s.commitBlocks n).port n = s.port n := by rw [State.commitBlocks_eq]; rfl
  rw [s.commitApply_due n h hls, hports, List.foldl_cons]
  obtain ⟨hcommit, hstaged⟩ := s.port_endCommits_other n (s.commitStatus n) rest
    (s.endCommit n (s.commitStatus n) (s.commitBlocks n) n) hrest
  obtain ⟨hcommit', hstaged'⟩ := s.port_endCommit_same n (s.commitStatus n) (s.commitBlocks n) n
  rw [hport] at hstaged'
  generalize s.endCommit n (s.commitStatus n) (s.commitBlocks n) n = u at hcommit hstaged hcommit' hstaged' ⊢
  exact ⟨hcommit.trans hcommit', hstaged.trans hstaged'⟩

theorem State.nodes_commitApply (h : s.atBoundary n = true) (hls : s.lockstep (n / 12) = false) :
    (s.commitApply n).nodes = (s.commitBlocks n).nodes := by
  rw [s.commitApply_due n h hls, State.nodes_endCommits]

theorem State.param_commitApply (h : s.atBoundary n = true) (hls : s.lockstep (n / 12) = false) (hst : s.commitStatus n = 0)
    {y : Staged} (hy : y ∈ (s.commitSet n).2) : ((s.commitApply n).node y.node).param = y.param := by
  have hnodes := s.nodes_commitApply n h hls
  rw [State.node, hnodes, State.commitBlocks, if_pos hst]
  exact State.param_applyBlocks false _ s (nodup_foldl_stagePut _ [] List.nodup_nil) hy

/-- A command of a thread that runs and asked for this commit ends with it. -/
theorem State.ended_commitApply (h : s.atBoundary n = true) (hls : s.lockstep (n / 12) = false) {c t tag : Nat} {e : OtEntry}
    (hc : c < 11) (hrun : (s.thr c t).run = .running) (hfind : s.otFind c t tag = some e) (hdone : e.done = false)
    (hkind : e.kind = .schedCommit n) : Ended c t tag
      { e with done := true, status := s.commitEnd n n, result := if s.commitStatus n = 0 then s.tb % 2 ^ 48 else 0 }
      (s.commitApply n) := by
  obtain ⟨rest, hports, -⟩ := s.commitPorts_eq n
  have heq := s.commitBlocks_eq n
  rw [s.commitApply_due n h hls, hports, List.foldl_cons]
  generalize s.commitBlocks n = u at heq ⊢
  have hrun' : (u.thr c t).run = .running := by rw [heq]; exact hrun
  have hfind' : u.otFind c t tag = some e := by rw [heq]; exact hfind
  exact foldl_preserves _ rest (ended_endCommit s n _ hc hrun' hfind' hdone hkind) fun v p hv => hv.endCommit s n _ p

end

theorem does_schedCommitApply (port : Fin 48) (x : Issue) (tag : Fin 16) (s : State) (h : s.atBoundary port = true)
    (hls : s.lockstep (port / 12) = false) : Does (.schedCommitApply port) s fun t => (t.port port).commitAt = none ∧
      (s.commitStatus port = 0 → (t.port port).staged = (s.port port).staged.foldl stagePut ((s.port port).ready.filter (s.waits port)) ∧
        ∀ y ∈ (s.commitSet port).2, (t.node y.node).param = y.param) ∧
      (s.commitStatus port ≠ 0 → (t.port port).staged = (s.port port).staged.foldl stagePut (s.port port).ready ∧ t.nodes = s.nodes) ∧
      (∀ e, s.otFind x.core.val x.thread.val tag.val = some e → e.done = false → e.kind = .schedCommit port → (s.at_ x).run = .running →
        Completed x tag.val (s.commitEnd port port) (if s.commitStatus port = 0 then s.tb % 2 ^ 48 else 0) t) ∧
      SameDevices s t ∧ SameMemory s t := by
  obtain ⟨hcommit, hstaged⟩ := s.port_commitApply port h hls
  have hsteady := s.commitApply_steady port
  refine ⟨s.commitApply port, rfl, hcommit, fun hst => ⟨?_, fun y hy => s.param_commitApply port h hls hst hy⟩,
    fun hst => ⟨?_, ?_⟩, fun e hfind hdone hkind hrun => ?_, State.sameDevices_of_steady hsteady, State.sameMemory_of_steady hsteady⟩
  · rw [hstaged, if_pos hst]
  · rw [hstaged, if_neg hst]
  · rw [s.nodes_commitApply port h hls, State.commitBlocks, if_neg hst]
  · obtain ⟨-, hended, hdone'⟩ := s.ended_commitApply port h hls x.core.isLt hrun hfind hdone hkind
    exact ⟨_, hended, hdone', rfl, rfl⟩

/-! GUARANTEE at an epoch (02 R61). -/

/-- A node enters LOCKSTEP: no deficit, its buckets as TOKENS_ON_CHANGE directs. -/
def State.levelNode (s : State) (i : Nat) : State := s.setNode i { (s.nodeNow i).setTokens with deficit := 0 }

theorem State.node_levelNode (s : State) (i j : Nat) : ((s.levelNode i).node j).param = (s.node j).param ∧
    ((s.levelNode i).node j).deficit = if i = j then 0 else (s.node j).deficit := by
  unfold State.levelNode
  rw [State.node_setNode]
  split
  · next h => subst h; exact ⟨rfl, rfl⟩
  · exact ⟨rfl, rfl⟩

theorem State.levelNodes_eq (l : List (Nat × SchedNode)) (s : State) : l.foldl (fun s e => s.levelNode e.1) s =
    { s with nodes := (l.foldl (fun s e => s.levelNode e.1) s).nodes } := by
  induction l generalizing s with
  | nil => rfl
  | cons e l ih =>
    rw [List.foldl_cons, ih]
    rfl

theorem State.param_levelNodes (l : List (Nat × SchedNode)) (s : State) (j : Nat) :
    ((l.foldl (fun s e => s.levelNode e.1) s).node j).param = (s.node j).param :=
  foldl_keeps (fun s : State => (s.node j).param) l s fun s e => (s.node_levelNode e.1 j).1

/-- Every node of the list has no deficit. -/
theorem State.deficit_levelNodes (l : List (Nat × SchedNode)) (s : State) (j : Nat)
    (h : (s.node j).deficit = 0 ∨ ∃ e ∈ l, e.1 = j) : ((l.foldl (fun s e => s.levelNode e.1) s).node j).deficit = 0 := by
  induction l generalizing s with
  | nil => exact h.resolve_right fun ⟨e, he, _⟩ => by cases he
  | cons e l ih =>
    refine ih _ ?_
    have hdeficit := (s.node_levelNode e.1 j).2
    by_cases hj : e.1 = j
    · exact .inl (hdeficit.trans (if_pos hj))
    · obtain h | ⟨e', he', hj'⟩ := h
      · exact .inl (hdeficit.trans ((if_neg hj).trans h))
      · obtain rfl | he' := List.mem_cons.1 he'
        · exact absurd hj' hj
        · exact .inr ⟨e', he', hj'⟩

/-- A Hall that enters LOCKSTEP. -/
def State.lockstepEnter (s : State) (h : Nat) : State :=
  let t := (s.nodes.filter (fun e => nodeHall e.1 == h)).foldl (fun s e => s.levelNode e.1) s
  let t := t.setHall h { t.hall h with lsOffered := [], lsNext := s.epochIndex, lsFreed := [] }
  (t.setFld F.hallModeLsActive h 0 1).setFld F.hallLsOriginEpoch h 0 s.epochIndex

section
variable (s : State) (h : Nat)

theorem State.lockstepEnter_shape : ∃ nodes halls : _, s.lockstepEnter h =
    (({ s with nodes := nodes, halls := halls } : State).setFld F.hallModeLsActive h 0 1).setFld F.hallLsOriginEpoch h 0 s.epochIndex ∧
      nodes = ((s.nodes.filter (fun e => nodeHall e.1 == h)).foldl (fun s e => s.levelNode e.1) s).nodes ∧
      unitGet {} halls h = { s.hall h with lsOffered := [], lsNext := s.epochIndex, lsFreed := [] } := by
  have heq := State.levelNodes_eq (s.nodes.filter (fun e => nodeHall e.1 == h)) s
  unfold State.lockstepEnter
  generalize (s.nodes.filter (fun e => nodeHall e.1 == h)).foldl (fun s e => s.levelNode e.1) s = t at heq ⊢
  generalize t.nodes = nodes at heq ⊢
  rw [heq]
  exact ⟨nodes, _, rfl, rfl, unitGet_set_same ..⟩

theorem State.lockstepSwitch_enter (htb : s.tb % 64 = 0) (hwant : s.flag F.hallModeGuarantee h = true) (hls : s.lockstep h = false) :
    s.lockstepSwitch h = s.lockstepEnter h := by
  have hgo : ¬(s.tb % 64 ≠ 0 ∨ s.flag F.hallModeGuarantee h = s.lockstep h) := by simp [htb, hwant, hls]
  have hepoch : ((s.nodes.filter (fun e => nodeHall e.1 == h)).foldl (fun s e => s.levelNode e.1) s).epochIndex = s.epochIndex := by
    rw [State.levelNodes_eq]
    rfl
  refine (if_neg hgo).trans ((if_pos hwant).trans ?_)
  unfold State.lockstepEnter
  rw [← hepoch]
  rfl

theorem State.lockstepSwitch_leave (htb : s.tb % 64 = 0) (hwant : s.flag F.hallModeGuarantee h = false) (hls : s.lockstep h = true) :
    s.lockstepSwitch h = (s.setFld F.hallModeLsActive h 0 0).setHall h { s.hall h with lsFreed := [] } := by
  have hgo : ¬(s.tb % 64 ≠ 0 ∨ s.flag F.hallModeGuarantee h = s.lockstep h) := by simp [htb, hwant, hls]
  exact (if_neg hgo).trans (if_neg (by rw [hwant]; decide))

end

theorem does_lockstepSwitch_enter (hall : Fin 4) (s : State) (htb : s.tb % 64 = 0) (hwant : s.flag F.hallModeGuarantee hall = true)
    (hls : s.lockstep hall = false) : Does (.lockstepSwitch hall) s fun t => t.lockstep hall = true ∧
      t.fld F.hallLsOriginEpoch hall = s.tb / 64 % 2 ^ 58 ∧ (t.hall hall).lsOffered = [] ∧ (t.hall hall).lsNext = s.epochIndex ∧
      (∀ e ∈ s.nodes, nodeHall e.1 = hall → (t.node e.1).deficit = 0 ∧ (t.node e.1).param = (s.node e.1).param) ∧
      t = { s with regs := t.regs, halls := t.halls, nodes := t.nodes } := by
  obtain ⟨nodes, halls, hshape, hnodes, hhall⟩ := s.lockstepEnter_shape hall
  refine ⟨_, congrArg Host.Outcome.next (s.lockstepSwitch_enter hall htb hwant hls), ?_⟩
  rw [hshape]
  refine ⟨?_, ?_, ?_, ?_, fun e he heh => ⟨?_, ?_⟩, rfl⟩
  · unfold State.lockstep State.flag
    rw [State.fld_setFld_other _ _ _ _ _ _ _ _ (by decide) (by decide) (.inl (fun e => by cases e.1)),
      State.fld_setFld_same _ F.hallModeLsActive hall 0 1 (by decide) (by decide)]
    rfl
  · exact State.fld_setFld_same _ F.hallLsOriginEpoch hall 0 s.epochIndex (by decide) (by decide)
  · exact congrArg HallSw.lsOffered hhall
  · exact congrArg HallSw.lsNext hhall
  · have hin : e ∈ s.nodes.filter (fun e => nodeHall e.1 == hall.val) := List.mem_filter.2 ⟨he, by simp [heh]⟩
    have hdeficit := State.deficit_levelNodes _ s e.1 (.inr ⟨e, hin, rfl⟩)
    rw [State.node, ← hnodes] at hdeficit
    exact hdeficit
  · have hparam := State.param_levelNodes (s.nodes.filter (fun e => nodeHall e.1 == hall.val)) s e.1
    rw [State.node, ← hnodes] at hparam
    exact hparam

theorem does_lockstepSwitch_leave (hall : Fin 4) (s : State) (htb : s.tb % 64 = 0) (hwant : s.flag F.hallModeGuarantee hall = false)
    (hls : s.lockstep hall = true) : Does (.lockstepSwitch hall) s fun t => t.lockstep hall = false ∧
      OnlyField F.hallModeLsActive hall 0 s t ∧
      t = { s with regs := t.regs, halls := (s.setHall hall { s.hall hall with lsFreed := [] }).halls } := by
  refine ⟨_, congrArg Host.Outcome.next (s.lockstepSwitch_leave hall htb hwant hls), ?_,
    onlyField_setFld s F.hallModeLsActive hall 0 0 (by decide), rfl⟩
  have hoff := State.fld_setFld_same s F.hallModeLsActive hall 0 0 (by decide) (by decide)
  exact congrArg (· != 0) hoff

/-! Failover sets and isochronous instances (06 R179, R180; 08 R225, R228). -/

theorem State.isoCheck_sched (s : State) (n : Nat) : (s.isoCheck n).sched = s.sched := by
  unfold State.isoCheck
  dsimp only
  split
  · exact (State.ring_sched ..).trans rfl
  · rfl

/-- A failover set of one block, applied and emptied. -/
def State.failedOver (s : State) (p : Nat) (y : Staged) : State :=
  (s.applyBlock true y).setPort p { s.port p with fo := [], foDue := false, foAt := false }

theorem State.failoverApply_one (s : State) (n : Nat) (y : Staged) :
    let fo := s.port (n / 6 * 12 + n % 6)
    fo.foDue = true → fo.fo = [y] → fo.foAt = true → fo.commitAt = none → s.lockstep ((n / 6 * 12 + n % 6) / 12) = false →
      s.failoverApply n = (s.failedOver (n / 6 * 12 + n % 6) y).isoCheck n := by
  intro fo hdue hset hat hcommit hls
  have hgo : ¬((!fo.foDue) = true ∨ (fo.commitAt.isSome = true ∧ fo.boundary = true) ∨
      (!(fo.foAt || s.portIdle (n / 6 * 12 + n % 6))) = true ∨
      (s.lockstep ((n / 6 * 12 + n % 6) / 12) = true ∧ s.tb % 64 ≠ 0)) := by
    rw [hdue, hat, hcommit, hls]
    simp
  refine (if_neg hgo).trans ?_
  change (((fo.fo.foldl (fun s b => s.applyBlock true b) s).setPort _ _).isoCheck n) = _
  rw [hset]
  rfl

theorem does_failoverCommitApply (trk : Fin 24) (y : Staged) (s : State) :
    let p := trk.val / 6 * 12 + trk.val % 6
    let fo := s.port p
    fo.foDue = true → fo.fo = [y] → fo.foAt = true → fo.commitAt = none → s.lockstep (p / 12) = false →
      Does (.failoverCommitApply trk) s fun t => (t.node y.node).param = y.param ∧
        t.port p = { fo with fo := [], foDue := false, foAt := false } ∧ SameDevices s t ∧ SameMemory s t := by
  intro p fo hdue hset hat hcommit hls
  have happly := s.failoverApply_one trk y hdue hset hat hcommit hls
  have hsteady := s.failoverApply_steady trk
  have hsched := (s.failedOver p y).isoCheck_sched trk
  unfold State.sched at hsched
  obtain ⟨hports, hnodes⟩ := Prod.mk.inj hsched
  refine ⟨s.failoverApply trk, rfl, ?_, ?_, State.sameDevices_of_steady hsteady, State.sameMemory_of_steady hsteady⟩
  · rw [happly, State.node, hnodes]
    exact (s.param_applyBlock true y y.node).trans (if_pos rfl)
  · rw [happly, State.port, hports]
    exact (State.port_setPort ..).trans (if_pos rfl)

theorem exec_failoverCommitApply_idle (trk : Fin 24) (s : State) (h : (s.port (trk.val / 6 * 12 + trk.val % 6)).foDue = false) :
    exec (.failoverCommitApply trk) s = .next s := by
  refine congrArg Host.Outcome.next (if_pos (.inl ?_))
  rw [h]
  rfl

/-- The next of a reservation's instances has started. -/
def State.nextInstance (s : State) (id : Nat) : State :=
  let n := s.node id
  s.setNode id { n with
    grid := n.grid.start s.tb (n.param.interval * 1000) (s.fld F.chipCatchupIso), owed := (n.param.resBytes : Int) + min n.owed 0 }

theorem State.isoStart_due (s : State) (id : Nat) : let r := s.node id
    s.chipRuns = true → r.reserved = true → r.param.enable = true → r.grid.on = true → r.grid.next ≤ s.tb →
      r.owed ≤ 0 ∨ s.hasBelow 1 id = false →
      ∃ lag : Prop, ∃ _ : Decidable lag, ∃ port, s.isoStart id = if lag then
        ((s.nextInstance id).setFld F.spStatusCatchupLag port 0 1).ring 8 2 else s.nextInstance id := by
  intro r hruns hreserved henable hon hnext hdone
  have hgo : ¬((!s.chipRuns) = true ∨ (!r.reserved) = true ∨ (!r.param.enable) = true ∨ (!r.grid.on) = true ∨ s.tb < r.grid.next ∨
      (0 < r.owed ∧ s.hasBelow 1 id = true)) := by
    rw [hruns, hreserved, henable, hon]
    have howed : ¬(0 < r.owed ∧ s.hasBelow 1 id = true) := fun ⟨hpos, hbelow⟩ => by
      obtain h | h := hdone
      · omega
      · rw [h] at hbelow; cases hbelow
    simp only [Bool.not_true, Bool.false_eq_true, false_or]
    exact fun h => h.elim (fun h => absurd hnext (Nat.not_le.2 h)) howed
  exact ⟨_, inferInstance, _, if_neg hgo⟩

theorem State.isoStart_early (s : State) (id : Nat) (h : s.tb < (s.node id).grid.next) : s.isoStart id = s :=
  if_pos (.inr (.inr (.inr (.inr (.inl h)))))

theorem does_isoInstanceStart (hall : Fin 4) (sub : Fin 1024) (s : State) : let id := nodeId hall 1 sub
    let r := s.node id
    s.chipRuns = true → r.reserved = true → r.param.enable = true → r.grid.on = true → r.grid.next ≤ s.tb →
      r.owed ≤ 0 ∨ s.hasBelow 1 id = false → Does (.isoInstanceStart hall sub) s fun t =>
        (t.node id).owed = r.param.resBytes + min r.owed 0 ∧ (t.node id).grid.nominal = r.grid.nominal + r.param.interval * 1000 ∧
        (t.node id).param = r.param ∧ (t.chip = s.chip ∨ t.chip = (s.wakeOn 7).chip) ∧
        t = { s with nodes := t.nodes, regs := t.regs, threads := t.threads, bellSince := t.bellSince, chip := t.chip } := by
  intro id r hruns hreserved henable hon hnext hdone
  obtain ⟨lag, _, port, heq⟩ := s.isoStart_due id hruns hreserved henable hon hnext hdone
  have hnode : (s.nextInstance id).node id = { r with
      grid := r.grid.start s.tb (r.param.interval * 1000) (s.fld F.chipCatchupIso), owed := (r.param.resBytes : Int) + min r.owed 0 } :=
    (State.node_setNode ..).trans (if_pos rfl)
  refine ⟨s.isoStart id, rfl, ?_⟩
  rw [heq]
  split
  · have hrung : (((s.nextInstance id).setFld F.spStatusCatchupLag port 0 1).ring 8 2).node id = (s.nextInstance id).node id := by
      rw [State.ring_eq]
      rfl
    have hwake : (((s.nextInstance id).setFld F.spStatusCatchupLag port 0 1).wakeOn 7).chip = (s.wakeOn 7).chip := by
      have hchip : ((s.nextInstance id).setFld F.spStatusCatchupLag port 0 1).chip = s.chip := rfl
      unfold State.wakeOn
      rw [hchip]
      cases s.chip.inState with
      | none => exact hchip
      | some i => rfl
    rw [hrung, hnode]
    refine ⟨rfl, rfl, rfl, .inr ?_, ?_⟩
    · rw [State.ring_eq]
      exact hwake
    · rw [State.ring_eq]
      rfl
  · rw [hnode]
    exact ⟨rfl, rfl, rfl, .inl rfl, rfl⟩

theorem does_schedFoClear (port : Fin 48) (s : State) : Does (.schedFoClear port) s fun t =>
    t.port port = { s.port port with fo := [], foDue := false, foAt := false } ∧ t = { s with ports := t.ports } :=
  ⟨s.foClear port, rfl, (State.port_setPort ..).trans (if_pos rfl), rfl⟩

end Sys2Proof.Machine
end

section
/-! PROOFS. The choice and the service of a packet (08 R217 to R222). -/

namespace Sys2Proof.Machine

/-! A port chooses (08 R218 to R220): what the choice leaves of every node, and where it leads. -/

/-- What decides a node's peak bucket: its parameters, the bucket, what is left over of a refill, and when that was. -/
def SchedNode.peak (n : SchedNode) : NodeParam × Int × Nat × Nat := (n.param, n.ptok, n.remP, n.since)

theorem SchedNode.ptok_refill {m n : SchedNode} (h : m.peak = n.peak) (now : Nat) : (m.refill now).ptok = (n.refill now).ptok := by
  obtain ⟨hparam, hptok, hrem, hsince⟩ : m.param = n.param ∧ m.ptok = n.ptok ∧ m.remP = n.remP ∧ m.since = n.since := by
    simpa [SchedNode.peak] using h
  unfold SchedNode.refill SchedNode.keepsP SchedNode.reserved
  rw [hparam, hptok, hrem, hsince]

theorem State.peak_setNode (s : State) {i : Nat} {v : SchedNode} (h : v.peak = (s.node i).peak) (j : Nat) :
    ((s.setNode i v).node j).peak = (s.node j).peak := by
  rw [State.node_setNode]
  split
  · next hi => rw [← hi, h]
  · rfl

/-- Nodes alone may differ. -/
def OnlyNodes (s t : State) : Prop := t = { s with nodes := t.nodes }

theorem OnlyNodes.trans {s t u : State} (h : OnlyNodes s t) (h' : OnlyNodes t u) : OnlyNodes s u := by
  unfold OnlyNodes at *
  rw [h']
  generalize u.nodes = nodes
  rw [h]

theorem OnlyNodes.setNode (s : State) (i : Nat) (v : SchedNode) : OnlyNodes s (s.setNode i v) := rfl

section
variable (n lvl quantum : Nat) (all cands : List Nat)

theorem State.weightedPick_nodes (fuel : Nat) (s : State) : OnlyNodes s (State.weightedPick n lvl quantum all cands fuel s).2 := by
  induction fuel generalizing s with
  | zero => rfl
  | succ fuel ih =>
    unfold State.weightedPick
    dsimp only
    split
    · rfl
    · split
      · rfl
      · exact ((OnlyNodes.setNode ..).trans (.setNode ..)).trans (ih _)

theorem State.weightedPick_peak (fuel : Nat) (s : State) (j : Nat) :
    ((State.weightedPick n lvl quantum all cands fuel s).2.node j).peak = (s.node j).peak := by
  induction fuel generalizing s with
  | zero => rfl
  | succ fuel ih =>
    unfold State.weightedPick
    dsimp only
    split
    · rfl
    · split
      · rfl
      · rw [ih, State.peak_setNode, State.peak_setNode]
        · rfl
        · rfl

theorem headD_mem {l : List Nat} (h : l ≠ []) (d : Nat) : l.headD d ∈ l := by
  cases l with
  | nil => exact absurd rfl h
  | cons a l => exact List.mem_cons_self

theorem State.weightedPick_mem (h : cands ≠ []) (fuel : Nat) (s : State) :
    (State.weightedPick n lvl quantum all cands fuel s).1 ∈ cands := by
  induction fuel generalizing s with
  | zero => exact headD_mem h 0
  | succ fuel ih =>
    unfold State.weightedPick
    dsimp only
    split
    · next c hcur =>
      split at hcur
      · split at hcur
        · next hin =>
          cases hcur
          exact List.contains_iff_mem.1 hin.1
        · cases hcur
      · cases hcur
    · split
      · exact headD_mem h 0
      · exact ih _

end

theorem nextAfter_mem {l : List Nat} (h : l ≠ []) (b : Option Nat) : nextAfter l b ∈ l := by
  cases b with
  | none => exact headD_mem h 0
  | some b =>
    change (l.find? (fun x => decide (b < x))).getD (l.headD 0) ∈ l
    cases hfound : l.find? (fun x => decide (b < x)) with
    | none => exact headD_mem h 0
    | some x => exact List.mem_of_find?_eq_some hfound

/-- The children a choice is made among, with those of the strict level served if a level is to be looked at. -/
def State.chooseAmong (s : State) (port l n : Nat) (take : Bool) : List Nat :=
  let can := (s.childrenOf n).filter (fun c => s.eligible port true l c)
  let low := (can.map (fun c => s.levelNow port c)).foldl min 3
  let l' := (s.childrenOf n).filter (fun c => s.eligible port take l c)
  if l = 2 then l'.filter (fun c => s.levelNow port c == low) else l'

/-- One step of a choice: the child, whether it was a weighted pick, and the state. -/
def State.chooseStep (s : State) (port quantum l n : Nat) : Nat × Bool × State :=
  let can := (s.childrenOf n).filter (fun c => s.eligible port true l c)
  let low := (can.map (fun c => s.levelNow port c)).foldl min 3
  let cands := s.chooseAmong port l n true
  let g := cands.filter (fun c => (s.node c).keepsC && decide (0 ≤ (s.nodeNow c).ctok))
  match g with
  | [] =>
    let w := State.weightedPick n (if l = 2 then low else 0) quantum (s.chooseAmong port l n false) cands (s.pickFuel cands) s
    (w.1, true, w.2)
  | _ =>
    let c := nextAfter g (s.node n).lastG
    (c, false, s.setNode n { s.node n with lastG := some c })

theorem State.choose_succ (s : State) (port quantum l n : Nat) : s.choose port quantum (l + 1) n =
    if s.chooseAmong port l n true = [] then ([], s)
    else
      let r := s.chooseStep port quantum l n
      let d := State.choose r.2.2 port quantum l r.1
      ((r.1, r.2.1) :: d.1, d.2) := by
  rw [State.choose]
  dsimp only
  split
  · next h => exact (if_pos h).symm
  · next h =>
    have hsome : ¬s.chooseAmong port l n true = [] := h
    rw [if_neg hsome]
    rfl

section
variable (s : State) (port quantum : Nat)

theorem State.chooseAmong_sub {s : State} {port l n : Nat} {take : Bool} {c : Nat} (h : c ∈ s.chooseAmong port l n take) :
    c ∈ s.childrenOf n := by
  unfold State.chooseAmong at h
  dsimp only at h
  split at h
  · exact (List.mem_filter.1 (List.mem_filter.1 h).1).1
  · exact (List.mem_filter.1 h).1

theorem State.chooseStep_spec (l n : Nat) (h : s.chooseAmong port l n true ≠ []) : let r := s.chooseStep port quantum l n
    r.1 ∈ s.childrenOf n ∧ OnlyNodes s r.2.2 ∧ ∀ j, (r.2.2.node j).peak = (s.node j).peak := by
  unfold State.chooseStep
  dsimp only
  split
  · exact ⟨State.chooseAmong_sub (State.weightedPick_mem _ _ _ _ _ h _ s), State.weightedPick_nodes .., State.weightedPick_peak _ _ _ _ _ _ s⟩
  · next hg =>
    have hmem := nextAfter_mem hg (s.node n).lastG
    exact ⟨State.chooseAmong_sub (List.mem_filter.1 hmem).1, rfl, s.peak_setNode rfl⟩

theorem State.level_childrenOf {n c : Nat} (h : c ∈ s.childrenOf n) : nodeLevel c + 1 = nodeLevel n := by
  obtain ⟨e, he, rfl⟩ := List.mem_map.1 h
  have hchild := (List.mem_filter.1 he).2
  simp only [Bool.and_eq_true, beq_iff_eq] at hchild
  exact hchild.1.1.2

/-- A choice touches nodes alone, leaves their peak buckets, and goes down from where it begins. -/
theorem State.choose_spec (l : Nat) (s : State) (n : Nat) : let d := s.choose port quantum l n
    OnlyNodes s d.2 ∧ (∀ j, (d.2.node j).peak = (s.node j).peak) ∧ ∀ e ∈ d.1, nodeLevel e.1 < nodeLevel n := by
  induction l generalizing s n with
  | zero => exact ⟨rfl, fun _ => rfl, fun _ h => by cases h⟩
  | succ l ih =>
    rw [State.choose_succ]
    split
    · exact ⟨rfl, fun _ => rfl, fun _ h => by cases h⟩
    · next h =>
      obtain ⟨hchild, hframe, hpeak⟩ := s.chooseStep_spec port quantum l n h
      have hlevel := s.level_childrenOf hchild
      obtain ⟨hframe', hpeak', hdown⟩ := ih (s.chooseStep port quantum l n).2.2 (s.chooseStep port quantum l n).1
      refine ⟨hframe.trans hframe', fun j => (hpeak' j).trans (hpeak j), fun e he => ?_⟩
      · obtain rfl | he := List.mem_cons.1 he
        · exact Nat.lt_of_succ_le (Nat.le_of_eq hlevel)
        · exact (hdown e he).trans (Nat.lt_of_succ_le (Nat.le_of_eq hlevel))

end

/-! The packet a port serves (08 R217 to R222). -/

section
variable (s : State) (i j : Nat)

theorem State.charge_nodes (weighted : Bool) (len : Int) : OnlyNodes s (s.charge i weighted len) := rfl

theorem State.node_charge_other (weighted : Bool) (len : Int) (h : i ≠ j) : (s.charge i weighted len).node j = s.node j :=
  (State.node_setNode ..).trans (if_neg h)

theorem State.passTurn_nodes : OnlyNodes s (s.passTurn i) := by
  unfold State.passTurn
  dsimp only
  split <;> rfl

theorem State.ptok_passTurn : ((s.passTurn i).node j).ptok = (s.node j).ptok := by
  unfold State.passTurn
  dsimp only
  split
  · rfl
  · rw [State.node_setNode]
    split
    · next h => rw [← h]
    · rfl

theorem State.settle_nodes : OnlyNodes s (s.settle i) := by
  unfold State.settle
  split
  · rfl
  · exact (OnlyNodes.setNode ..).trans (State.passTurn_nodes ..)

theorem State.ptok_settle : ((s.settle i).node j).ptok = (s.node j).ptok := by
  unfold State.settle
  split
  · rfl
  · dsimp only
    rw [State.ptok_passTurn, State.node_setNode]
    split
    · next h => rw [← h]
    · rfl

end

theorem OnlyNodes.foldl {α : Type} {f : State → α → State} (l : List α) (s : State) (h : ∀ s x, OnlyNodes s (f s x)) :
    OnlyNodes s (l.foldl f s) := by
  induction l generalizing s with
  | nil => rfl
  | cons x l ih => exact (h s x).trans (ih _)

/-- The head of a leaf queue leaves it. -/
def State.unlinked (s : State) (q : Nat) : State := { s with leafQ := unitSet [] s.leafQ q ((unitGet [] s.leafQ q).drop 1) }

/-- Every node of a path is charged. -/
def State.charges (s : State) (path : List (Nat × Bool)) (len : Int) : State := path.foldl (fun s e => s.charge e.1 e.2 len) s

/-- The chosen packet is unlinked from its leaf queue and charged to every node on its path. -/
def State.charged (s : State) (port : Nat) (path : List (Nat × Bool)) (q : Nat) (p : Parcel) : State :=
  (s.unlinked q).charges (path ++ [(nodeId (port / 12) 3 (port % 12), false)]) ((s.unlinked q).chargedLen port p.pkt)

/-- Once the packet is given to its port, the path settles, turns pass, and the port is busy with it. -/
def State.served (s : State) (port : Nat) (path : List (Nat × Bool)) (p : Parcel) : State :=
  let s := path.foldl (fun s e => s.settle e.1) s
  let first := path.headD (0, false)
  let lvl := s.levelNow port first.1
  let ends := first.2 &&
    !((unitGet [] (s.node (nodeId (port / 12) 3 (port % 12))).round lvl).any (fun x => s.eligible port false 2 x)) &&
    (decide ((s.node first.1).deficit ≤ (0 : Int)) || !s.eligible port false 2 first.1)
  let s := path.foldl (fun s e => if s.eligible port false (nodeLevel e.1) e.1 then s else s.passTurn e.1) s
  let s := match s.parcel p.id with
    | some p => s.putParcel { p with roundEnd := ends }
    | none => s
  s.setPort port { s.port port with busy := some p.id }

section
variable (s : State) (port : Nat)

theorem State.portSchedule_idle (h : s.mayChoose port = false) : s.portSchedule port = s :=
  if_pos (by rw [h]; rfl)

theorem State.portSchedule_chosen {leaf : Nat × Bool} {p : Parcel} : let top := nodeId (port / 12) 3 (port % 12)
    let ch := s.choose port (s.fld F.spCtrlQuantum port) 3 top
    s.mayChoose port = true → ch.1.getLast? = some leaf → ch.2.headFor port (leafOf leaf.1) = some p →
      s.portSchedule port = ((ch.2.charged port ch.1 (leafOf leaf.1) p).servePacket port p).served port ch.1 p := by
  intro top ch hmay hleaf hhead
  have hgo : ¬(!s.mayChoose port) = true := by rw [hmay]; decide
  refine (if_neg hgo).trans ?_
  dsimp only
  rw [hleaf]
  dsimp only
  rw [hhead]
  rfl

end

theorem State.level_nodeId {h idx : Nat} (hidx : idx < 12) : nodeLevel (nodeId h 3 idx) = 3 := by
  unfold nodeLevel nodeId
  omega

/-- A node with a peak bucket that is charged pays for every byte. -/
theorem State.ptok_charge (s : State) (i : Nat) (len : Int) (h : (s.node i).keepsP = true) :
    ((s.charge i false len).node i).ptok = (s.nodeNow i).ptok - len * 1024 := by
  have hkeeps : (s.nodeNow i).keepsP = true := h
  unfold State.charge
  dsimp only
  rw [State.node_setNode, if_pos rfl]
  generalize s.nodeNow i = n at hkeeps ⊢
  have hkeeps' : (if n.keepsC then { n with ctok := n.ctok - len * 1024, spent := n.spent + len * 1024 } else n).keepsP = true := by
    split <;> exact hkeeps
  have hptok : (if n.keepsC then { n with ctok := n.ctok - len * 1024, spent := n.spent + len * 1024 } else n).ptok = n.ptok := by
    split <;> rfl
  generalize (if n.keepsC then { n with ctok := n.ctok - len * 1024, spent := n.spent + len * 1024 } else n) = m at hkeeps' hptok ⊢
  rw [if_pos hkeeps', ← hptok]
  simp only [Bool.false_eq_true, if_false]
  split <;> rfl

theorem State.charges_nodes (len : Int) (path : List (Nat × Bool)) (s : State) : OnlyNodes s (s.charges path len) :=
  OnlyNodes.foldl _ _ fun s e => s.charge_nodes e.1 e.2 len

theorem State.charges_other (len : Int) (path : List (Nat × Bool)) (s : State) (j : Nat) (h : ∀ e ∈ path, e.1 ≠ j) :
    (s.charges path len).node j = s.node j := by
  unfold State.charges
  induction path generalizing s with
  | nil => rfl
  | cons e path ih =>
    rw [List.foldl_cons, ih _ fun e' he' => h e' (List.mem_cons_of_mem _ he')]
    exact s.node_charge_other _ _ _ _ (h e List.mem_cons_self)

theorem State.charges_last (s : State) (path : List (Nat × Bool)) (i : Nat) (len : Int) :
    s.charges (path ++ [(i, false)]) len = (s.charges path len).charge i false len := by
  unfold State.charges
  rw [List.foldl_append]
  rfl

/-- What charging changes. -/
theorem State.charged_shape {s u : State} (port : Nat) (path : List (Nat × Bool)) (q : Nat) (p : Parcel) (hnodes : OnlyNodes s u) :
    ∃ nodes, u.charged port path q p = { s.unlinked q with nodes := nodes } := by
  have hcharges := (u.unlinked q).charges_nodes ((u.unlinked q).chargedLen port p.pkt)
    (path ++ [(nodeId (port / 12) 3 (port % 12), false)])
  unfold OnlyNodes at hnodes hcharges
  generalize ((u.unlinked q).charges _ _).nodes = after at hcharges
  generalize u.nodes = nodes at hnodes
  refine ⟨after, hcharges.trans ?_⟩
  rw [hnodes]
  rfl

/-- What the port's own node then has in its peak bucket. -/
theorem State.ptok_charged {s u : State} {port : Nat} {path : List (Nat × Bool)} (q : Nat) (p : Parcel) (hnodes : OnlyNodes s u)
    (hpeak : ∀ j, (u.node j).peak = (s.node j).peak) (hpath : ∀ e ∈ path, nodeLevel e.1 < 3) :
    let top := nodeId (port / 12) 3 (port % 12)
    (s.node top).keepsP = true → ((u.charged port path q p).node top).ptok = (s.nodeNow top).ptok - s.chargedLen port p.pkt * 1024 := by
  intro top hkeeps
  have htop : nodeLevel top = 3 := State.level_nodeId (Nat.mod_lt _ (by decide))
  have hsame : (u.unlinked q).chargedLen port p.pkt = s.chargedLen port p.pkt ∧ (u.unlinked q).tb = s.tb := by
    unfold OnlyNodes at hnodes
    generalize u.nodes = nodes at hnodes
    rw [hnodes]
    exact ⟨rfl, rfl⟩
  have hother : ((u.unlinked q).charges path (s.chargedLen port p.pkt)).node top = u.node top :=
    State.charges_other _ path (u.unlinked q) top fun e he heq => by
      have hdown := hpath e he
      rw [heq, htop] at hdown
      exact absurd hdown (by decide)
  have honly := (u.unlinked q).charges_nodes (s.chargedLen port p.pkt) path
  rw [State.charged, hsame.1, State.charges_last]
  generalize (u.unlinked q).charges path (s.chargedLen port p.pkt) = v at hother honly ⊢
  have hnode : (v.node top).peak = (s.node top).peak := by rw [hother, hpeak]
  have hparam : (v.node top).param = (s.node top).param := congrArg Prod.fst hnode
  have hnow : v.tb = s.tb := (congrArg State.tb honly :).trans hsame.2
  have hkeeps' : (v.node top).keepsP = true := by
    unfold SchedNode.keepsP SchedNode.reserved at *
    rw [hparam]
    exact hkeeps
  rw [State.ptok_charge v top _ hkeeps', State.nodeNow, hnow, SchedNode.ptok_refill hnode, State.nodeNow]

theorem State.parcel_putParcel_same {s : State} {p r : Parcel} (h : s.parcel p.id = some r) : (s.putParcel p).parcel p.id = some p := by
  unfold State.parcel State.putParcel at *
  dsimp only
  generalize s.parcels = l at h ⊢
  induction l with
  | nil => cases h
  | cons q l ih =>
    rw [List.map_cons, List.find?_cons]
    by_cases hq : q.id = p.id
    · rw [if_pos hq, beq_self_eq_true]
    · have hne : (q.id == p.id) = false := beq_false_of_ne hq
      rw [List.find?_cons, hne] at h
      rw [if_neg hq, hne]
      exact ih h

theorem State.parcel_id {s : State} {id : Nat} {r : Parcel} (h : s.parcel id = some r) : r.id = id :=
  beq_iff_eq.1 (List.find?_some h :)

/-- Nodes alone may differ, and none in its peak bucket. -/
def SamePeaks (s t : State) : Prop := OnlyNodes s t ∧ ∀ j, (t.node j).ptok = (s.node j).ptok

theorem SamePeaks.settles {s t : State} (h : SamePeaks s t) (path : List (Nat × Bool)) :
    SamePeaks s (path.foldl (fun s e => s.settle e.1) t) :=
  foldl_preserves _ path h fun u e hu => ⟨hu.1.trans (u.settle_nodes e.1), fun j => (u.ptok_settle e.1 j).trans (hu.2 j)⟩

theorem SamePeaks.passTurns {s t : State} (h : SamePeaks s t) (port : Nat) (path : List (Nat × Bool)) :
    SamePeaks s (path.foldl (fun s e => if s.eligible port false (nodeLevel e.1) e.1 then s else s.passTurn e.1) t) :=
  foldl_preserves _ path h fun u e hu => by
    split
    · exact hu
    · exact ⟨hu.1.trans (u.passTurn_nodes e.1), fun j => (u.ptok_passTurn e.1 j).trans (hu.2 j)⟩

/-- What a service leaves of a state: the port is busy with the packet, the other queues stay, no peak bucket changes, and of the
packet ROUND_END alone. -/
theorem State.served_spec (s : State) (port : Nat) (path : List (Nat × Bool)) (p : Parcel) :
    ((s.served port path p).port port).busy = some p.id ∧ (s.served port path p).leafQ = s.leafQ ∧
      (s.served port path p).trunks = s.trunks ∧ (∀ j, ((s.served port path p).node j).ptok = (s.node j).ptok) ∧
      ∀ r, s.parcel p.id = some r → ∃ ends, (s.served port path p).parcel p.id = some { r with roundEnd := ends } := by
  have hpeaks : SamePeaks s s := ⟨rfl, fun _ => rfl⟩
  have hpeaks' := (hpeaks.settles path).passTurns port path
  unfold State.served
  dsimp only
  generalize (_ && _ : Bool) = ends
  generalize path.foldl _ (path.foldl _ s) = v at hpeaks' ⊢
  obtain ⟨hnodes, hptok⟩ := hpeaks'
  have hframe : v.leafQ = s.leafQ ∧ v.trunks = s.trunks ∧ v.parcels = s.parcels := by
    unfold OnlyNodes at hnodes
    generalize v.nodes = nodes at hnodes
    rw [hnodes]
    exact ⟨rfl, rfl, rfl⟩
  obtain ⟨hleafQ, htrunks, hparcels⟩ := hframe
  have hparcel : v.parcel p.id = s.parcel p.id := by unfold State.parcel; rw [hparcels]
  cases hfound : v.parcel p.id with
  | none =>
    refine ⟨?_, hleafQ, htrunks, hptok, fun r hr => ?_⟩
    · rw [State.port_setPort, if_pos rfl]
    · rw [← hparcel, hfound] at hr
      cases hr
  | some r =>
    refine ⟨?_, hleafQ, htrunks, hptok, fun r' hr => ?_⟩
    · rw [State.port_setPort, if_pos rfl]
    · rw [← hparcel, hfound] at hr
      cases hr
      have hid := State.parcel_id hfound
      rw [← hid] at hfound
      have hput : (v.putParcel { r with roundEnd := ends }).parcel r.id = some { r with roundEnd := ends } := State.parcel_putParcel_same hfound
      exact ⟨ends, by rw [← hid]; exact hput⟩

/-- What taking a packet is seen by: the port is busy with it, it has left its queue, the port's own peak bucket has paid, and it is
at the service. -/
def Taken (port : Nat) (leaf : Nat × Bool) (p : Parcel) (s t : State) : Prop :=
  let top := nodeId (port / 12) 3 (port % 12)
  (t.port port).busy = some p.id ∧
    unitGet [] t.leafQ (leafOf leaf.1) = (unitGet [] s.leafQ (leafOf leaf.1)).drop 1 ∧
    ((s.node top).keepsP = true → (t.node top).ptok = (s.nodeNow top).ptok - s.chargedLen port p.pkt * 1024) ∧
    (∃ r, t.parcel p.id = some r ∧ r.spot = .serving ∧ r.pkt = p.pkt) ∧ SameDevices s t ∧ SameMemory s t

/-- Does port n take packet p at the end of its choice? -/
def State.Chosen (s : State) (port : Nat) (leaf : Nat × Bool) (p : Parcel) : Prop :=
  let ch := s.choose port (s.fld F.spCtrlQuantum port) 3 (nodeId (port / 12) 3 (port % 12))
  s.mayChoose port = true ∧ ch.1.getLast? = some leaf ∧ ch.2.headFor port (leafOf leaf.1) = some p

/-- The state in which the chosen packet is given to its port. -/
def State.charging (s : State) (port : Nat) (leaf : Nat × Bool) (p : Parcel) : State :=
  let ch := s.choose port (s.fld F.spCtrlQuantum port) 3 (nodeId (port / 12) 3 (port % 12))
  ch.2.charged port ch.1 (leafOf leaf.1) p

section
variable {s : State} {port : Nat} {leaf : Nat × Bool} {p : Parcel}

theorem State.charging_shape (s : State) (port : Nat) (leaf : Nat × Bool) (p : Parcel) :
    ∃ nodes, s.charging port leaf p = { s.unlinked (leafOf leaf.1) with nodes := nodes } :=
  State.charged_shape port _ _ p (State.choose_spec port _ 3 s _).1

theorem State.ptok_charging (s : State) (port : Nat) (leaf : Nat × Bool) (p : Parcel) :
    let top := nodeId (port / 12) 3 (port % 12)
    (s.node top).keepsP = true → ((s.charging port leaf p).node top).ptok = (s.nodeNow top).ptok - s.chargedLen port p.pkt * 1024 := by
  intro top
  obtain ⟨honly, hpeak, hdown⟩ := State.choose_spec port (s.fld F.spCtrlQuantum port) 3 s top
  have hlevel : nodeLevel top = 3 := State.level_nodeId (Nat.mod_lt _ (by decide))
  exact State.ptok_charged (leafOf leaf.1) p honly hpeak fun e he => hlevel ▸ hdown e he

/-- A service that leaves queues and nodes, and after which the packet is being served, completes the taking. -/
theorem State.taken_of_served (h : s.Chosen port leaf p) (hleafQ : ((s.charging port leaf p).servePacket port p).leafQ =
      (s.charging port leaf p).leafQ) (hnodes : ((s.charging port leaf p).servePacket port p).nodes = (s.charging port leaf p).nodes)
    (hparcel : ∃ r, ((s.charging port leaf p).servePacket port p).parcel p.id = some r ∧ r.spot = .serving ∧ r.pkt = p.pkt) :
    Taken port leaf p s (s.portSchedule port) ∧
      (s.portSchedule port).trunks = ((s.charging port leaf p).servePacket port p).trunks := by
  obtain ⟨hmay, hleaf, hhead⟩ := h
  obtain ⟨nodes, hshape⟩ := s.charging_shape port leaf p
  have hsteady := s.portSchedule_steady port
  have hptok := s.ptok_charging port leaf p
  have hqueue : unitGet [] (s.charging port leaf p).leafQ (leafOf leaf.1) = (unitGet [] s.leafQ (leafOf leaf.1)).drop 1 := by
    rw [hshape]
    exact unitGet_set_same ..
  have hresult := s.portSchedule_chosen port hmay hleaf hhead
  change s.portSchedule port = ((s.charging port leaf p).servePacket port p).served port _ p at hresult
  generalize (s.charging port leaf p).servePacket port p = u at hleafQ hnodes hparcel hresult ⊢
  generalize s.charging port leaf p = c at hleafQ hnodes hptok hqueue
  generalize (s.choose port (s.fld F.spCtrlQuantum port) 3 (nodeId (port / 12) 3 (port % 12))).1 = path at hresult
  obtain ⟨hbusy, hleafQ', htrunks, hptok', hparcel'⟩ := u.served_spec port path p
  obtain ⟨r, hr, hspot, hpkt⟩ := hparcel
  obtain ⟨ends, hends⟩ := hparcel' r hr
  have hnode : u.node (nodeId (port / 12) 3 (port % 12)) = c.node (nodeId (port / 12) 3 (port % 12)) := by
    rw [State.node, hnodes]
    rfl
  rw [← hresult] at hbusy hleafQ' htrunks hptok' hends
  refine ⟨⟨hbusy, ?_, fun hkeeps => ?_, ⟨_, hends, hspot, hpkt⟩, State.sameDevices_of_steady hsteady, State.sameMemory_of_steady hsteady⟩, htrunks⟩
  · rw [hleafQ', hleafQ, hqueue]
  · rw [hptok', hnode, hptok hkeeps]

theorem State.parcel_served {u : State} {q : Parcel} (hid : q.id = p.id) (hspot : q.spot = .serving) (hpkt : q.pkt = p.pkt)
    (h : u.parcel p.id = some p) : ∃ r, (u.putParcel q).parcel p.id = some r ∧ r.spot = .serving ∧ r.pkt = p.pkt :=
  ⟨q, by rw [← hid] at h ⊢; exact State.parcel_putParcel_same h, hspot, hpkt⟩

theorem State.parcel_charging (h : s.parcel p.id = some p) : (s.charging port leaf p).parcel p.id = some p := by
  obtain ⟨nodes, hshape⟩ := s.charging_shape port leaf p
  rw [hshape]
  exact h

theorem State.servePacket_local (u : State) (p : Parcel) (h : 6 ≤ port % 12) :
    u.servePacket port p = u.putParcel { p with spot := .serving } := by
  have hnone : portTrunk port = none := if_neg (Nat.not_lt.2 h)
  rw [State.servePacket, hnone]

theorem does_portSchedule_local (port : Fin 48) (h : s.Chosen port leaf p) (hlocal : 6 ≤ port.val % 12)
    (hp : s.parcel p.id = some p) : Does (.portSchedule port) s (Taken port leaf p s) := by
  have hserve := (s.charging port leaf p).servePacket_local p hlocal
  refine ⟨_, rfl, (State.taken_of_served h ?_ ?_ ?_).1⟩
  · rw [hserve]
    rfl
  · rw [hserve]
    rfl
  · rw [hserve]
    exact State.parcel_served rfl rfl rfl (State.parcel_charging hp)

/-- A packet that joins the end of a VC's queue at a trunk. -/
theorem State.enqueue_spec (u : State) (m v : Nat) (x : TxPacket) : ∃ regs trunks,
    u.enqueue m v [x] (fun new old => old ++ new) = { u with regs := regs, trunks := trunks } ∧
      (unitGet {} trunks m).q (u.foldVc m v) = (u.trk m).q (u.foldVc m v) ++ [{ x with vc := u.foldVc m v }] := by
  unfold State.enqueue
  dsimp only
  split
  · exact ⟨_, _, rfl, by rw [unitGet_set_same]; exact unitGet_set_same ..⟩
  · exact ⟨_, _, rfl, by rw [unitGet_set_same]; exact unitGet_set_same ..⟩

theorem State.servePacket_trunk (u : State) (p : Parcel) {m : Nat} (h : portTrunk port = some m) (htunnel : p.pkt.tunnelId < 0xFFE)
    (htd : u.tdOn m = false) (hmate : u.mateOf m = none) : u.servePacket port p =
      (u.enqueue m p.pkt.vc [{ bytes := ({ p.pkt with psn := 0 } : Packet).toBytes, id := p.id, ctx := none }]
        (fun new old => old ++ new)).putParcel { p with spot := .serving, wholly := true } := by
  have hlink : ¬((p.pkt.tunnelId = 0xFFF ∨ p.pkt.tunnelId = 0xFFE) ∧ p.pkt.type = 0) := by omega
  rw [State.servePacket, h]
  dsimp only
  rw [if_neg hlink, if_neg (by rw [htd]; decide), State.carrier, hmate]

theorem does_portSchedule_trunk (port : Fin 48) {m : Nat} (h : s.Chosen port leaf p) (htrunk : portTrunk port = some m)
    (htunnel : p.pkt.tunnelId < 0xFFE) (htd : s.tdOn m = false) (hmate : s.mateOf m = none) (hp : s.parcel p.id = some p) :
    Does (.portSchedule port) s fun t => Taken port leaf p s t ∧
      (t.trk m).q (s.foldVc m p.pkt.vc) = (s.trk m).q (s.foldVc m p.pkt.vc) ++
        [{ bytes := ({ p.pkt with psn := 0 } : Packet).toBytes, id := p.id, vc := s.foldVc m p.pkt.vc }] := by
  obtain ⟨nodes, hshape⟩ := s.charging_shape port leaf p
  obtain ⟨regs, trunks, henqueue, hq⟩ := (s.charging port leaf p).enqueue_spec m p.pkt.vc
    { bytes := ({ p.pkt with psn := 0 } : Packet).toBytes, id := p.id, ctx := none }
  have hserve := (s.charging port leaf p).servePacket_trunk p htrunk htunnel (by rw [hshape]; exact htd) (by rw [hshape]; exact hmate)
  rw [henqueue] at hserve
  have hfold : (s.charging port leaf p).foldVc m p.pkt.vc = s.foldVc m p.pkt.vc := by rw [hshape]; rfl
  have htrk : (s.charging port leaf p).trk m = s.trk m := by rw [hshape]; rfl
  rw [hfold, htrk] at hq
  have htaken := State.taken_of_served h (by rw [hserve]; rfl) (by rw [hserve]; rfl)
    (by rw [hserve]; exact State.parcel_served rfl rfl rfl (State.parcel_charging hp))
  refine ⟨_, rfl, htaken.1, ?_⟩
  rw [State.trk, htaken.2, hserve]
  exact hq

end

end Sys2Proof.Machine
end

section
/-! PROOFS. O40, commits, choices and reservations. -/

namespace Sys2Proof.Machine

/-- Settles O40. The instructions are `does_schedWr_…`, `does_schedRd` and `does_schedCommit`; a commit, a failover set and instances
end or start by what `applyBlock` leaves of the nodes; and a port that chooses goes down from its own node, which alone pays from its
own peak bucket (`State.choose_spec`, `State.ptok_charging`). -/
theorem schedulingCommitsAndReservations : Obligations.SchedulingCommitsAndReservations := by
  intro x ra rb tag port trk hall sub p s c a v turned ready did idle d b ok its staged n sp due top ch chosen taken h k fp fo id r
  refine ⟨fun hready => ⟨fun hbad => ?_, fun hok hfo hlive => does_schedWr_staged hready hok hfo hlive,
    fun hok hfo hroom => does_schedWr_failover hready hok hfo hroom, fun hok hfo hfull => ?_⟩,
    fun hready => ⟨does_schedRd hready, does_schedRd_refused hready⟩,
    fun hready => ⟨does_schedCommit hready, does_schedCommit_refused hready⟩,
    fun hdue => does_schedCommitApply port x tag s hdue.1 hdue.2,
    fun hearly => congrArg Host.Outcome.next (s.commitApply_early n hearly),
    fun hmay => congrArg Host.Outcome.next (s.portSchedule_idle n hmay),
    fun leaf hchosen hlocal hp => does_portSchedule_local port hchosen hlocal hp,
    fun leaf m hchosen htrunk htunnel htd hmate hp => does_portSchedule_trunk port hchosen htrunk htunnel htd hmate hp,
    fun hnone => congrArg Host.Outcome.next (if_pos hnone),
    does_lockstepSwitch_enter hall s, does_lockstepSwitch_leave hall s,
    fun y => does_failoverCommitApply trk y s, exec_failoverCommitApply_idle trk s,
    does_isoInstanceStart hall sub s, fun hearly => congrArg Host.Outcome.next (s.isoStart_early id hearly),
    does_schedFoClear port s⟩
  · have hwr := (s.stepped x).schedWr_refused v d (by rw [State.blockOk_stepped]; exact hbad)
    exact does_schedWr_idle hready hwr
  · have hwr := (s.stepped x).schedWr_full v d (by rw [State.blockOk_stepped]; exact hok) hfo
      (by rw [State.blockPort_stepped, State.port_stepped]; exact hfull)
    exact does_schedWr_idle hready hwr

end Sys2Proof.Machine
end
